-- ==== Sys2Proof/Word.lean ====
section
/-!
DEFINITION. Word.lean: the word types and the table type of the model.

Bit vectors stand for what the manual treats as bits (fields of a structure on a wire, keys, registers that
software reads whole).  Counts, indices and addresses while they key a table are natural numbers.
-/

namespace Sys2Proof

/-- One byte. -/
abbrev Byte := BitVec 8

/-- A byte string, byte 0 first. -/
abbrev Bytes := List Byte

/-- A 128-bit cipher block; byte 0 of the block is bits 7:0. -/
abbrev Block := BitVec 128

/-- A 256-bit key or digest; byte 0 is bits 7:0. -/
abbrev Key := BitVec 256

/-- A sparse table: key and value pairs, keys strictly rising (the canonical form of the log entry 9). -/
abbrev Table (α : Type) := List (Nat × α)

end Sys2Proof
end

