-- ==== Sys2Proof/Syntax.lean ====
section
/-!
DEFINITION. Syntax.lean: the commands of the block, one constructor of `Instr` per row of the opcode table, and the
structures that a command carries, as the manual lays them out.
-/

namespace Sys2Proof

/-- How a Sniby packet reached the block: through a host link, or in a management message at a port from a node (R63). -/
inductive Via where
  | host (link : Nat)
  | fabric (port node : Nat)
deriving DecidableEq, Repr

/-- A Sniby command packet (R39), less its opcode, which the constructor (or its operand) gives. -/
structure Packet where
  letterbox  : BitVec 8
  flags      : BitVec 8
  sequence   : BitVec 32
  bodyLength : BitVec 16
  status     : BitVec 16
  retryAfter : BitVec 32
  nextSeq    : BitVec 32
  detail     : BitVec 16
  revision   : BitVec 8
  reserved   : BitVec 8
  cookie     : BitVec 64
  inline     : BitVec 128
  check      : BitVec 128
  body       : Bytes
deriving DecidableEq, Repr

/-- The head of a tile request (R487). -/
structure TileHead where
  op        : BitVec 8
  tc        : BitVec 8
  ctx       : BitVec 16
  keyIndex  : BitVec 32
  address   : BitVec 64
  length    : BitVec 16
  tag       : BitVec 16
  atomicOp  : BitVec 8
  reserved  : BitVec 24
  operand   : BitVec 64
  compare   : BitVec 64
deriving DecidableEq, Repr

/-- A sealed message packet (R243). -/
structure MsgPacket where
  kind       : BitVec 8
  revision   : BitVec 8
  flags      : BitVec 8
  reserved1  : BitVec 8
  src        : BitVec 16
  dst        : BitVec 16
  job        : BitVec 32
  bodyLength : BitVec 16
  reserved2  : BitVec 16
  sequence   : BitVec 48
  reserved3  : BitVec 16
  body       : Bytes
  tag        : BitVec 128
deriving DecidableEq, Repr

/-- An envelope descriptor (R275). -/
structure EnvDesc where
  op           : BitVec 8
  revision     : BitVec 8
  reserved1    : BitVec 16
  job          : BitVec 32
  descSeq      : BitVec 64
  hostAddress  : BitVec 64
  deviceOffset : BitVec 64
  keyIndex     : BitVec 32
  length       : BitVec 16
  context      : BitVec 16
  reserved2    : BitVec 64
  tag          : BitVec 128
deriving DecidableEq, Repr

/-- A firmware image as fetched into staging (R112). -/
structure FwImage where
  magic           : BitVec 64
  revision        : BitVec 8
  signing         : BitVec 8
  keyId           : BitVec 8
  reserved1       : BitVec 8
  version         : BitVec 32
  bodyLength      : BitVec 32
  signatureLength : BitVec 32
  reserved2       : BitVec 320
  body            : Bytes
  signature       : Bytes
deriving DecidableEq, Repr

/-- A masked-reduction packet: the routing fields that pass with it (R491), three tag words and 65 lanes (R344, R345). -/
structure RedPacket where
  src   : BitVec 16
  dst   : BitVec 16
  tc    : BitVec 8
  tag0  : BitVec 64
  tag1  : BitVec 64
  tag2  : BitVec 64
  lanes : List (BitVec 64)
deriving DecidableEq, Repr

/-- A drain marker to a tray, or the tray's answer (R292): a management message, with its subtype (R491). -/
structure TrayMarker where
  subtype    : BitVec 8
  kind       : BitVec 8
  revision   : BitVec 8
  routeEpoch : BitVec 8
  reserved1  : BitVec 8
  src        : BitVec 16
  dst        : BitVec 16
  markerId   : BitVec 32
  reserved2  : BitVec 32
deriving DecidableEq, Repr

/-- A postcard's acknowledgement (R430): a management message, with its subtype (R491). -/
structure PostcardAck where
  subtype   : BitVec 8
  kind      : BitVec 8
  revision  : BitVec 8
  node      : BitVec 16
  seq       : BitVec 32
  postmark  : BitVec 64
  health    : BitVec 16
  blockSt   : BitVec 8
  flags     : BitVec 8
  verdict   : BitVec 8
  reserved  : BitVec 216
  check     : BitVec 128
deriving DecidableEq, Repr

/-- A sector as memory or a tray returned it: ciphertext, frank, and one uncorrectable-error flag for each 64 B (R490). -/
structure SectorData where
  bytes : Bytes
  frank : BitVec 64
  flags : List Bool
deriving DecidableEq, Repr

/-- The sector, or its frank, has an uncorrectable error: one of its blocks returned its flag set (R187). -/
def SectorData.ue (d : SectorData) : Bool := d.flags.any id

/-- What a start finds at its pins, cores and fuses (R503, R109, R81, R80). -/
structure StartInput where
  /-- TAMPER_N read as asserted when LC samples it (R506 step 2). -/
  tamper      : Bool
  /-- For each Keccak core, that it passes the known-answer test (R109). -/
  kat         : List Bool
  /-- For each root, TEST, PROD and EOL, the failed entropy health tests before one passes at its generation (R81). -/
  entropyFail : List Nat
  /-- For each root slot, that its programming or read-back fails (R80, R81). -/
  slotFail    : List Bool
  /-- Bits of the progress word that cannot be blown (R80). -/
  markFail    : BitVec 64
  /-- Bits of the lifecycle word that cannot be blown (R80). -/
  groupFail   : BitVec 64
  /-- Bits of the plain policy word and of the disable word that cannot be blown in a resumed step (R80). -/
  plainFail   : BitVec 64
  /-- The root slot during whose programming RST_N is asserted or power fails, if one is (R80). -/
  cut         : Option Nat
  /-- VDD_AUX lies from 1.71 V to 1.89 V (R502). -/
  auxInRange  : Bool
deriving DecidableEq, Repr

/-- What RS's wait of a partition reset reports (R440, R441, R448). -/
inductive ResetEvent where
  /-- The wait in progress has ended (a drain, a fence, a write-back, a channel reset, a DMA write). -/
  | done
  /-- A 256 B read of the unit in turn came back. -/
  | unitRead (bytes : Bytes)
  /-- The status words of the unit in turn came back. -/
  | unitState (bytes : Bytes)
  /-- The probe in flight completed, after so many units of 10 ns, with or without an error response. -/
  | probe (time : Nat) (error : Bool)
deriving DecidableEq, Repr

/-- The answer of a regulator to TELEMETRY_READ: the words READ_VOUT, READ_IOUT and STATUS_WORD in their PMBus formats (R498). -/
structure Telemetry where
  vout   : BitVec 16
  iout   : BitVec 16
  status : BitVec 16
deriving DecidableEq, Repr

/-- The factory calibration field (R391), as lists whose missing entries read zero. -/
structure Calibration where
  weights     : List Nat := []
  leakage     : List (Nat × Nat × Nat) := []
  thermal     : List Int := []
  droop       : List Nat := []
  vf          : List Nat := []
  tileMargins : List Nat := []
  headrooms   : List Nat := []
  check       : BitVec 256 := 0
deriving DecidableEq, Repr

/-- The factory rows of the fuse array (R76): device_serial, factory_calibration and row_repair. -/
structure FactoryRows where
  serial      : BitVec 128
  calibration : Calibration
  rowRepair   : BitVec 8192
deriving DecidableEq, Repr

/-- The instructions of the test port that R501 tells apart; `program` programs the factory rows. -/
inductive TapInstr where
  | bypass
  | scan
  | cpDebug
  | other
  | program (rows : FactoryRows)
deriving DecidableEq, Repr

/-- The commands of the block: one constructor per row of the opcode table, in the table's order. -/
inductive Instr where
  /-- NOP (R66) -/
  | nop (lb : Nat) (via : Via) (p : Packet)
  /-- IDENTIFY (R67) -/
  | identify (lb : Nat) (via : Via) (p : Packet)
  /-- RENEW_SESSION (R45) -/
  | renewSession (lb : Nat) (via : Via) (p : Packet)
  /-- SUBSCRIBE (R68) -/
  | subscribe (lb : Nat) (via : Via) (p : Packet)
  /-- READ_DROP_COUNTS (R69) -/
  | readDropCounts (lb : Nat) (via : Via) (p : Packet)
  /-- CANCEL_QUEUED (R70) -/
  | cancelQueued (lb : Nat) (via : Via) (p : Packet)
  /-- SET_ROOT_LINK (R71) -/
  | setRootLink (lb : Nat) (via : Via) (p : Packet)
  /-- LIFECYCLE_STATUS (R93) -/
  | lifecycleStatus (lb : Nat) (via : Via) (p : Packet)
  /-- ENTER_TEST (R88) -/
  | enterTest (lb : Nat) (via : Via) (p : Packet)
  /-- ENROL_PRODUCTION (R92) -/
  | enrolProduction (lb : Nat) (via : Via) (p : Packet)
  /-- ENTER_END_OF_LIFE (R88) -/
  | enterEndOfLife (lb : Nat) (via : Via) (p : Packet)
  /-- KEY_VAULT_STATUS (R94) -/
  | keyVaultStatus (lb : Nat) (via : Via) (p : Packet)
  /-- LIFECYCLE_TRANSITION_PROGRESS (R88) -/
  | lifecycleTransitionProgress (fails : BitVec 64) (slotOk : Bool)
  /-- DIGEST_STATUS (R132) -/
  | digestStatus (lb : Nat) (via : Via) (p : Packet)
  /-- ATTEST (R124) -/
  | attest (lb : Nat) (via : Via) (p : Packet)
  /-- READ_MEASUREMENTS (R133) -/
  | readMeasurements (lb : Nat) (via : Via) (p : Packet)
  /-- NONCE (R119) -/
  | nonce (lb : Nat) (via : Via) (p : Packet)
  /-- PRESENT_PERMIT (R129) -/
  | presentPermit (lb : Nat) (via : Via) (p : Packet)
  /-- CLOSE_PERMIT (R130) -/
  | closePermit (lb : Nat) (via : Via) (p : Packet)
  /-- PERMIT_STATUS (R131) -/
  | permitStatus (lb : Nat) (via : Via) (p : Packet)
  /-- PERMIT_EXPIRED (R130) -/
  | permitExpired
  /-- ADMIT_JOB (R143) -/
  | admitJob (lb : Nat) (via : Via) (p : Packet)
  /-- ADMISSION_PROGRESS (R144) -/
  | admissionProgress (handle : Nat) (ok : Bool)
  /-- TEARDOWN_JOB (R153) -/
  | teardownJob (lb : Nat) (via : Via) (p : Packet)
  /-- JOB_TEARDOWN_PROGRESS (R153) -/
  | jobTeardownProgress (handle : Nat)
  /-- RESIZE_JOB (R155) -/
  | resizeJob (lb : Nat) (via : Via) (p : Packet)
  /-- JOB_STATUS (R157) -/
  | jobStatus (lb : Nat) (via : Via) (p : Packet)
  /-- CREATE_PARTITION (R136) -/
  | createPartition (lb : Nat) (via : Via) (p : Packet)
  /-- RESIZE_PARTITION (R137) -/
  | resizePartition (lb : Nat) (via : Via) (p : Packet)
  /-- PARTITION_RESIZE_PROGRESS (R137) -/
  | partitionResizeProgress (part : Nat)
  /-- DESTROY_PARTITION (R136) -/
  | destroyPartition (lb : Nat) (via : Via) (p : Packet)
  /-- PARTITION_STATUS (R156) -/
  | partitionStatus (lb : Nat) (via : Via) (p : Packet)
  /-- OPEN_CONTEXT (R148) -/
  | openContext (lb : Nat) (via : Via) (p : Packet)
  /-- CLOSE_CONTEXT (R151) -/
  | closeContext (lb : Nat) (via : Via) (p : Packet)
  /-- CONTEXT_CLOSE_PROGRESS (R151) -/
  | contextCloseProgress (ctx : Nat)
  /-- CONTEXT_STATUS (R156) -/
  | contextStatus (lb : Nat) (via : Via) (p : Packet)
  /-- REGION_STATUS (R195) -/
  | regionStatus (lb : Nat) (via : Via) (p : Packet)
  /-- SEAL_REGION (R196) -/
  | sealRegion (lb : Nat) (via : Via) (p : Packet)
  /-- SET_WC_WINDOW (R194) -/
  | setWcWindow (lb : Nat) (via : Via) (p : Packet)
  /-- ZERO_SECTORS (R197) -/
  | zeroSectors (lb : Nat) (via : Via) (p : Packet)
  /-- RETIRE_KEY_INDEX (R174) -/
  | retireKeyIndex (lb : Nat) (via : Via) (p : Packet)
  /-- RETIREMENT_PROGRESS (R174) -/
  | retirementProgress (handle index : Nat)
  /-- KEY_INDEX_STATUS (R198) -/
  | keyIndexStatus (lb : Nat) (via : Via) (p : Packet)
  /-- SECTOR_COUNTS (R199) -/
  | sectorCounts (lb : Nat) (via : Via) (p : Packet)
  /-- TREE_STATUS (R236) -/
  | treeStatus (lb : Nat) (via : Via) (p : Packet)
  /-- RESET_SUBTREE (R224) -/
  | resetSubtree (lb : Nat) (via : Via) (p : Packet)
  /-- START_COURIER (R225) -/
  | startCourier (lb : Nat) (via : Via) (p : Packet)
  /-- COURIER_STATUS (R237) -/
  | courierStatus (lb : Nat) (via : Via) (p : Packet)
  /-- RESUME_REGION (R233) -/
  | resumeRegion (lb : Nat) (via : Via) (p : Packet)
  /-- TREE_COUNTS (R238) -/
  | treeCounts (lb : Nat) (via : Via) (p : Packet)
  /-- ASSOC_STATUS (R283) -/
  | assocStatus (lb : Nat) (via : Via) (p : Packet)
  /-- EVICT_ASSOC (R267) -/
  | evictAssoc (lb : Nat) (via : Via) (p : Packet)
  /-- RATCHET_NOW (R259) -/
  | ratchetNow (lb : Nat) (via : Via) (p : Packet)
  /-- REVOKE_PEER (R271) -/
  | revokePeer (lb : Nat) (via : Via) (p : Packet)
  /-- RESTORE_PEER (R271) -/
  | restorePeer (lb : Nat) (via : Via) (p : Packet)
  /-- ASSOC_COUNTS (R284) -/
  | assocCounts (lb : Nat) (via : Via) (p : Packet)
  /-- ENVELOPE_STATUS (R285) -/
  | envelopeStatus (lb : Nat) (via : Via) (p : Packet)
  /-- SET_NODE_NUMBER (R288) -/
  | setNodeNumber (lb : Nat) (via : Via) (p : Packet)
  /-- SET_ROUTE (R290) -/
  | setRoute (lb : Nat) (via : Via) (p : Packet)
  /-- ROUTE_STATUS (R325) -/
  | routeStatus (lb : Nat) (via : Via) (p : Packet)
  /-- OPEN_WINDOW (R308) -/
  | openWindow (lb : Nat) (via : Via) (p : Packet)
  /-- CLOSE_WINDOW (R320) -/
  | closeWindow (lb : Nat) (via : Via) (p : Packet)
  /-- WINDOW_STATUS (R325) -/
  | windowStatus (lb : Nat) (via : Via) (p : Packet)
  /-- SET_WINDOW_OWNER (R310) -/
  | setWindowOwner (lb : Nat) (via : Via) (p : Packet)
  /-- REDIRECT (R319) -/
  | redirect (lb : Nat) (via : Via) (p : Packet)
  /-- REDIRECT_WAIT_TIMEOUT (R319) -/
  | redirectWaitTimeout (handle peer : Nat)
  /-- MAP_STATUS (R327) -/
  | mapStatus (lb : Nat) (via : Via) (p : Packet)
  /-- SET_DEAD_TARGET_TIMEOUT (R306) -/
  | setDeadTargetTimeout (lb : Nat) (via : Via) (p : Packet)
  /-- OPEN_FENCE (R321) -/
  | openFence (lb : Nat) (via : Via) (p : Packet)
  /-- CLOSE_FENCE (R321) -/
  | closeFence (lb : Nat) (via : Via) (p : Packet)
  /-- ARM_FENCE (R322) -/
  | armFence (lb : Nat) (via : Via) (p : Packet)
  /-- FENCE_STATUS (R328) -/
  | fenceStatus (lb : Nat) (via : Via) (p : Packet)
  /-- REMOTE_COUNTS (R329) -/
  | remoteCounts (lb : Nat) (via : Via) (p : Packet)
  /-- ACTIVATE_REDUCTION (R350) -/
  | activateReduction (lb : Nat) (via : Via) (p : Packet)
  /-- CANCEL_REDUCTION (R358) -/
  | cancelReduction (lb : Nat) (via : Via) (p : Packet)
  /-- REDUCTION_STATUS (R363) -/
  | reductionStatus (lb : Nat) (via : Via) (p : Packet)
  /-- GROUP_STATUS (R364) -/
  | groupStatus (lb : Nat) (via : Via) (p : Packet)
  /-- REDUCTION_COUNTS (R365) -/
  | reductionCounts (lb : Nat) (via : Via) (p : Packet)
  /-- MASTER_STATUS (R382) -/
  | masterStatus (lb : Nat) (via : Via) (p : Packet)
  /-- INTERNAL_STATUS (R381) -/
  | internalStatus (lb : Nat) (via : Via) (p : Packet)
  /-- REGULATION_COUNTS (R383) -/
  | regulationCounts (lb : Nat) (via : Via) (p : Packet)
  /-- POWER_STATUS (R413) -/
  | powerStatus (lb : Nat) (via : Via) (p : Packet)
  /-- SET_POWER_LIMITS (R398) -/
  | setPowerLimits (lb : Nat) (via : Via) (p : Packet)
  /-- SET_RAIL_LIMITS (R412) -/
  | setRailLimits (lb : Nat) (via : Via) (p : Packet)
  /-- GRANT_LEASE (R399) -/
  | grantLease (lb : Nat) (via : Via) (p : Packet)
  /-- RELEASE_LEASE (R400) -/
  | releaseLease (lb : Nat) (via : Via) (p : Packet)
  /-- LOAD_USER_CALIBRATION (R393) -/
  | loadUserCalibration (lb : Nat) (via : Via) (p : Packet)
  /-- CALIBRATION_STATUS (R412) -/
  | calibrationStatus (lb : Nat) (via : Via) (p : Packet)
  /-- SET_FREQUENCY_MODE (R408) -/
  | setFrequencyMode (lb : Nat) (via : Via) (p : Packet)
  /-- SET_THERMAL_LIMIT (R405) -/
  | setThermalLimit (lb : Nat) (via : Via) (p : Packet)
  /-- THROTTLE_STATUS (R415) -/
  | throttleStatus (lb : Nat) (via : Via) (p : Packet)
  /-- POWER_SAMPLE (R414) -/
  | powerSample (lb : Nat) (via : Via) (p : Packet)
  /-- MARGIN_SWEEP (R411) -/
  | marginSweep (lb : Nat) (via : Via) (p : Packet)
  /-- MARGIN_SWEEP_STEP (R411) -/
  | marginSweepStep (tile : Nat) (alarm : Bool)
  /-- MARGIN_STATUS (R412) -/
  | marginStatus (lb : Nat) (via : Via) (p : Packet)
  /-- FAULT_STATUS (R450) -/
  | faultStatus (lb : Nat) (via : Via) (p : Packet)
  /-- HEALTH_STATUS (R451) -/
  | healthStatus (lb : Nat) (via : Via) (p : Packet)
  /-- SET_POSTCARDS (R431) -/
  | setPostcards (lb : Nat) (via : Via) (p : Packet)
  /-- SUSPECT_LIST (R449) -/
  | suspectList (lb : Nat) (via : Via) (p : Packet)
  /-- WAIT_FOR_GRAPH_SNAPSHOT (R436) -/
  | waitForGraphSnapshot (lb : Nat) (via : Via) (p : Packet)
  /-- WAIT_FOR_GRAPH_READ (R436) -/
  | waitForGraphRead (lb : Nat) (via : Via) (p : Packet)
  /-- SET_MAILBAG_BUFFER (R443) -/
  | setMailbagBuffer (lb : Nat) (via : Via) (p : Packet)
  /-- RESET_PARTITION (R440) -/
  | resetPartition (lb : Nat) (via : Via) (p : Packet)
  /-- PARTITION_RESET_PROGRESS (R440) -/
  | partitionResetProgress (part : Nat) (ev : ResetEvent)
  /-- SUSPECT_PROBE_TIMEOUT (R441) -/
  | suspectProbeTimeout (part : Nat)
  /-- UNIT_READ_TIMEOUT (R448) -/
  | unitReadTimeout (part : Nat)
  /-- MAILBAG_DEADLINE (R448) -/
  | mailbagDeadline (part : Nat)
  /-- REPLAY_SUSPECTS (R442) -/
  | replaySuspects (lb : Nat) (via : Via) (p : Packet)
  /-- CONTEXT_FAULTS (R449) -/
  | contextFaults (lb : Nat) (via : Via) (p : Packet)
  /-- TIMEBASE_STATUS (R479) -/
  | timebaseStatus (lb : Nat) (via : Via) (p : Packet)
  /-- TRACE_START (R465) -/
  | traceStart (lb : Nat) (via : Via) (p : Packet)
  /-- TRACE_STOP (R464) -/
  | traceStop (lb : Nat) (via : Via) (p : Packet)
  /-- TRACE_TRIGGER (R470) -/
  | traceTrigger (lb : Nat) (via : Via) (p : Packet)
  /-- TRACE_STATUS (R480) -/
  | traceStatus (lb : Nat) (via : Via) (p : Packet)
  /-- TRACE_MARK (R478) -/
  | traceMark (lb : Nat) (via : Via) (p : Packet)
  /-- COUNTER_SELECT (R472) -/
  | counterSelect (lb : Nat) (via : Via) (p : Packet)
  /-- COUNTER_SNAPSHOT (R474) -/
  | counterSnapshot (lb : Nat) (via : Via) (p : Packet)
  /-- COUNTER_READ (R481) -/
  | counterRead (lb : Nat) (via : Via) (p : Packet)
  /-- JOB_COUNTERS (R476) -/
  | jobCounters (lb : Nat) (via : Via) (p : Packet)
  /-- DEAD_LETTER_COUNTS (R483) -/
  | deadLetterCounts (lb : Nat) (via : Via) (p : Packet)
  /-- THROTTLE_END (R38) -/
  | throttleEnd (lb : Nat)
  /-- FABRIC_PACKET_GAP_TIMEOUT (R63) -/
  | fabricPacketGapTimeout (lb : Nat) (sequence : BitVec 32)
  /-- MANAGEMENT_LINK_ACK (R63) -/
  | managementLinkAck (lb noticeSeq : Nat)
  /-- POSTE_RESTANTE_PLACE_DUE (R508) -/
  | posteRestantePlaceDue
  /-- MSIX_QUIET_END (R64) -/
  | msixQuietEnd (link vector : Nat)
  /-- LBX_CONTROL_WRITE (R35) -/
  | lbxControlWrite (link lb : Nat) (value : BitVec 64)
  /-- ENV_CONTROL_WRITE (R274) -/
  | envControlWrite (link handle : Nat) (value : BitVec 64)
  /-- REGISTER_WRITE (R34) -/
  | registerWrite (link offset : Nat) (value : BitVec 64)
  /-- ENVELOPE_TO_DEVICE (R277) -/
  | envelopeToDevice (link handle : Nat) (d : EnvDesc) (page : Bytes)
  /-- ENVELOPE_TO_HOST (R277) -/
  | envelopeToHost (link handle : Nat) (d : EnvDesc)
  /-- FW_LOAD_GO (R495) -/
  | fwLoadGo (link : Nat) (value : BitVec 64)
  /-- FIRMWARE_IMAGE_FETCHED (R113) -/
  | firmwareImageFetched (image : FwImage)
  /-- BAR2_READ (R493) -/
  | bar2Read (link : Nat) (offset : BitVec 64) (length tag : Nat)
  /-- BAR2_WRITE (R493) -/
  | bar2Write (link : Nat) (offset : BitVec 64) (data : Bytes)
  /-- TILE_READ (R163) -/
  | tileRead (tile : Nat) (h : TileHead)
  /-- TILE_WRITE (R177) -/
  | tileWrite (tile : Nat) (h : TileHead) (data : Bytes) (mask : List Bool) (laneFault : Bool)
  /-- TILE_ATOMIC (R311) -/
  | tileAtomic (tile : Nat) (h : TileHead)
  /-- TILE_FENCE (R322) -/
  | tileFence (tile : Nat) (h : TileHead)
  /-- REDUCE_CONTRIBUTE (R351) -/
  | reduceContribute (tile : Nat) (h : TileHead) (image : Bytes)
  /-- KEY_DELIVERED (R99) -/
  | keyDelivered (request : Nat) (laneFault : Bool)
  /-- MEMORY_READ_DATA (R164) -/
  | memoryReadData (stack op : Nat) (d : SectorData) (laneFault : Bool)
  /-- MEMORY_WRITE_ACCEPTED (R30) -/
  | memoryWriteAccepted (stack op : Nat)
  /-- METADATA_FETCH_RETURN (R214); the island's code, and 64 more where the root against which it is verified has an uncorrectable SRAM
  error (R223) -/
  | metadataFetchReturn (island fetch : Nat) (bytes : Bytes) (ue laneFault : Bool)
  /-- STREAM_TRACKER_EXPIRED (R218) -/
  | streamTrackerExpired (island tracker : Nat)
  /-- WC_WINDOW_EXPIRED (R179) -/
  | wcWindowExpired (island region sector : Nat)
  /-- LEAF_WRAP (R220) -/
  | leafWrap (island region leaf : Nat) (sectors : List SectorData) (laneFault : Bool)
  /-- COURIER_PASS_START (R227) -/
  | courierPassStart
  /-- COURIER_STEP (R229) -/
  | courierStep (region : Nat) (d : SectorData) (laneFault : Bool)
  /-- TRAY_READ_DATA (R189) -/
  | trayReadData (port op : Nat) (d : SectorData) (laneFault : Bool)
  /-- TRAY_WRITE_ACK (R189); the port's number, and 32 more for the second of two writes of the operation that both wait for an
  acknowledgement through it (R231) -/
  | trayWriteAck (port op : Nat)
  /-- HELLO_RECEIVED (R249) -/
  | helloReceived (port : Nat) (p : MsgPacket)
  /-- ACCEPT_RECEIVED (R248) -/
  | acceptReceived (port : Nat) (p : MsgPacket)
  /-- CONFIRM_RECEIVED (R249) -/
  | confirmReceived (port : Nat) (p : MsgPacket)
  /-- REFUSE_RECEIVED (R248) -/
  | refuseReceived (port : Nat) (p : MsgPacket)
  /-- HELLO_RESEND_TIMER (R248) -/
  | helloResendTimer (job peer : Nat)
  /-- HANDSHAKE_TIMEOUT (R248) -/
  | handshakeTimeout (job peer : Nat)
  /-- ANSWERED_ATTEMPT_EXPIRED (R249) -/
  | answeredAttemptExpired (job peer : Nat)
  /-- RATCHET_RECEIVED (R260) -/
  | ratchetReceived (port : Nat) (p : MsgPacket)
  /-- RATCHET_EPOCH_TIMER (R259) -/
  | ratchetEpochTimer (job peer : Nat)
  /-- RATCHET_KEYS_READY (R260) -/
  | ratchetKeysReady (job peer : Nat) (laneFault : Bool)
  /-- RATCHET_RESEND_TIMER (R260) -/
  | ratchetResendTimer (job peer : Nat)
  /-- EPOCH_DRAIN_TIMER (R261) -/
  | epochDrainTimer (job peer : Nat)
  /-- REMOTE_LOAD (R309) -/
  | remoteLoad (port : Nat) (p : MsgPacket)
  /-- REMOTE_STORE (R309) -/
  | remoteStore (port : Nat) (p : MsgPacket) (laneFault : Bool)
  /-- REMOTE_ATOMIC (R315) -/
  | remoteAtomic (port : Nat) (p : MsgPacket)
  /-- DRAIN_MARKER (R292) -/
  | drainMarker (port : Nat) (p : MsgPacket)
  /-- REDIRECT_RECEIVED (R319) -/
  | redirectReceived (port : Nat) (p : MsgPacket)
  /-- REDIRECT_ACK (R319) -/
  | redirectAck (port : Nat) (p : MsgPacket)
  /-- LOAD_RESPONSE (R301) -/
  | loadResponse (port : Nat) (p : MsgPacket)
  /-- STORE_ACK (R301) -/
  | storeAck (port : Nat) (p : MsgPacket)
  /-- ATOMIC_RESPONSE (R315) -/
  | atomicResponse (port : Nat) (p : MsgPacket)
  /-- DRAIN_ACK (R290) -/
  | drainAck (port : Nat) (p : MsgPacket)
  /-- STORE_NAK (R301) -/
  | storeNak (port : Nat) (p : MsgPacket)
  /-- TRAY_DRAIN_ANSWER (R292) -/
  | trayDrainAnswer (port : Nat) (m : TrayMarker)
  /-- DRAIN_MARKER_TIMEOUT (R290) -/
  | drainMarkerTimeout (node marker : Nat)
  /-- STORE_ACK_TIMER (R300) -/
  | storeAckTimer (job peer tc : Nat)
  /-- RETRANSMIT_TIMER (R303) -/
  | retransmitTimer (request : Nat)
  /-- DEAD_TARGET_TIMEOUT (R304) -/
  | deadTargetTimeout (request : Nat)
  /-- REDUCTION_PACKET_RECEIVED (R352) -/
  | reductionPacketReceived (port : Nat) (p : RedPacket)
  /-- REDUCTION_DEADLINE (R355) -/
  | reductionDeadline (descriptor : Nat)
  /-- SLOT_BOUNDARY (R25) -/
  | slotBoundary (port : Nat) (laneFault : Bool)
  /-- MASKING_SLOT_CUT (R377) -/
  | maskingSlotCut (port : Nat)
  /-- AGEING_TIMER (R371) -/
  | ageingTimer (request : Nat)
  /-- BOOST_UPDATE (R375) -/
  | boostUpdate
  /-- GUARANTEE_WINDOW (R384) -/
  | guaranteeWindow
  /-- POWER_INTERVAL (R389) -/
  | powerInterval (counts : List (Nat × Nat))
  /-- VOLTAGE_REACHED (R386) -/
  | voltageReached (rail : Nat)
  /-- RAIL_POLL (R388) -/
  | railPoll (rail : Nat) (answer : Option Telemetry)
  /-- THERMAL_READ (R404) -/
  | thermalRead (readings : List (Option Int))
  /-- MARGIN_COMPUTE (R410) -/
  | marginCompute (lowest : List Nat)
  /-- HEALTH_UPDATE (R428) -/
  | healthUpdate
  /-- LINK_MARGIN_REPORT (R427) -/
  | linkMarginReport (port margin : Nat)
  /-- DROOP_ALARM (R402) -/
  | droopAlarm (detector : Nat)
  /-- STRETCH_RELEASE (R402) -/
  | stretchRelease (zone : Nat)
  /-- DROOP_PERSISTENT (R403) -/
  | droopPersistent (zone : Nat)
  /-- LEASE_LAPSED (R400) -/
  | leaseLapsed
  /-- THERM_TRIP_ASSERTED (R406) -/
  | thermTripAsserted
  /-- THERM_TRIP_DEASSERTED (R406) -/
  | thermTripDeasserted
  /-- PWR_ALERT_ASSERTED (R406) -/
  | pwrAlertAsserted (alerting : List Nat)
  /-- PWR_ALERT_DEASSERTED (R406) -/
  | pwrAlertDeasserted
  /-- TAMPER (R102) -/
  | tamper
  /-- RST_N_ASSERTED (R505) -/
  | rstNAsserted
  /-- START (R506) -/
  | start (i : StartInput)
  /-- POWER_LOSS (R21) -/
  | powerLoss
  /-- FUSE_SUPPLY_OUT_OF_RANGE (R502) -/
  | fuseSupplyOutOfRange
  /-- REFCLK_LOST (R500) -/
  | refclkLost
  /-- MC_READY (R490) -/
  | mcReady (stack : Nat)
  /-- MC_READY_DEADLINE (R507) -/
  | mcReadyDeadline (stack : Nat)
  /-- FABRIC_LINK_DOWN (R491) -/
  | fabricLinkDown (port : Nat)
  /-- FABRIC_LINK_UP (R491) -/
  | fabricLinkUp (port : Nat)
  /-- HOST_LINK_DOWN (R497) -/
  | hostLinkDown (link : Nat)
  /-- HOST_LINK_TRAINED (R497) -/
  | hostLinkTrained (link : Nat)
  /-- MEMORY_CHANNEL_WATCHDOG (R424) -/
  | memoryChannelWatchdog (stack : Nat)
  /-- PORT_LOGIC_WATCHDOG (R423) -/
  | portLogicWatchdog (port : Nat)
  /-- TILE_CROSSBAR_WATCHDOG (R423) -/
  | tileCrossbarWatchdog (tile : Nat)
  /-- HOST_LINK_WATCHDOG (R423) -/
  | hostLinkWatchdog (link : Nat)
  /-- DIGEST_WATCHDOG (R423) -/
  | digestWatchdog (pair : Nat) (kat : List Bool)
  /-- CP_WATCHDOG (R425) -/
  | cpWatchdog
  /-- DIGEST_CALL_END (R107) -/
  | digestCallEnd (pair : Nat) (equal : Bool) (kat : List Bool)
  /-- POSTCARD_TIMER (R431) -/
  | postcardTimer
  /-- POSTCARD_ACK_RECEIVED (R431) -/
  | postcardAckReceived (a : PostcardAck)
  /-- TRACE_CONSUMED_POLL (R467) -/
  | traceConsumedPoll (consumed : Nat)
  /-- TRACE_POSTMARK_TRIGGER (R470) -/
  | tracePostmarkTrigger
  /-- TRACE_DRAIN_EMPTY (R464) -/
  | traceDrainEmpty
  /-- COUNTER_SNAPSHOT_LATCH (R474) -/
  | counterSnapshotLatch
  /-- COUNTER_PERIOD_LATCH (R474) -/
  | counterPeriodLatch
  /-- TAP_INSTRUCTION (R501) -/
  | tapInstruction (i : TapInstr)
  /-- UNDEFINED_OPCODE (R13) -/
  | undefinedOpcode (opcode : BitVec 16) (lb : Nat) (via : Via) (p : Packet)
  /-- LBX_DOORBELL_WRITE (R36) -/
  | lbxDoorbellWrite (link lb : Nat) (value : BitVec 64)
  /-- RATCHET_SPACING_ELAPSED (R259) -/
  | ratchetSpacingElapsed (job peer : Nat)
deriving DecidableEq, Repr

end Sys2Proof
end

