-- ==== Sys2Proof/Config.lean ====
section
/-!
DEFINITION. Config.lean: what a part fixes and the manual leaves open, and the free values.

Every opaque constant here has no body: nothing in Lean can find a value of it, so a statement about the model
holds for every value of it.  The log entry of each is named in its docstring.
-/

namespace Sys2Proof

/-- Draw number `n` of the DRBG, `w` bits wide, under a start's personalisation string (R44, R81, R84, R119, R312: drawn
values); DESIGN CHOICE, log 6. -/
opaque Config.drbg : (personal : BitVec 384) → (n : Nat) → (w : Nat) → BitVec w

/-- The value an instruction leaves open, number `n`, `w` bits wide; DESIGN CHOICE, log 12. -/
opaque Config.freeValue : (n : Nat) → (w : Nat) → BitVec w

/-- The set of the derived-key cache that a job handle and a key index fall in (R97: "not published"); DESIGN CHOICE, log 10. -/
opaque Config.cacheHash : Nat → Nat → Nat

/-- The LBN under which a sector of the key-index table of a job's handle is sealed: R166 gives the LBN of regions alone;
DESIGN CHOICE, log 15. -/
opaque Config.tableLbn : (handle sector : Nat) → BitVec 64

/-- The SEC-DED byte of eight bytes (R76: the code is not given); PRESUMED, log 5. -/
opaque Config.secDed : BitVec 64 → Byte

/-- The boot ROM's contents digest of event 0x01 (R117, R125: published outside the manual); PRESUMED, log 5. -/
opaque Config.bootRomDigest : Key

/-- The HSS public key at a boot ROM index, if the part holds one (R114); PRESUMED, log 5. -/
opaque Config.bootRomKey : Nat → Option Bytes

/-- Permutation calls of the known-answer test of one core, and of the digest of the boot ROM's contents: the manual gives
neither the test vectors nor the ROM's size (R109, R117, R132); PRESUMED, log 5. -/
opaque Config.katCalls : Nat
opaque Config.bootRomCalls : Nat

/-- Whether a leakage of R389, whose real exponents have no stated rounding, is taken to the next whole mW: for (l, u, h, e),
temperature in 1/16 °C and rail voltage in mV (DESIGN CHOICE, log 11). -/
opaque Config.leakUp : (l : Nat) → (u : Int) → (h e : Nat) → (t : Int) → (v : Nat) → Bool

/-- The same leakage in mW where the doubling interval h is zero and R389's formula has no value (DESIGN CHOICE, log 11). -/
opaque Config.leakMw : (l : Nat) → (u : Int) → (e : Nat) → (t : Int) → (v : Nat) → Nat

/-- How fast PW reduces in an interval, taken modulo four: one to four levels for what it reduces most (R396 bounds it by four and
states the proportions, and gives no pace); argument: the interval's number; DESIGN CHOICE, log 11. -/
opaque Config.powerPace : Nat → Nat

/-- The part of `mw` of the shared domain's power that rail `r` carries, at most all of it, where R389 gives one group two rails, of which
`r` is the first; DESIGN CHOICE, log 11. -/
opaque Config.sharedRail : (r mw : Nat) → Nat

/-- The exponent, as a signed field of five bits, that the regulator of rail `r` gives its READ_VOUT words: R498 names the format, and no
rule gives the exponent; DESIGN CHOICE, log 75. -/
opaque Config.voutExponent : (r : Nat) → BitVec 5

/-- The nominal voltage of droop detector `d`'s supply, in units of 0.5 mV: R391 counts trip levels from it and no rule
gives it; DESIGN CHOICE, log 11. -/
opaque Config.droopNominal : (d : Nat) → Nat

/-- What a margin over a reference of zero counts as, in 1/1023 (R427 divides by the reference); DESIGN CHOICE, log 11. -/
opaque Config.zeroReference : (margin : Int) → Nat

/-- The phase of island `i`'s clock at postmark 0, in twentieths of a cycle: which postmarks its edges fall behind; DESIGN CHOICE, log 12. -/
opaque Config.clockPhase : (i : Nat) → Nat

/-- Cycles of port island `i` between two postmarks in which its port's logic withheld credit (R473), at most all of them: the port shows
no credit; DESIGN CHOICE, log 12. -/
opaque Config.withheld : (i fromPm toPm : Nat) → Nat

/-- The destination node that the routing header of reduction group `g`'s packets names: switches match and route them by their tag words
(R344), and no rule gives the node; DESIGN CHOICE, log 71. -/
opaque Config.reductionDest : (g : Nat) → BitVec 16

/-- Lines of 64 B of metadata that a port island's cache holds: its 0.5 MiB (R27) less the 192 KiB of association entries (R265);
DEDUCED, log 12. -/
def Config.portLines : Nat := 5120

/-- Lines of 64 B that an expanded key schedule takes (R211): three AES-256 schedules of 15 round keys, 720 B; DEDUCED, log 54. -/
def Config.scheduleLines : Nat := 12

/-- The 48 bytes of a scratch unit's status words are the Thrumtar's (R446); their bytes come in as operands. -/
def Config.unitStateBytes : Nat := 48

/-- Postmark units in one microsecond: 0.25 ns each (R453). -/
def Config.us : Nat := 4000

/-- Postmark units in one millisecond. -/
def Config.ms : Nat := 4000000

/-- The revision byte of every packet of revision B (R40). -/
def Config.revisionByte : Byte := 0x32#8

/-- R451 does not say what lowest_tile (0), lowest_detector (1) and lowest_port (2) read where their component is absent; DESIGN
CHOICE, log 60. -/
opaque Config.absentMember : Nat → BitVec 8

end Sys2Proof
end

