-- ==== Sys2Proof/Machine/State.lean ====
section
/-!
DEFINITION. Machine/State.lean: everything the manual gives the block, as plain data, with its value at reset.

A field's rule stands in its docstring.  A reset value that no rule gives is named in log entry 1 (and log entry 2
for the fuse array); such a value is zero, empty or absent.
-/

namespace Sys2Proof
namespace Machine

/-- Why a step could end the machine.  No meaning of this model raises one: a fault of the block is an effect on
State (an error response, a notice, self-quarantine).  Safe: it is never answered. -/
inductive Fault where
  /-- Raised by nobody: kept because the interface asks for a fault type.  Safe. -/
  | none
deriving DecidableEq, Repr

/-- Why the model could refuse a command. -/
inductive Refusal where
  /-- Raised by exec alone, for a constructor that has no meaning yet.  Safe: the model stops. -/
  | notModelled (mnemonic : String)
deriving DecidableEq, Repr

/-! ### Names the manual fixes -/

/-- block_state (R494). -/
inductive BlockState where
  | starting | handshakeReady | fullService | tamperHeld | faulted | cpHung
deriving DecidableEq, Repr

/-- Life-cycle state (R72). -/
inductive LifeState where
  | blank | test | production | endOfLife
deriving DecidableEq, Repr

/-- Life-cycle transition in progress (R88, R93). -/
inductive Transition where
  | none | toTest | toProduction | awaitingResend | toEndOfLife | complete | stalled
deriving DecidableEq, Repr

/-- Letterbox state (R37). -/
inductive LbxState where
  | unbound | idle | opened | throttled | closing | closed
deriving DecidableEq, Repr

/-- Letterbox binding (R33). -/
inductive Binding where
  | none | host0 | host1 | fabric
deriving DecidableEq, Repr

/-- Status codes (R47). -/
inductive Status where
  | done | accepted | queuedBehindClose | busy | held | noFit | badParam | badState | notPermitted
  | revisionMismatch | unknownOpcode | checkFail | replayed | permitInvalid | targetDead | unknownOutcome
  | integrityLost | timeout | squashed | tamperHeld | lifecycleLocked | faulted
deriving DecidableEq, Repr

/-- Job root slot state (R100). -/
inductive SlotState where
  | empty | loaded | active | draining
deriving DecidableEq, Repr

/-- Partition state (R135). -/
inductive PartState where
  | free | active | resizing | resetting
deriving DecidableEq, Repr

/-- Job state (R146). -/
inductive JobState where
  | admitting | active | resizing | closing
deriving DecidableEq, Repr

/-- Context state (R148). -/
inductive CtxState where
  | free | opened | closing
deriving DecidableEq, Repr

/-- Region class (R158). -/
inductive RegClass where
  | weights | confidential | fresh | opened
deriving DecidableEq, Repr

/-- Region state (R159). -/
inductive RegState where
  | free | loading | active | sealed | rekeying | suspended | closing
deriving DecidableEq, Repr

/-- Key-index entry state (R171). -/
inductive KeyState where
  | outside | live | exhausted
deriving DecidableEq, Repr

/-- Association state (R254). -/
inductive AssocState where
  | absent | calling | answered | opened | ratcheting | closing
deriving DecidableEq, Repr

/-- Envelope ring state (R273). -/
inductive RingState where
  | disabled | enabled | closing
deriving DecidableEq, Repr

/-- Inbound window state (R307). -/
inductive WinState where
  | free | opened | closing
deriving DecidableEq, Repr

/-- Fence object state (R321). -/
inductive FenceState where
  | free | idle | armed | closing
deriving DecidableEq, Repr

/-- Reduction descriptor state (R349). -/
inductive RedState where
  | free | active | closing
deriving DecidableEq, Repr

/-- Courier pass state (R225): RUNNING and PAUSED; IDLE and ARMED are read off the queue and the list of passes. -/
inductive PassState where
  | starting | running | paused
deriving DecidableEq, Repr

/-- Trace session state (R464). -/
inductive TraceState where
  | idle | running | armed | triggered | draining
deriving DecidableEq, Repr

/-- Health band (R428). -/
inductive Band where
  | good | fair | poor | failing
deriving DecidableEq, Repr

/-! ### Outputs -/

/-- A Sniby reply (R39): the header fields a reply uses, its body and its check value. -/
structure Reply where
  opcode     : Nat
  letterbox  : Nat
  sequence   : BitVec 32
  status     : Status
  retryAfter : Nat
  nextSeq    : Nat
  detail     : Nat
  cookie     : BitVec 64
  inline     : BitVec 128
  body       : Bytes
  check      : BitVec 128
deriving DecidableEq, Repr

/-- A notice (R53). -/
structure Notice where
  noticeType   : Nat
  letterbox    : Nat
  dropsPending : Bool
  noticeSeq    : Nat
  postmark     : Nat
  status       : Status
  opcode       : Nat
  commandSeq   : BitVec 32
  object       : BitVec 64
  payload      : BitVec 128
  check        : BitVec 128
deriving DecidableEq, Repr

/-- A response on a tile request port (R489). -/
structure TileResponse where
  tag        : BitVec 16
  status     : Status
  noticeType : Nat
  reason     : Nat
  data       : Bytes
  result     : BitVec 64
deriving DecidableEq, Repr

/-- A postcard (R430). -/
structure Postcard where
  node     : Nat
  seq      : Nat
  postmark : Nat
  health   : Nat
  blockSt  : Nat
  isolated : Bool
  check    : BitVec 128
deriving DecidableEq, Repr

/-- What the block hands to a partner (R485). -/
inductive Item where
  /-- A reply: through a host link, the address of the reply slot that it is written to (R36); through a port, 0. -/
  | reply (lb : Nat) (via : Via) (slot : Nat) (r : Reply)
  /-- A notice; for a FABRIC-bound letterbox, the port and the node it is sent to (R63, R512), else the address of its entry in
  the notice ring. -/
  | notice (lb : Nat) (dest : Option (Nat × Nat)) (slot : Nat) (n : Notice)
  | msix (link vector : Nat)
  | message (port : Nat) (p : MsgPacket)
  | trayMarker (port : Nat) (m : TrayMarker)
  | postcard (port dst : Nat) (p : Postcard)
  | reduction (port : Nat) (p : RedPacket)
  | memRead (stack op address length : Nat)
  | memWrite (stack op address : Nat) (bytes : List (Option Byte))
  /-- Zeros over a range, as a teardown writes them (R153): to a stack, whose controller answers with the operation, or through a port to
  a tray. -/
  | memZero (stack op address length : Nat)
  | trayZero (port node address length : Nat)
  | trayRead (port op node address length : Nat)
  | trayWrite (port op node address : Nat) (bytes : Bytes)
  | metaRead (island fetch address length tc : Nat)
  | tile (tile : Nat) (r : TileResponse)
  | hostWrite (link address : Nat) (bytes : Bytes)
  | hostRead (link address length : Nat)
  | barData (link tag : Nat) (bytes : Bytes)
  | voltage (rail mv : Nat)
  /-- An SMBus block read of a rail's regulator, at its address, of a command (R498). -/
  | smbusRead (rail address command : Nat)
  | clock (tile mhz : Nat)
  | stretch (zone : Nat) (on : Bool)
  | mcReset (stack : Nat)
  /-- RS resets a tile and zeroises its scratchpads (R440 step 10). -/
  | tileReset (tile : Nat)
  | mcTestEn (stack : Nat) (on : Bool)
  | mcScrubEn (stack : Nat) (on : Bool)
deriving DecidableEq, Repr

/-- What an arbiter sees of an item (R371, R372): the level stamped on its request, the master charged for it, and the request, zero
when it carries none that is outstanding here. -/
structure Stamp where
  level  : Nat
  master : Nat
  req    : Nat
deriving DecidableEq, Repr

/-- An item that waits at a port island's transmit arbiter, since when, and, of a message packet, the job and the key epoch that its
PACKET_TX record names (R458). -/
structure Held where
  port   : Nat
  item   : Item
  stamp  : Stamp
  since  : Nat
  sender : Option (Option Nat × Nat)
  /-- Its place in the order of arrival: the identity that the next request of the block would have had (R372). -/
  order  : Nat := 0
deriving DecidableEq, Repr

/-! ### Start-up, pins and the top registers of BAR0 -/

/-- Start-up state, pins, links and the top registers (15 R494, R495, R503 to R506). -/
structure Boot where
  /-- The Thrumtar is powered (R21). -/
  powered        : Bool := true
  /-- Power-on reset, or RST_N, holds the block; a START ends it (R505). -/
  inReset        : Bool := true
  blockState     : BlockState := .starting
  /-- LC has read the fuses, so BLOCK_STATUS.lifecycle_state is not 0xF (R494). -/
  lifecycleRead  : Bool := false
  refclkLost     : Bool := false
  /-- TB holds lock (R479). -/
  locked         : Bool := false
  nodeNumber     : Nat := 0xFFFF
  /-- The TAMPER_HELD latch, which RST_N does not clear (R103). -/
  tamperHeld     : Bool := false
  /-- BOOT_STATUS.code (R495). -/
  bootCode       : Nat := 0xFF
  attempts       : Nat := 0
  fwVersion      : Nat := 0
  fwBase         : Nat := 0
  fwLength       : Nat := 0
  /-- The length that the boot ROM fetches: that of the write of go it acted on. -/
  fetchLength    : Nat := 0
  goLatched      : Bool := false
  fwMeasurement  : Key := 0
  fwSigned       : Bool := false
  fwKeyId        : Nat := 0
  /-- A firmware image has been accepted in this start (R115). -/
  fwRunning      : Bool := false
  /-- Memory controllers that have raised MC_READY, or were given up at 1 s (R506, R507). -/
  mcReady        : List Nat := []
  hostUp         : List Nat := []
  fabricUp       : List Nat := []
  /-- Items that port islands hold while their links are down, or withhold credit, oldest first (R491, R423). -/
  heldItems      : List Held := []
  /-- Links whose DMA is abandoned by the watchdog until they retrain (R423). -/
  dmaAbandoned   : List Nat := []
  /-- Words written to the MSI-X table, by link * 2^32 + offset (R493). -/
  msixTable      : Table (BitVec 64) := []
  /-- Quiet interval's end of each vector, key link * 512 + vector (R64, R496). -/
  msixQuiet      : Table Nat := []
  /-- Vectors to raise at the end of their quiet interval. -/
  msixDeferred   : List Nat := []
  tap            : TapInstr := .bypass
  /-- The part has started before, so that the test port programs no fuse (R501). -/
  hasStarted     : Bool := false
  cpHalted       : Bool := false
  vddAuxOk       : Bool := true
  /-- Postmark at which the start began; postmarks count from its lock (R453). -/
  startedAt      : Nat := 0
deriving DecidableEq, Repr

/-! ### Fuses and the life-cycle -/

/-- A root slot (R76): root, root_check, SEC-DED word, and whether any of its bits is blown. -/
structure RootSlot where
  root   : Key := 0
  check  : BitVec 64 := 0
  secDed : BitVec 64 := 0
  blown  : Bool := false
deriving DecidableEq, Repr

/-- An enrolment-record slot (R86). -/
structure EnrolSlot where
  sealed : BitVec 320 := 0
  tag    : BitVec 128 := 0
  secDed : BitVec 64 := 0
  blown  : Bool := false
deriving DecidableEq, Repr

/-- The fuse array (R76): non-volatile. -/
structure Fuses where
  serial        : BitVec 128 := 0x02030031#128
  lifecycleWord : BitVec 64 := 0
  progressWord  : BitVec 64 := 0
  policyWord    : BitVec 64 := 0
  disableWord   : BitVec 64 := 0
  rootSlots     : List RootSlot := [{}, {}, {}, {}, {}, {}]
  enrolSlots    : List EnrolSlot := [{}, {}]
  calibration   : Calibration := {}
  /-- The row repair of R27, 1,024 bytes, and the reserved fields of 16 and 32 bytes. -/
  rowRepair     : BitVec 8192 := 0
  reserved48    : BitVec 128 := 0
  reserved480   : BitVec 256 := 0
deriving DecidableEq, Repr

/-- LC's volatile state (R74, R88, R93, R509). -/
structure Life where
  inForce     : LifeState := .blank
  transition  : Transition := .none
  /-- Step of the transition's table (R88) that is running. -/
  step        : Nat := 0
  /-- The pending operation that the transition completes. -/
  op          : Option Nat := none
  rootFailed  : Bool := false
  /-- Policy of the ENROL_PRODUCTION in progress (R92); its OES is in the key vault. -/
  policy      : BitVec 64 := 0
  /-- The enrolment slot being programmed. -/
  slot        : Nat := 0
  /-- A tamper owes the END_OF_LIFE steps (R104). -/
  killOwed    : Bool := false
deriving DecidableEq, Repr

/-! ### Key vault -/

/-- A job root slot (R95, R100). -/
structure JobRoot where
  state  : SlotState := .empty
  job    : Nat := 0
  jrk    : Key := 0
  /-- The JRK's KMAC prefix state of 200 B, as 25 lanes (R95, R108). -/
  pre    : List Nat := []
  /-- Islands to which KV has delivered a key of the job, and whose report that they hold none is awaited (R101). -/
  holders : List Nat := []
deriving DecidableEq, Repr

/-- An entry of the derived-key cache (R97). -/
structure CacheEntry where
  set     : Nat
  handle  : Nat
  index   : Nat
  gen     : Nat
  key     : Key
  lastUse : Nat
deriving DecidableEq, Repr

/-- What a key request asks for (R96, R99). -/
inductive KeyKind where
  | data (index gen : Nat)
  | assoc (peer epoch : Nat)
  | reduce (descriptor : Nat)
deriving DecidableEq, Repr

/-- A key request at KV (R99): who asked, for which job, and whether the key is ready to be delivered. -/
structure KeyReq where
  id     : Nat
  island : Nat
  handle : Nat
  kind   : KeyKind
  ready  : Bool
deriving DecidableEq, Repr

/-- An expanded data-key schedule held in an island (R95, R165). -/
structure Schedule where
  island : Nat
  handle : Nat
  index  : Nat
  gen    : Nat
  key    : Key
  /-- Its last use, for the order of eviction (R211). -/
  lastUse : Nat := 0
deriving DecidableEq, Repr

/-- The key vault (R95). -/
structure Vault where
  /-- The root registers, key 0 TEST, 1 PROD, 2 EOL: a root is there while KV uses it (R84, R88 step 8). -/
  roots       : Table Key := []
  /-- The OES of the ENROL_PRODUCTION in progress (R88, R92). -/
  enrolling   : Option Key := none
  /-- The DRBG's personalisation string of this start, from the device root (R84, R96); 0 with no root. -/
  personal    : BitVec 384 := 0
  enrolSecret : Option Key := none
  lbx0        : Option Key := none
  lbx1        : Option Key := none
  attest      : Option Key := none
  transport   : Option Key := none
  permit      : Option Key := none
  jobRoots    : Table JobRoot := []
  lbxKeys     : Table Key := []
  cache       : List CacheEntry := []
  hits        : Nat := 0
  misses      : Nat := 0
  derivations : Nat := 0
  requests    : List KeyReq := []
  nextReq     : Nat := 0
  schedules   : List Schedule := []
  /-- DRBG draws made: the free-value counter of log entry 6. -/
  draws       : Nat := 0
  /-- A start found the secrets of letterboxes 0 and 1 unreadable (R83). -/
  unreadable  : Bool := false
deriving DecidableEq, Repr

/-! ### Digest engine, attestation, permits -/

/-- What a digest stream computes. -/
inductive StreamFor where
  | key (request : Nat)
  | command (op : Nat)
  | other
deriving DecidableEq, Repr

/-- A digest stream (R106, R107). -/
structure Stream where
  id    : Nat
  prio  : Nat
  left  : Nat
  purpose : StreamFor
  /-- The key of the stream: the JRK of a derivation (R95). -/
  key   : Key := 0
  /-- The pair that computes its call now. -/
  pair  : Option Nat
deriving DecidableEq, Repr

/-- The digest engine (R105 to R110, R132). -/
structure Digest where
  /-- Cores fenced. -/
  fenced   : List Nat := []
  /-- The pairs formed, each of two core numbers. -/
  pairs    : List (Nat × Nat) := []
  streams  : List Stream := []
  nextStream : Nat := 0
  compareFailures : Nat := 0
  /-- A stream of firmware's was aborted by a compare failure: the command that owns it is still to be refused with FAULTED (R110;
  DESIGN CHOICE, log 51). -/
  aborted  : Bool := false
  calls    : Nat := 0
  callsKv  : Nat := 0
deriving DecidableEq, Repr

/-- An event of the measurement log (R116, R133). -/
structure LogEvent where
  code     : Nat
  postmark : Nat
  digest   : Key
deriving DecidableEq, Repr

/-- A nonce of the table (R119). -/
structure Nonce where
  value   : BitVec 128
  purpose : Nat
  issued  : Nat
deriving DecidableEq, Repr

/-- The open permit (R129, R130). -/
structure Permit where
  rights   : BitVec 32
  scope    : Nat
  lifetime : Nat
  opened   : Nat
deriving DecidableEq, Repr

/-- Measurement, nonces and permits (R116, R119, R130). -/
structure Attest where
  dmr    : Key := 0
  log    : List LogEvent := []
  nonces : List Nonce := []
  permit : Option Permit := none
deriving DecidableEq, Repr

/-! ### Letterboxes -/

/-- A command waiting, held or placed (R58, R62, R63). -/
structure HeldCmd where
  opcode : Nat
  lb     : Nat
  via    : Via
  packet : Packet
  op     : Nat
  since  : Nat
deriving DecidableEq, Repr

/-- A letterbox: its registers (R34), its session (R44), its notices (R53 to R57) and its limits (R60). -/
structure Lbx where
  state         : LbxState := .unbound
  binding       : Binding := .none
  cmdBase       : Nat := 0
  cmdLog2       : Nat := 0
  rplBase       : Nat := 0
  rplLog2       : Nat := 0
  ntcBase       : Nat := 0
  ntcLog2       : Nat := 0
  enable        : Bool := false
  msixEnable    : Bool := false
  cmdProduced   : Nat := 0
  cmdConsumed   : Nat := 0
  ntcConsumed   : Nat := 0
  ntcProduced   : Nat := 0
  nextSeq       : Nat := 1
  session       : BitVec 64 := 0
  classMask     : BitVec 16 := 0
  failCount     : Nat := 0
  throttledUntil : Nat := 0
  ringFullDrops : Nat := 0
  dropsPending  : Bool := false
  noticeSeq     : Nat := 0
  tokens        : Nat := 256
  tokenAt       : Nat := 0
  /-- Notices not yet written: completions of a letterbox that is not enabled (R35), or notices without a node (R63),
  each with the node that sent its command. -/
  heldNotices   : List (Notice × Option Nat) := []
  /-- Postmark of the doorbell write last taken (R462, kind 0x30). -/
  doorbellAt    : Nat := 0
  waiting       : List HeldCmd := []
  fabricRing    : List Nat := []
  lastNode      : Option (Nat × Nat) := none
deriving DecidableEq, Repr

/-- A pending operation: one reserved notice entry (R56). -/
structure PendingOp where
  id       : Nat
  lb       : Nat
  opcode   : Nat
  sequence : BitVec 32
  cookie   : BitVec 64
  /-- How the command came: the node that a FABRIC-bound letterbox's notice goes to (R63). -/
  via      : Via
  accepted : Nat
  /-- The postmark at which its stated bound ends, if it has one (R515). -/
  bound    : Option Nat
deriving DecidableEq, Repr

/-- An object whose close another command may be held behind (R58). -/
inductive Closable where
  | ctx (n : Nat)
  | job (number : Nat)
  | window (n : Nat)
  | fence (n : Nat)
  | descriptor (n : Nat)
deriving DecidableEq, Repr

/-- A place of the poste restante (R508): a HELD command, or a handshake message at a port. -/
inductive Place where
  | command (c : HeldCmd)
  | message (port : Nat) (p : MsgPacket)
  | hello (handle peer : Nat)
deriving DecidableEq, Repr

/-- The letterboxes and what serves them. -/
structure Sniby where
  boxes       : Table Lbx := [(0, { state := .idle, binding := .host0 }), (1, { state := .idle, binding := .fabric })]
  unsubscribed : Nat := 0
  deadLetters : Nat := 0
  pendingOps  : List PendingOp := []
  nextOp      : Nat := 0
  heldBehind  : List (Closable × HeldCmd) := []
  /-- Held commands whose close has completed DONE, to be started at once (R59). -/
  ready       : List HeldCmd := []
  places      : List Place := []
  lastDue     : Nat := 0
  /-- Postmarks of the HELLOs refused (R508 counts those of the preceding 100 ms). -/
  refusals    : List Nat := []
  /-- Commands that wait while the CP is halted, in their order of arrival (R52, R128). -/
  atCp        : List HeldCmd := []
  /-- A command that waits for a metadata fetch of its own, and the nonce it was checked under; none for one that was held
  (R198). -/
  blocked     : Option (HeldCmd × Option (BitVec 64)) := none
  /-- The table sector that the CP has asked for on behalf of that command: job handle and sector (R198). -/
  entryRead   : Option (Nat × Nat) := none
  /-- The job letterbox served last, from which the rotation of R52 goes on. -/
  turn        : Nat := 63
  /-- By node, the port on which its latest command that passed its check arrived (R512). -/
  nodePorts   : Table Nat := []
  /-- When each rate-limited notice was last posted: type, object, postmark. -/
  posted      : List (Nat × Nat × Nat) := []
deriving DecidableEq, Repr

/-! ### Partitions, jobs, contexts -/

/-- A partition (R134, R135, R408). -/
structure Partition where
  state    : PartState := .free
  tiles    : List Nat := []
  /-- 0: opportunistic; otherwise the fixed frequency in MHz (R408). -/
  fixedMhz : Nat := 0
  /-- The tiles of the resize in progress, its operation and its ACCEPTED. -/
  newTiles : List Nat := []
  op       : Option Nat := none
  since    : Nat := 0
deriving DecidableEq, Repr

/-- A KEY_RANGE record (R139). -/
structure KeyRange where
  base  : Nat
  count : Nat
deriving DecidableEq, Repr

/-- A REDUCTION record and its group's last_round (R139, R332). -/
structure RedGroup where
  group        : Nat
  contributors : Nat
  descriptors  : Nat
  lastRound    : Nat
deriving DecidableEq, Repr

/-- A BANDWIDTH record (R139). -/
structure Bandwidth where
  tc          : Nat
  targetKind  : Nat
  minBw       : Nat
  outstanding : Nat
  latency     : Nat
deriving DecidableEq, Repr

/-- A REGION record (R139). -/
structure RegionRec where
  offset    : Nat
  count     : Nat
  cls       : RegClass
  sectorLog : Nat
  size      : Nat
  stackMask : Nat
  pooled    : Bool
  keyRange  : Nat
  address   : Nat
deriving DecidableEq, Repr

/-- A parsed manifest (R138, R139). -/
structure Manifest where
  confidential : Bool
  exclusive    : Bool
  teardownDead : Bool
  partition    : Nat
  binding      : Nat
  jobNumber    : Nat
  maxContexts  : Nat
  fenceQuota   : Nat
  powerShare   : Nat
  modelDigest  : Key
  regions      : List RegionRec
  keyRanges    : List KeyRange
  windows      : Option Nat
  reductions   : List RedGroup
  bandwidth    : List Bandwidth
  /-- Manifest offsets of the first KEY_RANGE, the WINDOWS, the REDUCTION and the BANDWIDTH records. -/
  keyOff       : Nat
  winOff       : Nat
  redOff       : Nat
  bwOff        : Nat
deriving DecidableEq, Repr

/-- An entry of a key-index table (R171). -/
structure KeyEntry where
  gen   : Nat := 0
  state : KeyState := .outside
  seals : Nat := 0
  /-- OUTSIDE, and EXHAUSTED before: its last generation is used up, and a resize that adds the index brings it back EXHAUSTED
  (DEDUCED, log 29). -/
  spent : Bool := false
deriving DecidableEq, Repr

/-- A counter node (R200): the major counter and the 64 minors; missing minors read zero. -/
structure Node where
  major  : Nat := 0
  minors : List Nat := []
deriving DecidableEq, Repr

/-- A tree's on-chip root with its floor, and its counts (R204, R209, R236). -/
structure Tree where
  root          : Node := {}
  floor         : Nat := 1
  /-- Sectors the tree covers (R204's S). -/
  sectors       : Nat := 0
  copyA         : Nat := 0
  copyB         : Nat := 0
  repairs       : Nat := 0
  leafWraps     : Nat := 0
  interiorWraps : Nat := 0
  wrapLost      : Nat := 0
  /-- The root suffered an uncorrectable SRAM error (R223). -/
  rootLost      : Bool := false
deriving DecidableEq, Repr

/-- A region as placed at admission (R142). -/
structure Placed where
  record : RegionRec
  base   : Nat
  size   : Nat
  treeA  : Nat
  treeB  : Nat
deriving DecidableEq, Repr

/-- Job counters (R476, R482): per class requests, bytes, latency, completions; then the eight others. -/
structure JobCounters where
  requests    : List Nat := [0, 0, 0, 0]
  bytes       : List Nat := [0, 0, 0, 0]
  latency     : List Nat := [0, 0, 0, 0]
  completions : List Nat := [0, 0, 0, 0]
  partials    : Nat := 0
  merges      : Nat := 0
  remoteSent  : Nat := 0
  inbound     : Nat := 0
  atomics     : Nat := 0
  reductions  : Nat := 0
  faults      : Nat := 0
  deadLetters : Nat := 0
deriving DecidableEq, Repr

/-- A redirect running on a job (R319): its operation, and the peers whose REDIRECT_ACKs are awaited with a bit mask
of the classes acknowledged and the postmark at which T runs out. -/
structure Redirect where
  op      : Nat
  peers   : List (Nat × Nat × Nat)
  missed  : Nat
deriving DecidableEq, Repr

/-- A job (R143 to R157). -/
structure Job where
  number      : Nat
  state       : JobState
  partition   : Nat
  confidential : Bool
  exclusive   : Bool
  teardownDead : Bool
  letterbox   : Option Nat
  binding     : Nat
  ctxBase     : Nat
  maxContexts : Nat
  regBase     : Nat
  regCount    : Nat
  fenceQuota  : Nat
  powerShare  : Nat
  modelDigest : Key
  manifestDigest : Key
  measurement : Key := 0
  admissionNonce : BitVec 64 := 0
  admittedAt  : Nat
  keyRanges   : List KeyRange
  windows     : Option Nat
  groups      : List RedGroup
  bandwidth   : List Bandwidth
  placed      : List Placed := []
  /-- The dead-target timeout T in µs (R306). -/
  timeout     : Nat := 20
  epochFloor  : Nat := 0
  spaceLowPosted : Bool := false
  mapEpoch    : Nat := 0
  retiring    : Option Nat := none
  redirect    : Option Redirect := none
  /-- Key-index table: base of the table's 9 MiB, its entries that differ from their admission value, its tree. -/
  keyBase     : Nat := 0
  keyTable    : Table KeyEntry := []
  keyTree     : Tree := {}
  /-- Table sectors whose last fetch failed its check (R173). -/
  keyLost     : List Nat := []
  /-- Table sectors with a written entry whose image in memory is still to be sealed again (DEDUCED, log 14). -/
  keyPending  : List Nat := []
  counters    : JobCounters := {}
  /-- Step of the admission (7 to 11) or of the teardown (2 to 13) that comes next, and its operation. -/
  step        : Nat := 0
  op          : Option Nat := none
  /-- The teardown of R305 or R147 was asked for while the job was ADMITTING or RESIZING. -/
  resizeOp    : Option Nat := none
  /-- Key-index ranges that a resize has removed and whose indices are still to be retired (R155). -/
  removing    : List KeyRange := []
  /-- last_round of the groups that a resize has removed, by group number: one that comes back in this admission goes on from it
  (R332). -/
  pastRounds  : Table Nat := []
  /-- The postmark at which the bound of R153 on its teardown ends (R515). -/
  closeBy     : Nat := 0
deriving DecidableEq, Repr

/-- A context (R148 to R151, R312, R418). -/
structure Ctx where
  state       : CtxState := .free
  faults      : Nat := 0
  lastType    : Nat := 0
  lastReason  : Nat := 0
  lastMark    : Nat := 0
  incarnation : BitVec 32 := 0
  atomicSeq   : Nat := 1
  confirmed   : Nat := 0
  /-- atomic_seq of atomics that are unanswered, and of those answered above a gap (R312). -/
  unanswered  : List Nat := []
  answered    : List Nat := []
  /-- Step of R151 that comes next, the operation, the reserved fence, and the two timeout counts of its notice. -/
  step        : Nat := 0
  op          : Option Nat := none
  fence       : Option Nat := none
  fenceMissed : Nat := 0
  /-- Nodes to which it has stored or sent atomics (R151 step 6). -/
  dests       : List Nat := []
  remoteMissed : Nat := 0
  /-- The postmark at which the bound of R151 on its close ends (R515). -/
  closeBy     : Nat := 0
deriving DecidableEq, Repr

/-! ### Regions and the sector engine -/

/-- A courier field (R160): key index, new generation, watermark. -/
structure CourierField where
  index     : Nat
  gen       : Nat
  watermark : Nat
deriving DecidableEq, Repr

/-- A region table entry (R160, R161) and the counts of R195. -/
structure Region where
  state      : RegState := .free
  cls        : RegClass := .weights
  sectorLog  : Nat := 6
  pooled     : Bool := false
  handle     : Nat := 0
  keyFirst   : Nat := 0
  keyLast    : Nat := 0
  base       : Nat := 0
  size       : Nat := 0
  courier    : Option CourierField := none
  wcWindow   : Nat := 0
  tree       : Tree := {}
  unverifiable : Nat := 0
  merges     : Nat := 0
  mergesLost : Nat := 0
  combined   : Nat := 0
  suppressed : Nat := 0
  /-- The state to which RESUME_REGION returns a SUSPENDED region (R232). -/
  before     : RegState := .free
  /-- SEAL_REGION in progress, and merges lost when the load began (R196). -/
  sealOp     : Option Nat := none
  resumeOp   : Option Nat := none
deriving DecidableEq, Repr

/-- An inbound remote request that is being carried out (R298, R309), with what its response echoes.  When its stream is
gone, its peer is 0xFFFF and no response is sent. -/
structure Inbound where
  handle      : Nat
  peer        : Nat
  tc          : Nat
  ordinal     : Nat
  op          : Nat
  dup         : Bool
  ctx         : Nat
  atomicSeq   : Nat
  incarnation : BitVec 32
  address     : Nat
  length      : Nat
  window      : Nat
  /-- The stream that carried it is gone: it answers nobody (R303). -/
  orphan      : Bool := false
deriving DecidableEq, Repr

/-- Who asked for a request, and so where its answer goes. -/
inductive Origin where
  | tile (t : Nat) (tag : BitVec 16)
  | stream (i : Inbound)
  | env (link handle slot : Nat)
  | bar (link tag : Nat)
  | zero (op : Nat)
  | chunk (descriptor chunk : Nat)
  | recordWrite (descriptor : Nat)
  /-- RS's read of a suspect in a partition's reset (R441). -/
  | probe (part : Nat)
deriving DecidableEq, Repr

/-- A master's name (R368): job handle, or 256 + row of R369; class, kind of target, target. -/
structure MasterName where
  handle : Nat := 0
  tc     : Nat := 0
  kind   : Nat := 0
  target : Nat := 0
deriving DecidableEq, Repr

/-- What a request does. -/
inductive ReqKind where
  | read | write | atomic
deriving DecidableEq, Repr

/-- A request accepted at XB that is not answered yet. -/
structure Req where
  id       : Nat
  origin   : Origin
  kind     : ReqKind
  /-- The op code of R445. -/
  code     : Nat
  ctx      : Option Nat
  handle   : Nat
  keyIndex : Nat
  address  : Nat
  length   : Nat
  tc       : Nat
  level    : Nat
  accepted : Nat
  /-- The dead-target timeout of its job when it was accepted, in postmark units (R306). -/
  timeout  : Nat
  /-- Parts (sector operations or remote pieces) still to finish. -/
  left     : Nat
  data     : Bytes
  /-- The first failure: status, notice type, reason. -/
  failure  : Option (Status × Nat × Nat)
  result   : BitVec 64
  /-- The window through which an inbound request was translated (R309). -/
  window   : Option Nat
  /-- The master charged (R368): job handle, or 256 + row of R369; kind of target, target, charged bytes. -/
  master   : Nat
  tkind    : Nat
  target   : Nat
  charged  : Nat
  /-- It was within budget when it was accepted (R370). -/
  within   : Bool := true
  /-- The wait at an arbiter, by its beginning, of which its rise to level 5 has been counted (R371). -/
  aged     : Option Nat := none
deriving DecidableEq, Repr

/-- How a sector operation touches its sector. -/
inductive SecKind where
  | read
  | full
  /-- A partial write on its way to the write-combining buffer (R177). -/
  | part
  /-- read, decrypt, merge, encrypt (R181); from the buffer or not. -/
  | merge (buffered : Bool)
  | atomic
  /-- A courier's re-encryption, sealed and on its way to memory (R229). -/
  | courier
deriving DecidableEq, Repr

/-- Where a sector operation stands. -/
inductive Stage where
  | waiting | reading | writing | wrapping
deriving DecidableEq, Repr

/-- An operation on one sector (R28): at most one per sector is beyond the stage `waiting`. -/
structure SecOp where
  id       : Nat
  req      : Nat
  island   : Nat
  region   : Nat
  sector   : Nat
  kind     : SecKind
  stage    : Stage
  keyIndex : Nat
  ctx      : Option Nat
  tc       : Nat
  /-- First byte within the sector and length. -/
  off      : Nat
  len      : Nat
  /-- The bytes to write, by position in the sector; none where the sector's old byte stays. -/
  bytes    : List (Option Byte)
  /-- atomic_op, operand, compare. -/
  atomicOp : Nat
  operand  : BitVec 64
  compare  : BitVec 64
  /-- The old value of an atomic. -/
  result   : BitVec 64
  /-- The open under generation g failed, and g + 1 is tried (R228). -/
  retried  : Bool
  /-- Writes still to be accepted (sector, frank, and for a tray the same). -/
  writes   : Nat
  /-- The bytes of the sector and frank as issued, for re-issue under a resume record (R231). -/
  issued   : List (Nat × Bytes)
  /-- Metadata lines that its first lookup missed (R217, R238); none before that lookup. -/
  looked   : Option Nat
  /-- Those misses have been counted as hidden or exposed (R219). -/
  judged   : Bool := false
  /-- A leaf wrap at its writes: it holds the slots of its whole leaf group (R220). -/
  group    : Bool := false
  /-- What the memory or the tray returned, while a key for it is awaited. -/
  got      : Option SectorData
  /-- When it began to wait, or its reads or writes were issued. -/
  since    : Nat
  /-- When it entered its island (R462): a buffer entry's, with its first write. -/
  entered  : Nat := 0
  /-- The chunks of a buffer entry on its path. -/
  chunks   : List (Nat × Nat) := []
  /-- The level of an operation that serves no request: of a buffer entry's first write, or of the courier (R371). -/
  level    : Nat := 1
  /-- The master of buffered bytes: that of their entry's first write (R370, R372). -/
  master   : MasterName := {}
  /-- What its SECTOR record is to say, of an operation whose plaintext waits to be sealed (R462). -/
  sealAs   : Option Nat := none
deriving DecidableEq, Repr

/-- A write-combining buffer entry (R178). -/
structure WcEntry where
  island   : Nat
  region   : Nat
  sector   : Nat
  keyIndex : Nat
  ctx      : Option Nat
  tc       : Nat
  bytes    : List (Option Byte)
  first    : Nat
  /-- The chunks of reductions whose writes it took bytes from: descriptor, place (R354). -/
  chunks   : List (Nat × Nat) := []
  /-- The level of that write (R371), and its master (R370). -/
  level    : Nat := 1
  master   : MasterName := {}
deriving DecidableEq, Repr

/-- What a metadata line is (R211): a frank line, a tree node (tree: region number, or 65536 + job handle for a
key-index table), or a key-index table sector. -/
inductive LineKey where
  | frank (region line : Nat)
  | node (tree level index : Nat)
  | keySector (handle sector : Nat)
deriving DecidableEq, Repr

/-- The verified contents of a metadata line. -/
inductive LineVal where
  | franks (l : List (BitVec 64))
  | node (n : Node)
  | keySector
deriving DecidableEq, Repr

/-- A line of a metadata cache (R211, R212). -/
structure Line where
  island  : Nat
  key     : LineKey
  val     : LineVal
  dirty   : Bool
  lastUse : Nat
  /-- Write-back writes of the node that memory has not accepted (R212 step 5), and their identity. -/
  writing : Nat
  wid     : Nat
  /-- When those writes were issued (R423). -/
  wroteAt : Nat := 0
deriving DecidableEq, Repr

/-- A metadata fetch in flight (R214, R217): from copy B when `copyB`, for the run-ahead when `ahead`. -/
structure Fetch where
  id     : Nat
  island : Nat
  key    : LineKey
  copyB  : Bool
  ahead  : Bool
  /-- A tracker predicted it: it is outstanding against the internal master of R369. -/
  predicted : Bool := false
  /-- Tree maintenance issued it: it is outstanding against that internal master of R369. -/
  upkeep : Bool := false
  /-- Its traffic class: of the request it was issued for, TC3 BULK for one that a tracker predicted (R217). -/
  tc     : Nat
  /-- The first copy's failure: 1 ECC, 2 check (R239). -/
  failed : Nat
  /-- What came back, while the parent it is checked against is awaited (R214). -/
  got    : Option (Bytes × Bool)
  /-- Franks of the line that the island has sealed while the fetch is on its way: place and frank (R183). -/
  franks : List (Nat × BitVec 64) := []
  since  : Nat
deriving DecidableEq, Repr

/-- A write of metadata that no sector operation, write-back or RESET_SUBTREE keeps: a repaired copy, a table sector.  It is outstanding
at an island since a moment; tree maintenance is charged to its internal master (R369, R423). -/
structure Upkeep where
  island  : Nat
  id      : Nat
  /-- What it writes to. -/
  address : Nat
  since   : Nat
  charged : Bool
deriving DecidableEq, Repr

/-- The zeros that a teardown writes over an OPEN region of a stack (R153 step 7): the write on its way, and what is left behind it. -/
structure Wipe where
  handle  : Nat
  stack   : Nat
  id      : Nat
  address : Nat
  length  : Nat
  left    : Nat
  since   : Nat
deriving DecidableEq, Repr

/-- A request to a sector as a run-ahead saw it (R218). -/
structure Seen where
  island : Nat
  ctx    : Nat
  region : Nat
  sector : Nat
  at_    : Nat
deriving DecidableEq, Repr

/-- A stream tracker of a run-ahead, started (R218): the sector it has come to, the stream's stride, when it last advanced. -/
structure Tracker where
  island  : Nat
  ctx     : Nat
  region  : Nat
  /-- The key index of the stream's latest request. -/
  key     : Nat
  last    : Nat
  stride  : Int
  at_     : Nat
deriving DecidableEq, Repr

/-- A resume record of a port island (R231): the writes still unacknowledged, one sector with its frank or two copies of a node;
the writes of the sectors that a wrap still comes to, two to a sector; how many writes have been acknowledged; when the writes now
outstanding were issued. -/
structure ResumeRec where
  port   : Nat
  region : Nat
  op     : Nat
  writes : List (Nat × Bytes)
  rest   : List (Nat × Bytes)
  progress : Nat
  since  : Nat
  suspended : Bool
deriving DecidableEq, Repr

/-- A run of ZERO_SECTORS (R197). -/
structure ZeroRun where
  op       : Nat
  region   : Nat
  keyIndex : Nat
  next     : Nat
  stop     : Nat
  written  : Nat
  squash   : Bool
  lb       : Nat
deriving DecidableEq, Repr

/-- A RESET_SUBTREE in progress (R224): its identity; copies still to be read again, and what the first of them gave (copy B,
failure as in R239 or 0, bytes); whether step 2 has been reached; writes not yet accepted. -/
structure SubtreeRun where
  id     : Nat
  op     : Nat
  island : Nat
  tree   : Nat
  level  : Nat
  index  : Nat
  reads  : Nat
  first  : Option (Bool × Nat × Bytes) := none
  started : Bool := false
  writes : Nat
  /-- When it began to write. -/
  since  : Nat := 0
deriving DecidableEq, Repr

/-- The sector engine of the memory islands (0 to 15) and port islands (16 to 47). -/
structure Mem where
  reqs     : List Req := []
  /-- Requests carried out whose answer goes to another unit than a tile, and is still to be handed over. -/
  finished : List Req := []
  ops      : List SecOp := []
  nextId   : Nat := 1
  wc       : List WcEntry := []
  lines    : List Line := []
  fetches  : List Fetch := []
  trackers : List Tracker := []
  /-- Requests that the run-aheads saw in the last 2 µs (R218). -/
  seen     : List Seen := []
  /-- Lost nodes listed: island, key (R223). -/
  lost     : List (Nat × LineKey) := []
  /-- Nodes found lost while the island's list was full, at most posted and counted once (R223). -/
  unlisted : List (Nat × LineKey) := []
  /-- Copies repaired within the last second: key, copy B, postmark (R216). -/
  repaired : List (LineKey × Bool × Nat) := []
  /-- Nodes whose copy B is read first, at most 256 to an island: island, key (R216). -/
  bFirst   : List (Nat × LineKey) := []
  resume   : List ResumeRec := []
  zeroRuns : List ZeroRun := []
  subtrees : List SubtreeRun := []
  upkeep   : List Upkeep := []
  /-- Zeros of teardowns on their way. -/
  wipes    : List Wipe := []
  /-- Nodes whose write-back is asked for and has not been issued (R211 to R213). -/
  backs    : List (Nat × Nat × Nat) := []
  /-- Chunks whose bytes a MERGE_LOST took, of which the reductions are still to learn (R354): descriptor, place. -/
  lostChunks : List (Nat × Nat) := []
  protectedRefusals : Nat := 0
  unverifiable : Nat := 0
  merges   : Nat := 0
  mergesLost : Nat := 0
  hits     : Nat := 0
  hidden   : Nat := 0
  exposed  : Nat := 0
  repairs  : Nat := 0
  nodesLost : Nat := 0
  passesEnded : Nat := 0
deriving DecidableEq, Repr

/-- A retirement in progress (R174): the next step, its operation, and the requests it waits for. -/
structure Retirement where
  handle : Nat
  index  : Nat
  op     : Option Nat
  waits  : List Nat
  since  : Nat
deriving DecidableEq, Repr

/-- A courier pass (R225, R227, R229). -/
structure Pass where
  handle : Nat
  index  : Nat
  gen    : Nat
  state  : PassState
  regions : List Nat
  /-- START_COURIER operations that the pass completes. -/
  ops    : List Nat
  /-- Operations sealing under the old generation when the pass started (R227 step 4). -/
  waits  : List Nat
deriving DecidableEq, Repr

/-- The CP's courier and retirement control (R226, R174). -/
structure Courier where
  /-- The armed queue: job handle, key index, START_COURIER operations. -/
  armed   : List (Nat × Nat × List Nat) := []
  passes  : List Pass := []
  retirements : List Retirement := []
  limitPosted : List (Nat × Nat) := []
deriving DecidableEq, Repr

/-! ### Associations and host envelopes -/

/-- One epoch that an association holds (R256, R260): keys of both directions, next sequence to seal, h and window. -/
structure Epoch where
  number : Nat
  keyTx  : Key
  keyRx  : Key
  txSeq  : Nat
  rxHigh : Nat
  rxSeen : List Nat
  /-- Every number up to it has been accepted (R261). -/
  rxThrough : Nat
deriving DecidableEq, Repr

/-- One stream of an association (R297 to R300), both directions. -/
structure StreamSt where
  /-- Next ordinal to assign (issuer). -/
  nextOrd   : Nat := 1
  /-- Highest ordinal known applied at the peer (issuer). -/
  appliedTx : Nat := 0
  /-- Next ordinal expected (target). -/
  cursor    : Nat := 1
  /-- Every request up to it has been applied here (target). -/
  appliedRx : Nat := 0
  /-- Ordinals above appliedRx that have been applied, of a store with its context (target). -/
  ahead     : List (Nat × Option Nat) := []
  /-- applied_through last sent, stores applied since, postmark of the first of them (R300). -/
  acked     : Nat := 0
  stores    : Nat := 0
  firstAt   : Nat := 0
  /-- The newest store covered: its ordinal and its context (R294, R295). -/
  newestStore : Nat := 0
  newestCtx : Nat := 0
  /-- Ordinals of requests that ended by their timeout and are not covered since (issuer, R322). -/
  timed     : List Nat := []
deriving DecidableEq, Repr

/-- A request packet held at the target until the gap before it fills (R298), opened and parsed. -/
structure HeldReq where
  tc      : Nat
  ordinal : Nat
  port    : Nat
  body    : Bytes
deriving DecidableEq, Repr

/-- An association, by job handle and peer (R254). -/
structure Assoc where
  handle   : Nat
  peer     : Nat
  state    : AssocState
  home     : Nat
  /-- Epochs held, newest first: one, or two while a step runs (R263). -/
  epochs   : List Epoch := []
  salt     : BitVec 48 := 0
  enteredAt : Nat := 0
  lastUse  : Nat := 0
  lastStep : Option Nat := none
  /-- Packets sealed under the current epoch (R259). -/
  sealed   : Nat := 0
  /-- A ratchet trigger waits for its conditions (R259), or for the keys of the new epoch. -/
  trigger  : Bool := false
  waitKeys : Bool := false
  /-- RATCHET_NOW operations to complete with the step. -/
  ratchetOps : List Nat := []
  /-- The new epoch is learned from the peer, and when (R260). -/
  learnedAt : Option Nat := none
  drained  : Bool := false
  /-- Sequence number of the peer's marker under the old epoch (R261). -/
  marker   : Option Nat := none
  resends  : Nat := 0
  resendAt : Nat := 0
  /-- The attempt of R248: nonce_i, proposed epoch, sends, when the next send is due, when step 3 ran, deferral. -/
  nonceI   : BitVec 64 := 0
  proposed : Nat := 0
  sends    : Nat := 0
  dueAt    : Nat := 0
  calledAt : Nat := 0
  deferred : Nat := 0
  /-- The end of the deferral that runs. -/
  deferUntil : Nat := 0
  /-- DATA past the last sequence number of the epoch, traffic class and body, until the next epoch (R262). -/
  overdue  : List (Nat × Bytes) := []
  /-- The answered attempt of R249: agreed epoch, salt, nonces, keys, postmark; none when there is none. -/
  answer   : Option (Nat × BitVec 48 × BitVec 64 × BitVec 64 × Nat) := none
  answerKeys : Key × Key := (0, 0)
  answerPort : Nat := 0
  closeOp  : Option Nat := none
  /-- The target's map epoch as last learned (R318). -/
  mapEpoch : Nat := 0
  streams  : List StreamSt := [{}, {}, {}, {}]
  heldAhead : List HeldReq := []
  /-- The HELLO and the ACCEPT as first sent (R247). -/
  hello    : Option MsgPacket := none
  accept   : Option MsgPacket := none
deriving DecidableEq, Repr

/-- Associations and the block's lists about them (R265, R271, R284). -/
structure Assocs where
  entries  : List Assoc := []
  revoked  : List Nat := []
  created  : Nat := 0
  evicted  : Nat := 0
  steps    : Nat := 0
  tagFails : Nat := 0
  replayed : Nat := 0
  stale    : Nat := 0
  noAssoc  : Nat := 0
  revRefused : Nat := 0
  revokedDrops : Nat := 0
  malformed : Nat := 0
  /-- HELLOs and ACCEPTs dropped otherwise (R248 step 6, R250, R508). -/
  dropped  : Nat := 0
  /-- When R269 last started a creation: job handle, peer, postmark. -/
  recalls  : List (Nat × Nat × Nat) := []
  /-- Creations that wait for an entry: job handle, peer (R268). -/
  calls    : List (Nat × Nat) := []
  /-- By node, the postmark until which no HELLO goes to it, after its REFUSE with BUSY (R508). -/
  noHello  : Table Nat := []
  /-- REVOKE_PEER operations to complete. -/
  revokeOps : List (Nat × Nat) := []
deriving DecidableEq, Repr

/-- An envelope descriptor in flight (R277): its slot, its descriptor, and the request that serves it. -/
structure EnvFlight where
  slot : Nat
  desc : EnvDesc
  req  : Nat
deriving DecidableEq, Repr

/-- An envelope ring (R273, R285). -/
structure EnvRing where
  state     : RingState := .disabled
  descBase  : Nat := 0
  descLog2  : Nat := 0
  cplBase   : Nat := 0
  cplLog2   : Nat := 0
  enable    : Bool := false
  msix      : Bool := false
  produced  : Nat := 0
  /-- Descriptors read, and completions written in slot order (R279). -/
  taken     : Nat := 0
  consumed  : Nat := 0
  finished  : List Nat := []
  nextSeq   : Nat := 1
  session   : BitVec 64 := 0
  sk0       : Option Key := none
  sk1       : Option Key := none
  flights   : List EnvFlight := []
  tagFails  : Nat := 0
  doneCount : Nat := 0
deriving DecidableEq, Repr

/-! ### Remote access -/

/-- A drain marker outstanding (R290, R292). -/
structure Marker where
  id      : Nat
  node    : Nat
  epoch   : Nat
  tray    : Bool
  sentAt  : Nat
  op      : Option Nat
deriving DecidableEq, Repr

/-- A route entry (R289). -/
structure Route where
  valid    : Bool := false
  port     : Nat := 0
  epoch    : Nat := 0
deriving DecidableEq, Repr

/-- A remote request of this node that has not completed (R297, R302, R303). -/
structure RemReq where
  id       : Nat
  req      : Nat
  op       : Nat
  ctx      : Nat
  handle   : Nat
  node     : Nat
  tc       : Nat
  ordinal  : Nat
  address  : Nat
  keyIndex : Nat
  length   : Nat
  data     : Bytes
  /-- Where its bytes lie in the tile's request. -/
  pos      : Nat
  atomicOp : Nat
  operand  : BitVec 64
  compare  : BitVec 64
  atomicSeq : Nat
  mapEpoch : Nat
  accepted : Nat
  /-- The T in force when it was accepted, in postmark units. -/
  timeout  : Nat
  retries  : Nat
  sent     : Bool
  /-- Refused once for its map epoch and re-sent (R318). -/
  restamped : Bool
  /-- It is bound for a port island that has no place for it yet: it waits in XB (R253). -/
  parked   : Bool := false
deriving DecidableEq, Repr

/-- An inbound window (R307). -/
structure Window where
  state    : WinState := .free
  read     : Bool := false
  write    : Bool := false
  atomic   : Bool := false
  mapEpoch : Nat := 0
  handle   : Nat := 0
  base     : Nat := 0
  size     : Nat := 0
  target   : Nat := 0
  region   : Nat := 0
  owner    : Nat := 0xFFFF
  ctx      : Nat := 0
  useFixed : Bool := false
  fixedKey : Nat := 0
  openedAt : Nat := 0
  refusals : Nat := 0
  closeOp  : Option Nat := none
  /-- The postmark at which the bound of R320 on its close ends (R515). -/
  closeBy  : Nat := 0
deriving DecidableEq, Repr

/-- What a fence recorded for one node (R322). -/
structure FenceNode where
  /-- The job whose items are recorded: one fence of a partition reset has several (R440). -/
  handle   : Nat
  node     : Nat
  /-- The last ordinal assigned in each of the four streams. -/
  ords     : List Nat
  /-- Remote requests (their identities) and pooled operations recorded, and drain markers. -/
  remote   : List Nat
  pooled   : List Nat
  markers  : List Nat
  /-- A recorded pooled write or drain marker ended by its timeout, or the node was satisfied by the timeout of a request. -/
  timedOut : Bool
  /-- A recorded request ended by its timeout, and no applied_through has covered it since. -/
  reqTimed : Bool := false
  satisfied : Bool
deriving DecidableEq, Repr

/-- A fence object (R321). -/
structure Fence where
  state   : FenceState := .free
  handle  : Nat := 0
  scope   : Nat := 0
  nodes   : List FenceNode := []
  armedAt : Nat := 0
  /-- Operation of ARM_FENCE, or the tile request that armed it, or the context or partition close that did. -/
  op      : Option Nat := none
  tileReq : Option Nat := none
  tileCtx : Nat := 0
  closeOp : Option Nat := none
  missed  : Nat := 0
deriving DecidableEq, Repr

/-- A pigeonhole (R313). -/
structure Pigeonhole where
  seq       : Nat
  confirmed : Bool
  status    : Status
  reason    : Nat
  result    : BitVec 64
  applied   : Nat
deriving DecidableEq, Repr

/-- A row of the pigeonhole cache, bound to a source (R313). -/
structure Row where
  src         : Nat
  handle      : Nat
  ctx         : Nat
  incarnation : BitVec 32
  holes       : List Pigeonhole
deriving DecidableEq, Repr

/-- Routes, remote requests, windows, fences, pigeonholes (chapter 9). -/
structure Remote where
  routes   : Table Route := []
  markers  : List Marker := []
  nextMarker : Nat := 1
  reqs     : List RemReq := []
  windows  : Table Window := []
  fences   : Table Fence := []
  rows     : List Row := []
  requestsSent : Nat := 0
  retransmissions : Nat := 0
  deadTimeouts : Nat := 0
  outcomeUnknown : Nat := 0
  inboundRefused : Nat := 0
  staleMap : Nat := 0
  outOfOrder : Nat := 0
  pigeonHits : Nat := 0
  rowsEarly : Nat := 0
  routeMisses : Nat := 0
  /-- Responses that came after their request was answered (R304). -/
  late     : Nat := 0
deriving DecidableEq, Repr

/-! ### Reduction -/

/-- A contribution that is accepted and not handed over (R351). -/
structure Contribution where
  chunk    : Nat
  image    : Bytes
  tile     : Nat
  tag      : BitVec 16
  accepted : Nat
  tc       : Nat
  /-- Its name among the requests, and its level (R371); it was within budget when it was accepted (R370). -/
  id       : Nat
  level    : Nat
  within   : Bool
  /-- The wait of which its rise to level 5 has been counted (R371). -/
  aged     : Option Nat := none
deriving DecidableEq, Repr

/-- A reduction descriptor (R348, R349, R355, R357). -/
structure Descriptor where
  state     : RedState := .free
  handle    : Nat := 0
  group     : Nat := 0
  round     : Nat := 0
  n         : Nat := 0
  index     : Nat := 0
  gather    : Bool := false
  inFmt     : Nat := 0
  outFmt    : Nat := 0
  scale     : Int := 0
  port      : Nat := 0
  record    : Bool := false
  ctx       : Nat := 0
  chunks    : Nat := 0
  rxFirst   : Nat := 0
  rxCount   : Nat := 0
  filterKey : Nat := 0
  deadline  : Nat := 0
  keyIndex  : Nat := 0
  dest      : Nat := 0
  doneAddr  : Nat := 0
  /-- Group key (R331): km and kc; none until KV delivers it. -/
  keys      : Option (Key × Key) := none
  /-- Chunk indices contributed, and those whose packet waits for the port's link, the key or masks. -/
  contributed : List Nat := []
  waiting   : List Contribution := []
  /-- Packets whose chunks are being decided, each in its staging slot (R353), oldest first: their key or masks are awaited. -/
  staged    : List RedPacket := []
  /-- Packets that their port islands hold because XB found no staging slot free (R353, R16), oldest first. -/
  held      : List RedPacket := []
  heldAt    : Nat := 0
  /-- Chunks (or contributor * chunk_count + chunk) decided. -/
  decided   : List Nat := []
  sent      : Nat := 0
  delivered : Nat := 0
  failed    : Nat := 0
  firstFailed : Nat := 0xFFFFFFFF
  inSat     : Nat := 0
  inNan     : Nat := 0
  outSat    : Nat := 0
  /-- Chunks (or pairs) whose destination write has completed. -/
  written   : List Nat := []
  activated : Nat := 0
  op        : Option Nat := none
  cancelOp  : Option Nat := none
  /-- The postmark at which the bound of R358 on its close ends (R515). -/
  closeBy   : Nat := 0
  /-- The moment of R355 has come: the status, unless a chunk failed; and what is left to do. -/
  ending    : Option Status := none
  /-- When that was (R357). -/
  endedAt   : Nat := 0
  noRecord  : Bool := false
  recording : Bool := false
deriving DecidableEq, Repr

/-- A port island's slot schedule (R25, R341, R377): look-ahead bytes of masks, whether a masking slot is in progress and
since when, and which of the last three slots were masking slots. -/
structure PortSlots where
  ahead   : Nat := 0
  masking : Bool := false
  since   : Nat := 0
  recent  : List Bool := []
deriving DecidableEq, Repr

/-- Reduction staging and counts (R348, R365). -/
structure Reduction where
  descs    : Table Descriptor := []
  ports    : Table PortSlots := []
  completed : Nat := 0
  sent     : Nat := 0
  delivered : Nat := 0
  failed   : Nat := 0
  stray    : Nat := 0
  malformed : Nat := 0
  inSat    : Nat := 0
  inNan    : Nat := 0
  outSat   : Nat := 0
deriving DecidableEq, Repr

/-! ### Regulation -/

/-- A master (R368, R370, R375, R382); `handle` is 256 + row for an internal master of R369. -/
structure Master where
  handle      : Nat
  tc          : Nat
  targetKind  : Nat
  target      : Nat
  outstanding : Nat := 0
  boost       : Nat := 0
  latencies   : List Nat := []
  bytes       : Nat := 0
  demoted     : Nat := 0
  aged        : Nat := 0
  shortfalls  : Nat := 0
  tokens      : Nat := 0
  tokenAt     : Nat := 0
  /-- Charged bytes served in the 10 µs window, and whether a request waited within budget throughout it. -/
  windowBytes : Nat := 0
  waitedAll   : Bool := false
  /-- Charged bytes served in the last 10 µs window (R384). -/
  lastBytes   : Nat := 0
  /-- The outstanding transactions that were accepted within budget. -/
  inBudget    : Nat := 0
  missedSince : Option Nat := none
deriving DecidableEq, Repr

/-- Regulation (chapter 11). -/
structure Regulation where
  masters      : List Master := []
  demoted      : Nat := 0
  aged         : Nat := 0
  tc0Over      : Nat := 0
  tc0Reclassed : Nat := 0
  slotsCut     : Nat := 0
  windowAt     : Nat := 0
  boostAt      : Nat := 0
deriving DecidableEq, Repr

/-! ### Power, thermal and droop -/

/-- A tile's clock (R385, R407): frequency in MHz, 0 when stopped. -/
structure TileClock where
  mhz       : Nat := 0
  /-- Frequencies allowed by the reasons in force: reason code and MHz (R407). -/
  reasons   : List (Nat × Nat) := []
  reasonUs  : Table Nat := []
  stretched : Nat := 0
  lastRaise : Nat := 0
  lastThermRaise : Nat := 0
  lastAlertRaise : Nat := 0
  /-- Target in MHz of a raise that waits for its voltage (R386). -/
  raising   : Option Nat := none
  voltMargin : Int := 0
  sweepV    : Option Nat := none
  sweepT    : Option Nat := none
deriving DecidableEq, Repr

/-- A supply rail (R388). -/
structure Rail where
  mv         : Nat
  continuous : Nat
  peak       : Nat
  silentPolls : Nat := 0
  silent     : Bool := false
  /-- The latest reading: mV, 0.1 A and STATUS_WORD. -/
  volts      : Nat := 0
  amps       : Nat := 0
  status     : BitVec 16 := 0
  /-- The last interval's estimate, in mW. -/
  estimate   : Nat := 0
  /-- The currents judged in the last 500 intervals, newest first, in 0.1 A (R394). -/
  currents   : List Nat := []
  /-- The readings of the window in progress: mV and 0.1 A (R414). -/
  polls      : List (Nat × Nat) := []
  polledAt   : Nat := 0
deriving DecidableEq, Repr

/-- The current lease (R399). -/
structure Lease where
  id      : Nat
  budget  : Nat
  ends    : Nat
deriving DecidableEq, Repr

/-- A margin sweep in progress (R411). -/
structure Sweep where
  tile   : Nat
  kind   : Nat
  step   : Nat
  op     : Nat
  nextAt : Nat
  squash : Bool
  /-- The rail's voltage before it, which its end restores. -/
  mv     : Nat
deriving DecidableEq, Repr

/-- An alarm of a droop detector that has not cleared: since when, and whether it has lasted 10 µs (R402, R403). -/
structure Alarm where
  detector : Nat
  since    : Nat
  lasting  : Bool := false
deriving DecidableEq, Repr

/-- A droop zone (R401 to R403). -/
structure Zone where
  alarms    : List Alarm := []
  stretched : Bool := false
  since     : Nat := 0
  /-- When its newest alarm came: the stretch lasts 32 ns more at least (R402). -/
  newest    : Nat := 0
  /-- Postmarks of the alarms of the last 100 µs. -/
  recent    : List Nat := []
  rateUntil : Nat := 0
  persistent : Bool := false
  clearAt   : Option Nat := none
deriving DecidableEq, Repr

/-- The filter of a discrete input (R503): when it was last read as asserted, its edges of the last 100 µs, newest first, and whether it
chatters. -/
structure Pin where
  low     : Nat := 0
  edges   : List Nat := []
  chatter : Bool := false
deriving DecidableEq, Repr

/-- Power, thermal and droop control (chapter 12). -/
structure Power where
  tiles      : Table TileClock := []
  rails      : List Rail := [
    { mv := 0, continuous := 7000, peak := 9500 }, { mv := 0, continuous := 7000, peak := 9500 },
    { mv := 750, continuous := 1200, peak := 1600 }, { mv := 800, continuous := 600, peak := 800 },
    { mv := 1100, continuous := 2000, peak := 2600 }, { mv := 900, continuous := 1100, peak := 1400 },
    { mv := 900, continuous := 200, peak := 280 }, { mv := 1800, continuous := 120, peak := 160 }]
  /-- PW has started (R506 step 6). -/
  running    : Bool := false
  /-- Interval number, its last estimate, and the estimates of the 1 ms window in progress. -/
  interval   : Nat := 0
  estimate   : Nat := 0
  shared     : Nat := 0
  tileDyn    : Nat := 0
  /-- Per interval of the window: package, shared, tile dynamic. -/
  window     : List (Nat × Nat × Nat) := []
  windowEnd  : Nat := 0
  mean       : Nat := 0
  meanShared : Nat := 0
  meanDyn    : Nat := 0
  sampleRails : List (Nat × Nat × Nat) := []
  boardLimit : Nat := 600
  safeBudget : Nat := 600
  reserve    : Nat := 160
  leaseMode  : Nat := 0
  lease      : Option Lease := none
  /-- Lowering commands pending: operation, budget in W. -/
  lowering   : List (Nat × Nat) := []
  /-- The package powers judged in the last 500 intervals, newest first, in mW (R394). -/
  history    : List Nat := []
  /-- The powers of each partition's tile domains in those intervals, newest first, in mW (R394). -/
  partHist   : Table (List Nat) := []
  /-- Postmarks of the last interval, sensor read and margin computation. -/
  intervalAt : Nat := 0
  thermalAt  : Nat := 0
  marginAt   : Nat := 0
  lapses     : Nat := 0
  lastLimit  : Nat := 600
  lastScale  : Nat := 10000
  calFault   : Bool := false
  userParts  : List Nat := []
  userWeights : Table Int := []
  userLeak   : List Int := []
  userThermal : List Int := []
  userDroop  : List Nat := []
  calId      : BitVec 64 := 0
  invalid    : List Nat := []
  /-- Domain temperatures in 1/16 °C: 16 tiles and the shared domain. -/
  temps      : List Int := []
  tThrottle  : Nat := 95
  /-- Domains held by THERMAL_CRITICAL (R405). -/
  critical   : List Nat := []
  /-- Domains that have reached T_throttle, and not since fallen below T_throttle − 3 °C (R405). -/
  warm       : List Nat := []
  thermTrip  : Bool := false
  tripCleared : Bool := false
  railAlert  : List Nat := []
  alertOn    : Bool := false
  /-- PWR_ALERT_N, latched before PW starts, is read as deasserted again (R504). -/
  alertCleared : Bool := false
  /-- The filters of THERM_TRIP_N and PWR_ALERT_N, and when PW last read the regulators' STATUS_WORD for the latter (R503). -/
  tripPin    : Pin := {}
  alertPin   : Pin := {}
  statusAt   : Option Nat := none
  zones      : Table Zone := []
  headrooms  : List Nat := []
  sweep      : Option Sweep := none
deriving DecidableEq, Repr

/-! ### Faults, health, reset -/

/-- A suspect record (R445). -/
structure Suspect where
  ctx      : Nat
  op       : Nat
  tc       : Nat
  keyIndex : Nat
  address  : Nat
  length   : Nat
  unitKind : Nat
  unit     : Nat
  outcome  : Nat
  time     : Nat
  accepted : Nat
deriving DecidableEq, Repr

/-- A partition reset, or a suspect replay, in progress (R440, R442). -/
structure ResetRun where
  part      : Nat
  /-- False for REPLAY_SUSPECTS (mailbag kind 1). -/
  reset     : Bool
  op        : Nat
  /-- The step of R440 that comes next; 10 to 12 are the three writes that end the mailbag, and 13 is its step 11. -/
  step      : Nat
  replay    : Bool := false
  content   : Bool := false
  /-- Step 9 has run; sample bytes have been included (R444). -/
  replayed  : Bool := false
  included  : Bool := false
  sample    : Nat := 0
  cause     : Nat := 0
  started   : Nat
  /-- The reserved fence of step 4, and the destinations that it met by timeout. -/
  fence     : Option Nat := none
  missed    : Nat := 0
  /-- It has asked for a reserved fence object and found none free: it comes before a waiting close (R152). -/
  asksFence : Bool := false
  discarded : Nat := 0
  /-- The unit being read: its place, the bytes sampled so far, its first read, its status words. -/
  unit      : Nat := 0
  unitBytes : Nat := 0
  unitMark  : Nat := 0
  unitState : Option Bytes := none
  /-- When the read in flight was issued (R448). -/
  unitAt    : Nat := 0
  /-- When step 6 began. -/
  readFrom  : Nat := 0
  notSampled : Nat := 0
  deadline  : Bool := false
  truncated : Bool := false
  /-- RS builds a mailbag: its buffer is set and its link up. -/
  mailbag   : Bool := false
  /-- The suspects with their outcomes, the next to be probed, and when the probe in flight was issued. -/
  suspects  : List Suspect := []
  probe     : Nat := 0
  probeAt   : Option Nat := none
  /-- Stacks that stay fenced because a probe of theirs timed out (R441). -/
  culprit   : Option Nat := none
  /-- The context closes that step 11 completes. -/
  closings  : List Nat := []
  /-- The permit under which it replays has closed: the replay ends at its next probe (R130, R440). -/
  squash    : Bool := false
deriving DecidableEq, Repr

/-- An edge of the wait-for graph (R437). -/
structure Edge where
  waiterKind : Nat
  holderKind : Nat
  waiter     : Nat
  holder     : Nat
  waitedUs   : Nat
deriving DecidableEq, Repr

/-- A wait-for graph snapshot (R436). -/
structure Snapshot where
  gen       : Nat := 0
  edges     : List Edge := []
  /-- Edges beyond the 16,384 that are kept. -/
  dropped   : Nat := 0
  cycle     : Option Nat := none
  postmark  : Nat := 0
deriving DecidableEq, Repr

/-- Faults, health, postcards, reset (chapter 13). -/
structure Faults where
  cause       : Nat := 0
  causeIsland : Nat := 0xFF
  quarantineAt : Nat := 0
  hardFaults  : Nat := 0
  stacksFenced : List Nat := []
  tilesHung   : List Nat := []
  portsHung   : List Nat := []
  linksHung   : List Nat := []
  unitHangs   : Nat := 0
  resets      : Nat := 0
  suspects    : Table (List Suspect) := []
  dropped     : Table Nat := []
  /-- none before the first computation after start (R428). -/
  score       : Option Nat := none
  raw         : Nat := 1023
  band        : Band := .good
  vComp       : Option (Nat × Nat) := none
  tComp       : Option (Nat × Nat) := none
  oComp       : Option (Nat × Nat) := none
  healthAt    : Nat := 0
  linkMargin  : Table Nat := []
  postcards   : Bool := false
  manager     : Nat := 0xFFFF
  period      : Nat := 250
  postcardSeq : Nat := 0
  highestAcked : Nat := 0
  nextPostcard : Nat := 0
  isolated    : Bool := false
  /-- First postcard_seq sent while isolated. -/
  isolatedSeq : Nat := 0
  snapshot    : Snapshot := {}
  mailbagAddr : Nat := 0
  mailbagSize : Nat := 0
  runs        : List ResetRun := []
deriving DecidableEq, Repr

/-! ### Trace and counters -/

/-- A trace record (R461): payload of 20 bytes. -/
structure TraceRec where
  postmark : Nat
  kind     : Nat
  island   : Nat
  flags    : Nat
  handle   : Nat
  payload  : BitVec 160
  /-- The number of the confidential job that it names, as it was when the record was written (R466): no part of the 32 bytes. -/
  secret   : Option Nat
deriving DecidableEq, Repr

/-- The drop tally of an island (R468): count, first and last dropped postmark. -/
structure Tally where
  count : Nat
  first : Nat
  last  : Nat
deriving DecidableEq, Repr

/-- An island's trace buffer (R463, R469); `lastMark` is when it last wrote a record, `drained` the postmark of the record that TH last
drained from it (R467). -/
structure TraceBuf where
  records  : List TraceRec := []
  tally    : Option Tally := none
  lastMark : Option Nat := none
  post     : Nat := 0
  drained  : Nat := 0
deriving DecidableEq, Repr

/-- A trace session (R464, R465, R480). -/
structure Session where
  state     : TraceState := .idle
  mode      : Nat := 0
  owner     : Nat := 0
  number    : Nat := 0
  link      : Nat := 0
  trigKind  : Nat := 0
  trigValue : BitVec 64 := 0
  scope     : Nat := 0
  islands   : BitVec 64 := 0
  kinds     : BitVec 64 := 0
  ring      : Nat := 0
  ringSize  : Nat := 0
  postQuota : Nat := 0
  postLimit : Nat := 0
  period    : Nat := 0
  nextLatch : Nat := 0
  ctx       : Nat := 0xFFFF
  produced  : Nat := 0
  consumed  : Nat := 0
  dropped   : Nat := 0
  ignored   : Nat := 0
  trigMark  : Nat := 0
  atLimit   : List Nat := []
  op        : Option Nat := none
  /-- A trigger has come (R470). -/
  triggered : Bool := false
  /-- No TRIGGER record is owed to the ring (R469). -/
  trigWritten : Bool := true
  endStatus : Status := .done
  /-- A trigger whose TRACE_TRIGGERED is not posted yet: its moment. -/
  announce  : Option Nat := none
  /-- The postmark trigger has been met (R470). -/
  fired     : Bool := false
  /-- When TH last read consumed (R467). -/
  pollAt    : Nat := 0
deriving DecidableEq, Repr

/-- A global counter (R472). -/
structure Counter where
  enable : Bool := false
  mask   : Nat := 0
  event  : Nat := 0
  value  : Nat := 0
  since  : Nat := 0
deriving DecidableEq, Repr

/-- Dead-letter counts (R483). -/
structure DeadLetters where
  tileRequests    : Nat := 0
  fabricResponses : Nat := 0
  inbound         : Nat := 0
  quarantine      : Nat := 0
  doorbells       : Nat := 0
  orphanFaults    : Nat := 0
  letterboxPackets : Nat := 0
deriving DecidableEq, Repr

/-- Timebase, trace and counters (chapter 14). -/
structure Trace where
  resyncs   : Nat := 0
  /-- Islands that woke and have written no record since (R456). -/
  woken     : List Nat := []
  session   : Session := {}
  buffers   : Table TraceBuf := []
  /-- Key: island code * 8 + counter. -/
  counters  : Table Counter := []
  latched   : Table Nat := []
  latchMark : Option Nat := none
  /-- COUNTER_SNAPSHOTs scheduled: postmark and operation. -/
  snapAt    : List (Nat × Nat) := []
  held      : Bool := false
  dead      : DeadLetters := {}
  /-- The next island whose buffer TH drains (R467: in rotation). -/
  turn      : Nat := 0
deriving DecidableEq, Repr

/-! ### The state -/

/-- The block. -/
structure State where
  /-- The postmark counter, in units of 0.25 ns (R453). -/
  now     : Nat := 0
  boot    : Boot := {}
  fuses   : Fuses := {}
  life    : Life := {}
  kv      : Vault := {}
  dg      : Digest := {}
  att     : Attest := {}
  sniby   : Sniby := {}
  parts   : Table Partition := []
  jobs    : Table Job := []
  ctxs    : Table Ctx := []
  regions : Table Region := []
  mem     : Mem := {}
  courier : Courier := {}
  assocs  : Assocs := {}
  /-- Envelope rings, key link * 256 + job handle (R273). -/
  env     : Table EnvRing := []
  remote  : Remote := {}
  red     : Reduction := {}
  reg     : Regulation := {}
  power   : Power := {}
  fault   : Faults := {}
  trace   : Trace := {}
  /-- A verify lane has begun to disagree with its seal lane: the next sealing finds it (R23; DESIGN CHOICE, log 50). -/
  laneOff : Bool := false
  /-- Free values taken so far: the counter of log entry 12, the model's own. -/
  freeCtr : Nat := 0
  /-- What the block has handed to its partners, oldest first: the model's record of its outputs (DESIGN CHOICE, log 8). -/
  out     : List Item := []
  /-- Commands that wait, first in, first out. -/
  pending : List Instr := []
deriving DecidableEq, Repr

/-- The block right after power-on reset, before its start has run (DESIGN CHOICE, log 2). -/
def State.reset : State := {}

end Machine
end Sys2Proof
end

