-- ==== Sys2Proof/Machine/Operands.lean ====
section
/-!
DEFINITION. Machine/Operands.lean: byte strings, fields of structures on the wire (little-endian, R8), sparse tables,
and the operand forms of the commands.
-/

namespace Sys2Proof
namespace Machine

/-! ### Bytes -/

/-- The `n` bytes of `v`, least significant first (R8). -/
def le : Nat → Nat → Bytes
  | 0, _ => []
  | n + 1, v => BitVec.ofNat 8 v :: le n (v / 256)

/-- The number that the bytes spell, least significant first. -/
def ofLe : Bytes → Nat
  | [] => 0
  | b :: r => b.toNat + 256 * ofLe r

/-- `n` zero bytes. -/
def zeros (n : Nat) : Bytes := List.replicate n 0#8

/-- The bytes of a bit vector of `8 * n` bits. -/
def bytesOf {w : Nat} (v : BitVec w) : Bytes := le (w / 8) v.toNat

/-- The bytes of an ASCII label. -/
def ascii (t : String) : Bytes := t.toList.map (fun c => BitVec.ofNat 8 c.toNat)

/-- The `len` bytes of `b` at `off`, zero where `b` ends. -/
def slice (b : Bytes) (off len : Nat) : Bytes :=
  ((b.drop off).take len) ++ zeros (len - ((b.drop off).take len).length)

/-- The number in the `len` bytes of `b` at `off`. -/
def field (b : Bytes) (off len : Nat) : Nat := ofLe ((b.drop off).take len)

/-- The bits `hi` to `lo` of `v`. -/
def bits (v hi lo : Nat) : Nat := v / 2 ^ lo % 2 ^ (hi + 1 - lo)

/-- Bit `i` of `v`. -/
def bit (v i : Nat) : Bool := v / 2 ^ i % 2 == 1

/-- 0 or 1. -/
def flag (b : Bool) : Nat := if b then 1 else 0

/-- The number whose bit `i` is set exactly for the `i` in the list, for `i` below `n`. -/
def maskOf (l : List Nat) : Nat → Nat
  | 0 => 0
  | n + 1 => maskOf l n + (if n ∈ l then 2 ^ n else 0)

/-- The `i` below `n` whose bit is set in `v`, rising. -/
def bitsSet (v n : Nat) : List Nat := (List.range n).filter (bit v)

/-- Overwrites `b` from `off` with `d`. -/
def splice (b : Bytes) (off : Nat) (d : Bytes) : Bytes := b.take off ++ d ++ b.drop (off + d.length)

/-- Replaces the element at `n`. -/
def setAt {α : Type} (l : List α) (n : Nat) (a : α) : List α := l.set n a

/-! ### Sparse tables -/

/-- The entry at a key. -/
def tget {α : Type} : Table α → Nat → Option α
  | [], _ => none
  | (k', v) :: r, k => if k' = k then some v else tget r k

/-- The entry at a key, or what an absent entry reads as. -/
def tgetD {α : Type} (t : Table α) (k : Nat) (d : α) : α := (tget t k).getD d

/-- Writes an entry, keeping the keys in rising order. -/
def tput {α : Type} : Table α → Nat → α → Table α
  | [], k, v => [(k, v)]
  | (k', v') :: r, k, v =>
    if k < k' then (k, v) :: (k', v') :: r
    else if k = k' then (k, v) :: r
    else (k', v') :: tput r k v

/-- Removes an entry. -/
def tdel {α : Type} : Table α → Nat → Table α
  | [], _ => []
  | (k', v') :: r, k => if k = k' then r else (k', v') :: tdel r k

/-- Changes an entry that is there; an absent entry stays absent. -/
def tmod {α : Type} (t : Table α) (k : Nat) (f : α → α) : Table α :=
  match tget t k with
  | some v => tput t k (f v)
  | none => t

/-- Changes an entry, an absent one from its default. -/
def tmodD {α : Type} (t : Table α) (k : Nat) (d : α) (f : α → α) : Table α := tput t k (f (tgetD t k d))

/-- Changes every entry. -/
def tmap {α : Type} (t : Table α) (f : Nat → α → α) : Table α := t.map (fun e => (e.1, f e.1 e.2))

/-- The canonical form of a table: keys strictly rising. -/
def tsorted {α : Type} : Table α → Bool
  | [] => true
  | (k, _) :: r => r.all (fun e => decide (k < e.1)) && tsorted r

/-- The least number below `n` for which `p` holds. -/
def firstBelow (p : Nat → Bool) (n : Nat) : Option Nat := (List.range n).find? p

/-! ### The operand forms of a Sniby command (R39) -/

/-- A command as taken: its opcode, the letterbox it came to, how, and the packet. -/
structure Cmd where
  op  : Nat
  lb  : Nat
  via : Via
  p   : Packet
deriving DecidableEq, Repr

/-- A number in the command's body. -/
def Cmd.arg (c : Cmd) (off len : Nat) : Nat := field c.p.body off len

/-- Bytes of the command's body. -/
def Cmd.bytes (c : Cmd) (off len : Nat) : Bytes := slice c.p.body off len

/-- Bytes 0 to 47 of the packet's header (R39). -/
def headerBytes (op : BitVec 16) (p : Packet) : Bytes :=
  bytesOf op ++ bytesOf p.letterbox ++ bytesOf p.flags ++ bytesOf p.sequence ++ bytesOf p.bodyLength
    ++ bytesOf p.status ++ bytesOf p.retryAfter ++ bytesOf p.nextSeq ++ bytesOf p.detail
    ++ bytesOf p.revision ++ bytesOf p.reserved ++ bytesOf p.cookie ++ bytesOf p.inline

/-- The soonest of some moments. -/
def soonest (l : List Nat) : Option Nat := match l with | [] => none | a :: r => some (r.foldl min a)

/-! ### Objects by the names the commands use -/

/-- The island code of memory island, port island, host island `n` (R437). -/
def islandP (n : Nat) : Nat := 16 + n
def islandH (n : Nat) : Nat := 48 + n
def islandCP : Nat := 50
def islandKV : Nat := 51
def islandDG : Nat := 52
def islandPW : Nat := 53
def islandTH : Nat := 55
def islandLC : Nat := 56
def islandRS : Nat := 58
def islandXB : Nat := 59

end Machine
end Sys2Proof
end

