-- ==== Sys2Proof/Machine/Flags.lean ====
section
/-!
DEFINITION. Machine/Flags.lean: the codes of the states, of the status words, and the counts that saturate.
-/

namespace Sys2Proof
namespace Machine

/-- Status codes (R47). -/
def Status.code : Status → Nat
  | .done => 0x0000
  | .accepted => 0x0001
  | .queuedBehindClose => 0x0002
  | .busy => 0x0101
  | .held => 0x0102
  | .noFit => 0x0201
  | .badParam => 0x0202
  | .badState => 0x0203
  | .notPermitted => 0x0204
  | .revisionMismatch => 0x0205
  | .unknownOpcode => 0x0206
  | .checkFail => 0x0301
  | .replayed => 0x0302
  | .permitInvalid => 0x0303
  | .targetDead => 0x0401
  | .unknownOutcome => 0x0402
  | .integrityLost => 0x0403
  | .timeout => 0x0404
  | .squashed => 0x0405
  | .tamperHeld => 0x0501
  | .lifecycleLocked => 0x0502
  | .faulted => 0x0503

/-- The status that a code of R47 names. -/
def Status.ofCode (n : Nat) : Option Status :=
  [Status.done, .accepted, .queuedBehindClose, .busy, .held, .noFit, .badParam, .badState, .notPermitted,
   .revisionMismatch, .unknownOpcode, .checkFail, .replayed, .permitInvalid, .targetDead, .unknownOutcome,
   .integrityLost, .timeout, .squashed, .tamperHeld, .lifecycleLocked, .faulted].find? (fun x => x.code == n)

/-- block_state (R494). -/
def BlockState.code : BlockState → Nat
  | .starting => 0 | .handshakeReady => 1 | .fullService => 2 | .tamperHeld => 3 | .faulted => 4 | .cpHung => 5

/-- lifecycle_state (R67). -/
def LifeState.code : LifeState → Nat
  | .blank => 0 | .test => 1 | .production => 2 | .endOfLife => 3

/-- transition (R93). -/
def Transition.code : Transition → Nat
  | .none => 0 | .toTest => 1 | .toProduction => 2 | .awaitingResend => 3 | .toEndOfLife => 4 | .complete => 5
  | .stalled => 6

/-- Letterbox state (R37). -/
def LbxState.code : LbxState → Nat
  | .unbound => 0 | .idle => 1 | .opened => 2 | .throttled => 3 | .closing => 4 | .closed => 5

/-- Letterbox binding (R34). -/
def Binding.code : Binding → Nat
  | .none => 0 | .host0 => 1 | .host1 => 2 | .fabric => 3

/-- The link of a host binding. -/
def Binding.link : Binding → Option Nat
  | .host0 => some 0 | .host1 => some 1 | _ => Option.none

/-- Trace session state (R480). -/
def TraceState.code : TraceState → Nat
  | .idle => 0 | .running => 1 | .armed => 2 | .triggered => 3 | .draining => 4

/-- Health band (R428). -/
def Band.code : Band → Nat
  | .good => 0 | .fair => 1 | .poor => 2 | .failing => 3

/-- A count that saturates at the greatest value of `w` bits. -/
def satAdd (w n k : Nat) : Nat := min (n + k) (2 ^ w - 1)

/-- Saturating counts of 32 and of 64 bits. -/
def sat32 (n : Nat) : Nat := min (n + 1) 0xFFFFFFFF
def sat64 (n : Nat) : Nat := min (n + 1) 0xFFFFFFFFFFFFFFFF

/-- A group of 16 fuse bits of the lifecycle word is set when at least 9 read blown (R77). -/
def groupSet (word : BitVec 64) (lo : Nat) : Bool :=
  decide (9 ≤ ((List.range 16).filter (fun i => word.getLsbD (lo + i))).length)

/-- A progress mark, named by its lower bit, reads set when either of its two bits is blown (R78). -/
def markSet (word : BitVec 64) (lo : Nat) : Bool := word.getLsbD lo || word.getLsbD (lo + 1)

/-- A bit of the plain policy word reads 1 when any of its four fuse bits is blown (R85). -/
def policyBit (word : BitVec 64) (n : Nat) : Bool :=
  (List.range 4).any (fun i => word.getLsbD (4 * n + i))

/-- The marks of R78, by their lower bit. -/
def mkTestA : Nat := 0
def mkTestB : Nat := 2
def mkProdA : Nat := 4
def mkProdB : Nat := 6
def mkEolA : Nat := 8
def mkEolB : Nat := 10
def mkRootsComplete : Nat := 12
def mkTestBegun : Nat := 14
def mkTestDone : Nat := 16
def mkProdBegun : Nat := 18
def mkRecordA : Nat := 20
def mkRecordB : Nat := 22
def mkPolicyWritten : Nat := 24
def mkProdDone : Nat := 26
def mkEolBegun : Nat := 28
def mkProdRootDisabled : Nat := 30
def mkEolDone : Nat := 32

/-- The recorded life-cycle state (R77). -/
def Fuses.recorded (f : Fuses) : LifeState :=
  if groupSet f.lifecycleWord 32 || markSet f.progressWord mkEolBegun then .endOfLife
  else if groupSet f.lifecycleWord 16 then .production
  else if groupSet f.lifecycleWord 0 then .test
  else .blank

/-- The policy word in force: both fields read 0 until policy_written is set (R85). -/
def Fuses.policy (f : Fuses) : Nat :=
  if markSet f.progressWord mkPolicyWritten then
    flag (policyBit f.policyWord 0) + 2 * flag (policyBit f.policyWord 1)
  else 0

/-- Enrolment slots with no blown bit and no commit mark (R79). -/
def Fuses.enrolFree (f : Fuses) : List Nat :=
  (List.range 2).filter (fun i =>
    !(f.enrolSlots.getD i {}).blown && !markSet f.progressWord (mkRecordA + 2 * i))

end Machine
end Sys2Proof
end

