-- ==== Sys2Proof/Machine/Standards.lean ====
section
/-!
DEFINITION. Machine/Standards.lean: the primitives that the manual names by their standards: AES-256 (FIPS 197; R22, R165),
Keccak-f[1600] and SHAKE256 (FIPS 202; R105, R108), and KMAC256 (NIST SP 800-185; R10, R108).  The manual gives no tables
for them; they are the standards' own (PRESUMED, log 5).
-/

namespace Sys2Proof
namespace Machine

/-- `f` of a number that is evaluated first: a proof never looks into a primitive of a symbolic argument. -/
def evaluated {α : Type} (n : Nat) (f : Nat → α) : α :=
  match n with
  | 0 => f 0
  | k + 1 => f (k + 1)

/-- The same for each number of a list. -/
def evaluatedAll {α : Type} : List Nat → (List Nat → α) → α
  | [], f => f []
  | n :: r, f => evaluated n (fun v => evaluatedAll r (fun l => f (v :: l)))

/-! ### AES-256 (FIPS 197); a state is its 16 bytes, column by column -/

/-- The S-box, 16 bytes in a row, the first leftmost. -/
def aesSBox : List Nat := [
  0x637C777BF26B6FC53001672BFED7AB76, 0xCA82C97DFA5947F0ADD4A2AF9CA472C0, 0xB7FD9326363FF7CC34A5E5F171D83115,
  0x04C723C31896059A071280E2EB27B275, 0x09832C1A1B6E5AA0523BD6B329E32F84, 0x53D100ED20FCB15B6ACBBE394A4C58CF,
  0xD0EFAAFB434D338545F9027F503C9FA8, 0x51A3408F929D38F5BCB6DA2110FFF3D2, 0xCD0C13EC5F974417C4A77E3D645D1973,
  0x60814FDC222A908846EEB814DE5E0BDB, 0xE0323A0A4906245CC2D3AC629195E479, 0xE7C8376D8DD54EA96C56F4EA657AAE08,
  0xBA78252E1CA6B4C6E8DD741F4BBD8B8A, 0x703EB5664803F60E613557B986C11D9E, 0xE1F8981169D98E949B1E87E9CE5528DF,
  0x8CA1890DBFE6426841992D0FB054BB16]

/-- The inverse S-box. -/
def aesSBoxInv : List Nat := [
  0x52096AD53036A538BF40A39E81F3D7FB, 0x7CE339829B2FFF87348E4344C4DEE9CB, 0x547B9432A6C2233DEE4C950B42FAC34E,
  0x082EA16628D924B2765BA2496D8BD125, 0x72F8F66486689816D4A45CCC5D65B692, 0x6C704850FDEDB9DA5E154657A78D9D84,
  0x90D8AB008CBCD30AF7E45805B8B34506, 0xD02C1E8FCA3F0F02C1AFBD0301138A6B, 0x3A9111414F67DCEA97F2CFCEF0B4E673,
  0x96AC7422E7AD3585E2F937E81C75DF6E, 0x47F11A711D29C5896FB7620EAA18BE1B, 0xFC563E4BC6D279209ADBC0FE78CD5AF4,
  0x1FDDA8338807C731B11210592780EC5F, 0x60517FA919B54A0D2DE57A9F93C99CEF, 0xA0E03B4DAE2AF5B0C8EBBB3C83539961,
  0x172B047EBA77D626E169146355210C7D]

/-- A byte through a table of that form. -/
def sub (table : List Nat) (b : Byte) : Byte :=
  BitVec.ofNat 8 (table.getD (b.toNat / 16) 0 >>> (8 * (15 - b.toNat % 16)))

/-- A byte times x in GF(2^8). -/
def aesX (b : Byte) : Byte := if b.msb then (b <<< 1) ^^^ 0x1B#8 else b <<< 1

/-- A byte times a constant below 16 in GF(2^8). -/
def aesTimes (n : Nat) (b : Byte) : Byte :=
  let b1 := aesX b
  let b2 := aesX b1
  let b3 := aesX b2
  (if n % 2 = 1 then b else 0) ^^^ (if n / 2 % 2 = 1 then b1 else 0) ^^^ (if n / 4 % 2 = 1 then b2 else 0)
    ^^^ (if n / 8 % 2 = 1 then b3 else 0)

def xorBytes (a b : Bytes) : Bytes := a.zipWith (· ^^^ ·) b

/-- Row r of the state moves by r columns: byte i comes from byte i + 4 k (i mod 4), with k 1, or 3 for the inverse. -/
def shiftRows (k : Nat) (s : Bytes) : Bytes := (List.range 16).map (fun i => s.getD ((i + 4 * k * (i % 4)) % 16) 0)

/-- Each column times a circulant matrix whose first row is (a, b, c, d). -/
def mixColumns (a b c d : Nat) : Bytes → Bytes
  | w :: x :: y :: z :: r =>
    let row (p q u v : Byte) : Byte := aesTimes a p ^^^ aesTimes b q ^^^ aesTimes c u ^^^ aesTimes d v
    row w x y z :: row x y z w :: row y z w x :: row z w x y :: mixColumns a b c d r
  | l => l

/-- The next eight words of the key expansion, in bytes, from the last eight. -/
def expandKey (rcon : Byte) (w : Bytes) : Bytes :=
  let word (i : Nat) : Bytes := slice w (4 * i) 4
  let t := (word 7).map (sub aesSBox)
  let w0 := xorBytes (word 0) (xorBytes (t.drop 1 ++ t.take 1) [rcon, 0, 0, 0])
  let w1 := xorBytes (word 1) w0
  let w2 := xorBytes (word 2) w1
  let w3 := xorBytes (word 3) w2
  let w4 := xorBytes (word 4) (w3.map (sub aesSBox))
  let w5 := xorBytes (word 5) w4
  let w6 := xorBytes (word 6) w5
  w0 ++ w1 ++ w2 ++ w3 ++ w4 ++ w5 ++ w6 ++ xorBytes (word 7) w6

/-- `n` times two round keys, from eight words of the expansion on. -/
def roundKeys : Nat → Byte → Bytes → List Bytes
  | 0, _, w => [w.take 16]
  | n + 1, rcon, w => w.take 16 :: w.drop 16 :: roundKeys n (aesX rcon) (expandKey rcon w)

/-- The 15 round keys of a key. -/
def aesKeys (k : Key) : List Bytes := roundKeys 7 1 (bytesOf k)

/-- The rounds after the first key has been added. -/
def aesRounds : List Bytes → Bytes → Bytes
  | [], s => s
  | [k], s => xorBytes (shiftRows 1 (s.map (sub aesSBox))) k
  | k :: r, s => aesRounds r (xorBytes (mixColumns 2 3 1 1 (shiftRows 1 (s.map (sub aesSBox)))) k)

/-- The rounds of the inverse cipher. -/
def aesInvRounds : List Bytes → Bytes → Bytes
  | [], s => s
  | [k], s => xorBytes ((shiftRows 3 s).map (sub aesSBoxInv)) k
  | k :: r, s => aesInvRounds r (mixColumns 14 11 13 9 (xorBytes ((shiftRows 3 s).map (sub aesSBoxInv)) k))

/-- AES-256 encryption of one block (R22, R165). -/
@[irreducible] def aes256 (k : Key) (x : Block) : Block :=
  evaluated k.toNat (fun k => evaluated x.toNat (fun x =>
    let ks := aesKeys (BitVec.ofNat 256 k)
    BitVec.ofNat 128 (ofLe (aesRounds (ks.drop 1) (xorBytes (le 16 x) (ks.headD []))))))

/-- AES-256 decryption of one block (R168, IEEE 1619). -/
@[irreducible] def aes256Inv (k : Key) (x : Block) : Block :=
  evaluated k.toNat (fun k => evaluated x.toNat (fun x =>
    let ks := (aesKeys (BitVec.ofNat 256 k)).reverse
    BitVec.ofNat 128 (ofLe (aesInvRounds (ks.drop 1) (xorBytes (le 16 x) (ks.headD []))))))

/-! ### Keccak-f[1600] (FIPS 202); a state is its 25 lanes, lane (x, y) at x + 5 y -/

/-- The round constants. -/
def keccakRounds : List Nat := [
  0x1, 0x8082, 0x800000000000808A, 0x8000000080008000, 0x808B, 0x80000001, 0x8000000080008081, 0x8000000000008009,
  0x8A, 0x88, 0x80008009, 0x8000000A, 0x8000808B, 0x800000000000008B, 0x8000000000008089, 0x8000000000008003,
  0x8000000000008002, 0x8000000000000080, 0x800A, 0x800000008000000A, 0x8000000080008081, 0x8000000000008080,
  0x80000001, 0x8000000080008008]

/-- A lane rotated to the left. -/
def rotLane (a n : Nat) : Nat := (a <<< n) % 0x10000000000000000 ||| a >>> (64 - n)

/-- The complement of a lane. -/
def notLane (a : Nat) : Nat := a ^^^ 0xFFFFFFFFFFFFFFFF

/-- The theta step's sums of columns. -/
def columns : List Nat → List Nat
  | [a0, a1, a2, a3, a4, a5, a6, a7, a8, a9, a10, a11, a12, a13, a14, a15, a16, a17, a18, a19, a20, a21, a22, a23, a24] =>
    [a0 ^^^ a5 ^^^ a10 ^^^ a15 ^^^ a20, a1 ^^^ a6 ^^^ a11 ^^^ a16 ^^^ a21, a2 ^^^ a7 ^^^ a12 ^^^ a17 ^^^ a22,
     a3 ^^^ a8 ^^^ a13 ^^^ a18 ^^^ a23, a4 ^^^ a9 ^^^ a14 ^^^ a19 ^^^ a24]
  | l => l

/-- What the theta step adds to each column. -/
def columnSums : List Nat → List Nat
  | [c0, c1, c2, c3, c4] => [c4 ^^^ rotLane c1 1, c0 ^^^ rotLane c2 1, c1 ^^^ rotLane c3 1, c2 ^^^ rotLane c4 1,
      c3 ^^^ rotLane c0 1]
  | l => l

/-- The theta, rho and pi steps, from the state and what theta adds. -/
def thetaRhoPi : List Nat → List Nat → List Nat
  | [a0, a1, a2, a3, a4, a5, a6, a7, a8, a9, a10, a11, a12, a13, a14, a15, a16, a17, a18, a19, a20, a21, a22, a23, a24], [d0, d1, d2, d3, d4] =>
    [rotLane (a0 ^^^ d0) 0, rotLane (a6 ^^^ d1) 44, rotLane (a12 ^^^ d2) 43, rotLane (a18 ^^^ d3) 21,
    rotLane (a24 ^^^ d4) 14, rotLane (a3 ^^^ d3) 28, rotLane (a9 ^^^ d4) 20, rotLane (a10 ^^^ d0) 3,
    rotLane (a16 ^^^ d1) 45, rotLane (a22 ^^^ d2) 61, rotLane (a1 ^^^ d1) 1, rotLane (a7 ^^^ d2) 6,
    rotLane (a13 ^^^ d3) 25, rotLane (a19 ^^^ d4) 8, rotLane (a20 ^^^ d0) 18, rotLane (a4 ^^^ d4) 27,
    rotLane (a5 ^^^ d0) 36, rotLane (a11 ^^^ d1) 10, rotLane (a17 ^^^ d2) 15, rotLane (a23 ^^^ d3) 56,
    rotLane (a2 ^^^ d2) 62, rotLane (a8 ^^^ d3) 55, rotLane (a14 ^^^ d4) 39, rotLane (a15 ^^^ d0) 41,
    rotLane (a21 ^^^ d1) 2]
  | l, _ => l

/-- The chi step. -/
def chi : List Nat → List Nat
  | a :: b :: c :: d :: e :: r =>
    (a ^^^ (notLane b &&& c)) :: (b ^^^ (notLane c &&& d)) :: (c ^^^ (notLane d &&& e)) :: (d ^^^ (notLane e &&& a))
      :: (e ^^^ (notLane a &&& b)) :: chi r
  | l => l

/-- The iota step. -/
def iota (rc : Nat) : List Nat → List Nat
  | x :: r => (x ^^^ rc) :: r
  | [] => []

/-- The rounds of Keccak-f[1600]. -/
def keccakRun : List Nat → List Nat → List Nat
  | [], a => a
  | rc :: r, a =>
    evaluatedAll (columnSums (columns a)) (fun d =>
      evaluatedAll (thetaRhoPi a d) (fun b => evaluatedAll (iota rc (chi b)) (keccakRun r)))

/-- Keccak-f[1600]. -/
def keccakF (a : List Nat) : List Nat := keccakRun keccakRounds a

/-- Absorbs `n` blocks of 136 bytes, given as one number, the first byte least significant. -/
def absorb : Nat → Nat → List Nat → List Nat
  | 0, _, a => a
  | n + 1, v, a =>
    absorb n (v >>> 1088)
      (keccakF (a.zipIdx.map (fun e => if e.2 < 17 then e.1 ^^^ (v >>> (64 * e.2)) % 0x10000000000000000 else e.1)))

/-- Squeezes `n` blocks of 136 bytes. -/
def squeeze : Nat → List Nat → Bytes
  | 0, _ => []
  | n + 1, a => (a.take 17).flatMap (le 8) ++ squeeze n (keccakF a)

/-- The sponge of capacity 512: the input with its suffix bits and padding (`suffix`: those bits and the first pad bit), and
as many bits of output as asked for. -/
def sponge (suffix : Byte) (b : Bytes) (bits : Nat) : BitVec bits :=
  evaluatedAll ((b ++ [suffix]).map (·.toNat)) (fun l =>
    let v := l.foldr (fun x a => x + 256 * a) 0
    let n := b.length / 136 + 1
    BitVec.ofNat bits (ofLe (squeeze ((bits / 8 + 135) / 136)
      (absorb n (v ^^^ 0x80 <<< (1088 * n - 8)) (List.replicate 25 0)))))

/-- SHAKE256 (FIPS 202): the input, and the length of the output in bits. -/
@[irreducible] def shake256 (b : Bytes) (bits : Nat) : BitVec bits := sponge 0x1F b bits

/-! ### KMAC256 (SP 800-185) -/

/-- The bytes of a number, most significant first, at least one. -/
def numberBytes (v : Nat) : Bytes := (le (max 1 ((v.log2 + 8) / 8)) v).reverse

def leftEncode (v : Nat) : Bytes := BitVec.ofNat 8 (numberBytes v).length :: numberBytes v
def rightEncode (v : Nat) : Bytes := numberBytes v ++ [BitVec.ofNat 8 (numberBytes v).length]
def encodeString (b : Bytes) : Bytes := leftEncode (8 * b.length) ++ b

/-- bytepad at the rate of 136 bytes. -/
def bytepad (b : Bytes) : Bytes :=
  let x := leftEncode 136 ++ b
  x ++ zeros ((136 - x.length % 136) % 136)

/-- What a KMAC256 with customisation "AETHOK-B" absorbs before its input: the customisation block and the key's (R10, R108). -/
def kmacStart (key : Bytes) : Bytes :=
  bytepad (encodeString (ascii "KMAC") ++ encodeString (ascii "AETHOK-B")) ++ bytepad (encodeString key)

/-- KMAC256 with customisation "AETHOK-B" (R10): key, input, and the length of the output in bits. -/
@[irreducible] def kmac256 (key b : Bytes) (bits : Nat) : BitVec bits :=
  sponge 0x04 (kmacStart key ++ b ++ rightEncode bits) bits

/-- The prefix state of a key: the 25 lanes after those blocks are absorbed (R95). -/
@[irreducible] def kmacPrefix (key : Bytes) : List Nat :=
  evaluatedAll ((kmacStart key).map (·.toNat)) (fun l =>
    absorb (l.length / 136) (l.foldr (fun x a => x + 256 * a) 0) (List.replicate 25 0))

end Machine
end Sys2Proof
end

