-- ==== Sys2Proof/Machine/Ops.lean ====
section
/-!
DEFINITION. Machine/Ops.lean: the operations that the commands share: access to the tables of State, drawn and free
values, trace records and counters, MSI-X, notices and completions, faults, self-quarantine.
-/

namespace Sys2Proof
namespace Machine

/-! ### The verify lanes (R23) -/

/-- A command's operand says that a verify lane has begun to disagree. -/
def State.verifyLane (s : State) (fault : Bool) : State :=
  match fault with
  | true => { s with laneOff := true }
  | false => s

/-- The sealing that finds it has done so. -/
def State.laneFound (s : State) : State := { s with laneOff := false }

/-! ### Fields and encodings -/

/-- Fields (bytes, value) laid out one after the other, as one number. -/
def pack : List (Nat × Nat) → Nat
  | [] => 0
  | (n, v) :: r => v % 256 ^ n + 256 ^ n * pack r

/-- Fields (bytes, value) laid out one after the other, as bytes. -/
def enc : List (Nat × Nat) → Bytes
  | [] => []
  | (n, v) :: r => le n v ++ enc r

/-- A notice's payload, or an inline field, of 16 bytes. -/
def pay (l : List (Nat × Nat)) : BitVec 128 := BitVec.ofNat 128 (pack l)

/-- A notice's object of 8 bytes. -/
def obj (l : List (Nat × Nat)) : BitVec 64 := BitVec.ofNat 64 (pack l)

/-! ### Access to the tables -/

def State.emit (s : State) (i : Item) : State := { s with out := s.out ++ [i] }

/-- The block is powered and out of reset. -/
def State.live (s : State) : Bool := s.boot.powered && !s.boot.inReset

/-- The block is self-quarantined (R420, R421). -/
def State.quarantined (s : State) : Bool := decide (s.fault.cause ≠ 0)

/-- An item that a port island seals, or sends for a request: all but replies, notices and postcards, whose check the CP
computed. -/
def Item.sealed : Item → Bool
  | .reply _ _ _ _ | .notice _ _ _ _ | .postcard _ _ _ => false
  | _ => true

/-- No sealed output is released to the wire: in TAMPER_HELD, and in self-quarantine (R102, R421). -/
def State.sealsHeldBack (s : State) : Bool := s.boot.tamperHeld || s.quarantined

/-- Nothing sealed reaches a stack: outputs are held back, or it is fenced (R102, R421, R424). -/
def State.writeBarred (s : State) (stack : Nat) : Bool := s.sealsHeldBack || decide (stack ∈ s.fault.stacksFenced)

/-- Hands a sealed write to a stack's memory controller: none in TAMPER_HELD and in self-quarantine, and none to a fenced stack (R102,
R421, R424). -/
def State.emitMem (s : State) (stack : Nat) (i : Item) : State :=
  if s.sealsHeldBack = true ∨ stack ∈ s.fault.stacksFenced then s else s.emit i

/-! ### Masters, and Aethok's own DMA (R368 to R370) -/

/-- A master's record, a fresh one where it has none yet. -/
def State.master (s : State) (m tc kind target : Nat) : Master :=
  (s.reg.masters.find? (fun x => x.handle == m && x.tc == tc && x.targetKind == kind && x.target == target)).getD
    { handle := m, tc := tc, targetKind := kind, target := target }

/-- Replaces a master's record. -/
def State.putMaster (s : State) (x : Master) : State :=
  let same (y : Master) : Bool :=
    y.handle == x.handle && y.tc == x.tc && y.targetKind == x.targetKind && y.target == x.target
  let l := if s.reg.masters.any same then s.reg.masters.map (fun y => if same y then x else y)
           else s.reg.masters ++ [x]
  { s with reg := { s.reg with masters := l } }

/-- A transaction of a master completes, its latency measured and its charged bytes served (R370, R375, R382); with the last of those
accepted within budget no request waits within budget any more (R384; DEDUCED, log 67). -/
def Master.done (x : Master) (latency bytes : Nat) (within : Bool) : Master :=
  { x with outstanding := x.outstanding - 1, bytes := satAdd 64 x.bytes bytes, windowBytes := x.windowBytes + bytes,
           latencies := (x.latencies ++ [latency]).drop (x.latencies.length + 1 - 32),
           inBudget := if within then x.inBudget - 1 else x.inBudget,
           waitedAll := x.waitedAll && (!within || decide (1 < x.inBudget)) }

/-- A transaction of a master completes (R370, R375). -/
def State.release (s : State) (m tc kind target accepted bytes : Nat) (within : Bool) : State :=
  s.putMaster ((s.master m tc kind target).done (s.now - accepted) bytes within)

/-- A DMA of Aethok's own over a host link, charged to its internal master (a row of R369): it is done as it is handed over
(DESIGN CHOICE, log 59). -/
def State.dma (s : State) (row tc link bytes : Nat) : State :=
  s.putMaster ((s.master (256 + row) tc 2 link).done 0 bytes true)

/-! ### The tables -/

def State.box (s : State) (lb : Nat) : Lbx := tgetD s.sniby.boxes lb {}
def State.modBox (s : State) (lb : Nat) (f : Lbx → Lbx) : State :=
  { s with sniby := { s.sniby with boxes := tmodD s.sniby.boxes lb {} f } }

def State.job (s : State) (h : Nat) : Option Job := tget s.jobs h
def State.modJob (s : State) (h : Nat) (f : Job → Job) : State := { s with jobs := tmod s.jobs h f }
/-- The handle of an admitted job (R143). -/
def State.handleOf (s : State) (number : Nat) : Option Nat :=
  (s.jobs.find? (fun e => e.2.number == number)).map (·.1)

def State.ctx (s : State) (c : Nat) : Ctx := tgetD s.ctxs c {}
def State.modCtx (s : State) (c : Nat) (f : Ctx → Ctx) : State := { s with ctxs := tmodD s.ctxs c {} f }
/-- The handle of the job whose context numbers contain `c` (R148). -/
def State.jobOfCtx (s : State) (c : Nat) : Option Nat :=
  (s.jobs.find? (fun e => decide (e.2.ctxBase ≤ c) && decide (c < e.2.ctxBase + e.2.maxContexts))).map (·.1)

def State.part (s : State) (p : Nat) : Partition := tgetD s.parts p {}
def State.modPart (s : State) (p : Nat) (f : Partition → Partition) : State :=
  { s with parts := tmodD s.parts p {} f }
/-- The partition that owns a tile, and so the stack of the same number (R134). -/
def State.partOfTile (s : State) (t : Nat) : Option Nat :=
  (s.parts.find? (fun e => decide (e.2.state ≠ .free) && decide (t ∈ e.2.tiles))).map (·.1)

/-- A tile may join no other partition: it is in one, or a resize in progress will add it to one (R134, R137). -/
def State.tileTaken (s : State) (t : Nat) : Bool :=
  s.parts.any (fun e => decide (e.2.state ≠ .free) && (decide (t ∈ e.2.tiles) || decide (t ∈ e.2.newTiles)))

def State.region (s : State) (r : Nat) : Region := tgetD s.regions r {}
def State.modRegion (s : State) (r : Nat) (f : Region → Region) : State :=
  { s with regions := tmodD s.regions r {} f }

/-! ### Drawn and free values -/

/-- A fresh draw of `w` bits from the DRBG (DESIGN CHOICE, log 6). -/
def State.draw (s : State) (w : Nat) : BitVec w × State :=
  (Config.drbg s.kv.personal s.kv.draws w, { s with kv := { s.kv with draws := s.kv.draws + 1 } })

/-- A value of `w` bits that the manual leaves open (DESIGN CHOICE, log 12). -/
def State.free (s : State) (w : Nat) : BitVec w × State :=
  (Config.freeValue s.freeCtr w, { s with freeCtr := s.freeCtr + 1 })

/-! ### Digest calls (R105 to R108) -/

/-- Permutation calls of a KMAC256 over `n` bytes of input and `bits` of output; two fewer where the prefix state is
held (R108). -/
def kmacCalls (n bits : Nat) (prefixHeld : Bool) : Nat :=
  (if prefixHeld then 0 else 2) + (n + (if bits < 256 then 2 else 3)) / 136 + 1

/-- Permutation calls of a SHAKE256 over `n` bytes (R108). -/
def shakeCalls (n : Nat) : Nat := n / 136 + 1

/-- Counts `n` permutation calls, for KV or not (R132). -/
def State.calls (s : State) (n : Nat) (kv : Bool) : State :=
  { s with dg := { s.dg with calls := satAdd 64 s.dg.calls n,
                             callsKv := if kv then satAdd 64 s.dg.callsKv n else s.dg.callsKv } }

/-- The check value of R41: domain byte, session nonce, header or notice bytes, body. -/
def checkValue (key : Key) (domain : Nat) (nonce : BitVec 64) (bytes : Bytes) : BitVec 128 :=
  kmac256 (bytesOf key) (BitVec.ofNat 8 domain :: (bytesOf nonce ++ bytes)) 128

/-- The key of a letterbox (R96). -/
def State.lbxKey (s : State) (lb : Nat) : Option Key :=
  if lb = 0 then s.kv.lbx0 else if lb = 1 then s.kv.lbx1 else tget s.kv.lbxKeys lb

/-! ### Rights (R127 to R130) -/

/-- A permit is open: it has not closed, and its lifetime has not elapsed (R130). -/
def State.permit (s : State) : Option Permit :=
  match s.att.permit with
  | some p => if s.now < p.opened + p.lifetime * Config.ms then some p else none
  | none => none

/-- Right `n` of R127 is open for job number `job`, if it names one (R128). -/
def State.right (s : State) (n : Nat) (job : Option Nat) : Bool :=
  if s.life.inForce = .production then
    match s.permit with
    | some p => p.rights.getLsbD n && (match job with
        | some j => p.scope == 0xFFFFFFFF || p.scope == j
        | none => true)
    | none => false
  else true

/-- Records of the job at a handle may be disclosed (R466). -/
def State.disclose (s : State) (h : Nat) : Bool :=
  match s.job h with
  | some j => !j.confidential || s.right 2 (some j.number)
  | none => true

/-- A record in a buffer may be disclosed: also one of a job that has been torn down since (R466). -/
def State.shows (s : State) (r : TraceRec) : Bool := match r.secret with | some n => s.right 2 (some n) | none => true

/-- Global counters count: every admitted confidential job may be disclosed (R475). -/
def State.countersOpen (s : State) : Bool := s.jobs.all (fun e => s.disclose e.1)

/-! ### Stretches (R401) -/

/-- The islands that an alarm in a zone stretches. -/
def zoneIslands (z : Nat) : List Nat :=
  [z, 16 + 2 * z, 17 + 2 * z] ++ (if z = 0 then [48] else []) ++ (if z = 8 then [49] else [])
    ++ (if z = 7 ∨ z = 8 then [59, 50, 51, 52, 55, 56, 57, 58] else [])

def State.stretched (s : State) (island : Nat) : Bool :=
  s.power.zones.any (fun e => e.2.stretched && decide (island ∈ zoneIslands e.1))

/-! ### Trace records (R461 to R470) -/

def State.modSession (s : State) (f : Session → Session) : State :=
  { s with trace := { s.trace with session := f s.trace.session } }

def State.modBuf (s : State) (i : Nat) (f : TraceBuf → TraceBuf) : State :=
  { s with trace := { s.trace with buffers := tmodD s.trace.buffers i {} f } }

/-- One more record dropped at an island (R468). -/
def tallyAdd (t : Option Tally) (mark : Nat) : Option Tally :=
  match t with
  | some t => some { t with count := t.count + 1, last := mark }
  | none => some { count := 1, first := mark, last := mark }

/-- Drops a record of an island: its tally, and the session's count. -/
def State.dropRec (s : State) (i mark : Nat) : State :=
  (s.modBuf i (fun b => { b with tally := tallyAdd b.tally mark })).modSession
    (fun n => { n with dropped := n.dropped + 1 })

/-- Every island of the mask has reached post_limit: the session drains (R464). -/
def State.limitsMet (s : State) : State :=
  let n := s.trace.session
  if n.state = .triggered ∧ (bitsSet n.islands.toNat 60).all (fun i => decide (i ∈ n.atLimit))
  then s.modSession (fun n => { n with state := .draining }) else s

/-- The trigger reaches the islands (R470): records at or after it carry flag bit 2; a second one is counted. -/
def State.trigger (s : State) (mark : Nat) : State :=
  match s.trace.session.state with
  | .armed =>
    let bufs := tmap s.trace.buffers (fun _ b =>
      { b with records := b.records.map (fun r =>
                 if mark ≤ r.postmark then { r with flags := r.flags ||| 4 } else r),
               post := (b.records.filter (fun r => decide (mark ≤ r.postmark))).length })
    let limit := s.trace.session.postLimit
    let s : State := { s with trace := { s.trace with buffers := bufs } }
    State.limitsMet (s.modSession (fun n => { n with
      state := .triggered, triggered := true, trigMark := mark, announce := some mark, trigWritten := false,
      atLimit := (bufs.filter (fun e => decide (limit ≤ e.2.post))).map (·.1) }))
  | .triggered => s.modSession (fun n => { n with ignored := min (n.ignored + 1) 255 })
  | _ => s

/-- A record passes the session's filters (R465, R466). -/
def State.traceWants (s : State) (island kind : Nat) (handle ctx : Option Nat) : Bool :=
  let n := s.trace.session
  (n.state == .running || n.state == .armed || n.state == .triggered)
    && n.islands.getLsbD island && n.kinds.getLsbD kind
    && decide (island ∉ n.atLimit)
    && (n.scope == 0xFFFFFFFF || (match handle with
          | some h => (match s.job h with | some j => j.number == n.scope | none => false)
          | none => false))
    && (match handle with | some h => s.disclose h | none => true)
    && (n.ctx == 0xFFFF || !(decide (island < 16) || island == 48 || island == 49 || island == 59 || kind == 0x3C)
          || ctx == some n.ctx)

/-- A record enters its buffer in postmark order (R463). -/
def inMarkOrder (r : TraceRec) (l : List TraceRec) : List TraceRec :=
  l.filter (fun o => decide (o.postmark ≤ r.postmark)) ++ r :: l.filter (fun o => decide (r.postmark < o.postmark))

/-- An island writes at most one record in any 2 ns (R463).  The CP's moments lie further apart: it carries out one thing after another,
in a step of the model too (DESIGN CHOICE, log 69). -/
def State.tooSoon (s : State) (island : Nat) : Bool :=
  match (tgetD s.trace.buffers island {}).lastMark with
  | some m => decide (island ≠ islandCP) && decide (s.now < m + 8)
  | none => false

/-- A record of an island is older than one of its that has been drained: it can take its place in postmark order no more, and is dropped
(R467; DESIGN CHOICE, log 69). -/
def State.tooLate (s : State) (r : TraceRec) : Bool := decide (r.postmark < (tgetD s.trace.buffers r.island {}).drained)

/-- A record that passed the filters is written and not dropped (R463, R467 to R469). -/
def State.keepsRec (s : State) (r : TraceRec) : Bool :=
  let n := s.trace.session
  let l := (tgetD s.trace.buffers r.island {}).records
  !s.tooSoon r.island && !s.tooLate r && (match n.state with
    | .armed => decide (n.postQuota < 2048)
    | .triggered => decide (l.length < 2048)
        || (decide (n.trigMark ≤ r.postmark) && l.any (fun o => !Nat.testBit o.flags 2))
    | _ => decide (l.length < 2048))

/-- Puts a record that passed the filters into its island's buffer (R463, R468, R469). -/
def State.bufferRec (s : State) (r : TraceRec) : State :=
  let n := s.trace.session
  let b := tgetD s.trace.buffers r.island {}
  if s.tooSoon r.island = true ∨ s.tooLate r = true then s.dropRec r.island r.postmark
  else
    let put (s : State) (keep : List TraceRec) (r : TraceRec) : State :=
      s.modBuf r.island (fun b => { b with records := inMarkOrder r keep, lastMark := some s.now })
    match n.state with
    | .running =>
      if b.records.length < 2048 then put s b.records r else s.dropRec r.island r.postmark
    | .armed =>
      if b.records.length < 2048 - n.postQuota then put s b.records r
      else match b.records with
        | [] => s.dropRec r.island r.postmark
        | o :: rest => put (s.dropRec r.island o.postmark) rest r
    | .triggered =>
      if n.trigMark ≤ r.postmark then
        let r := { r with flags := r.flags ||| 4 }
        let counted (s : State) : State :=
          let s := s.modBuf r.island (fun b => { b with post := b.post + 1 })
          if n.postLimit ≤ b.post + 1
            then s.modSession (fun n => { n with atLimit := r.island :: n.atLimit }) else s
        if b.records.length < 2048 then put (counted s) b.records r
        else match b.records.find? (fun o => !Nat.testBit o.flags 2) with
          | some o => put ((counted s).dropRec r.island o.postmark) (b.records.erase o) r
          | none => s.dropRec r.island r.postmark
      else if b.records.length < 2048 then put s b.records r
      else s.dropRec r.island r.postmark
    | _ => s

/-- An island has written a record: the next one does not carry the resync flag (R456). -/
def State.stamped (s : State) (island : Nat) : State :=
  { s with trace := { s.trace with woken := s.trace.woken.filter (fun i => i != island) } }

/-- An island writes a trace record with the postmark given. -/
def State.traceAt (s : State) (mark island kind : Nat) (handle ctx : Option Nat) (payload : List (Nat × Nat)) : State :=
  if s.traceWants island kind handle ctx then
    let r : TraceRec := { postmark := mark, kind := kind, island := island,
                          flags := flag (decide (island ∈ s.trace.woken)) + 2 * flag (s.stretched island),
                          handle := handle.getD 0xFF, payload := BitVec.ofNat 160 (pack payload),
                          secret := (handle.bind s.job).bind (fun j => if j.confidential then some j.number else none) }
    let kept := s.keepsRec r
    let s := if kept then (s.bufferRec r).stamped island else s.bufferRec r
    let n := s.trace.session
    let s := if kept = true ∧ n.trigKind = 2 ∧ n.trigValue.toNat % 256 = kind
        ∧ (bits n.trigValue.toNat 27 16 = 0xFFF ∨ ctx = some (bits n.trigValue.toNat 27 16))
      then s.trigger mark else s
    s.limitsMet
  else s

/-- An island writes a trace record some units from now. -/
def State.traceLater (s : State) (delay island kind : Nat) (handle ctx : Option Nat) (payload : List (Nat × Nat)) : State :=
  { State.traceAt { s with now := s.now + delay } (s.now + delay) island kind handle ctx payload with now := s.now }

/-- An island writes a trace record now. -/
def State.traceRec (s : State) (island kind : Nat) (handle ctx : Option Nat) (payload : List (Nat × Nat)) : State :=
  s.traceAt s.now island kind handle ctx payload

/-! ### Counters (R472 to R476) -/

/-- Counts `n` occurrences of an event of an island, of a traffic class or of none (R472, R475). -/
def State.count (s : State) (island event : Nat) (tc : Option Nat) (n : Nat) : State :=
  if s.countersOpen then
    { s with trace := { s.trace with counters := tmap s.trace.counters (fun k c =>
        if (k / 8 == island && c.enable && c.event == event
           && (match tc with | some t => bit c.mask t | none => c.mask == 0)) = true
        then { c with value := (c.value + n) % 2 ^ 48 } else c) } }
  else s

/-- The events that are cycles of an island (R473): run, stretched, and at a port, with credit withheld. -/
def cycleEvent (island event : Nat) : Bool :=
  decide (event ≤ 1) || (event == 9 && decide (16 ≤ island) && decide (island < 48))

/-- Functional cycles that a data island ran between two postmarks: it runs at 1.8 GHz, nine cycles in twenty postmarks, never stops (R20,
R387), and while it is stretched has half as many (R402). -/
def State.cyclesRun (s : State) (i a b : Nat) : Nat :=
  let d := if s.stretched i then 40 else 20
  (9 * b + Config.clockPhase i) / d - (9 * a + Config.clockPhase i) / d

/-- Occurrences of an event of cycles between two postmarks (R473). -/
def State.cyclesOf (s : State) (i event a b : Nat) : Nat :=
  match event with
  | 0 => s.cyclesRun i a b
  | 1 => if s.stretched i then s.cyclesRun i a b else 0
  | _ => min (Config.withheld i a b) (s.cyclesRun i a b)

/-- The counters of cycles take in the cycles run since they were last brought up to now (R473). -/
def State.cyclesSettle (s : State) : State :=
  { s with trace := { s.trace with counters := tmap s.trace.counters (fun k c =>
      if cycleEvent (k / 8) c.event then
        { c with since := s.now,
                 value := if c.enable ∧ c.mask = 0 ∧ s.trace.held = false
                          then (c.value + s.cyclesOf (k / 8) c.event c.since s.now) % 2 ^ 48 else c.value }
      else c) } }

def State.modCounters (s : State) (h : Nat) (f : JobCounters → JobCounters) : State :=
  s.modJob h (fun j => { j with counters := f j.counters })

/-- Adds to the element of a class. -/
def addAt (l : List Nat) (i n : Nat) : List Nat := l.set i (satAdd 64 (l.getD i 0) n)

/-- A request completes: its master's transaction, and the counters of the job that it is charged to (R370, R482). -/
def State.conclude (s : State) (job : Option Nat) (m tc kind target accepted bytes : Nat) (within : Bool) : State :=
  let s := s.release m tc kind target accepted bytes within
  match job with
  | some h => s.modCounters h (fun c => { c with latency := addAt c.latency tc ((s.now - accepted) / 4),
                                                 completions := addAt c.completions tc 1 })
  | none => s

def State.modDead (s : State) (f : DeadLetters → DeadLetters) : State :=
  { s with trace := { s.trace with dead := f s.trace.dead } }

/-- A dead letter that belongs to a context counts for its job too (R482, R483). -/
def State.deadCtx (s : State) (c : Nat) : State :=
  match s.jobOfCtx c with
  | some h => s.modCounters h (fun k => { k with deadLetters := sat64 k.deadLetters })
  | none => s

/-! ### Arbiters (R371 to R373) -/

/-- A master's name among all (R368). -/
def masterKey (m tc kind target : Nat) : Nat := m * 1024 + tc * 256 + kind * 64 + target

/-- The level of a class without budget, guarantee or boost: what no rule stamps takes it, its master of its own (R371; DESIGN CHOICE,
log 67). -/
def classStamp (tc : Nat) : Stamp := { level := if tc = 0 then 7 else 4 - tc, master := masterKey 511 tc 0 0, req := 0 }

/-- The stamp of a request. -/
def Req.stamp (q : Req) : Stamp := { level := q.level, master := masterKey q.master q.tc q.tkind q.target, req := q.id }

/-- The master of a request. -/
def Req.masterName (q : Req) : MasterName := { handle := q.master, tc := q.tc, kind := q.tkind, target := q.target }

/-- The stamp of tree maintenance (R369, R371). -/
def upkeepStamp : Stamp := { level := 6, master := masterKey 259 3 1 0, req := 0 }

/-- The stamp of an operation: tree maintenance's while it writes a wrapped leaf group, else its request's, else that of its buffered
bytes' first write or of the courier. -/
def State.opStamp (s : State) (o : SecOp) : Stamp :=
  if o.group then upkeepStamp
  else match s.mem.reqs.find? (fun q => q.id == o.req) with
  | some q => q.stamp
  | none =>
    { level := o.level, req := 0,
      master := if o.kind = .courier then masterKey 256 3 0 o.island
                else masterKey o.master.handle o.master.tc o.master.kind o.master.target }

/-- The stamp of an item that is handed to a port: a tray's operation has its own, what else is written to a tray is tree maintenance,
which has level 6; a message packet has its class's, and letterbox traffic that of TC1 (R367). -/
def State.itemStamp (s : State) (i : Item) : Stamp :=
  match i with
  | .message _ p => classStamp (p.flags.toNat / 2 % 4)
  | .trayRead _ id _ _ _ => (match s.mem.ops.find? (fun o => o.id == id) with
      | some o => s.opStamp o
      | none => classStamp 1)
  | .trayWrite _ id _ _ _ => (match s.mem.ops.find? (fun o => o.id == id) with
      | some o => s.opStamp o
      | none => upkeepStamp)
  | _ => classStamp 1

/-- The traffic class of an item that is handed to a port: letterbox traffic has TC1 (R367). -/
def State.itemTc (s : State) (i : Item) : Nat :=
  match i with
  | .message _ p => p.flags.toNat / 2 % 4
  | .trayRead _ id _ _ _ | .trayWrite _ id _ _ _ =>
    (match s.mem.ops.find? (fun o => o.id == id) with | some o => o.tc | none => 3)
  | .trayZero _ _ _ _ => 3
  | _ => 1

/-- Bytes that an item takes of its master's turn. -/
def Item.cost : Item → Nat
  | .message _ p => 40 + p.body.length
  | .trayWrite _ _ _ _ b => 64 + b.length
  | _ => 64

/-- A master's turn: it is served in its own order while its credit covers what is next; none is kept once nothing waits. -/
def turnOf {α : Type} : Nat → List (Nat × α) → List α × Nat × List (Nat × α)
  | _, [] => ([], 0, [])
  | d, (c, x) :: r =>
    if c ≤ d then
      let t := turnOf (d - c) r
      (x :: t.1, t.2)
    else ([], d, (c, x) :: r)

/-- Rounds of deficit round robin with a quantum of 256 B over masters' credits and queues (R372). -/
def roundsOf {α : Type} : Nat → List (Nat × List (Nat × α)) → List α
  | 0, l => l.flatMap (fun e => e.2.map (·.2))
  | n + 1, l =>
    let t := l.map (fun e => turnOf (e.1 + 256) e.2)
    t.flatMap (·.1) ++ (if t.all (fun e => e.2.2.isEmpty) then [] else roundsOf n (t.map (·.2)))

/-- The order in which an arbiter serves what waits, given in its order of arrival with levels, masters and bytes: the highest level
first, within it the masters in turn (R372). -/
def arbitrate {α : Type} (l : List (Nat × Nat × Nat × α)) : List α :=
  (List.range 8).reverse.flatMap (fun v =>
    let mine := l.filter (fun e => e.1 == v)
    roundsOf ((mine.map (·.2.2.1)).sum / 256 + 1) ((mine.map (·.2.1)).eraseDups.map (fun m =>
      (0, (mine.filter (fun e => e.2.1 == m)).map (·.2.2)))))

/-- The level at which an item is served that has waited since a moment: raised to 5 after 2 µs (R371). -/
def aged (level since now : Nat) : Nat := if level < 5 ∧ since + 2 * Config.us ≤ now then 5 else level

/-- The level at which a held item is served: its request's, where that is still outstanding. -/
def State.heldLevel (s : State) (x : Held) : Nat :=
  aged (match s.mem.reqs.find? (fun q => q.id == x.stamp.req) with | some q => q.level | none => x.stamp.level) x.since s.now

/-! ### What is handed to a port's logic (R25, R372, R458, R491) -/

/-- A masking slot is in progress at a port: what it has to seal waits for the slot's end (R25). -/
def State.slotMasking (s : State) (port : Nat) : Bool := (tgetD s.red.ports port {}).masking

/-- The item is sealed by the transmit lanes of its port island (R25): a message packet, or a write to a tray of a pooled region that
is sealed, or of its tree. -/
def State.laneSealed (s : State) (i : Item) : Bool :=
  match i with
  | .message _ _ => true
  | .trayWrite _ id _ _ _ =>
    !(s.mem.ops.any (fun o => o.id == id && (match tget s.regions o.region with | some r => r.cls == .opened | none => false)))
  | _ => false

/-- An item can be handed to a port's logic: its link is up and grants credit, and what the lanes seal meets no masking slot. -/
def State.portPasses (s : State) (port : Nat) (i : Item) : Bool :=
  decide (port ∈ s.boot.fabricUp) && decide (port ∉ s.fault.portsHung) && !(s.laneSealed i && s.slotMasking port)

/-- The record and the count of a message packet that port logic takes (R458, R462). -/
def State.packetRec (s : State) (port kind : Nat) (h : Option Nat) (epoch : Nat) (p : MsgPacket) : State :=
  s.traceRec (islandP port) kind h none
    [(2, p.src.toNat), (2, p.dst.toNat), (4, p.job.toNat), (5, p.sequence.toNat % 2 ^ 40), (4, epoch),
     (1, p.kind.toNat * 4 + p.flags.toNat / 2 % 4), (2, p.bodyLength.toNat)]

/-- A port island's arbiter serves an item: its port's logic takes it, or it waits while the link is down or withholds credit (R423,
R491) or a masking slot is in progress (R25); in TAMPER_HELD and in self-quarantine no sealed output is released (R102, R421). -/
def State.serveHeld (s : State) (x : Held) : State :=
  if s.sealsHeldBack = true ∧ x.item.sealed = true then s
  else if s.portPasses x.port x.item then
    match x.sender, x.item with
    | some (h, epoch), .message _ p =>
      ((s.packetRec x.port 0x20 h epoch p).emit x.item).count (islandP x.port) 4 (some (p.flags.toNat / 2 % 4)) (40 + p.body.length)
    | _, _ => (s.emit x.item).count (islandP x.port) 4 (some (s.itemTc x.item)) x.item.cost
  else { s with boot := { s.boot with heldItems := s.boot.heldItems ++ [x] } }

/-- Hands an item that is no message packet to a port. -/
def State.emitPort (s : State) (port : Nat) (i : Item) : State :=
  s.serveHeld { port := port, item := i, stamp := s.itemStamp i, since := s.now, sender := none,
                order := s.mem.nextId }

/-- Hands a message packet of a job to a port, with its request's stamp if it carries one. -/
def State.emitPacket (s : State) (port : Nat) (h : Option Nat) (epoch : Nat) (stamp : Option Stamp) (p : MsgPacket) : State :=
  s.serveHeld { port := port, item := .message port p, stamp := stamp.getD (s.itemStamp (.message port p)), since := s.now,
                sender := some (h, epoch), order := s.mem.nextId }

/-! ### MSI-X (R64, R496) -/

/-- Raises a vector of a link, at most once in any 2 µs; a write during the quiet interval raises it at its end. -/
def State.raise (s : State) (link vector : Nat) : State :=
  let k := link * 512 + vector
  if s.now < tgetD s.boot.msixQuiet k 0 then
    { s with boot := { s.boot with msixDeferred := if k ∈ s.boot.msixDeferred then s.boot.msixDeferred
                                                   else s.boot.msixDeferred ++ [k] } }
  else
    { s with boot := { s.boot with msixQuiet := tput s.boot.msixQuiet k (s.now + 2 * Config.us) },
             out := s.out ++ [.msix link vector] }

/-- A change of BLOCK_STATUS or BOOT_STATUS raises vector 320 on every link that is up (R496, R500). -/
def State.statusChanged (s : State) : State := s.boot.hostUp.foldl (fun s l => s.raise l 320) s


/-- Sets BOOT_STATUS.code; a change raises vector 320 (R495, R496). -/
def State.setBootCode (s : State) (code : Nat) : State :=
  if s.boot.bootCode = code then s else State.statusChanged { s with boot := { s.boot with bootCode := code } }

/-- Sets block_state; CP_HUNG ends only at a start (R425). -/
def State.setBlock (s : State) (b : BlockState) : State :=
  if s.boot.blockState = b ∨ s.boot.blockState = .cpHung then s
  else State.statusChanged { s with boot := { s.boot with blockState := b } }

/-- A write to a host-bound letterbox's rings raises its vector (R64). -/
def State.raiseBox (s : State) (lb : Nat) : State :=
  let b := s.box lb
  match b.binding.link with
  | some l => if b.msixEnable then s.raise l lb else s
  | none => s

/-! ### Notices (R53 to R57) -/

/-- Firmware that can write replies and notices runs: not hung, not held, and DG has a pair (R43, R111, R425). -/
def State.canPost (s : State) : Bool :=
  s.boot.fwRunning && !s.boot.tamperHeld && decide (s.boot.blockState ≠ .cpHung) && !s.dg.pairs.isEmpty

/-- Bytes 0 to 47 of a notice (R53). -/
def noticeBytes (n : Notice) : Bytes :=
  enc [(2, n.noticeType), (1, n.letterbox), (1, flag n.dropsPending), (4, n.noticeSeq), (8, n.postmark),
       (2, n.status.code), (2, n.opcode), (4, n.commandSeq.toNat), (8, n.object.toNat), (16, n.payload.toNat)]

/-- The host address of the notice ring's next entry, of the reply slot of the command in progress, and of that command's own
slot (R34, R36). -/
def Lbx.ntcSlot (b : Lbx) : Nat := b.ntcBase * 4096 + b.ntcProduced % 2 ^ b.ntcLog2 * 64
def Lbx.rplSlot (b : Lbx) : Nat := b.rplBase * 4096 + b.cmdConsumed % 2 ^ b.rplLog2 * 4096
def Lbx.cmdSlot (b : Lbx) : Nat := b.cmdBase * 4096 + b.cmdConsumed % 2 ^ b.cmdLog2 * 4096

/-- Depth of the notice ring in force, and entries of it that are written and not freed (R56, R63). -/
def Lbx.ringDepth (b : Lbx) : Nat := if b.binding = .fabric then 256 else 2 ^ b.ntcLog2
def Lbx.ringUsed (b : Lbx) : Nat :=
  if b.binding = .fabric then b.fabricRing.length else (b.ntcProduced + 65536 - b.ntcConsumed) % 65536

/-- Entries reserved for completion notices not yet written (R56). -/
def State.reserved (s : State) (lb : Nat) : Nat :=
  (s.sniby.pendingOps.filter (fun o => o.lb == lb)).length + (s.box lb).heldNotices.length

/-- The port to a node: its route entry's, else that of its latest command that passed its check (R512). -/
def State.portTo (s : State) (node : Nat) : Option Nat :=
  match tget s.remote.routes node with
  | some r => if r.valid then some r.port else tget s.sniby.nodePorts node
  | none => tget s.sniby.nodePorts node

/-- Writes a notice: its letterbox, drops_pending, notice_seq and check (R53, R54, R57). -/
def State.writeNotice (s : State) (lb : Nat) (dest : Option (Nat × Nat)) (n : Notice) : State :=
  match s.lbxKey lb with
  | none => s
  | some key =>
    let b := s.box lb
    let n := { n with letterbox := lb, dropsPending := b.dropsPending, noticeSeq := b.noticeSeq + 1 }
    let n := { n with check := checkValue key 3 b.session (noticeBytes n) }
    let s := s.modBox lb (fun b => { b with
      noticeSeq := b.noticeSeq + 1, dropsPending := false,
      ntcProduced := if b.binding = .fabric then b.ntcProduced else (b.ntcProduced + 1) % 65536,
      fabricRing := if b.binding = .fabric then b.fabricRing ++ [b.noticeSeq + 1] else b.fabricRing })
    let s := match dest with
      | some d => s.emitPort d.1 (.notice lb dest 0 n)
      | none => State.emit (match b.binding.link with | some l => s.dma 5 1 l 64 | none => s) (.notice lb dest b.ntcSlot n)
    let s := s.calls (kmacCalls 57 128 false) false
    let s := s.raiseBox lb
    s.traceAt n.postmark islandCP 0x31 none none
      [(2, n.noticeType), (1, lb), (1, flag n.dropsPending), (4, n.noticeSeq), (2, n.status.code), (10, 0)]

/-- Where a FABRIC-bound letterbox's notice goes: letterbox 1's to the node of the latest command that passed its check,
another's to the node that sent the command, else to that of its latest one (R63). -/
def State.noticeDest (s : State) (lb : Nat) (node : Option Nat) : Option (Nat × Nat) :=
  let b := s.box lb
  let last := b.lastNode.map (·.2)
  match (if lb = 1 then last else node.or last) with
  | some n => (s.portTo n).map (fun p => (p, n))
  | none => none

/-- Delivers a notice whose entry is reserved or was found free: writes it, or holds it in its entry (R35, R63). -/
def State.deliver (s : State) (lb : Nat) (node : Option Nat) (n : Notice) : State :=
  let b := s.box lb
  let hold := s.modBox lb (fun b => { b with heldNotices := b.heldNotices ++ [(n, node)] })
  if b.state = .unbound ∨ b.state = .closed then s
  else if b.binding = .fabric then
    match s.noticeDest lb node with
    | some d => s.writeNotice lb (some d) n
    | none => hold
  else if b.enable then s.writeNotice lb none n
  else hold

/-- Writes the notices held for a letterbox that can take them now, where firmware can write notices (R111). -/
def State.flushHeld (s : State) (lb : Nat) : State :=
  let held := (s.box lb).heldNotices
  if s.canPost then held.foldl (fun s e => s.deliver lb e.2 e.1) (s.modBox lb (fun b => { b with heldNotices := [] }))
  else s

/-- An event notice for one letterbox: written if a free unreserved entry is there, else dropped and counted (R57). -/
def State.eventTo (s : State) (lb : Nat) (n : Notice) : State :=
  let b := s.box lb
  if (b.binding = .fabric ∨ b.enable = true) ∧ b.ringUsed + s.reserved lb < b.ringDepth
  then s.deliver lb none n
  else s.modBox lb (fun b => { b with ringFullDrops := sat32 b.ringFullDrops, dropsPending := true,
                                      noticeSeq := b.noticeSeq + 1 })

/-- The letterboxes that an event notice reaches (R55): subscribers of its class, job letterboxes for their own job
alone, and those it is directed to. -/
def State.takers (s : State) (cls : Nat) (jobs : List Nat) (directed : List Nat) : List Nat :=
  (s.sniby.boxes.filter (fun e =>
      decide (e.2.state ≠ .unbound) && decide (e.2.state ≠ .closed)
        && (decide (e.1 ∈ directed)
            || (e.2.classMask.getLsbD cls
                && (decide (e.1 < 2) || jobs.any (fun h => match s.job h with
                     | some j => j.letterbox == some e.1
                     | none => false)))))).map (·.1)

/-- A notice posted or dropped, of jobs whose records may be disclosed, may be what a session is triggered by (R470). -/
def State.noticeSeen (s : State) (mark type : Nat) (jobs : List Nat) : State :=
  let n := s.trace.session
  if n.trigKind = 1 ∧ n.trigValue.toNat % 65536 = type ∧ jobs.all (fun h => s.disclose h) ∧ (n.state = .armed ∨ n.state = .triggered)
  then s.trigger mark else s

/-- Posts an event notice (R55, R57) of an event that occurred at `mark`. -/
def State.postAt (s : State) (mark type : Nat) (status : Status) (object : BitVec 64) (payload : BitVec 128)
    (jobs : List Nat) (directed : List Nat) : State :=
  if s.canPost then
    let n : Notice := { noticeType := type, letterbox := 0, dropsPending := false, noticeSeq := 0, postmark := mark,
                        status := status, opcode := 0, commandSeq := 0, object := object, payload := payload, check := 0 }
    let dest_ := s.takers (type / 256) jobs directed
    let s := s.noticeSeen mark type jobs
    if dest_.isEmpty then { s with sniby := { s.sniby with unsubscribed := sat32 s.sniby.unsubscribed } }
    else dest_.foldl (fun s lb => s.eventTo lb n) s
  else s

/-- Posts an event notice of this moment, with status DONE where the chapter names none. -/
def State.post (s : State) (type : Nat) (status : Status) (object : List (Nat × Nat)) (payload : List (Nat × Nat))
    (jobs : List Nat) : State :=
  s.postAt s.now type status (obj object) (pay payload) jobs []

/-- Posts a notice at most once in `units` for one object (the rate limits of the chapters). -/
def State.postLimited (s : State) (units type key : Nat) (status : Status) (object : List (Nat × Nat))
    (payload : List (Nat × Nat)) (jobs : List Nat) (directed : List Nat) : State :=
  if s.sniby.posted.any (fun e => e.1 == type && e.2.1 == key && decide (s.now < e.2.2 + units)) then s
  else
    let s : State := { s with sniby := { s.sniby with
      posted := (s.sniby.posted.filter (fun (e : Nat × Nat × Nat) => !(e.1 == type && e.2.1 == key))) ++ [(type, key, s.now)] } }
    s.postAt s.now type status (obj object) (pay payload) jobs directed

/-! ### Operations and completion notices (R56) -/

def State.opOf (s : State) (id : Nat) : Option PendingOp := s.sniby.pendingOps.find? (fun o => o.id == id)

/-- Changes a pending operation's bound. -/
def State.setBound (s : State) (id : Nat) (b : Option Nat) : State :=
  { s with sniby := { s.sniby with pendingOps := s.sniby.pendingOps.map (fun o =>
      if o.id = id then { o with bound := b } else o) } }

/-- The node a command came from. -/
def Via.node : Via → Option Nat
  | .host _ => none
  | .fabric _ n => some n

/-- Completes an operation: its entry is freed and its completion notice written, or held in it (R55, R56). -/
def State.complete (s : State) (id : Nat) (status : Status) (payload : List (Nat × Nat)) : State :=
  match s.opOf id with
  | none => s
  | some o =>
    let s : State := { s with sniby := { s.sniby with pendingOps := s.sniby.pendingOps.filter (fun o => o.id != id) } }
    if s.canPost then
      (s.noticeSeen s.now 0x0100 ((s.jobs.filter (fun e => e.2.letterbox == some o.lb)).map (·.1))).deliver o.lb (Via.node o.via)
        { noticeType := 0x0100, letterbox := o.lb, dropsPending := false, noticeSeq := 0, postmark := s.now,
          status := status, opcode := o.opcode, commandSeq := o.sequence, object := o.cookie,
          payload := pay payload, check := 0 }
    else s

/-- Completes an operation that may be absent. -/
def State.completeOpt (s : State) (id : Option Nat) (status : Status) (payload : List (Nat × Nat)) : State :=
  match id with
  | some id => s.complete id status payload
  | none => s

/-! ### Re-enabling an object that is closing (R58, R59) -/

/-- The close of an object ended: DONE starts the command held behind it, any other status completes it BAD_STATE. -/
def State.closeEnded (s : State) (c : Closable) (ok : Bool) : State :=
  match s.sniby.heldBehind.find? (fun e => e.1 == c) with
  | none => s
  | some e =>
    let s : State := { s with sniby := { s.sniby with heldBehind := s.sniby.heldBehind.filter (fun e => e.1 != c) } }
    if ok then { s with sniby := { s.sniby with ready := s.sniby.ready ++ [e.2] } }
    else s.complete e.2.op .badState []

/-- Withdraws the commands held behind closes that `p` picks: each completes SQUASHED. -/
def State.squashHeld (s : State) (p : Closable → HeldCmd → Bool) : State :=
  let gone := s.sniby.heldBehind.filter (fun e => p e.1 e.2)
  let s : State := { s with sniby := { s.sniby with heldBehind := s.sniby.heldBehind.filter (fun e => !p e.1 e.2) } }
  gone.foldl (fun s e => s.complete e.2.op .squashed []) s

/-! ### Trace sessions end (R471) -/

/-- The fields of the ring head in host memory that TH writes (R467): produced, and what follows consumed. -/
def State.ringHead (s : State) (ended : Bool) : State :=
  let n := s.trace.session
  ((s.dma 7 3 n.link 56).emit (.hostWrite n.link n.ring (le 8 n.produced))).emit (.hostWrite n.link (n.ring + 16)
    (enc [(4, n.number), (1, if ended then 2 else 1), (3, 0), (8, n.dropped), (32, 0)]))

/-- Ends the session: what the buffers hold is lost and counted, TRACE_START completes, TRACE_ENDED is posted. -/
def State.endSession (s : State) (status : Status) (writeHead : Bool) : State :=
  let n := s.trace.session
  if n.state = .idle then s
  else
    let lost := (s.trace.buffers.map (fun e => e.2.records.length)).sum
    let s := s.modSession (fun n => { n with state := .idle, dropped := n.dropped + lost, endStatus := status })
    let s : State := { s with trace := { s.trace with buffers := [] } }
    let s := if writeHead then s.ringHead true else s
    let s := s.completeOpt n.op status []
    let s := s.modSession (fun n => { n with op := none })
    s.post 0x0D02 status [(4, n.number)] [(8, n.dropped + lost)] []

/-! ### A permit closes (R130) -/

/-- Access and operations under the rights of a permit end. -/
def State.rightsEnd (s : State) (p : Permit) : State :=
    let s : State := { s with att := { s.att with permit := none },
                              boot := { s.boot with cpHalted := false,
                                                    tap := if s.life.inForce = LifeState.production then TapInstr.bypass else s.boot.tap },
                              power := { s.power with sweep := s.power.sweep.map (fun (w : Sweep) => { w with squash := true }) },
                              fault := { s.fault with runs := s.fault.runs.map (fun (r : ResetRun) =>
                                if r.step = 9 ∧ p.rights.getLsbD 4 = true then { r with squash := true } else r) } }
    let kept := tmap s.trace.buffers (fun _ b => { b with records := b.records.filter s.shows })
    let lost := (s.trace.buffers.map (fun e => (e.2.records.filter (fun r => !s.shows r)).length)).sum
    let s : State := { s with trace := { s.trace with buffers := kept } }
    let s := s.modSession (fun n => { n with dropped := n.dropped + lost })
    let shut := if s.countersOpen then [] else s.trace.snapAt
    let s : State := { s with trace := { s.trace with snapAt := s.trace.snapAt.filter (fun e => decide (e ∉ shut)) } }
    shut.foldl (fun s e => s.complete e.2 .squashed []) s

/-- The open permit closes, and 0x0301 is posted. -/
def State.closePermit (s : State) : State :=
  match s.att.permit with
  | none => s
  | some p => (s.rightsEnd p).post 0x0301 .done [(4, p.rights.toNat)] [] []

/-! ### Faults (R417, R418) -/

/-- Raises a fault against a context: its counts and last fault, then the notice at most once in `units` for one
object.  A context that is FREE or CLOSING takes none: an orphan fault. -/
def State.raiseFault (s : State) (island ctx type reason : Nat) (units key : Nat) (status : Status)
    (object payload : List (Nat × Nat)) : State :=
  let c := s.ctx ctx
  if c.state = .opened then
    let h := s.jobOfCtx ctx
    let s := s.modCtx ctx (fun c => { c with faults := sat32 c.faults, lastType := type, lastReason := reason,
                                             lastMark := s.now })
    let s := match h with
      | some h => s.modCounters h (fun k => { k with faults := sat64 k.faults })
      | none => s
    let s := s.traceRec island 0x3C h (some ctx)
      [(2, type), (1, reason), (1, 0), (2, ctx), (2, 0), (8, pack object), (4, 0)]
    s.postLimited units type key status object payload h.toList []
  else (s.modDead (fun d => { d with orphanFaults := sat64 d.orphanFaults })).deadCtx ctx

/-! ### Answers at the tile request port (R489) -/

/-- XB returns a response to a tile; for a hung crossbar or a stopped tile it is a dead letter, of the request's context (R423, R440,
R483). -/
def State.tileAnswer (s : State) (t : Nat) (ctx : Option Nat) (r : TileResponse) : State :=
  let stopped := match s.partOfTile t with
    | some p => s.fault.runs.any (fun n => n.part == p && n.reset && decide (2 < n.step))
    | none => false
  if t ∈ s.fault.tilesHung ∨ stopped = true then
    let s := s.modDead (fun d => { d with fabricResponses := sat64 d.fabricResponses })
    match ctx with
    | some c => s.deadCtx c
    | none => s
  else s.emit (.tile t r)

/-- An error response with zero-filled data. -/
def errorResponse (tag : BitVec 16) (status : Status) (type reason length : Nat) : TileResponse :=
  { tag := tag, status := status, noticeType := type, reason := reason, data := zeros length, result := 0 }

/-! ### Isolation (R431, R432) -/

/-- The node becomes isolated, for cause 1 postcards, 2 a DEAD verdict, 3 quarantine. -/
def State.isolate (s : State) (cause : Nat) : State :=
  if s.fault.isolated then s
  else
    let s : State := { s with fault := { s.fault with isolated := true, isolatedSeq := s.fault.postcardSeq + 1 } }
    s.post 0x0C04 .targetDead [(1, cause)] [(4, s.fault.highestAcked)] []

/-! ### Self-quarantine (R420 to R422) and tamper (R102) -/

/-- A local offset, or a global address of the pooled space, as a global address (R445, R462). -/
def State.globalOf (s : State) (tkind address : Nat) : Nat :=
  if tkind = 1 then address else s.boot.nodeNumber * 2 ^ 48 + address

/-- The job that a request is charged to, if it is a job's. -/
def Req.job (q : Req) : Option Nat := if q.master < 256 then some q.master else none

/-- The REQ_COMPLETE record of a tile's request (R462). -/
def State.completeRec (s : State) (q : Req) (st : Status) : State :=
  s.traceRec islandXB 0x11 q.job q.ctx
    [(8, s.globalOf q.tkind q.address), (2, q.ctx.getD 0xFFFF), (1, q.code), (1, q.tc), (2, st.code),
     (4, (s.now - q.accepted) / 4), (2, 0)]

/-- A unit of the block itself asked for the request, and goes on at its end: RS's probe, or a write of a reduction. -/
def Origin.ofUnit (o : Origin) : Bool :=
  match o with
  | .probe _ => true
  | .chunk _ _ => true
  | .recordWrite _ => true
  | _ => false

/-- Every data request in flight is answered with an error response with zero-filled data (R102, R421): a tile's and BAR2's here, one of
RS or of a reduction as it is handed over. -/
def State.failAll (s : State) (st : Status) : State :=
  let answer (s : State) (q : Req) : State :=
    let s := s.conclude q.job q.master q.tc q.tkind q.target q.accepted q.charged q.within
    match q.origin with
    | .tile t tag => (s.completeRec q st).tileAnswer t q.ctx (errorResponse tag st 0 0 (if q.kind = .read then q.length else 0))
    | .bar l tag => if q.kind = .read then s.emit (.barData l tag (zeros q.length)) else s
    | _ => s
  let units := (s.mem.finished ++ s.mem.reqs.map (fun (q : Req) => { q with failure := q.failure.or (some (st, 0, 0)) })).filter
    (fun q => q.origin.ofUnit)
  let s := s.mem.reqs.foldl answer s
  let s := s.red.descs.foldl (fun s e => e.2.waiting.foldl (fun s w =>
    (s.conclude (some e.2.handle) e.2.handle w.tc 1 e.2.port w.accepted 0 w.within).tileAnswer w.tile (some e.2.ctx)
      (errorResponse w.tag st 0 0 0)) s) s
  let fenceTiles := s.remote.fences.filterMap (fun e => e.2.tileReq.map (fun r => (r, e.2.tileCtx)))
  let runs := s.mem.zeroRuns
  let subs := s.mem.subtrees
  let s : State := { s with
    mem := { s.mem with
      reqs := [], finished := units, ops := [], fetches := [], wc := [], trackers := [], seen := [], zeroRuns := [], subtrees := [] },
    remote := { s.remote with reqs := [], fences := tmap s.remote.fences (fun _ f =>
      if f.tileReq.isSome then { f with state := if f.state = .armed then .idle else f.state, tileReq := none, nodes := [] }
      else f) },
    red := { s.red with descs := tmap s.red.descs (fun _ (d : Descriptor) => { d with waiting := [], staged := [], held := [] }) },
    kv := { s.kv with requests := [] },
    dg := { s.dg with streams := [] } }
  let s := fenceTiles.foldl (fun s r =>
    s.tileAnswer (r.1 / 65536) (some r.2) (errorResponse (BitVec.ofNat 16 r.1) st 0 0 0)) s
  (runs.map (·.op) ++ subs.map (·.op)).foldl (fun s id => s.complete id st []) s

/-- The keys that self-quarantine and END_OF_LIFE step 1 clear, all but the device slots, and with them the derivations that run
under a job root (R421, R88).  An association stays in its
state with its keys zero: R88 closes none, and without TAMPER_HELD one that was OPEN goes on sealing under them (DESIGN CHOICE,
log 47). -/
def State.clearJobKeys (s : State) : State :=
  { s with
    kv := { s.kv with jobRoots := [], cache := [], lbxKeys := [], schedules := [], requests := [] },
    dg := { s.dg with streams := [] },
    assocs := { s.assocs with entries := s.assocs.entries.map (fun a =>
      { a with epochs := a.epochs.map (fun e => { e with keyTx := 0, keyRx := 0 }), answerKeys := (0, 0), answer := none }) },
    red := { s.red with descs := tmap s.red.descs (fun _ d => { d with keys := none }),
                        ports := tmap s.red.ports (fun _ (x : PortSlots) => { x with ahead := 0 }) },
    env := tmap s.env (fun _ e => { e with sk0 := none, sk1 := none }) }

/-- Envelope rings become DISABLED: what was in flight on them is dropped. -/
def disableRing (e : EnvRing) : EnvRing :=
  { e with state := .disabled, enable := false, flights := [], sk0 := none, sk1 := none }

/-- A hard fault of a cause of R420 at an island: self-quarantine (R421). -/
def State.hardFault (s : State) (cause island : Nat) : State :=
  let s : State := { s with fault := { s.fault with hardFaults := sat32 s.fault.hardFaults } }
  if s.boot.tamperHeld = true ∨ s.quarantined = true then s
  else
    let s := s.traceRec island 0x3C none none
      [(2, 0x0C01), (1, 0), (1, 0), (2, 0xFFFF), (2, 0), (8, cause + 256 * island), (4, 0)]
    let s := s.clearJobKeys
    let s := s.failAll .faulted
    let s : State := { s with env := tmap s.env (fun _ e => disableRing e) }
    let s : State := { s with fault := { s.fault with cause := cause, causeIsland := island, quarantineAt := s.now },
                              boot := { s.boot with heldItems := s.boot.heldItems.filter (fun e => !e.item.sealed) } }
    let s := s.endSession .squashed true
    let s := s.closePermit
    let held := s.sniby.places
    let s : State := { s with sniby := { s.sniby with places := [] } }
    let s := held.foldl (fun s p => match p with
      | .command c => s.complete c.op .faulted []
      | _ => s) s
    let s : State := { s with sniby := { s.sniby with boxes := tmap s.sniby.boxes (fun lb (b : Lbx) =>
      if 2 ≤ lb ∧ b.state ≠ LbxState.unbound then { b with state := .closed, heldNotices := [], waiting := [] } else b) } }
    let s := s.setBlock .faulted
    let s := s.isolate 3
    s.post 0x0C01 .faulted [(1, cause), (1, island)] [] []

/-- Clears every store of R95, the DRBG state and the cores (R102); the permit closes (R130). -/
def State.tamperClear (s : State) : State :=
  let s := match s.att.permit with | some p => s.rightsEnd p | none => s
  let s := s.clearJobKeys
  { s with kv := { s.kv with roots := [], enrolling := none, personal := 0, enrolSecret := none, lbx0 := none, lbx1 := none,
                             attest := none, transport := none, permit := none, requests := [] },
           dg := { s.dg with streams := [] },
           att := { s.att with nonces := [] },
           boot := { s.boot with cpHalted := false,
                                 tap := if s.life.inForce = LifeState.production then TapInstr.bypass else s.boot.tap,
                                 heldItems := s.boot.heldItems.filter (fun e => !e.item.sealed) },
           power := { s.power with sweep := s.power.sweep.map (fun (w : Sweep) => { w with squash := true }) } }

end Machine
end Sys2Proof
end

