-- ==== Sys2Proof/Machine/Keys.lean ====
section
/-!
DEFINITION. Machine/Keys.lean: derivations of the key vault (R96 to R101), the derived-key cache, key requests and the
digest engine's streams (R105 to R110).
-/

namespace Sys2Proof
namespace Machine

/-! ### Derivations (R96) -/

/-- A key derived under a JRK: label, fields, length in bits. -/
def jobKey (jrk : Key) (label : String) (fields : Bytes) (bits : Nat) : BitVec bits :=
  kmac256 (bytesOf jrk) (ascii label ++ fields) bits

/-- Data key of a key index and generation. -/
def dataKey (jrk : Key) (index gen : Nat) : Key := jobKey jrk "DATA" (enc [(4, index), (1, gen)]) 256

/-- Job letterbox key. -/
def lbxJobKey (jrk : Key) (number lb : Nat) (nonce : BitVec 64) : Key :=
  jobKey jrk "LBX-JOB" (enc [(4, number), (1, lb), (8, nonce.toNat)]) 256

/-- Association keys of two nodes under a key epoch, both directions. -/
def assocKeys (jrk : Key) (a b epoch : Nat) : BitVec 512 :=
  jobKey jrk "ASSOC" (enc [(2, min a b), (2, max a b), (4, epoch)]) 512

/-- Reduction group key of a group and a round. -/
def reduceKey (jrk : Key) (group round : Nat) : BitVec 512 :=
  jobKey jrk "REDUCE" (enc [(2, group), (4, round)]) 512

/-- Host envelope key of a link and a direction. -/
def envKey (jrk : Key) (link direction : Nat) : Key :=
  jobKey jrk "HOST-ENV" (enc [(1, link), (1, direction)]) 256

/-- One derivation is counted, with its permutation calls (R94, R132). -/
def State.derived (s : State) (calls : Nat) : State :=
  State.calls { s with kv := { s.kv with derivations := sat64 s.kv.derivations } } calls true

/-- The JRK of a handle's slot, for a derivation that the slot's state allows (R100). -/
def State.slotKey (s : State) (h : Nat) (kind : KeyKind) : Option Key :=
  match tget s.kv.jobRoots h with
  | none => none
  | some r =>
    match r.state, kind with
    | .active, _ => some r.jrk
    | .loaded, .data 0 0xFF => some r.jrk
    | .draining, .data _ _ => some r.jrk
    | .draining, .assoc _ _ => some r.jrk
    | _, _ => none

/-- KV has delivered a key of the job at a handle to an island, whose report is awaited at the job's end (R101). -/
def State.keyHeldBy (s : State) (h island : Nat) : State :=
  { s with kv := { s.kv with jobRoots := tmod s.kv.jobRoots h (fun r =>
      if island ∈ r.holders then r else { r with holders := r.holders ++ [island] }) } }

/-- Every island has reported that it holds no key schedule and no request of the job (R101 rule 6). -/
def State.keysReported (s : State) (h : Nat) : State :=
  { s with kv := { s.kv with jobRoots := tmod s.kv.jobRoots h (fun r => { r with holders := [] }) } }

/-- KV zeroises a job root slot that it may zeroise: a LOADED one, or one of which no island holds a key; else it is a key-vault
check failure (R101 rule 6). -/
def State.zeroiseSlot (s : State) (h : Nat) : State :=
  match tget s.kv.jobRoots h with
  | none => s
  | some r =>
    if r.state = .loaded ∨ r.holders = [] then { s with kv := { s.kv with jobRoots := tdel s.kv.jobRoots h } }
    else s.hardFault 1 islandKV

/-! ### The derived-key cache (R97, R98) -/

/-- The cached key of an index and generation. -/
def State.cached (s : State) (h index gen : Nat) : Option CacheEntry :=
  s.kv.cache.find? (fun e => e.handle == h && e.index == index && e.gen == gen)

/-- The entry of the oldest last use among some. -/
def oldest (l : List CacheEntry) : Option CacheEntry :=
  match l with
  | [] => none
  | e :: r => some (r.foldl (fun m e => if e.lastUse < m.lastUse then e else m) e)

/-- Inserts a derived key: into an invalid way of its set, else over the way with the oldest last use (R98).  An entry that has not
been hit counts as last used when it was inserted, and of equal ones the first listed goes (DESIGN CHOICE, log 48). -/
def State.cacheInsert (s : State) (h index gen : Nat) (key : Key) : State :=
  let set := Config.cacheHash h index % 4096
  let cache := s.kv.cache.filter (fun e => !(e.handle == h && e.index == index && e.gen == gen))
  let ways := cache.filter (fun e => e.set == set)
  let cache := if ways.length < 16 then cache
    else match oldest ways with
      | some o => cache.erase o
      | none => cache
  { s with kv := { s.kv with cache := cache ++
    [{ set := set, handle := h, index := index, gen := gen, key := key, lastUse := s.now }] } }

/-- Purges the entries and the expanded schedules of one key index up to a generation (R98, R174). -/
def State.purgeIndex (s : State) (h index gen : Nat) : State :=
  { s with kv := { s.kv with
      cache := s.kv.cache.filter (fun e => !(e.handle == h && e.index == index && decide (e.gen ≤ gen))),
      schedules := s.kv.schedules.filter (fun e => !(e.handle == h && e.index == index && decide (e.gen ≤ gen))) } }

/-- Purges every entry and schedule of a job. -/
def State.purgeJob (s : State) (h : Nat) : State :=
  { s with kv := { s.kv with cache := s.kv.cache.filter (fun e => e.handle != h),
                             schedules := s.kv.schedules.filter (fun e => e.handle != h) } }

/-! ### Streams of the digest engine (R105 to R107) -/

/-- Gives each free pair to the waiting stream of highest priority, the oldest first, among the eight held. -/
def State.schedule (s : State) : State :=
  let n := s.dg.pairs.length
  let give (l : List Stream) (p : Nat) : List Stream :=
    if (l.take 8).any (fun x => x.pair == some p) then l
    else
      let wait := (l.take 8).filter (fun x => x.pair.isNone)
      match wait.foldl (fun (m : Option Stream) x => match m with
          | none => some x
          | some y => if x.prio < y.prio then some x else m) none with
      | none => l
      | some x => l.map (fun y => if y.id = x.id then { y with pair := some p } else y)
  { s with dg := { s.dg with streams := (List.range n).foldl give s.dg.streams } }

/-- Opens a stream under a key (R95, R106). -/
def State.openStream (s : State) (prio calls : Nat) (what : StreamFor) (key : Key) : State :=
  State.schedule { s with dg := { s.dg with
    streams := s.dg.streams ++ [{ id := s.dg.nextStream, prio := prio, left := calls, purpose := what, key := key, pair := none }],
    nextStream := s.dg.nextStream + 1 } }

/-! ### Key requests (R99) -/

/-- An island asks KV for a key: a data key from the cache at once, any other after a derivation.  A request that the
slot's state does not allow is a key-vault check failure (R101). -/
def State.keyRequest (s : State) (island h : Nat) (kind : KeyKind) : State :=
  if s.kv.requests.any (fun r => r.island == island && r.handle == h && r.kind == kind) then s
  else match s.slotKey h kind with
  | none => s.hardFault 1 islandKV
  | some jrk =>
    let id := s.kv.nextReq
    let add (s : State) (ready : Bool) : State :=
      { s with kv := { s.kv with nextReq := id + 1, requests := s.kv.requests ++
        [{ id := id, island := island, handle := h, kind := kind, ready := ready }] } }
    let hit : Bool := match kind with
      | .data index gen => (s.cached h index gen).isSome
      | _ => false
    let isData : Bool := match kind with | .data _ _ => true | _ => false
    if hit then
      let s := add s true
      { s with kv := { s.kv with
          hits := sat64 s.kv.hits,
          cache := s.kv.cache.map (fun e => if e.handle = h ∧ KeyKind.data e.index e.gen = kind
                                            then { e with lastUse := s.now } else e) } }
    else
      let s := add s false
      let s : State := if isData then { s with kv := { s.kv with misses := sat64 s.kv.misses } } else s
      s.openStream 1 1 (.key id) jrk

/-- A derivation's stream has ended: the key waits at its delivery, and a data key enters the cache. -/
def State.streamDone (s : State) (what : StreamFor) : State :=
  match what with
  | .key id =>
    match s.kv.requests.find? (fun r => r.id == id) with
    | none => s
    | some r =>
      let s := s.derived 0
      let waits := s.kv.requests.map (fun r => if r.id = id then { r with ready := true } else r)
      let s : State := { s with kv := { s.kv with requests := waits } }
      match r.kind, s.slotKey r.handle r.kind with
      | .data i g, some jrk => s.cacheInsert r.handle i g (dataKey jrk i g)
      | _, _ => s
  | _ => s

/-- A compare fails on a pair (R110): both cores are fenced, the others tested, one pair formed of those that pass. -/
def State.compareFailure (s : State) (pair : Nat) (kat : List Bool) : State :=
  let bad := match s.dg.pairs[pair]? with
    | some (a, b) => [a, b]
    | none => []
  let fenced := (List.range 4).filter (fun c => decide (c ∈ s.dg.fenced) || decide (c ∈ bad) || !(kat.getD c true))
  let good := (List.range 4).filter (fun c => decide (c ∉ fenced))
  let pairs := match good with
    | a :: b :: _ => [(a, b)]
    | _ => []
  let tested := (List.range 4).filter (fun c => decide (c ∉ s.dg.fenced) && decide (c ∉ bad))
  let s : State := { s with dg := { s.dg with
    fenced := fenced, pairs := pairs, compareFailures := sat32 s.dg.compareFailures,
    streams := (s.dg.streams.filter (fun x => x.pair != some pair)).map (fun x => { x with pair := none }) } }
  let s := s.calls (tested.length * Config.katCalls) false
  let s : State := if s.boot.fwRunning then s else State.statusChanged { s with boot := { s.boot with bootCode := 6 } }
  s.hardFault 2 islandDG

/-- The compare of a call on a pair fails.  A pair that computes no stream of a key request computes one of firmware's: the pair is
fenced like any other, and the command that owns the aborted stream is the next one that reaches its turn (DESIGN CHOICE, log 51).
The call that failed was made, and counts (R132). -/
def State.callFails (s : State) (pair : Nat) (kat : List Bool) : State :=
  let owned := s.dg.streams.all (fun x => x.pair != some pair)
  let kv := s.dg.streams.any (fun x => x.pair == some pair && (match x.purpose with | .key _ => true | _ => false))
  let s := (s.calls 1 kv).compareFailure pair kat
  { s with dg := { s.dg with aborted := s.dg.aborted || (owned && s.boot.fwRunning) } }

/-- A stream goes to the end of the eight that DG holds (R106, R107: calls in rotation within a priority). -/
def rotateStream (l : List Stream) (x : Stream) : List Stream :=
  (l.take 8).filter (fun y => y.id != x.id) ++ [x] ++ l.drop 8

/-- DIGEST_CALL_END (R105 to R107, R110): the call of a pair ends, its two results equal or not. -/
def State.callEnd (s : State) (pair : Nat) (equal : Bool) (kat : List Bool) : State :=
  if s.dg.pairs.length ≤ pair then s
  else if equal = false then s.callFails pair kat
  else match s.dg.streams.find? (fun x => x.pair == some pair) with
    | none => s
    | some x =>
      let s := s.calls 1 (match x.purpose with | .key _ => true | _ => false)
      if x.left ≤ 1 then
        State.streamDone (State.schedule { s with dg := { s.dg with
          streams := s.dg.streams.filter (fun y => y.id != x.id) } }) x.purpose
      else
        State.schedule { s with dg := { s.dg with
          streams := rotateStream s.dg.streams { x with left := x.left - 1, pair := none } } }

/-- DIGEST_WATCHDOG (R423): a call not released within 1 µs is a compare failure. -/
def State.digestWatchdog (s : State) (pair : Nat) (kat : List Bool) : State :=
  if s.dg.pairs.length ≤ pair then s
  else State.callFails { s with fault := { s.fault with unitHangs := sat64 s.fault.unitHangs } } pair kat

/-- The known-answer test of a start (R109): failing cores are fenced, and pairs formed of the others. -/
def State.selfTest (s : State) (kat : List Bool) : State :=
  let s := s.calls (4 * Config.katCalls) false
  let good := (List.range 4).filter (fun c => kat.getD c true)
  let pairs := match good with
    | [a, b, c, d] => [(a, b), (c, d)]
    | a :: b :: _ => [(a, b)]
    | _ => []
  { s with dg := { s.dg with fenced := (List.range 4).filter (fun c => !(kat.getD c true)), pairs := pairs } }

end Machine
end Sys2Proof
end

