-- ==== Sys2Proof/Machine/Letterbox.lean ====
section
/-!
DEFINITION. Machine/Letterbox.lean: how a Sniby command is taken, checked in the order of R46, answered, held and
completed.  Each family of commands gives its handlers; this file knows no opcode.
-/

namespace Sys2Proof
namespace Machine

/-! ### What a handler says -/

/-- An answer: status, detail (R49), the estimate E of a BUSY in µs (R515), results, and the payload of the completion
notice if the command had been held. -/
structure Ans where
  status  : Status
  detail  : Nat := 0
  wait    : Nat := 100
  inline  : BitVec 128 := 0
  body    : Bytes := []
  payload : List (Nat × Nat) := []
deriving DecidableEq, Repr

/-- What steps 12 to 14 of R46 give. -/
inductive Verdict where
  /-- Refused at step 12, before a token is drawn. -/
  | stop (a : Ans)
  /-- Carried out, or refused, at step 14; what follows the reply, if anything does. -/
  | reply (a : Ans) (s : State) (after : State → State := id)
  /-- ACCEPTED: the reply's body, the operation's bound in µs, how the operation of a given identity starts, and what steps 1 to
  12 have done already, which stands even where step 13 answers BUSY (R143). -/
  | accept (body : Bytes) (bound : Option Nat) (start : Nat → State → State) (spent : State → State := id)
  /-- A re-enabling command of an object that is closing; the close's remaining bound in µs (R58). -/
  | behind (c : Closable) (remain : Nat)
  /-- A metadata fetch must come back first: the CP waits for it, and decides the command again (R198). -/
  | wait (s : State)

/-- One opcode: who may use it (R61 and the chapter's class column), in which life-cycle states, its body lengths
(R511), its parameters in the order of their offsets (each with whether it is good), whether it waits for full service
(R507), and steps 12 to 14. -/
structure Handler where
  root    : Bool := true
  manager : Bool := true
  job     : Bool := true
  states  : LifeState → Bool := fun _ => true
  length  : Nat → Bool
  inline  : Bool := false
  allowed : State → Cmd → Bool := fun _ _ => true
  /-- A check that the owning chapter's own order puts before step 11 (R46). -/
  before  : State → Cmd → Option (Status × Nat) := fun _ _ => none
  params  : State → Cmd → List (Nat × Bool) := fun _ _ => []
  service : Bool := false
  run     : State → Cmd → Verdict

/-- DONE with a body. -/
def ok (body : Bytes) : Ans := { status := .done, body := body }

/-- Refusals at step 12. -/
def refuse (st : Status) : Verdict := .stop { status := st }
def refuseDetail (st : Status) (d : Nat) : Verdict := .stop { status := st, detail := d }
def badField (d : Nat) : Verdict := .stop { status := .badParam, detail := d }
def busyFor (e : Nat) : Verdict := .stop { status := .busy, wait := e }

/-- A query: DONE with a body, nothing else. -/
def answerWith (s : State) (body : Bytes) : Verdict := .reply (ok body) s

/-- DONE without a body, with an effect. -/
def doneWith (s : State) : Verdict := .reply (ok []) s

/-- A refusal of step 14, which step 13 precedes: a job letterbox draws its token (R46, R60). -/
def failWith (s : State) (st : Status) : Verdict := .reply { status := st } s

/-- A fixed body length. -/
def exactly (n : Nat) : Nat → Bool := fun l => l == n

/-- A body field that must be zero, at its offset from the start of the packet (R9, R49). -/
def zeroAt (c : Cmd) (off len : Nat) : Nat × Bool := (64 + off, c.arg off len == 0)

/-! ### Replies -/

/-- Bytes 0 to 47 of a reply (R39). -/
def replyBytes (r : Reply) : Bytes :=
  enc [(2, r.opcode), (1, r.letterbox), (1, 1), (4, r.sequence.toNat), (2, r.body.length), (2, r.status.code),
       (4, r.retryAfter), (4, r.nextSeq), (2, r.detail), (1, 0x32), (1, 0), (8, r.cookie.toNat), (16, r.inline.toNat)]

/-- A reply has been written: the slot count, the vector, the COMMAND record (R36, R64, R462). -/
def State.replied (s : State) (c : Cmd) (st : Status) : State :=
  let b := s.box c.lb
  let s := match c.via with
    | .host _ => s.modBox c.lb (fun b => { b with cmdConsumed := (b.cmdConsumed + 1) % 65536 })
    | .fabric _ _ => s
  let s := s.raiseBox c.lb
  s.traceRec islandCP 0x30 none none
    [(2, c.op), (1, c.lb), (1, 0), (4, c.p.sequence.toNat), (2, st.code), (2, 0),
     (4, (s.now - b.doorbellAt) / 4), (4, 0)]

/-- Hands a reply over: to the slot of the host's reply ring that has its command's index (R36), or to the port its command came
through (R512). -/
def State.emitReply (s : State) (c : Cmd) (r : Reply) : State :=
  match c.via with
  | .host l => (s.dma 5 1 l (64 + r.body.length)).emit (.reply c.lb c.via (s.box c.lb).rplSlot r)
  | .fabric p _ => s.emitPort p (.reply c.lb c.via 0 r)

/-- An unauthenticated reply (R514). -/
def State.unauth (s : State) (c : Cmd) (st : Status) : State :=
  (s.emitReply c (
    { opcode := c.op, letterbox := c.lb, sequence := c.p.sequence, status := st, retryAfter := 0, nextSeq := 0,
      detail := 0, cookie := c.p.cookie, inline := 0, body := [], check := 0 } : Reply)).replied c st

/-- retry_after of a BUSY (R48): at least 10 µs, with a jitter of up to a quarter. -/
def State.retryAfter (s : State) (e : Nat) : Nat × State :=
  let e := max e 10
  let (j, s) := s.draw 32
  (e + j.toNat % (e / 4 + 1), s)

/-- Writes an authenticated reply under a key and a session nonce (R41, R49). -/
def State.replyWith (s : State) (c : Cmd) (key : Key) (nonce : BitVec 64) (a : Ans) : State :=
  let (retry, s) := if a.status = .busy then s.retryAfter a.wait else (0, s)
  let r : Reply := { opcode := c.op, letterbox := c.lb, sequence := c.p.sequence, status := a.status,
                     retryAfter := retry, nextSeq := (s.box c.lb).nextSeq, detail := a.detail, cookie := c.p.cookie,
                     inline := a.inline, body := a.body, check := 0 }
  let r := { r with check := checkValue key 2 nonce (replyBytes r ++ a.body) }
  ((s.emitReply c r).calls (kmacCalls (57 + a.body.length) 128 false) false).replied c a.status

/-! ### Checks 1 to 4 -/

/-- Check 1 of R46: the framing. -/
def framed (c : Cmd) : Bool :=
  decide (c.p.bodyLength.toNat ≤ 4032) && c.p.letterbox.toNat == c.lb && !c.p.flags.getLsbD 0

/-- Check 3 of R46: the check value verifies under the letterbox's key and session nonce (R41). -/
def checked (key : Key) (nonce : BitVec 64) (c : Cmd) : Bool :=
  c.p.check == checkValue key 1 nonce (headerBytes (BitVec.ofNat 16 c.op) c.p ++ c.p.body)

/-- A command that ends in CHECK_FAIL: the reply carries the current session nonce (R45); the eighth in a row on an OPEN
letterbox throttles it (R38, R513). -/
def State.checkFailed (s : State) (c : Cmd) (key : Key) : State :=
  let b := s.box c.lb
  let s := s.replyWith c key b.session { status := .checkFail, inline := pay [(8, b.session.toNat)] }
  if b.state = .opened ∧ 8 ≤ b.failCount + 1 then
    let s := s.modBox c.lb (fun b => { b with state := .throttled, failCount := 0,
                                              throttledUntil := s.now + 10 * Config.ms })
    s.post 0x0101 .checkFail [(1, c.lb)] [(8, s.now + 10 * Config.ms)]
      (match s.jobs.find? (fun e => e.2.letterbox == some c.lb) with | some e => [e.1] | none => [])
  else s.modBox c.lb (fun b => { b with failCount := b.failCount + 1 })

/-! ### Checks 5 to 11 -/

/-- The class of a letterbox (R32) may use the opcode. -/
def classOk (h : Handler) (lb : Nat) : Bool :=
  if lb = 0 then h.root else if lb = 1 then h.manager else h.job

/-- The commands that self-quarantine leaves (R46, step 6). -/
def servedFaulted (lb op : Nat) : Bool :=
  op == 0x0101 || op == 0x0104 || (lb == 0 && op / 256 == 0x0C)

/-- The header fields that a command must leave zero, and its body length, each at its offset (R39, R511). -/
def headerParams (h : Handler) (c : Cmd) : List (Nat × Bool) :=
  [(3, c.p.flags.toNat / 2 == 0), (8, h.length c.p.bodyLength.toNat), (10, c.p.status == 0),
   (12, c.p.retryAfter == 0), (16, c.p.nextSeq == 0), (20, c.p.detail == 0), (23, c.p.reserved == 0),
   (32, h.inline || c.p.inline == 0)]

/-- The offset of the first bad field. -/
def firstBad (l : List (Nat × Bool)) : Option Nat := (l.find? (fun e => !e.2)).map (·.1)

/-- Step 11 of R46: the first offending field, header first. -/
def paramFault (h : Handler) (s : State) (c : Cmd) : Option Nat :=
  match firstBad (headerParams h c) with
  | some d => some d
  | none => firstBad (h.params s c)

/-- Checks 5 to 11 of R46, in order: the first that fails, with its detail. -/
def preCheck (h : Option Handler) (s : State) (c : Cmd) : Option (Status × Nat) :=
  let b := s.box c.lb
  if c.p.revision ≠ Config.revisionByte then some (.revisionMismatch, 0)
  else if s.quarantined = true ∧ servedFaulted c.lb c.op = false then some (.faulted, 0)
  else if b.state = .closing ∨ (0xFFFFF000 ≤ c.p.sequence.toNat ∧ c.op ≠ 0x0102) then some (.badState, 0)
  else match h with
    | none => some (.unknownOpcode, 0)
    | some h =>
      if (classOk h c.lb && h.allowed s c) = false then some (.notPermitted, 0)
      else if h.states s.life.inForce = false
          ∨ (s.life.transition = .complete ∧ c.op ≠ 0x0101 ∧ c.op ≠ 0x0200) then some (.lifecycleLocked, 0)
      else match h.before s c, paramFault h s c with
        | some e, _ => some e
        | none, some d => some (.badParam, d)
        | none, none => none

/-! ### Step 13: limits (R60, R515) -/

/-- Whole µs from now to a bound, rounded down (DESIGN CHOICE, log 62). -/
def State.remaining (s : State) (bound : Nat) : Nat := (bound - s.now) / Config.us

/-- The least remaining bound among operations, 100 µs when none has one (R515). -/
def State.leastBound (s : State) (ops : List PendingOp) : Nat :=
  match (ops.filterMap (fun o => o.bound.map s.remaining)) with
  | [] => 100
  | l => l.foldl min 0xFFFFFFFF

/-- Whether one more operation has room, or the estimate of its BUSY (R56, R60). -/
def State.opRoom (s : State) (lb : Nat) : Option Nat :=
  let mine := s.sniby.pendingOps.filter (fun o => o.lb == lb)
  if min 64 ((s.box lb).ringDepth / 2) ≤ s.reserved lb then some (s.leastBound mine)
  else if 2048 ≤ s.sniby.pendingOps.length then some (s.leastBound s.sniby.pendingOps)
  else none

/-- The tokens of a job letterbox now: 50,000 a second, 256 at most (R60); with the time they are counted from. -/
def State.tokensNow (s : State) (lb : Nat) : Nat × Nat :=
  let b := s.box lb
  let got := (s.now - b.tokenAt) / 80000
  if 256 ≤ b.tokens + got then (256, s.now) else (b.tokens + got, b.tokenAt + got * 80000)

/-- Draws a token: the state after, or the estimate of the BUSY, rounded up to whole µs (DESIGN CHOICE, log 62). -/
def State.takeToken (s : State) (lb : Nat) : Except Nat State :=
  if lb < 2 then .ok s
  else
    let (n, t) := s.tokensNow lb
    if n = 0 then .error ((80000 - (s.now - t) + Config.us - 1) / Config.us)
    else .ok (s.modBox lb (fun b => { b with tokens := n - 1, tokenAt := t }))

/-- A new operation: its identity and the state that holds it. -/
def State.newOp (s : State) (c : Cmd) (bound : Option Nat) : Nat × State :=
  let id := s.sniby.nextOp
  (id, { s with sniby := { s.sniby with nextOp := id + 1, pendingOps := s.sniby.pendingOps ++
    [{ id := id, lb := c.lb, opcode := c.op, sequence := c.p.sequence, cookie := c.p.cookie, via := c.via,
       accepted := s.now, bound := bound.map (fun b => s.now + b * Config.us) }] } })

/-- Occupied places of the poste restante, and HELLOs refused in the preceding 100 ms (R508). -/
def State.posteWait (s : State) : Nat :=
  25 * (s.sniby.places.length + (s.sniby.refusals.filter (fun t => decide (s.now < t + 100 * Config.ms))).length)

/-- The command a held record keeps. -/
def HeldCmd.cmd (k : HeldCmd) : Cmd := { op := k.opcode, lb := k.lb, via := k.via, p := k.packet }

/-! ### Serving one command -/

/-- The block is between its start and full service: a command that needs a service of R507 waits for it (R62). -/
def State.awaitsService (s : State) : Bool :=
  s.boot.blockState == .starting || s.boot.blockState == .handshakeReady

/-- A command holds the CP until its fetch has ended; `op` is its operation where it was held before (R198). -/
def State.block (s : State) (c : Cmd) (op : Nat) (nonce : Option (BitVec 64)) : State :=
  let k : HeldCmd := { opcode := c.op, lb := c.lb, via := c.via, packet := c.p, op := op, since := s.now }
  { s with sniby := { s.sniby with blocked := some (k, nonce) } }

/-- Answers a command that passed checks 1 to 4: `nonce` is the session nonce it was checked under. -/
def State.decideCmd (s : State) (h : Option Handler) (c : Cmd) (key : Key) (nonce : BitVec 64) : State :=
  let busy (s : State) (e : Nat) : State := s.replyWith c key nonce { status := .busy, wait := e }
  match preCheck h s c with
  | some (st, d) => s.replyWith c key nonce { status := st, detail := d }
  | none =>
    match h with
    | none => s
    | some h =>
      let early := h.service && s.awaitsService
      if early = true ∧ c.lb = 0 then
        match s.opRoom c.lb with
        | some e => busy s e
        | none =>
          if 4096 ≤ s.sniby.places.length then busy s s.posteWait
          else
            let (id, s) := s.newOp c none
            let s : State := { s with sniby := { s.sniby with places := s.sniby.places ++
              [.command { opcode := c.op, lb := c.lb, via := c.via, packet := c.p, op := id, since := s.now }] } }
            s.replyWith c key nonce { status := .held }
      else
        match h.run s c with
        | .stop a => s.replyWith c key nonce a
        | .behind o remain =>
          if s.sniby.heldBehind.any (fun e => e.1 == o) then busy s remain
          else match s.opRoom c.lb with
            | some e => busy s e
            | none =>
              let (id, s) := s.newOp c none
              let s : State := { s with sniby := { s.sniby with heldBehind := s.sniby.heldBehind ++
                [(o, { opcode := c.op, lb := c.lb, via := c.via, packet := c.p, op := id, since := s.now })] } }
              s.replyWith c key nonce { status := .queuedBehindClose }
        | .wait s' => s'.block c 0 (some nonce)
        | .reply a s' after =>
          match s'.takeToken c.lb with
          | .error e => busy s e
          | .ok s' =>
            if early then busy s (1000000 - (s.now - s.boot.startedAt) / Config.us)
            else after (s'.replyWith c key nonce a)
        | .accept body bound start spent =>
          match (spent s).takeToken c.lb with
          | .error e => busy (spent s) e
          | .ok s =>
            if early then busy s (1000000 - (s.now - s.boot.startedAt) / Config.us)
            else match s.opRoom c.lb with
              | some e => busy s e
              | none =>
                let (id, s) := s.newOp c bound
                start id (s.replyWith c key nonce { status := .accepted, body := body })

/-- Keeps a FABRIC packet until the gap before it fills, or until its letterbox is served again (R63). -/
def State.keepPacket (s : State) (c : Cmd) : State :=
  s.modBox c.lb (fun b => { b with waiting := b.waiting ++
    [{ opcode := c.op, lb := c.lb, via := c.via, packet := c.p, op := 0, since := s.now }] })

/-- The packets that wait on a FABRIC-bound letterbox (R60): for a gap or the end of a throttling, and for a CP that is halted or waits
for a fetch (DEDUCED, log 13). -/
def State.packetsWaiting (s : State) (lb : Nat) : List HeldCmd :=
  (s.box lb).waiting ++ s.sniby.atCp.filter (fun k => k.lb == lb)

/-- The estimate for a full queue of waiting packets, from the oldest (R515). -/
def State.waitingBusy (s : State) (lb : Nat) : Nat :=
  match (s.packetsWaiting lb).map (·.since) with
  | [] => 100
  | t :: l => s.remaining (l.foldl min t + Config.ms)

/-- The node of a FABRIC command that passed its check becomes the node of the notices (R63, R512).  A packet that waited is checked
again when its turn comes, and its node is then the latest (DESIGN CHOICE, log 45). -/
def State.noteNode (s : State) (c : Cmd) : State :=
  match c.via with
  | .host _ => s
  | .fabric p n =>
    let s := s.modBox c.lb (fun b => { b with lastNode := some (p, n) })
    let s : State := { s with sniby := { s.sniby with nodePorts := tput s.sniby.nodePorts n p } }
    s.flushHeld c.lb

/-- Checks 5 to 14 of R46, for a command that has taken its sequence number.  One whose stream was aborted by a compare failure is
refused with FAULTED (R110). -/
def State.taken (s : State) (h : Option Handler) (c : Cmd) (key : Key) (nonce : BitVec 64) : State :=
  if s.dg.aborted then
    State.replyWith { s with dg := { s.dg with aborted := false } } c key nonce { status := .faulted }
  else s.decideCmd h c key nonce

/-- Checks 4 to 14 of R46, for a command whose check value verified.  The numbers that refused commands take past 0xFFFF_FFFF are
counted on: every number is then used, RENEW_SESSION's too (DESIGN CHOICE, log 70). -/
def State.verified (s : State) (h : Option Handler) (c : Cmd) (key : Key) : State :=
  let s := s.noteNode c
  let b := s.box c.lb
  let s := s.modBox c.lb (fun b => { b with failCount := 0 })
  let q := c.p.sequence.toNat
  if q < b.nextSeq then s.replyWith c key b.session { status := .replayed }
  else if b.nextSeq < q then
    match c.via with
    | .host _ => s.replyWith c key b.session { status := .badParam, detail := 4 }
    | .fabric _ _ =>
      if b.waiting.length < 16 then s.keepPacket c
      else s.replyWith c key b.session { status := .busy, wait := s.waitingBusy c.lb }
  else
    (s.modBox c.lb (fun b => { b with nextSeq := b.nextSeq + 1 })).taken h c key b.session

/-- Answers a packet without deciding it, under its letterbox's key, or unauthenticated where no key or no pair is left (R43,
R111). -/
def State.answerKept (s : State) (c : Cmd) (a : Ans) : State :=
  if s.boot.tamperHeld then s.unauth c .tamperHeld
  else if s.dg.pairs.isEmpty then s.unauth c .faulted
  else match s.lbxKey c.lb with
    | some key => s.replyWith c key (s.box c.lb).session a
    | none => s.unauth c .faulted

/-- Firmware that serves letterboxes runs, and is not hung (R115, R425, R505). -/
def State.cpUp (s : State) : Bool :=
  s.boot.fwRunning && decide (s.boot.blockState ≠ .starting) && decide (s.boot.blockState ≠ .cpHung)

/-- In TAMPER_HELD, the packets that wait for a gap or for the end of a throttling are answered too (R43). -/
def State.answerWaiting (s : State) : State :=
  if s.cpUp then
    s.sniby.boxes.foldl (fun s e =>
      e.2.waiting.foldl (fun s k => s.unauth k.cmd .tamperHeld) (s.modBox e.1 (fun b => { b with waiting := [] }))) s
  else s

/-- Serves one command: the answers without a check first (R43, R83, R111), then R46. -/
def State.serve (s : State) (h : Option Handler) (c : Cmd) : State :=
  if s.boot.tamperHeld then s.unauth c .tamperHeld
  else if s.dg.pairs.isEmpty then s.unauth c .faulted
  else match s.lbxKey c.lb with
    | none => s.unauth c .faulted
    | some key =>
      if framed c = false then s.checkFailed c key
      else
        let s := s.calls (kmacCalls (57 + c.p.body.length) 128 false) false
        if checked key (s.box c.lb).session c = false then s.checkFailed c key
        else s.verified h c key

/-- The CP takes no command now: CP_DEBUG has halted it (R128), or one of its commands waits for a fetch. -/
def State.cpBusy (s : State) : Bool := s.boot.cpHalted || s.sniby.blocked.isSome

/-- The packet of a FABRIC-bound letterbox that waited for a gap and has its turn: the one of the lowest sequence number, if no gap
is left before it (R63). -/
def State.turnAt (s : State) (lb : Nat) : Option HeldCmd :=
  let b := s.box lb
  if b.binding = .fabric ∧ (b.state = .opened ∨ b.state = .closing) then
    (b.waiting.filter (fun k => decide (k.packet.sequence.toNat ≤ b.nextSeq))).foldl (fun a k => match a with
      | none => some k
      | some x => if k.packet.sequence.toNat < x.packet.sequence.toNat then some k else a) none
  else none

/-- The CP takes commands: it is up, and not busy. -/
def State.cpServes (s : State) : Bool := s.cpUp && !s.cpBusy

/-- The CP takes a letterbox's next command: it reads the command's slot in host memory (R36), and the rotation of the job
letterboxes goes on from there (R52). -/
def State.takeNext (s : State) (lb : Nat) (via : Via) : State :=
  let s : State := if 2 ≤ lb then { s with sniby := { s.sniby with turn := lb } } else s
  match via with
  | .host l => (s.dma 5 1 l 4096).emit (.hostRead l (s.box lb).cmdSlot 4096)
  | .fabric _ _ => s

/-- A command waits while the CP is halted (R52, R128). -/
def State.waitAtCp (s : State) (c : Cmd) : State :=
  { s with sniby := { s.sniby with atCp := s.sniby.atCp ++
    [{ opcode := c.op, lb := c.lb, via := c.via, packet := c.p, op := 0, since := s.now }] } }

/-- A packet of a FABRIC-bound letterbox comes while the CP is busy: it waits, or is BUSY where 16 do (R60; DEDUCED, log 13). -/
def State.waitPacket (s : State) (c : Cmd) : State :=
  if (s.packetsWaiting c.lb).length < 16 then s.waitAtCp c
  else s.answerKept c { status := .busy, wait := s.waitingBusy c.lb }

/-- The link to which letterbox 0 is bound is away, and `link` is another that is not: SET_ROOT_LINK may come from there (R497). -/
def State.rootMoves (s : State) (link : Nat) : Bool :=
  let away (l : Nat) : Bool := decide (l ∉ s.boot.hostUp) || decide (l ∈ s.boot.dmaAbandoned)
  match (s.box 0).binding.link with
  | some l => l != link && away l && !away link
  | none => false

/-- The CP takes what a host-bound letterbox's ring holds: the letterbox is enabled, and OPEN or CLOSING; or the command moves letterbox
0 off a link that is away (DEDUCED, log 73). -/
def State.hostServes (s : State) (op lb l : Nat) : Bool :=
  let b := s.box lb
  b.cmdProduced != b.cmdConsumed
    && ((b.binding.link == some l && b.enable && (b.state == .opened || b.state == .closing))
      || (lb == 0 && op == 0x0106 && b.state == .idle && s.rootMoves l))

/-- A Sniby packet arrives for a letterbox, through a host link's ring or in a management message (R33, R36, R37, R63).  A
CLOSING host-bound letterbox is served only while its enable is 1 (DESIGN CHOICE, log 40: R37's table says Served, R34's enable
bit says stop). -/
def State.arrive (table : Nat → Option Handler) (op lb : Nat) (via : Via) (p : Packet) (s : State) : State :=
  let c : Cmd := { op := op, lb := lb, via := via, p := p }
  let b := s.box lb
  if 64 ≤ lb ∨ s.cpUp = false then s
  else match via with
    | .host l =>
      if s.hostServes op lb l then if s.cpBusy then s.waitAtCp c else (s.takeNext lb via).serve (table op) c
      else s
    | .fabric _ _ =>
      match b.state with
      | .unbound => s.modDead (fun d => { d with letterboxPackets := sat64 d.letterboxPackets })
      | .closed => s.modDead (fun d => { d with letterboxPackets := sat64 d.letterboxPackets })
      | .idle => s
      | .throttled =>
        if b.binding = .fabric then
          if s.cpBusy then s.waitPacket c
          else if b.waiting.length < 16 ∧ s.boot.tamperHeld = false then s.keepPacket c
          else s.answerKept c { status := .busy, wait := s.waitingBusy lb }
        else s
      | .opened | .closing =>
        if b.binding = .fabric then
          if s.cpBusy then s.waitPacket c
          else (s.takeNext lb via).serve (table op) c
        else s

/-! ### Held commands start (R59, R62) -/

/-- Starts a held command whose entry is reserved: its result is its completion notice.  None starts where the block holds for a
tamper or does not run (DESIGN CHOICE, log 49). -/
def State.startHeld (s : State) (h : Option Handler) (k : HeldCmd) (recheck : Bool) : State :=
  if s.live = false ∨ s.boot.tamperHeld = true then s else
  let c := k.cmd
  match h with
  | none => s.complete k.op .unknownOpcode []
  | some h =>
    match (if recheck then paramFault h s c else none) with
    | some _ => s.complete k.op .badParam []
    | none =>
      match h.run s c with
      | .stop a => s.complete k.op a.status a.payload
      | .behind o _ =>
        if s.sniby.heldBehind.any (fun e => e.1 == o) then s.complete k.op .busy []
        else { s with sniby := { s.sniby with heldBehind := s.sniby.heldBehind ++ [(o, k)] } }
      | .wait s' => s'.block c k.op none
      | .reply a s' after =>
        match s'.takeToken c.lb with
        | .error _ => s.complete k.op .busy []
        | .ok s' => after <| s'.complete k.op a.status a.payload
      | .accept _ bound start spent =>
        match (spent s).takeToken c.lb with
        | .error _ => (spent s).complete k.op .busy []
        | .ok s => start k.op (s.setBound k.op (bound.map (fun b => s.now + b * Config.us)))

/-- Starts, at once and in order, the held commands whose close has completed DONE (R59), at most `n`; where the CP is halted or
waits for a fetch, once it goes on (DEDUCED, log 30). -/
def State.startReady (table : Nat → Option Handler) : Nat → State → State
  | 0, s => s
  | n + 1, s =>
    match s.sniby.ready, s.cpBusy with
    | [], _ => s
    | _, true => s
    | k :: rest, false =>
      State.startReady table n
        (({ s with sniby := { s.sniby with ready := rest } }).startHeld (table k.opcode) k true)

/-- The command that the CP takes next of those that wait: letterbox 1, then letterbox 0, then the job letterboxes in rotation; of
one letterbox, the packet whose gap has filled, then the oldest (R50, R52, R63). -/
def State.nextAtCp (s : State) : Option HeldCmd :=
  let order := [1, 0] ++ (List.range 62).map (fun i => 2 + (s.sniby.turn - 1 + i) % 62)
  order.findSome? (fun lb => (s.turnAt lb).or (s.sniby.atCp.find? (fun k => k.lb == lb)))

/-- It waits no more. -/
def State.unqueue (s : State) (k : HeldCmd) : State :=
  { s with sniby := { s.sniby with
    atCp := s.sniby.atCp.erase k,
    boxes := tmodD s.sniby.boxes k.lb {} (fun b => { b with waiting := b.waiting.erase k }) } }

/-- Enough turns for all that wait: a command that waited while the CP was halted may then wait for a gap. -/
def State.waitCount (s : State) : Nat :=
  2 * s.sniby.atCp.length + (s.sniby.boxes.map (fun e => e.2.waiting.length)).sum

/-- The commands that wait are taken by a CP that is free, one after the other in the order of R52, at most `n`; a due place of the
poste restante (`due`) comes before any of them but letterbox 1's, and a command that it lets wait for a fetch goes on first (R50). -/
def State.takeWaiting (table : Nat → Option Handler) (due : State → State) : Nat → State → State
  | 0, s => s
  | n + 1, s =>
    if s.cpBusy then s
    else match s.nextAtCp with
      | none => s
      | some k =>
        let s := if k.lb = 1 then s else due s
        if s.cpBusy then s
        else State.takeWaiting table due n ((s.unqueue k).arrive table k.opcode k.lb k.via k.packet)

/-- The command that the CP waits with is decided again; it waits on while its fetch is on its way (R198). -/
def State.unblock (table : Nat → Option Handler) (s : State) : State :=
  match s.sniby.blocked with
  | none => s
  | some (k, nonce) =>
    let s : State := { s with sniby := { s.sniby with blocked := none } }
    let s := match nonce, s.lbxKey k.lb with
      | none, _ => if (s.opOf k.op).isSome then s.startHeld (table k.opcode) k false else s
      | some _, none => s.answerKept k.cmd { status := .faulted }
      | some nonce, some key =>
        if s.boot.tamperHeld = true ∨ s.dg.pairs = [] then s.answerKept k.cmd { status := .faulted }
        else s.decideCmd (table k.opcode) k.cmd key nonce
    if s.sniby.blocked.isNone then { s with sniby := { s.sniby with entryRead := none } } else s

/-- A command that the CP waited with has ended: its letterbox, whose enable was written 0 meanwhile, enters IDLE (R35). -/
def State.idleAfter (s : State) (lb : Nat) : State :=
  let b := s.box lb
  if s.sniby.blocked.all (fun e => e.1.lb != lb) = true ∧ b.state = .opened ∧ b.binding ≠ .fabric ∧ b.enable = false
  then s.modBox lb (fun b => { b with state := .idle }) else s

/-- What follows every command: the CP goes on with what it waited with, the held commands that it released start, and a CP that
is free takes what waited. -/
def State.finish (table : Nat → Option Handler) (due : State → State) (s : State) : State :=
  let lb := s.sniby.blocked.map (fun e => e.1.lb)
  let s := if s.boot.cpHalted then s else s.unblock table
  let s := match lb with | some lb => s.idleAfter lb | none => s
  let s := State.startReady table s.sniby.ready.length s
  State.takeWaiting table due s.waitCount s

end Machine
end Sys2Proof
end

