-- ==== Sys2Proof/Machine/Attest.lean ====
section
/-!
DEFINITION. Machine/Attest.lean: measurements, nonces, key transport tokens, attestation reports, debug permits, and the
commands 0x03xx (R112 to R133).
-/

namespace Sys2Proof
namespace Machine

/-! ### Measurement (R116, R117) -/

/-- Extends the device measurement register and its log. -/
def State.extend (s : State) (code : Nat) (digest : Key) : State :=
  let input := ascii "EXTEND" ++ bytesOf s.att.dmr ++ [BitVec.ofNat 8 code] ++ bytesOf digest
  let e : LogEvent := { code := code, postmark := s.now, digest := digest }
  State.calls { s with att := { s.att with dmr := shake256 input 256, log := s.att.log ++ [e] } }
    (shakeCalls input.length) false

/-- A labelled SHAKE256 digest. -/
def labelled (label : String) (b : Bytes) : Key := shake256 (ascii label ++ b) 256

/-! ### Nonces (R119) -/

/-- 60 s in postmark units. -/
def nonceLife : Nat := 60000 * Config.ms

/-- Issues a nonce; a full table loses the one issued earliest. -/
def State.issueNonce (s : State) (purpose : Nat) : BitVec 128 × State :=
  let (v, s) := s.draw 128
  let kept := if 32 ≤ s.att.nonces.length then s.att.nonces.drop 1 else s.att.nonces
  (v, { s with att := { s.att with nonces := kept ++ [{ value := v, purpose := purpose, issued := s.now }] } })

/-- Presents a nonce: it leaves the table whatever follows; good for its purpose and within 60 s. -/
def State.takeNonce (s : State) (v : BitVec 128) (purpose : Nat) : Bool × State :=
  match s.att.nonces.find? (fun n => n.value == v) with
  | none => (false, s)
  | some n => (n.purpose == purpose && decide (s.now ≤ n.issued + nonceLife),
               { s with att := { s.att with nonces := s.att.nonces.erase n } })

/-! ### Key transport tokens (R120 to R122) -/

/-- The pad and the check of a token under a transport key (R121). -/
def tokenPad (tk : Key) (hdr : Bytes) : Key := kmac256 (bytesOf tk) (ascii "KTT-PAD" ++ hdr) 256
def tokenCheck (tk : Key) (hdr wrapped jrk : Bytes) : BitVec 128 :=
  kmac256 (bytesOf tk) (ascii "KTT-CHECK" ++ hdr ++ wrapped ++ jrk) 128

/-- Steps 1 to 8 of R122 on the 128 bytes of a token, with the two permutations that step 9 takes for the JRK's prefix state, which count
as calls of KV (log 51): the JRK, or the status and packet offset of the first failure; in either case the state after, in which a presented nonce is gone. -/
def State.openToken (s : State) (t : Bytes) (manifest : Key) : Except (Status × Nat) Key × State :=
  if field t 0 1 ≠ 1 then (.error (.badParam, 64), s)
  else if field t 1 1 ≠ 0x32 then (.error (.badParam, 65), s)
  else if field t 2 2 ≠ 0 then (.error (.badParam, 66), s)
  else if field t 120 8 ≠ 0 then (.error (.badParam, 184), s)
  else if field t 8 16 ≠ s.fuses.serial.toNat then (.error (.badParam, 72), s)
  else
    let (good, s) := s.takeNonce (BitVec.ofNat 128 (field t 24 16)) 1
    if good = false then (.error (.badParam, 88), s)
    else if field t 40 32 ≠ manifest.toNat then (.error (.badParam, 104), s)
    else if s.kv.jobRoots.any (fun e => e.2.state != .empty && e.2.job == field t 4 4) then (.error (.badState, 0), s)
    else if 256 ≤ (s.kv.jobRoots.filter (fun e => e.2.state != .empty)).length then (.error (.noFit, 0), s)
    else match s.kv.transport with
      | none => (.error (.lifecycleLocked, 0), s)
      | some tk =>
        let hdr := slice t 0 72
        let wrapped := slice t 72 32
        let jrk := BitVec.ofNat 256 (ofLe wrapped) ^^^ tokenPad tk hdr
        let s := s.calls (kmacCalls 79 256 false + kmacCalls 145 128 false) false
        if tokenCheck tk hdr wrapped (bytesOf jrk) = BitVec.ofNat 128 (field t 104 16) then (.ok jrk, s.calls 2 true)
        else (.error (.badParam, 168), s)

/-! ### Permits (R126 to R130) -/

/-- A permit whose lifetime has elapsed closes (R130). -/
def State.expirePermit (s : State) : State :=
  if s.att.permit.isSome ∧ s.permit.isNone then s.closePermit else s

/-- PRESENT_PERMIT after step 1 of R129.  Of the conditions of step 7, that of MARGIN_TEST names the partition swept, which no permit
names: it is judged when a sweep is asked for (R411), and holds here (DESIGN CHOICE, log 63). -/
def State.presentPermit (s : State) (b : Bytes) : Ans × State :=
  let s := s.expirePermit
  if bit s.fuses.policy 1 = false then ({ status := .permitInvalid }, s)
  else
    let (good, s) := s.takeNonce (BitVec.ofNat 128 (field b 24 16)) 2
    if field b 8 16 ≠ s.fuses.serial.toNat ∨ good = false then ({ status := .permitInvalid }, s)
    else
      let s := s.calls (kmacCalls 74 256 false) false
      match s.kv.permit with
      | none => ({ status := .permitInvalid }, s)
      | some pk =>
        if BitVec.ofNat 256 (field b 64 32) ≠ kmac256 (bytesOf pk) (ascii "PERMIT-TAG" ++ slice b 0 64) 256
        then ({ status := .permitInvalid }, s)
        else if s.att.permit.isSome then ({ status := .badState }, s)
        else if 64 ≤ s.att.log.length then ({ status := .noFit }, s)
        else if (bit (field b 4 4) 0 ∨ bit (field b 4 4) 1) ∧ s.jobs.isEmpty = false then ({ status := .badState }, s)
        else
          let s := (s.calls (shakeCalls 75) false).extend 0x10 (labelled "PERMIT-OPEN" (slice b 0 64))
          let p : Permit := { rights := BitVec.ofNat 32 (field b 4 4), scope := field b 44 4,
                              lifetime := field b 40 4, opened := s.now }
          (ok [], { s with att := { s.att with permit := some p } })

/-! ### Commands 0x03xx (R131 to R133) -/

/-- The body of DIGEST_STATUS (R132). -/
def digestBody (s : State) : Bytes :=
  enc [(1, 15 - maskOf s.dg.fenced 4), (1, maskOf s.dg.fenced 4), (1, s.dg.pairs.length), (1, 0),
       (4, s.dg.compareFailures), (8, s.dg.calls), (8, s.dg.callsKv)]

def hDigestStatus : Handler where
  job := false
  length := exactly 0
  run s _ := answerWith s (digestBody s)

/-- Bytes 0 to 239 of an attestation report (R124): its life-cycle state is the one in force (R74). -/
def reportBytes (s : State) (challenge : Nat) (job : Option Job) : Bytes :=
  let j (f : Job → Key) : Nat := match job with | some j => (f j).toNat | none => 0
  enc [(1, 0x32), (1, s.life.inForce.code), (1, s.boot.blockState.code),
       (1, flag job.isSome + 2 * flag s.permit.isSome + 4 * flag s.boot.fwSigned
           + 8 * flag s.quarantined),
       (4, s.boot.fwVersion), (16, s.fuses.serial.toNat), (8, s.fuses.policy), (32, challenge),
       (32, s.boot.fwMeasurement.toNat), (32, s.att.dmr.toNat), (4, s.att.log.length),
       (4, match job with | some j => j.number | none => 0xFFFFFFFF),
       (32, j (·.manifestDigest)), (32, j (·.modelDigest)), (32, j (·.measurement)), (8, s.now)]

/-- The report's tag. -/
def reportTag (key : Key) (report : Bytes) : Key :=
  kmac256 (bytesOf key) (ascii "ATTEST-REPORT" ++ report) 256

/-- The job that holds a letterbox. -/
def State.jobOfBox (s : State) (lb : Nat) : Option (Nat × Job) :=
  s.jobs.find? (fun e => e.2.letterbox == some lb)

/-- A job letterbox names its own job's number; letterboxes 0 and 1 name any. -/
def State.ownJob (s : State) (c : Cmd) (number : Nat) : Bool :=
  decide (c.lb < 2) || (match s.jobOfBox c.lb with | some e => e.2.number == number | none => false)

/-- What a command of a partition meets there (R135); `busyOk` says whether RESIZING and RESETTING accept it. -/
def State.partGate (s : State) (p : Nat) (resizing resetting : Bool) : Option Verdict :=
  let q := s.part p
  let left (us : Nat) : Nat := us - (s.now - q.since) / Config.us
  match q.state with
  | .free => some (refuse .badState)
  | .active => none
  | .resizing => if resizing then none else some (busyFor (left 50))
  | .resetting => if resetting then none else some (busyFor (left 50000))

/-- What ATTEST of a job meets at the job's partition (R135); the device alone belongs to none. -/
def State.attestGate (s : State) (job : Option Job) : Option Verdict :=
  match job with
  | some j => s.partGate j.partition false false
  | none => none

/-- ATTEST (R123, R124, R146). -/
def hAttest : Handler where
  length := exactly 40
  allowed s c := s.ownJob c (c.arg 32 4)
  states l := l == .production
  params _ c := [zeroAt c 36 4]
  run s c :=
    let number := c.arg 32 4
    let job := (s.handleOf number).bind s.job
    if number ≠ 0xFFFFFFFF ∧ (match job with | some j => j.state == .admitting || j.state == .resizing | none => true) = true
    then refuse .badState
    else match s.attestGate (if number = 0xFFFFFFFF then none else job) with
    | some v => v
    | none => match s.kv.attest with
      | none => refuse .lifecycleLocked
      | some key =>
        let r := reportBytes s (c.arg 0 32) (if number = 0xFFFFFFFF then none else job)
        .reply (ok (r ++ bytesOf (reportTag key r))) (s.calls (kmacCalls 253 256 false) false)

/-- The body of READ_MEASUREMENTS (R133). -/
def measurementsBody (s : State) : Bytes :=
  enc [(4, s.att.log.length), (4, 0)]
    ++ s.att.log.flatMap (fun e => enc [(1, e.code), (3, 0), (4, e.postmark), (32, e.digest.toNat)])

def hReadMeasurements : Handler where
  length := exactly 0
  run s _ := answerWith s (measurementsBody s)

/-- NONCE (R119). -/
def hNonce : Handler where
  job := false
  length := exactly 8
  params _ c := [(64, c.arg 0 1 == 1 || c.arg 0 1 == 2), zeroAt c 1 7]
  run s c :=
    let (v, s) := s.issueNonce (c.arg 0 1)
    answerWith s (bytesOf v)

/-- PRESENT_PERMIT (R128, R129).  Step 1 asks that job_scope be valid, and every value of it is: no rule names an invalid one, and a
number whose job is not admitted gives a right over no job's objects (DESIGN CHOICE, log 63). -/
def hPresentPermit : Handler where
  manager := false
  job := false
  states l := l == .production
  length := exactly 96
  params _ c := [(64, c.arg 0 1 == 0x32), zeroAt c 1 3, (68, c.arg 4 4 / 64 == 0),
    (104, decide (1 ≤ c.arg 40 4) && decide (c.arg 40 4 ≤ 3600000)), zeroAt c 48 16]
  run s c := let (a, s) := s.presentPermit c.p.body; .reply a s

/-- CLOSE_PERMIT (R130). -/
def hClosePermit : Handler where
  manager := false
  job := false
  length := exactly 0
  run s _ :=
    let s := s.expirePermit
    if s.att.permit.isSome then .reply (ok []) s.closePermit else .reply { status := .badState } s

/-- The body of PERMIT_STATUS (R131): the remaining lifetime is rounded up to a whole ms (DESIGN CHOICE, log 52). -/
def permitBody (s : State) : Bytes :=
  match s.permit with
  | some p => enc [(4, p.rights.toNat), (4, p.scope), (4, p.lifetime - (s.now - p.opened) / Config.ms), (4, 0)]
  | none => zeros 16

def hPermitStatus : Handler where
  job := false
  length := exactly 0
  run s _ := answerWith s (permitBody s)

end Machine
end Sys2Proof
end

