-- ==== Sys2Proof/Machine/General.lean ====
section
/-!
DEFINITION. Machine/General.lean: the general commands 0x01xx (R66 to R71), the letterbox register pages (R34 to R38)
and the events of the letterboxes (R38, R63, R64).
-/

namespace Sys2Proof
namespace Machine

/-! ### 0x01xx -/

/-- NOP (R66): the body is echoed. -/
def hNop : Handler where
  length := fun _ => true
  run s c := answerWith s c.p.body

/-- Letterboxes in state OPEN (R67). -/
def State.openBoxes (s : State) : Nat := (s.sniby.boxes.filter (fun e => e.2.state == .opened)).length

/-- The body of an IDENTIFY reply (R67). -/
def identityBody (s : State) : Bytes :=
  enc [(1, 0x3), (1, 0x2), (1, s.fuses.recorded.code), (1, s.boot.blockState.code), (4, 0), (16, s.fuses.serial.toNat),
       (32, s.boot.fwMeasurement.toNat), (4, s.boot.fwVersion), (2, s.boot.nodeNumber), (2, s.openBoxes), (8, s.now)]

def hIdentify : Handler where
  length := exactly 0
  run s _ := answerWith s (identityBody s)

/-- RENEW_SESSION (R45): a new session nonce, next_seq 1; the reply is computed under the old nonce. -/
def hRenewSession : Handler where
  length := exactly 0
  run s c :=
    let (n, s) := s.draw 64
    answerWith (s.modBox c.lb (fun b => { b with session := n, nextSeq := 1, noticeSeq := 0 })) (le 8 n.toNat)

/-- SUBSCRIBE (R68). -/
def hSubscribe : Handler where
  length := exactly 8
  params _ c := [(64, !bit (c.arg 0 2) 0 && !bit (c.arg 0 2) 14 && !bit (c.arg 0 2) 15), zeroAt c 2 6]
  run s c := doneWith (s.modBox c.lb (fun b => { b with classMask := BitVec.ofNat 16 (c.arg 0 2) }))

/-- READ_DROP_COUNTS (R69): what it reports it clears. -/
def hReadDropCounts : Handler where
  length := exactly 0
  run s c :=
    let root := c.lb == 0
    let body := enc [(4, (s.box c.lb).ringFullDrops), (4, if root then s.sniby.unsubscribed else 0),
                     (4, if root then s.sniby.deadLetters else 0), (4, 0)]
    let s := s.modBox c.lb (fun b => { b with ringFullDrops := 0 })
    answerWith (if root then { s with sniby := { s.sniby with unsubscribed := 0, deadLetters := 0 } } else s) body

/-- CANCEL_QUEUED (R70): withdraws a command held behind a close; it completes SQUASHED (R59).  A cancel on letterbox 1 or a job
letterbox that names any letterbox but its own is NOT_PERMITTED, whatever is held there, and a body too short for byte 0 names
letterbox 0; of two held commands of one letterbox with the same sequence number, which a RENEW_SESSION between them allows, one
cancel withdraws both; a command HELD in the poste restante is none of those held behind a close, so a cancel that names it finds
nothing (DESIGN CHOICE, log 41). -/
def hCancelQueued : Handler where
  length := exactly 8
  allowed _ c := c.lb == 0 || c.arg 0 1 == c.lb
  params _ c := [(64, decide (c.arg 0 1 < 64)), zeroAt c 1 3]
  run s c :=
    let hit (k : HeldCmd) : Bool := k.lb == c.arg 0 1 && k.packet.sequence.toNat == c.arg 4 4
    if s.sniby.heldBehind.any (fun e => hit e.2) then .reply (ok []) s (fun s => s.squashHeld (fun _ k => hit k))
    else refuse .badState

/-- Letterbox 0 leaves its link for another: IDLE there, with its ring registers reset (R71): the three ring registers of R34 and
enable; the counts of slots and entries and msix_enable are kept (DESIGN CHOICE, log 42). -/
def State.moveRoot (s : State) (link : Nat) : State :=
  let dest_ : Binding := if link = 0 then .host0 else .host1
  if (s.box 0).binding = dest_ then s
  else s.modBox 0 (fun b => { b with binding := dest_, state := .idle, enable := false, cmdBase := 0, cmdLog2 := 0,
                                     rplBase := 0, rplLog2 := 0, ntcBase := 0, ntcLog2 := 0 })

/-- SET_ROOT_LINK (R71). -/
def hSetRootLink : Handler where
  manager := false
  job := false
  length := exactly 8
  params _ c := [(64, decide (c.arg 0 1 < 2)), zeroAt c 1 7]
  run s c := .reply (ok []) s (fun s => s.moveRoot (c.arg 0 1))

/-! ### The register page (R34 to R36) -/

/-- The letterbox registers are live: not in reset, and not in STARTING (R505). -/
def State.pagesLive (s : State) : Bool := !s.boot.inReset && s.boot.powered && decide (s.boot.blockState ≠ .starting)

/-- A page acts only on the link to which its letterbox is bound (R33). -/
def Lbx.onLink (b : Lbx) (link : Nat) : Bool := b.binding.link == some link

/-- The page takes ring registers and doorbells from a link: its own, or, for letterbox 0, the other one while its own is away, so that
SET_ROOT_LINK can come from there (R497; DEDUCED, log 73). -/
def State.pageTakes (s : State) (link lb : Nat) : Bool := (s.box lb).onLink link || (lb == 0 && s.rootMoves link)

/-- The ring registers are ones that an enable accepts (R34, R35). -/
def Lbx.ringsOk (b : Lbx) : Bool :=
  decide (1 ≤ b.cmdLog2) && decide (b.cmdLog2 ≤ 8) && b.cmdLog2 == b.rplLog2 && decide (6 ≤ b.ntcLog2) && decide (b.ntcLog2 ≤ 12)

/-- The letterbox's job is CLOSING: an enable takes the letterbox back to the state that its teardown gave it (DEDUCED, log 73). -/
def State.boxClosing (s : State) (lb : Nat) : Bool :=
  s.jobs.any (fun e => e.2.state == .closing && e.2.letterbox == some lb)

/-- LBX_CONTROL (R35).  Notices held while enable was 0 are written when it is written 1; a letterbox whose command the CP waits with
enters IDLE when that command has ended. -/
def State.lbxControl (s : State) (link lb v : Nat) : State :=
  let b := s.box lb
  if s.pagesLive = false ∨ b.onLink link = false ∨ 64 ≤ lb then s
  else
    let en := bit v 0
    let s := s.modBox lb (fun b => { b with msixEnable := bit v 1 })
    match b.state with
    | .idle =>
      if en && b.ringsOk then
        (s.modBox lb (fun b => { b with enable := true, state := if s.boxClosing lb then .closing else .opened })).flushHeld lb
      else s
    | .opened =>
      if en then s.modBox lb (fun b => { b with enable := true })
      else (s.modBox lb (fun b => { b with enable := false })).idleAfter lb
    | .throttled => (s.modBox lb (fun b => { b with enable := en })).flushHeld lb
    | .closing => (s.modBox lb (fun b => { b with enable := en && b.ringsOk })).flushHeld lb
    | .unbound | .closed => s

/-- A doorbell that nobody serves: counted in both counts (R37, R69, R483). -/
def State.deadDoorbell (s : State) : State :=
  { s with sniby := { s.sniby with deadLetters := sat32 s.sniby.deadLetters } }.modDead
    (fun d => { d with doorbells := sat64 d.doorbells })

/-- LBX_DOORBELL (R36, R37, R504, R505).  A doorbell for an UNBOUND or CLOSED letterbox is a dead letter on whichever link's page it
is written, since such a letterbox has no link of its own (DESIGN CHOICE, log 43). -/
def State.lbxDoorbell (s : State) (link lb v : Nat) : State :=
  let b := s.box lb
  if s.boot.inReset ∨ s.boot.powered = false ∨ 64 ≤ lb then s
  else if s.boot.blockState = .starting ∨ (s.boot.tamperHeld ∧ s.boot.fwRunning = false) then s.deadDoorbell
  else match b.state with
    | .unbound | .closed => s.deadDoorbell
    | _ =>
      if s.pageTakes link lb then
        (s.modBox lb (fun b => { b with cmdProduced := v % 65536, doorbellAt := s.now })).count (islandH link) 6 none 1
      else s

/-- A write to another register of a letterbox page: the rings in IDLE alone (R35), and ntc_consumed. -/
def State.lbxRegister (s : State) (link lb off v : Nat) : State :=
  let b := s.box lb
  if off = 24 then s.lbxControl link lb v
  else if off = 32 then s.lbxDoorbell link lb v
  else if s.pagesLive = false ∨ s.pageTakes link lb = false ∨ 64 ≤ lb then s
  else if off = 40 then s.modBox lb (fun b => { b with ntcConsumed := v % 65536 })
  else if b.state ≠ .idle then s
  else if off = 0 then s.modBox lb (fun b => { b with cmdBase := v / 4096, cmdLog2 := v % 16 })
  else if off = 8 then s.modBox lb (fun b => { b with rplBase := v / 4096, rplLog2 := v % 16 })
  else if off = 16 then s.modBox lb (fun b => { b with ntcBase := v / 4096, ntcLog2 := v % 16 })
  else s

/-- What a register of a letterbox page reads (R34). -/
def State.lbxRead (s : State) (lb off : Nat) : Nat :=
  let b := s.box lb
  if off = 0 then b.cmdBase * 4096 + b.cmdLog2
  else if off = 8 then b.rplBase * 4096 + b.rplLog2
  else if off = 16 then b.ntcBase * 4096 + b.ntcLog2
  else if off = 24 then flag b.enable + 2 * flag b.msixEnable
  else if off = 40 then b.ntcConsumed
  else if off = 48 then b.state.code + 256 * b.binding.code + 65536 * b.cmdConsumed + 2 ^ 32 * b.nextSeq
  else if off = 56 then b.session.toNat
  else if off = 64 then b.ntcProduced
  else 0

/-! ### Events -/

/-- THROTTLE_END (R38): back to OPEN, or to IDLE if enable was written 0; what waited is taken in the order of R52.  What counts is the enable bit at
the end of the period, so that a letterbox whose enable was written 0 and then 1 again is OPEN (DESIGN CHOICE, log 44). -/
def State.throttleEnd (s : State) (lb : Nat) : State :=
  let b := s.box lb
  if b.state = .throttled ∧ b.throttledUntil ≤ s.now then
    if b.binding = .fabric then
      let s := s.modBox lb (fun b => { b with state := .opened, waiting := [] })
      { s with sniby := { s.sniby with atCp := s.sniby.atCp ++ b.waiting } }
    else s.modBox lb (fun b => { b with state := if b.enable then .opened else .idle })
  else s

/-- FABRIC_PACKET_GAP_TIMEOUT (R63): a packet whose gap stayed unfilled for 1 ms is refused and not consumed. -/
def State.gapTimeout (s : State) (lb : Nat) (q : BitVec 32) : State :=
  let b := s.box lb
  match b.waiting.find? (fun k => k.packet.sequence == q && decide (k.since + Config.ms ≤ s.now)) with
  | none => s
  | some k =>
    if b.state = .throttled ∨ s.cpServes = false then s
    else
      let s := s.modBox lb (fun b => { b with waiting := b.waiting.erase k })
      s.answerKept k.cmd { status := .badParam, detail := 4 }

/-- MANAGEMENT_LINK_ACK (R63): the link partner's acknowledgement frees a notice's entry, the oldest one of that number. -/
def State.linkAck (s : State) (lb seq : Nat) : State :=
  if seq ∈ (s.box lb).fabricRing
  then s.modBox lb (fun b => { b with fabricRing := b.fabricRing.erase seq })
  else s

/-- MSIX_QUIET_END (R64): a vector whose write fell in the quiet interval is raised at its end. -/
def State.quietEnd (s : State) (link vector : Nat) : State :=
  let k := link * 512 + vector
  if k ∈ s.boot.msixDeferred ∧ tgetD s.boot.msixQuiet k 0 ≤ s.now then
    State.raise { s with boot := { s.boot with msixDeferred := s.boot.msixDeferred.filter (fun j => j != k) } }
      link vector
  else s

end Machine
end Sys2Proof
end

