-- ==== Sys2Proof/Machine/Formats.lean ====
section
/-!
DEFINITION. Machine/Formats.lean: the arithmetic of masked reduction: the FX61 ring (R333), the number formats and chunk
images (R334, R335), conversion in (R336) and out (R337).
-/

namespace Sys2Proof
namespace Machine

/-! ### The ring FX61 (R333) -/

/-- The prime p = 2^61 − 1. -/
def fxP : Nat := 2 ^ 61 - 1

/-- The ring element of a signed integer. -/
def fxOf (v : Int) : Nat := (v % (fxP : Int)).toNat

/-- The signed integer that a ring element decodes to. -/
def fxSigned (n : Nat) : Int := if n < 2 ^ 60 then n else (n : Int) - fxP

def fxAdd (a b : Nat) : Nat := (a + b) % fxP
def fxSub (a b : Nat) : Nat := (a + (fxP - b % fxP)) % fxP

/-! ### Number formats (R334) -/

/-- A floating-point element format: exponent bits, mantissa bits, bias, the greatest finite code, and how its special codes
read (0 none, 1 IEEE 754 infinities and NaN, 2 the one NaN of E4M3). -/
structure FloatFmt where
  ebits   : Nat
  mbits   : Nat
  bias    : Nat
  maxCode : Nat
  special : Nat
deriving DecidableEq, Repr

def fp64 : FloatFmt := { ebits := 11, mbits := 52, bias := 1023, maxCode := 0x7FEFFFFFFFFFFFFF, special := 1 }
def fp32 : FloatFmt := { ebits := 8, mbits := 23, bias := 127, maxCode := 0x7F7FFFFF, special := 1 }
def fp16 : FloatFmt := { ebits := 5, mbits := 10, bias := 15, maxCode := 0x7BFF, special := 1 }
def bf16 : FloatFmt := { ebits := 8, mbits := 7, bias := 127, maxCode := 0x7F7F, special := 1 }
def e4m3 : FloatFmt := { ebits := 4, mbits := 3, bias := 7, maxCode := 0x7E, special := 2 }
def e5m2 : FloatFmt := { ebits := 5, mbits := 2, bias := 15, maxCode := 0x7B, special := 1 }
def e3m2 : FloatFmt := { ebits := 3, mbits := 2, bias := 3, maxCode := 0x1F, special := 0 }
def e2m3 : FloatFmt := { ebits := 2, mbits := 3, bias := 1, maxCode := 0x1F, special := 0 }
def e2m1 : FloatFmt := { ebits := 2, mbits := 1, bias := 1, maxCode := 0x7, special := 0 }

/-- How the elements of a format code read. -/
inductive ElemFmt where
  | float (f : FloatFmt)
  /-- Two's complement of so many bits, in units of 2 to the minus `frac`. -/
  | int (width frac : Nat)
deriving DecidableEq, Repr

/-- The element format of a code. -/
def elemFmt (code : Nat) : ElemFmt :=
  match code with
  | 0 => .float fp64 | 1 => .float fp32 | 2 => .float fp16 | 3 => .float bf16 | 4 => .float e4m3 | 5 => .float e5m2
  | 6 => .float e3m2 | 7 => .float e2m3 | 8 => .float e2m1 | 9 => .int 32 0 | 10 => .int 16 0 | 11 => .int 8 0
  | 12 => .int 4 0 | 13 => .float e4m3 | 14 => .float e2m1 | _ => .int 8 6

/-- An MX format: two shared scales before the elements. -/
def isMx (code : Nat) : Bool := decide (13 ≤ code)

/-- Bits of an element. -/
def ElemFmt.width : ElemFmt → Nat
  | .float f => 1 + f.ebits + f.mbits
  | .int w _ => w

/-- Bytes of a chunk image. -/
def imageSize (code : Nat) : Nat := 8 * (elemFmt code).width + (if isMx code then 2 else 0)

/-- What an element's code stands for: a NaN, an infinity, or m times 2 to the e. -/
inductive Value where
  | nan
  | inf (neg : Bool)
  | fin (m : Int) (e : Int)
deriving DecidableEq, Repr

/-- The value of a floating-point code. -/
def FloatFmt.decode (f : FloatFmt) (c : Nat) : Value :=
  let m := c % 2 ^ f.mbits
  let e := c / 2 ^ f.mbits % 2 ^ f.ebits
  let neg := bit c (f.ebits + f.mbits)
  let top := 2 ^ f.ebits - 1
  let signed (n : Nat) : Int := if neg then -(n : Int) else n
  if f.special = 1 ∧ e = top then (if m = 0 then .inf neg else .nan)
  else if f.special = 2 ∧ e = top ∧ m = 2 ^ f.mbits - 1 then .nan
  else if e = 0 then .fin (signed m) (1 - (f.bias : Int) - f.mbits)
  else .fin (signed (2 ^ f.mbits + m)) ((e : Int) - f.bias - f.mbits)

/-- The value of an element's code. -/
def ElemFmt.decode : ElemFmt → Nat → Value
  | .float f, c => f.decode c
  | .int w frac, c => .fin (if c < 2 ^ (w - 1) then c else (c : Int) - 2 ^ w) (-(frac : Int))

/-- The value times 2 to the k. -/
def Value.scale (v : Value) (k : Int) : Value := match v with | .fin m e => .fin m (e + k) | v => v

/-- The code of element `k` of an image's elements (R335). -/
def elemCode (width : Nat) (elems : Nat) (k : Nat) : Nat := elems / 2 ^ (width * k) % 2 ^ width

/-- The 64 values of a chunk image (R335, R336 rule 1). -/
def imageValues (code : Nat) (image : Bytes) : List Value :=
  let f := elemFmt code
  let elems := ofLe (if isMx code then image.drop 2 else image)
  (List.range 64).map (fun k =>
    let v := f.decode (elemCode f.width elems k)
    if isMx code then
      let x := field image (k / 32) 1
      if x = 0xFF then .nan else v.scale ((x : Int) - 127)
    else v)

/-! ### Rounding -/

/-- m times 2 to the e, rounded to the nearest integer, ties to even. -/
def roundShift (m : Nat) (e : Int) : Nat :=
  if 0 ≤ e then m * 2 ^ e.toNat
  else
    let d := 2 ^ (-e).toNat
    let q := m / d
    let r := 2 * (m % d)
    if d < r ∨ (r = d ∧ q % 2 = 1) then q + 1 else q

/-- The same for a signed integer. -/
def roundInt (m : Int) (e : Int) : Int := if m < 0 then -(roundShift m.natAbs e : Int) else roundShift m.natAbs e

/-- m times 2 to the e is above n times 2 to the f. -/
def above (m : Nat) (e : Int) (n : Nat) (f : Int) : Bool :=
  if f ≤ e then decide (n < m * 2 ^ (e - f).toNat) else decide (n * 2 ^ (f - e).toNat < m)

/-! ### Conversion in (R336) -/

/-- The greatest magnitude of a contribution. -/
def maxIn : Int := 2 ^ 48 - 1

/-- The ring integer of an input, and whether it is counted as saturated and as NaN. -/
def convertIn (v : Value) (q : Int) : Int × Bool × Bool :=
  match v with
  | .nan => (0, false, true)
  | .inf neg => (if neg then -maxIn else maxIn, true, false)
  | .fin m e =>
    if m = 0 then (0, false, false)
    else
      let n := roundInt m (e + q)
      if maxIn < n then (maxIn, true, false)
      else if n < -maxIn then (-maxIn, true, false)
      else (n, false, false)

/-! ### Conversion out (R337) -/

/-- The greatest finite value of a floating-point format, as a mantissa and its exponent. -/
def FloatFmt.greatest (f : FloatFmt) : Nat × Int :=
  (2 ^ f.mbits + f.maxCode % 2 ^ f.mbits, ((f.maxCode / 2 ^ f.mbits : Nat) : Int) - f.bias - f.mbits)

/-- The code of a value of the format nearest to m times 2 to the e, and whether it saturated. -/
def FloatFmt.encode (f : FloatFmt) (m : Int) (e : Int) : Nat × Bool :=
  if m = 0 then (0, false)
  else
    let a := m.natAbs
    let sign := if m < 0 then 2 ^ (f.ebits + f.mbits) else 0
    if above a e f.greatest.1 f.greatest.2 then (sign + f.maxCode, true)
    else
      let top : Int := (Nat.log2 a : Int) + e
      let t := max top (1 - (f.bias : Int)) - f.mbits
      let n := roundShift a (e - t)
      let code := if n < 2 ^ f.mbits then n
        else
          let (n, t) : Nat × Int := if n = 2 ^ (f.mbits + 1) then (2 ^ f.mbits, t + 1) else (n, t)
          (t + f.mbits + f.bias).toNat * 2 ^ f.mbits + (n - 2 ^ f.mbits)
      (sign + code, false)

/-- The code of an element, and whether it saturated. -/
def ElemFmt.encode (x : ElemFmt) (m : Int) (e : Int) : Nat × Bool :=
  match x with
  | .float f => f.encode m e
  | .int w frac =>
    let n := roundInt m (e + frac)
    let hi : Int := 2 ^ (w - 1) - 1
    let lo : Int := -(2 ^ (w - 1))
    if hi < n then (hi.toNat, true)
    else if n < lo then (2 ^ (w - 1), true)
    else ((n % (2 ^ w : Int)).toNat, false)

/-- emax of an MX format. -/
def mxEmax (code : Nat) : Int := if code = 13 then 8 else if code = 14 then 2 else 0

/-- The shared scale of a block whose greatest magnitude is `a` times 2 to the e. -/
def mxScale (code : Nat) (a : Nat) (e : Int) : Nat :=
  if a = 0 then 127 else (min 254 (max 0 ((Nat.log2 a : Int) + e - mxEmax code + 127))).toNat

/-- The chunk image of 64 decoded sums under a scale exponent, and the saturations. -/
def convertOut (code : Nat) (sums : List Int) (q : Int) : Bytes × Nat :=
  let f := elemFmt code
  let scales : List Nat := if isMx code then [sums.take 32, sums.drop 32].map (fun l =>
      mxScale code ((l.map Int.natAbs).foldl max 0) (-q)) else []
  let codes : List (Nat × Bool) := sums.zipIdx.map (fun s =>
    f.encode s.1 (-q + (if isMx code then 127 - (scales.getD (s.2 / 32) 127 : Int) else 0)))
  let elems := codes.foldr (fun c n => c.1 + 2 ^ f.width * n) 0
  ((scales.flatMap (le 1)) ++ le (8 * f.width) elems, (codes.filter (·.2)).length)

end Machine
end Sys2Proof
end

