-- ==== Sys2Proof/Machine/Crypto.lean ====
section
/-!
DEFINITION. Machine/Crypto.lean: the modes that the manual builds on AES-256: XTS (R165 to R168), the frank and the node
check (R169, R207, R208), and GCM (the sealed packets and envelopes), each over the block cipher of Standards.lean.
-/

namespace Sys2Proof
namespace Machine

/-! ### Blocks -/

/-- A byte string as a big-endian number. -/
def beNat (b : Bytes) : Nat := b.foldl (fun a x => a * 256 + x.toNat) 0

/-- The `n` bytes of a number, most significant first. -/
def be (n v : Nat) : Bytes := (le n v).reverse

/-- A block of up to 16 bytes, zero-padded, as the bit string of SP 800-38D: byte 0 most significant. -/
def blockBE (b : Bytes) : BitVec 128 := BitVec.ofNat 128 (beNat (slice b 0 16))

/-- AES-256 on a bit string of SP 800-38D. -/
def aesBE (k : Key) (x : BitVec 128) : BitVec 128 :=
  blockBE (bytesOf (aes256 k (BitVec.ofNat 128 (ofLe (be 16 x.toNat)))))

/-- The first `n` 16-byte pieces of a string. -/
def pieces : Nat → Bytes → List Bytes
  | 0, _ => []
  | n + 1, b => slice b 0 16 :: pieces n (b.drop 16)

/-- The 16-byte pieces of a string, the last zero-padded. -/
def blocks (b : Bytes) : List Bytes := pieces ((b.length + 15) / 16) b

/-! ### GHASH and GCM (SP 800-38D) -/

/-- `n` steps of the product in GF(2^128): the bits of `x` from the most significant. -/
def gfSteps (x : BitVec 128) : Nat → BitVec 128 → BitVec 128 → BitVec 128
  | 0, z, _ => z
  | n + 1, z, v =>
    let z := if x.getLsbD n then z ^^^ v else z
    let v := if v.getLsbD 0 then (v >>> 1) ^^^ (0xE1#128 <<< 120) else v >>> 1
    gfSteps x n z v

/-- The product in GF(2^128). -/
def gfMul (x y : BitVec 128) : BitVec 128 := gfSteps x 128 0 y

/-- GHASH under `h`. -/
def ghash (h : BitVec 128) (l : List Bytes) : BitVec 128 :=
  l.foldl (fun y b => gfMul (y ^^^ blockBE b) h) 0

/-- The length block: two 64-bit lengths in bits. -/
def lengths (a c : Nat) : Bytes := be 8 (8 * a) ++ be 8 (8 * c)

/-- The counter block after `n` increments of its last 32 bits. -/
def incr (j : BitVec 128) (n : Nat) : BitVec 128 :=
  BitVec.ofNat 128 (j.toNat / 2 ^ 32 * 2 ^ 32 + (j.toNat % 2 ^ 32 + n) % 2 ^ 32)

/-- GCTR: the string under the key stream that starts at `j`. -/
def gctr (k : Key) (j : BitVec 128) (b : Bytes) : Bytes :=
  ((blocks b).zipIdx.flatMap (fun e =>
    (e.1.zip (be 16 (aesBE k (incr j e.2)).toNat)).map (fun x => x.1 ^^^ x.2))).take b.length

/-- The pre-counter block of an initialisation vector: of 96 bits, or of any other length by GHASH. -/
def preCounter (h : BitVec 128) (iv : Bytes) : BitVec 128 :=
  if iv.length = 12 then blockBE (iv ++ [0, 0, 0, 1])
  else ghash h (blocks iv ++ [zeros 8 ++ be 8 (8 * iv.length)])

/-- The full GCM tag, as 16 bytes in the order in which GCM produces them. -/
def gcmTag (k : Key) (iv aad ct : Bytes) : Bytes :=
  let h := aesBE k 0
  let s := ghash h (blocks aad ++ blocks ct ++ [lengths aad.length ct.length])
  gctr k (preCounter h iv) (be 16 s.toNat)

/-- GCM encryption. -/
def gcmSeal (k : Key) (iv aad pt : Bytes) : Bytes × Bytes :=
  let ct := gctr k (incr (preCounter (aesBE k 0) iv) 1) pt
  (ct, gcmTag k iv aad ct)

/-- GCM decryption: nothing when the tag does not verify. -/
def gcmOpen (k : Key) (iv aad ct tag : Bytes) : Option Bytes :=
  if tag = gcmTag k iv aad ct then some (gctr k (incr (preCounter (aesBE k 0) iv) 1) ct) else none

/-! ### Sector keys, tweak, XTS, frank (R165 to R169) -/

/-- A block of an island's key expansion: a number, then 11 ASCII bytes, then zeros (R165, R207). -/
def expandBlock (n : Nat) (label : String) : Block :=
  BitVec.ofNat 128 (ofLe (BitVec.ofNat 8 n :: ascii label))

/-- Two blocks as one key, the first first. -/
def twoBlocks (k : Key) (a b : Block) : Key :=
  BitVec.ofNat 256 ((aes256 k a).toNat + 2 ^ 128 * (aes256 k b).toNat)

/-- The XTS data key, the XTS tweak key and the frank key of a data key (R165). -/
def sectorKey1 (dk : Key) : Key := twoBlocks dk (expandBlock 1 "SECTOR-KEYS") (expandBlock 2 "SECTOR-KEYS")
def sectorKey2 (dk : Key) : Key := twoBlocks dk (expandBlock 3 "SECTOR-KEYS") (expandBlock 4 "SECTOR-KEYS")
def frankKey (dk : Key) : Key := twoBlocks dk (expandBlock 5 "SECTOR-KEYS") (expandBlock 6 "SECTOR-KEYS")

/-- The tree key of a job, from its metadata key (R207). -/
def treeKey (dk : Key) : Key := twoBlocks dk (expandBlock 1 "TREE-CHECKS") (expandBlock 2 "TREE-CHECKS")

/-- The key is usable: key1 and key2 differ (R165). -/
def usableKey (dk : Key) : Bool := decide (sectorKey1 dk ≠ sectorKey2 dk)

/-- The tweak: LBN in the lower 64 bits, version in the upper (R168). -/
def tweak (lbn version : Nat) : Block := BitVec.ofNat 128 (lbn % 2 ^ 64 + 2 ^ 64 * version)

/-- The tweak value times α (IEEE 1619). -/
def timesAlpha (t : Block) : Block := if t.msb then (t <<< 1) ^^^ 0x87#128 else t <<< 1

/-- XTS over the blocks of a sector, from a tweak value on, with the block operation given. -/
def xtsBlocks (f : Block → Block) : List Bytes → Block → Bytes
  | [], _ => []
  | b :: r, t =>
    bytesOf (f (BitVec.ofNat 128 (ofLe b) ^^^ t) ^^^ t) ++ xtsBlocks f r (timesAlpha t)

/-- XTS-AES-256 encryption and decryption of a sector (R168). -/
def xtsEncrypt (dk : Key) (lbn version : Nat) (pt : Bytes) : Bytes :=
  xtsBlocks (aes256 (sectorKey1 dk)) (blocks pt) (aes256 (sectorKey2 dk) (tweak lbn version))
def xtsDecrypt (dk : Key) (lbn version : Nat) (ct : Bytes) : Bytes :=
  xtsBlocks (aes256Inv (sectorKey1 dk)) (blocks ct) (aes256 (sectorKey2 dk) (tweak lbn version))

/-- The leftmost 64 bits of a GMAC over `text` with an initialisation vector, as a byte string (R169, R208). -/
def gmac64 (k : Key) (iv text : Bytes) : BitVec 64 := BitVec.ofNat 64 (ofLe ((gcmTag k iv text []).take 8))

/-- The frank of a sector's ciphertext (R169). -/
def frankOf (dk : Key) (lbn version : Nat) (ct : Bytes) : BitVec 64 :=
  gmac64 (frankKey dk) (bytesOf (tweak lbn version)) ct

/-! ### Counter nodes (R200 to R210) -/

/-- A minor counter of a node. -/
def Node.minor (n : Node) (k : Nat) : Nat := n.minors.getD k 0

/-- Writes a minor counter; the list is kept at its 64 entries once one is written. -/
def Node.setMinor (n : Node) (k v : Nat) : Node :=
  { n with minors := ((List.range 64).map n.minor).set k v }

/-- Bytes 0 to 55 of a node (R200, R201). -/
def nodeBytes (n : Node) : Bytes :=
  le 7 n.major ++ [0] ++ le 48 ((List.range 64).foldr (fun k a => n.minor k % 64 + 64 * a) 0)

/-- The counters that the 64 bytes of a stored node spell, none when its spare bits are not zero (R203). -/
def parseNode (b : Bytes) : Option Node :=
  if field b 7 1 ≠ 0 then none
  else
    let m := field b 8 48
    some { major := field b 0 7, minors := (List.range 64).map (fun k => m / 64 ^ k % 64) }

/-- The child counter that a node holds for its child `k` (R202). -/
def Node.childCounter (n : Node) (k : Nat) : Nat := 3 * 2 ^ 62 + n.major * 64 + n.minor k

/-- A child counter is zero, and the child never written, when major and minor are both zero (R210). -/
def Node.childZero (n : Node) (k : Nat) : Bool := n.major == 0 && n.minor k == 0

/-- The identity of a node (R208); a key-index table's tree has table bit 1 and region zero. -/
def nodeIdentity (table : Bool) (level region index : Nat) : Nat :=
  2 ^ 63 * flag table + 2 ^ 60 * level + 2 ^ 46 * (if table then 0 else region) + index

/-- The check of a node under its parent's child counter (R208). -/
def nodeCheck (ktr : Key) (identity childCounter : Nat) (n : Node) : BitVec 64 :=
  gmac64 ktr (le 8 identity ++ le 8 childCounter) (nodeBytes n)

/-- The 64 bytes of a node as stored. -/
def storedNode (ktr : Key) (identity childCounter : Nat) (n : Node) : Bytes :=
  nodeBytes n ++ bytesOf (nodeCheck ktr identity childCounter n)

/-! ### Shape of a tree (R204) -/

/-- Nodes of each level, leaves first, at most five levels. -/
def levelSizes : Nat → Nat → List Nat
  | 0, _ => []
  | fuel + 1, n => let m := (n + 63) / 64; if m ≤ 64 then [m] else m :: levelSizes fuel m

/-- The levels of a tree over `s` sectors. -/
def treeLevels (s : Nat) : List Nat := levelSizes 6 s

/-- Bytes of one copy of a tree over `s` sectors. -/
def treeBytes (s : Nat) : Nat := 64 * (treeLevels s).sum

/-- Offset within a copy of node `x` of level `j` (from 1). -/
def nodeOffset (s j x : Nat) : Nat := 64 * (((treeLevels s).take (j - 1)).sum + x)

end Machine
end Sys2Proof
end

