-- ==== Sys2Proof/Machine/KeyTable.lean ====
section
/-!
DEFINITION. Machine/KeyTable.lean: the key-index tables (R170 to R172): their entries, and their sealed image in memory.

The entries stand in State; what memory holds is their sealed image, which the block writes out and whose franks and tree
it checks when it fetches a sector of it again (DEDUCED, log 14).
-/

namespace Sys2Proof
namespace Machine

/-- Sectors of a key-index table, and bytes of the table and its franks (R170). -/
def keyTableSectors : Nat := 131072
def keyTableBytes : Nat := 9 * 2 ^ 20

/-- The stack of a local offset. -/
def stackOf (a : Nat) : Nat := a / 2 ^ 36 % 16

/-- Code of a class. -/
def RegClass.code : RegClass → Nat
  | .weights => 0 | .confidential => 1 | .fresh => 2 | .opened => 3

/-- Version of a sector (R167): the class, and for FRESH the counters of its leaf. -/
def versionOf (cls : RegClass) (leaf : Node) (k : Nat) : Nat :=
  cls.code * 2 ^ 62 + (if cls = .fresh then leaf.major * 64 + leaf.minor (k % 64) else 0)

/-- The metadata key of a job (R172), which an island is delivered: none where the slot's state does not allow it (R100, R101), nor
where it may not be used (R165). -/
def State.metaKey (s : State) (h : Nat) : Option Key :=
  ((s.slotKey h (.data 0 0xFF)).map (fun jrk => dataKey jrk 0 0xFF)).filter usableKey

/-- An island that needs the metadata key cannot have it: of a slot whose state does not allow it, that is a key-vault check failure
(R101). -/
def State.metaRefused (s : State) (h : Nat) : State :=
  if (s.slotKey h (.data 0 0xFF)).isNone then s.hardFault 1 islandKV else s

/-! ### Entries (R171) -/

/-- Key-index state codes (R171). -/
def KeyState.code : KeyState → Nat
  | .outside => 0 | .live => 1 | .exhausted => 2

/-- The word of R171. -/
def KeyEntry.word (e : KeyEntry) : Nat := 2 ^ 56 * e.gen + 2 ^ 54 * e.state.code + e.seals

/-- An entry of a job's key-index table (R171). -/
def Job.entry (j : Job) (i : Nat) : KeyEntry :=
  match tget j.keyTable i with
  | some e => e
  | none =>
    if (j.keyRanges ++ j.removing).any (fun k => decide (k.base ≤ i) && decide (i < k.base + k.count))
    then { gen := 0, state := .live } else {}

/-- A key-index entry of a job's handle. -/
def State.entry (s : State) (h i : Nat) : KeyEntry := match s.job h with | some j => j.entry i | none => {}

/-- Writes a key-index entry. -/
def State.setEntry (s : State) (h i : Nat) (e : KeyEntry) : State :=
  s.modJob h (fun j => { j with keyTable := tput j.keyTable i e })

/-! ### The metadata caches (R209, R211) -/

/-- Lines that an island's cache holds: a memory island's 28,672, less one for each key-index table's root that is pinned there
(R209). -/
def State.capacity (s : State) (island : Nat) : Nat :=
  if island < 16 then 28672 - (s.jobs.filter (fun e => !e.2.keyRanges.isEmpty && stackOf e.2.keyBase == island)).length
  else Config.portLines

/-- A line is a child of a node. -/
def LineKey.childOf (key : LineKey) (tree lvl idx : Nat) : Bool :=
  match key with
  | .node t l i => t == tree && l + 1 == lvl && i / 64 == idx
  | _ => false

/-- Changes the lines of a key. -/
def State.modLine (s : State) (p : Line → Bool) (f : Line → Line) : State :=
  { s with mem := { s.mem with lines := s.mem.lines.map (fun l => if p l then f l else l) } }

/-- A line of a key that an island reads; a node is kept by one island alone. -/
def Line.is (l : Line) (island : Nat) (key : LineKey) : Bool :=
  l.key == key && (l.island == island || (match key with | .node _ _ _ => true | _ => false))

/-- The line of a key, if the island holds it. -/
def State.line (s : State) (island : Nat) (key : LineKey) : Option Line := s.mem.lines.find? (fun l => l.is island key)

/-- The write-back of a node is asked for. -/
def State.backAsked (s : State) (key : LineKey) : Bool :=
  match key with
  | .node t l i => s.mem.backs.any (fun e => e == (t, l, i))
  | _ => false

/-- The line leaves the cache once a write-back of it has been accepted. -/
def State.leaving (s : State) (l : Line) : Bool := l.writing != 0 || s.backAsked l.key

/-- A dirty node that cannot be written back now, and so cannot leave: its region is SUSPENDED (R232), or the stacks of both its
copies are fenced (R424). -/
def State.pinned (s : State) (l : Line) : Bool :=
  match l.dirty, l.key with
  | true, .node t _ _ =>
    let fenced (x : Tree) : Bool := decide (stackOf x.copyA ∈ s.fault.stacksFenced) && decide (stackOf x.copyB ∈ s.fault.stacksFenced)
    if 65536 ≤ t then (match s.job (t - 65536) with | some j => fenced j.keyTree | none => false)
    else (s.region t).state == .suspended || (!(s.region t).pooled && fenced (s.region t).tree)
  | _, _ => false

/-- Lines of an island's cache that are filled: metadata, and the parts of its key schedules (R211). -/
def State.linesHeld (s : State) (island : Nat) : Nat :=
  (s.mem.lines.filter (fun l => l.island == island)).length
    + Config.scheduleLines * (s.kv.schedules.filter (fun k => k.island == island)).length

/-- Those of them that may leave once a write-back asked for, or under way, has been accepted. -/
def State.linesLeaving (s : State) (island : Nat) : Nat :=
  (s.mem.lines.filter (fun l => l.island == island && s.leaving l && !s.pinned l)).length

/-- An island's cache has a place for `n` lines more. -/
def State.hasRoom (s : State) (island n : Nat) : Bool := decide (s.linesHeld island + n ≤ s.capacity island)

/-- The least recently used of some things. -/
def leastUsed {α : Type} (use : α → Nat) : List α → Option α
  | [] => none
  | x :: r => some (r.foldl (fun m y => if use y < use m then y else m) x)

/-- The least recently used line that may leave an island's cache: no node whose child is cached (R211). -/
def State.victim (s : State) (island : Nat) : Option Line :=
  leastUsed (·.lastUse) (s.mem.lines.filter (fun l => l.island == island && !s.leaving l && !s.pinned l
    && (match l.key with
        | .node t lvl i => !s.mem.lines.any (fun c => c.key.childOf t lvl i)
        | _ => true)))

/-- A line leaves: a dirty node is to be written back first. -/
def State.dropLine (s : State) (l : Line) : State :=
  match l.dirty, l.key with
  | true, .node t lvl i => { s with mem := { s.mem with backs := s.mem.backs ++ [(t, lvl, i)] } }
  | _, _ => { s with mem := { s.mem with lines := s.mem.lines.erase l } }

/-- A key schedule leaves an island, all its parts at once (DESIGN CHOICE, log 54). -/
def State.dropSchedule (s : State) (k : Schedule) : State :=
  { s with kv := { s.kv with schedules := s.kv.schedules.erase k } }

/-- Evicts the least recently used, at most `n`, until an island's cache has a place for `want` lines more, or will have one when the
write-backs asked for are accepted (R211, R212). -/
def State.evict (island want : Nat) : Nat → State → State
  | 0, s => s
  | n + 1, s =>
    if s.linesHeld island + want ≤ s.capacity island + s.linesLeaving island then s
    else match s.victim island, leastUsed (·.lastUse) (s.kv.schedules.filter (fun k => k.island == island)) with
      | none, none => s
      | some l, none => State.evict island want n (s.dropLine l)
      | none, some k => State.evict island want n (s.dropSchedule k)
      | some l, some k => State.evict island want n (if k.lastUse < l.lastUse then s.dropSchedule k else s.dropLine l)

/-- Installs a line, clean: the least recently used lines make way for it, and while one of them is still to be written back it finds no
place (R211, R212). -/
def State.putLine (s : State) (island : Nat) (key : LineKey) (val : LineVal) : State :=
  let l : Line := { island := island, key := key, val := val, dirty := false, lastUse := s.now, writing := 0, wid := 0 }
  let others (s : State) : List Line := s.mem.lines.filter (fun (x : Line) => !x.is island key)
  let t : State := State.evict island 0 16 { s with mem := { s.mem with lines := others s ++ [l] } }
  if t.hasRoom island 0 then t else { t with mem := { t.mem with lines := others t } }

/-- A use of a line, for the order of eviction. -/
def State.useLine (s : State) (island : Nat) (key : LineKey) : State :=
  s.modLine (fun l => l.is island key) (fun l => { l with lastUse := s.now })

/-- A use of a key schedule. -/
def State.useSchedule (s : State) (island h i g : Nat) : State :=
  { s with kv := { s.kv with schedules := s.kv.schedules.map (fun (k : Schedule) =>
      if k.island = island ∧ k.handle = h ∧ k.index = i ∧ k.gen = g then { k with lastUse := s.now } else k) } }

/-! ### The image in memory (R170) -/

/-- The name of a job's key-index table's tree. -/
def tableTree (h : Nat) : Nat := 65536 + h

/-- The plaintext of a table sector: its eight entries. -/
def Job.tablePlain (j : Job) (sec : Nat) : Bytes := (List.range 8).flatMap (fun k => le 8 (j.entry (8 * sec + k)).word)

/-- The address of a table sector's frank, behind the 8 MiB of the table. -/
def Job.tableFrank (j : Job) (sec : Nat) : Nat := j.keyBase + 2 ^ 23 + 8 * sec

/-- The LBN and the version under which a table sector is sealed: no rule gives a table's LBN (DESIGN CHOICE, log 15). -/
def tableLbn (h sec : Nat) : Nat := (Config.tableLbn h sec).toNat

/-- The writes that put a sector and its frank into memory, sealed under its leaf. -/
def Job.tableWrites (j : Job) (dk : Key) (h sec : Nat) (leaf : Node) : List (Nat × Bytes) :=
  let v := versionOf .fresh leaf sec
  let ct := xtsEncrypt dk (tableLbn h sec) v (j.tablePlain sec)
  [(j.keyBase + 64 * sec, ct), (j.tableFrank sec, bytesOf (frankOf dk (tableLbn h sec) v ct))]

/-- The SECTOR record of a table sector (R462, kind 0x18): operation 1 opens it, 2 seals it, 5 seals it in a wrap (DESIGN CHOICE,
log 69). -/
def State.tableRec (s : State) (delay island h sec operation : Nat) : State :=
  s.traceLater delay island 0x18 (some h) none
    [(8, tableLbn h sec), (1, operation), (1, RegClass.code .fresh), (2, 0xFFFF), (4, 0), (2, 0), (2, 0)]

/-- Seals table sectors afresh under their leaves, and writes them; every sealing passes a verify lane, and on a mismatch nothing
is released (R23, R185).  Each write is outstanding at the table's island until it is accepted, as tree maintenance where a wrap makes
it (R369, R423). -/
def State.storeTable (s : State) (h : Nat) (secs : List (Nat × Node)) (charged : Bool := false) : State :=
  match s.job h, s.metaKey h with
  | none, _ => s
  | some _, none => s.metaRefused h
  | some j, some dk =>
    if s.laneOff then s.laneFound.hardFault 3 (stackOf j.keyBase)
    else if s.writeBarred (stackOf j.keyBase) then s
    else
      let id := s.mem.nextId
      let writes := secs.flatMap (fun e => j.tableWrites dk h e.1 e.2)
      let io := writes.map (fun w => ({ island := stackOf w.1, id := id, address := w.1, since := s.now, charged := charged } : Upkeep))
      let s : State := { s with mem := { s.mem with nextId := id + 1, upkeep := s.mem.upkeep ++ io } }
      let s := secs.zipIdx.foldl (fun s e =>
        s.tableRec (8 * e.2) (stackOf j.keyBase) h e.1.1 (if charged then 5 else 2)) s
      let s := s.count (stackOf j.keyBase) 8 (some 3) (72 * secs.length)
      writes.foldl (fun s w => s.emitMem (stackOf w.1) (.memWrite (stackOf w.1) id (w.1 % 2 ^ 36) (w.2.map some))) s

/-- A fetched sector of a table, its block of 64 bytes with the block of eight franks that holds its own (R490), passes its frank under
a key that may be used (R165, R169, R173). -/
def tableGood (dk : Key) (h sec : Nat) (leaf : Node) (b : Bytes) : Bool :=
  usableKey dk && b.length == 128
    && frankOf dk (tableLbn h sec) (versionOf .fresh leaf sec) (b.take 64) == BitVec.ofNat 64 (field b (64 + 8 * (sec % 8)) 8)

/-- Whether the indices from `a` on, `n` of them, meet one of a table's ranges. -/
def meetsRanges (ranges : List KeyRange) (a n : Nat) : Bool :=
  ranges.any (fun r => decide (r.base < a + n) && decide (a < r.base + r.count))

/-- A leaf of a table's tree after step 7 of admission: each sector with an entry in a range has been sealed once. -/
def firstLeaf (ranges : List KeyRange) (i : Nat) : Node :=
  { minors := (List.range 64).map (fun k => flag (meetsRanges ranges (8 * (64 * i + k)) 8)) }

/-- Leaves of a table's tree, and nodes above them, that step 7 of admission changes. -/
def Job.firstLeaves (j : Job) : List Nat := (List.range 2048).filter (fun i => meetsRanges j.keyRanges (512 * i) 512)
def Job.firstParents (j : Job) : List Nat := (List.range 32).filter (fun i => meetsRanges j.keyRanges (32768 * i) 32768)

/-- Room is made for the nodes that step 7 of admission holds for a table (R211): whether there is room now. -/
def State.tableRoom (s : State) (j : Job) : Bool × State :=
  let n := j.firstLeaves.length + j.firstParents.length
  let s := State.evict (stackOf j.keyBase) n 4096 s
  (s.hasRoom (stackOf j.keyBase) n, s)

/-- Step 7 of admission for a table (R143, R171, R210): the tree is created, and every sector with an entry of a range is
sealed; the leaves it changes are held, dirty, with their parents. -/
def State.setupTable (s : State) (h : Nat) : State :=
  match s.job h with
  | none => s
  | some j =>
    let line (lvl i : Nat) (n : Node) (dirty : Bool) : Line :=
      { island := stackOf j.keyBase, key := .node (tableTree h) lvl i, val := .node n, dirty := dirty, lastUse := s.now,
        writing := 0, wid := 0 }
    let secs := j.firstLeaves.flatMap (fun i => ((List.range 64).map (64 * i + ·)).filterMap (fun k =>
      if meetsRanges j.keyRanges (8 * k) 8 then some (k, firstLeaf j.keyRanges i) else none))
    let lines := j.firstParents.map (fun i => line 2 i {} false)
      ++ j.firstLeaves.map (fun i => line 1 i (firstLeaf j.keyRanges i) true)
    State.storeTable { s with mem := { s.mem with lines := s.mem.lines ++ lines } } h secs

end Machine
end Sys2Proof
end

