-- ==== Sys2Proof/Machine/Jobs.lean ====
section
/-!
DEFINITION. Machine/Jobs.lean: partitions, the manifest, the fit rules, admission and resizing of jobs, contexts, and the
commands 0x04xx but for the closings (R134 to R149, R154 to R157).
-/

namespace Sys2Proof
namespace Machine

/-! ### Power budget (R395, R398) -/

/-- The package limit in force, in W. -/
def State.packageLimit (s : State) : Nat :=
  if s.power.calFault ∨ s.boot.blockState = .cpHung then s.power.safeBudget
  else if s.power.leaseMode = 0 then s.power.boardLimit
  else match s.power.lease with
    | some l => if s.now < l.ends then l.budget else s.power.safeBudget
    | none => s.power.safeBudget

/-- The package budget in force, in mW. -/
def State.budget (s : State) : Nat := (s.packageLimit - s.power.reserve) * 1000

/-- The margin sweep in progress concerns a partition: it sweeps one of its tiles or, by voltage, a rail of one (R411). -/
def State.sweepHits (s : State) (p : Nat) : Bool :=
  match s.power.sweep with
  | some w => (s.part p).tiles.any (fun t => t == w.tile || (w.kind == 0 && t / 8 == w.tile / 8))
  | none => false

/-- A job is admitted to a partition: the sweep that concerns it ends at its next step (R411). -/
def State.endSweep (s : State) (p : Nat) : State :=
  if s.sweepHits p then
    { s with power := { s.power with sweep := s.power.sweep.map (fun (w : Sweep) => { w with squash := true }) } }
  else s

/-! ### Partitions -/

/-- The jobs admitted, or being admitted, to a partition. -/
def State.jobsIn (s : State) (p : Nat) : List (Nat × Job) := s.jobs.filter (fun e => e.2.partition == p)

/-- MC_TEST_EN of the stacks of `tiles`: active once a tile has left its partition, inactive from when it joins one.  R193 says only where
the engine may be enabled; no level is handed over for the stacks of no partition at a start (DESIGN CHOICE, log 72). -/
def State.testEnable (s : State) (tiles : List Nat) (on : Bool) : State :=
  tiles.foldl (fun s t => s.emit (.mcTestEn t on)) s

/-- Tile numbers that a mask names. -/
def tilesOf (mask : Nat) : List Nat := bitsSet mask 16

/-- CREATE_PARTITION (R136); a stack whose tile was in no partition is unfenced (R424). -/
def hCreatePartition : Handler where
  manager := false
  job := false
  service := true
  length := exactly 4
  params _ c := [(64, decide (c.arg 0 1 < 16)), zeroAt c 1 1, (66, c.arg 2 2 != 0)]
  run s c :=
    let p := c.arg 0 1
    let tiles := tilesOf (c.arg 2 2)
    if (s.part p).state ≠ .free ∨ tiles.any s.tileTaken = true then refuse .badState
    else
      let s := s.modPart p (fun _ => { state := .active, tiles := tiles })
      let fenced := s.fault.stacksFenced.filter (fun t => decide (t ∉ tiles))
      let s : State := { s with fault := { s.fault with stacksFenced := fenced } }
      doneWith (s.testEnable tiles false)

/-- DESTROY_PARTITION (R136). -/
def hDestroyPartition : Handler where
  manager := false
  job := false
  service := true
  length := exactly 8
  params _ c := [(64, decide (c.arg 0 1 < 16)), zeroAt c 1 7]
  run s c :=
    let p := c.arg 0 1
    match s.partGate p false false with
    | some v => v
    | none =>
      if (s.jobsIn p).isEmpty then
        doneWith ((s.modPart p (fun _ => {})).testEnable (s.part p).tiles true)
      else refuse .badState

/-- partition state codes (R156). -/
def PartState.code : PartState → Nat
  | .free => 0 | .active => 1 | .resizing => 2 | .resetting => 3

/-- The body of PARTITION_STATUS (R156). -/
def partitionBody (s : State) (p : Nat) : Bytes :=
  enc [(1, (s.part p).state.code), (1, 0), (2, maskOf (s.part p).tiles 16), (2, (s.jobsIn p).length), (2, 0)]

def hPartitionStatus : Handler where
  manager := false
  job := false
  length := exactly 8
  params _ c := [(64, decide (c.arg 0 1 < 16)), zeroAt c 1 7]
  run s c := answerWith s (partitionBody s (c.arg 0 1))

/-! ### Where things lie (R142, R162, R204, R205) -/

/-- Bytes of a sector (R161); for OPEN taken to be 64 (R197). -/
def sectorBytes (log : Nat) : Nat := 2 ^ log

/-- log2 of the sector size coded in a REGION record. -/
def sectorLogOf (code : Nat) : Nat := if code = 0 then 6 else if code = 1 then 8 else 10

/-- Franks of a region (R162). -/
def frankBytes (cls : RegClass) (log size : Nat) : Nat := if cls = .opened then 0 else size / 2 ^ log * 8

/-- First byte of a stack in local offsets, and its capacity (R162). -/
def stackBase (n : Nat) : Nat := n * 2 ^ 36
def stackSize : Nat := 0xC00000000

/-- Extents of a placed region: its data with its franks, and its tree's copies where they are placed (R142). -/
def Placed.extents (p : Placed) : List (Nat × Nat) :=
  if p.record.pooled then []
  else (p.base, p.size + frankBytes p.record.cls p.record.sectorLog p.size)
    :: (if p.record.cls = .fresh ∧ p.treeA ≠ p.treeB then
          let n := treeBytes (p.size / 2 ^ p.record.sectorLog)
          [(p.treeA, n), (p.treeB, n)]
        else [])

/-- The extents (base, length) that a job's placed regions and key-index metadata occupy on the stacks. -/
def Job.extents (j : Job) : List (Nat × Nat) :=
  j.placed.flatMap Placed.extents
    ++ (if j.keyRanges.isEmpty then []
        else [(j.keyBase, keyTableBytes), (j.keyTree.copyA, treeBytes keyTableSectors),
              (j.keyTree.copyB, treeBytes keyTableSectors)])

/-- Every extent in use. -/
def State.extents (s : State) : List (Nat × Nat) := s.jobs.flatMap (fun e => e.2.extents)

/-- The next multiple of `a`. -/
def alignUp (n a : Nat) : Nat := (n + a - 1) / a * a

/-- The lowest free address in [lo, hi) that is a multiple of `align` and can hold `len` bytes. -/
def lowestFree (used : List (Nat × Nat)) (lo hi align len : Nat) : Option Nat :=
  let cands := alignUp lo align :: used.map (fun e => alignUp (e.1 + e.2) align)
  let good := cands.filter (fun a => decide (lo ≤ a) && decide (a + len ≤ hi)
    && used.all (fun e => e.2 == 0 || decide (a + len ≤ e.1) || decide (e.1 + e.2 ≤ a)))
  match good with
  | [] => none
  | a :: r => some (r.foldl min a)

/-- The lowest free address on a stack. -/
def freeOn (used : List (Nat × Nat)) (stack align len : Nat) : Option Nat :=
  lowestFree used (stackBase stack) (stackBase stack + stackSize) align len

/-- Places a tree's two copies for a region on `home`: on the two lowest-numbered other stacks with room, or on the
region's own and the one other with room (R142). -/
def placeTree (used : List (Nat × Nat)) (stackList : List Nat) (home len : Nat) : Option (Nat × Nat) :=
  let others := stackList.filterMap (fun t => if t = home then none else (freeOn used t 64 len).map (fun a => (t, a)))
  match others with
  | a :: b :: _ => some (a.2, b.2)
  | [a] => (freeOn used home 64 len).map (fun h => if home < a.1 then (h, a.2) else (a.2, h))
  | [] => none

/-- Places one local region, with its tree copies where R142 can place them. -/
def placeLocal (used : List (Nat × Nat)) (stackList : List Nat) (r : RegionRec) : Option Placed :=
  let len := r.size + frankBytes r.cls r.sectorLog r.size
  let fits := (stackList.filter (fun t => bit r.stackMask t)).filterMap (fun t =>
    (freeOn used t 65536 len).map (fun a => (t, a)))
  match fits with
  | [] => none
  | (t, a) :: _ =>
    if r.cls = .fresh ∧ 2 ≤ stackList.length then
      (placeTree ((a, len) :: used) stackList t (treeBytes (r.size / 2 ^ r.sectorLog))).map (fun c =>
        { record := r, base := a, size := r.size, treeA := c.1, treeB := c.2 })
    else some { record := r, base := a, size := r.size, treeA := 0, treeB := 0 }

/-- Bytes from one pooled region of a record to the next: data, franks, and a tree's copy A (R205), to 64 KiB (DEDUCED, log 20). -/
def pooledStride (r : RegionRec) : Nat :=
  alignUp (r.size + frankBytes r.cls r.sectorLog r.size
    + (if r.cls = .fresh then treeBytes (r.size / 2 ^ r.sectorLog) else 0)) 65536

/-- The `k`-th pooled region of a record: copy A of its tree after its franks, copy B on the mirror tray (R205). -/
def placePooled (r : RegionRec) (k : Nat) : Placed :=
  let base := r.address + k * pooledStride r
  let a := base + r.size + frankBytes r.cls r.sectorLog r.size
  { record := r, base := base, size := r.size, treeA := if r.cls = .fresh then a else 0,
    treeB := if r.cls = .fresh then (if bit a 48 then a - 2 ^ 48 else a + 2 ^ 48) else 0 }

/-- Places the `n` regions of one record. -/
def placeRecord (stackList : List Nat) (r : RegionRec) :
    Nat → Nat → List (Nat × Nat) → Option (List Placed × List (Nat × Nat))
  | 0, _, used => some ([], used)
  | n + 1, k, used =>
    if r.pooled then (placeRecord stackList r n (k + 1) used).map (fun e => (placePooled r k :: e.1, e.2))
    else match placeLocal used stackList r with
      | none => none
      | some p => (placeRecord stackList r n (k + 1) (p.extents ++ used)).map (fun e => (p :: e.1, e.2))

/-- Places every region of a manifest in record order: the offset of the record that finds no room, or the regions. -/
def placeRegions (stackList : List Nat) :
    List RegionRec → List (Nat × Nat) → Except Nat (List Placed × List (Nat × Nat))
  | [], used => .ok ([], used)
  | r :: rest, used =>
    match placeRecord stackList r r.count 0 used with
    | none => .error r.offset
    | some (l, used) =>
      match placeRegions stackList rest used with
      | .error d => .error d
      | .ok (m, used) => .ok (l ++ m, used)

/-- Places the key-index table and its tree (R170, R205): base, copy A, copy B. -/
def placeKeyTable (used : List (Nat × Nat)) (stackList : List Nat) : Option (Nat × Nat × Nat) :=
  let n := treeBytes keyTableSectors
  match stackList.filterMap (fun t => freeOn used t 65536 keyTableBytes) with
  | [] => none
  | base :: _ =>
    let used := (base, keyTableBytes) :: used
    match stackList with
    | [t] =>
      let half := stackBase t + 0x600000000
      match lowestFree used (stackBase t) half 64 n, lowestFree used half (stackBase t + stackSize) 64 n with
      | some a, some b => some (base, a, b)
      | _, _ => none
    | _ =>
      match stackList.filterMap (fun t => freeOn used t 64 n) with
      | a :: b :: _ => some (base, a, b)
      | _ => none

/-! ### The manifest (R138 to R140) -/

/-- A record of a manifest. -/
inductive Rec where
  | region (r : RegionRec)
  | key (k : KeyRange)
  | windows (quota : Nat)
  | reduction (g : RedGroup)
  | bandwidth (b : Bandwidth)
deriving DecidableEq, Repr

/-- Class of a code (R158). -/
def classOf (n : Nat) : RegClass :=
  if n = 0 then .weights else if n = 1 then .confidential else if n = 2 then .fresh else .opened

/-- Length of a record of each type. -/
def recLength (type : Nat) : Nat :=
  if type = 1 then 32 else if type = 2 then 16 else if type = 3 then 8 else if type = 4 then 12 else 16

/-- How many records of a type a record list holds, as far as its heads can be followed. -/
def countType (b : Bytes) (type : Nat) : Nat → Nat → Nat
  | 0, _ => 0
  | n + 1, off =>
    if b.length < off + 4 then 0
    else
      let l := field b (off + 2) 2
      (if field b off 1 = type then 1 else 0) + (if l = 0 then 0 else countType b type n (off + l))

/-- What the walk of the records needs to know. -/
structure WalkEnv where
  /-- Offset that the packet gives byte 0 of the text. -/
  base : Nat
  confidential : Bool
  /-- The stacks of the partition while it is ACTIVE (R140). -/
  stackList : Option (List Nat)
  keyRanges : Nat
  regionOk : Bool

/-- The fields of a REGION record at `o`, in offset order.  With no KEY_RANGE record at all a key_range names no missing
ordinal here: R139 has the class byte named, after the walk. -/
def regionChecks (w : WalkEnv) (b : Bytes) (o : Nat) : List (Nat × Bool) :=
  let f (i n : Nat) : Nat := field b (o + i) n
  let cls := classOf (f 6 1)
  let log := sectorLogOf (f 7 1)
  let mask := f 16 2
  [(o + 4, decide (1 ≤ f 4 2) && decide (f 4 2 ≤ 1024)),
   (o + 6, decide (f 6 1 ≤ 3) && !(f 6 1 == 3 && w.confidential)),
   (o + 7, decide (f 7 1 ≤ 2)),
   (o + 8, f 8 8 != 0 && f 8 8 % 65536 == 0 && decide (f 8 8 < 2 ^ 48)
      && !decide (2 ^ 36 < f 8 8 / 2 ^ (if cls = .opened then 6 else log))),
   (o + 16, if f 18 1 = 0 then mask != 0 && (match w.stackList with
        | some l => (tilesOf mask).all (fun t => decide (t ∈ l))
        | none => true)
      else if f 18 1 = 1 then mask == 0 else true),
   (o + 18, decide (f 18 1 ≤ 1)),
   (o + 19, if cls = .opened then f 19 1 == 0xFF else w.keyRanges == 0 || f 19 1 == 0xFF || decide (f 19 1 < w.keyRanges)),
   (o + 20, f 20 4 == 0),
   (o + 24, if f 18 1 = 0 then f 24 8 == 0 else f 24 8 % 65536 == 0)]

/-- The fields of a record of another type.  Of two KEY_RANGE records that overlap, the later one's base is named, also where only its
count reaches into the other (DESIGN CHOICE, log 64). -/
def otherChecks (type : Nat) (b : Bytes) (o : Nat) (seen : List KeyRange) : List (Nat × Bool) :=
  let f (i n : Nat) : Nat := field b (o + i) n
  if type = 2 then
    [(o + 4, decide (f 4 4 < 2 ^ 20)
        && seen.all (fun k => decide (f 4 4 + max (f 8 4) 1 ≤ k.base) || decide (k.base + k.count ≤ f 4 4))),
     (o + 8, decide (1 ≤ f 8 4) && decide (f 4 4 + f 8 4 ≤ 2 ^ 20)), (o + 12, f 12 4 == 0)]
  else if type = 3 then [(o + 4, decide (1 ≤ f 4 2) && decide (f 4 2 ≤ 32768)), (o + 6, f 6 2 == 0)]
  else if type = 4 then
    [(o + 4, decide (f 4 2 < 4096)), (o + 6, decide (2 ≤ f 6 2) && decide (f 6 2 ≤ 4096)),
     (o + 8, decide (1 ≤ f 8 2) && decide (f 8 2 ≤ 1024)), (o + 10, f 10 2 == 0)]
  else
    [(o + 4, decide (f 4 1 ≤ 3)), (o + 5, decide (f 5 1 ≤ 2)), (o + 6, f 6 2 == 0),
     (o + 10, decide (1 ≤ f 10 2) && decide (f 10 2 ≤ 4096)), (o + 14, f 14 2 == 0)]

/-- The record at `o`, its fields taken as checked; `at_` is its packet offset. -/
def readRec (b : Bytes) (o at_ : Nat) : Rec :=
  let f (i n : Nat) : Nat := field b (o + i) n
  match f 0 1 with
  | 1 => .region { offset := at_, count := f 4 2, cls := classOf (f 6 1), sectorLog := sectorLogOf (f 7 1),
                   size := f 8 8, stackMask := f 16 2, pooled := f 18 1 == 1, keyRange := f 19 1, address := f 24 8 }
  | 2 => .key { base := f 4 4, count := f 8 4 }
  | 3 => .windows (f 4 2)
  | 4 => .reduction { group := f 4 2, contributors := f 6 2, descriptors := f 8 2, lastRound := 0 }
  | _ => .bandwidth { tc := f 4 1, targetKind := f 5 1, minBw := f 8 2, outstanding := f 10 2, latency := f 12 2 }

/-- Walks the records from `off` (R139): each with its packet offset, or the packet offset of the first fault. -/
def walk (w : WalkEnv) (b : Bytes) : Nat → Nat → Nat → List KeyRange → Except Nat (List (Nat × Rec))
  | 0, _, _, _ => .ok []
  | n + 1, off, prev, seen =>
    if b.length ≤ off then .ok []
    else
      let type := field b off 1
      let head := [(off, decide (prev ≤ type) && decide (1 ≤ type) && decide (type ≤ 5) && (w.regionOk || type != 1)),
                   (off + 1, field b (off + 1) 1 == 0),
                   (off + 2, field b (off + 2) 2 == recLength type && decide (off + recLength type ≤ b.length))]
      let all := head ++ (if type = 1 then regionChecks w b off else otherChecks type b off seen)
      match all.find? (fun e => !e.2) with
      | some e => .error (w.base + e.1)
      | none =>
        let r := readRec b off (w.base + off)
        let seen := match r with | .key k => k :: seen | _ => seen
        match walk w b n (off + recLength type) type seen with
        | .error d => .error d
        | .ok l => .ok ((w.base + off, r) :: l)

/-- The multiplicities of R139: the packet offset of the first record too many, or of the class byte of the first
region that needs a KEY_RANGE record. -/
def multiplicity (l : List (Nat × Rec)) (needKeys : Bool) : Option Nat :=
  let of (p : Rec → Bool) : List Nat := (l.filter (fun e => p e.2)).map (·.1)
  let keys := of (fun r => match r with | .key _ => true | _ => false)
  let wins := of (fun r => match r with | .windows _ => true | _ => false)
  let reds := of (fun r => match r with | .reduction _ => true | _ => false)
  let sealedReg := of (fun r => match r with | .region r => decide (r.cls ≠ .opened) | _ => false)
  let bws := l.filterMap (fun e => match e.2 with | .bandwidth b => some (e.1, b.tc * 4 + b.targetKind) | _ => none)
  let twice := bws.zipIdx.find? (fun e => (bws.take e.2).any (fun f => f.2 == e.1.2))
  if needKeys ∧ keys.isEmpty ∧ sealedReg.isEmpty = false then (sealedReg.head?).map (· + 6)
  else if 64 < keys.length then keys[64]?
  else if 1 < wins.length then wins[1]?
  else if 64 < reds.length then reds[64]?
  else twice.map (fun e => e.1.1)

/-- The parts of a record list by type. -/
def regionsOf (l : List (Nat × Rec)) : List RegionRec :=
  l.filterMap (fun e => match e.2 with | .region r => some r | _ => none)
def rangesOf (l : List (Nat × Rec)) : List KeyRange :=
  l.filterMap (fun e => match e.2 with | .key k => some k | _ => none)
def windowsOf (l : List (Nat × Rec)) : Option Nat :=
  (l.filterMap (fun e => match e.2 with | .windows q => some q | _ => none)).head?
def groupsOf (l : List (Nat × Rec)) : List RedGroup :=
  l.filterMap (fun e => match e.2 with | .reduction g => some g | _ => none)
def bandwidthOf (l : List (Nat × Rec)) : List Bandwidth :=
  l.filterMap (fun e => match e.2 with | .bandwidth b => some b | _ => none)

/-- The packet offset of the first record of a kind, zero with none. -/
def firstAt (l : List (Nat × Rec)) (p : Rec → Bool) : Nat := ((l.find? (fun e => p e.2)).map (·.1)).getD 0

/-- The header fields of a manifest in offset order, record_count excepted (R138); `len`: bytes presented. -/
def headerChecks (b : Bytes) (len : Nat) : List (Nat × Bool) :=
  [(0, slice b 0 4 == ascii "AMFT"), (4, field b 4 1 == 0x32), (5, decide (field b 5 1 < 8)),
   (6, decide (field b 6 1 < 16)), (7, decide (field b 7 1 ≤ 3)), (12, field b 12 2 == len),
   (16, decide (1 ≤ field b 16 2) && decide (field b 16 2 ≤ 4096)), (18, decide (field b 18 2 ≤ 8128)),
   (56, field b 56 8 == 0)]

/-- Parses a manifest presented at packet offset 192 (R138 to R140): the packet offset of the first fault, or it. -/
def parseManifest (s : State) (b : Bytes) : Except Nat Manifest :=
  match (headerChecks b b.length).find? (fun e => !e.2) with
  | some e => .error (192 + e.1)
  | none =>
    let part := field b 6 1
    let n := b.length / 4
    let w : WalkEnv := { base := 192, confidential := bit (field b 5 1) 0,
                         stackList := if (s.part part).state = .active then some (s.part part).tiles else none,
                         keyRanges := countType b 2 n 64, regionOk := true }
    match walk w b n 64 0 [] with
    | .error d => .error d
    | .ok l =>
      if field b 14 2 ≠ l.length then .error 206
      else match multiplicity l true with
        | some d => .error d
        | none =>
          .ok { confidential := bit (field b 5 1) 0, exclusive := bit (field b 5 1) 1,
                teardownDead := bit (field b 5 1) 2, partition := part, binding := field b 7 1,
                jobNumber := field b 8 4, maxContexts := field b 16 2, fenceQuota := field b 18 2,
                powerShare := field b 20 4, modelDigest := BitVec.ofNat 256 (field b 24 32),
                regions := regionsOf l, keyRanges := rangesOf l, windows := windowsOf l, reductions := groupsOf l,
                bandwidth := bandwidthOf l,
                keyOff := firstAt l (fun r => match r with | .key _ => true | _ => false),
                winOff := firstAt l (fun r => match r with | .windows _ => true | _ => false),
                redOff := firstAt l (fun r => match r with | .reduction _ => true | _ => false),
                bwOff := firstAt l (fun r => match r with | .bandwidth _ => true | _ => false) }

/-! ### Fit (R141) -/

/-- What admission reserves. -/
structure Placement where
  letterbox : Option Nat
  ctxBase   : Nat
  regBase   : Nat
  placed    : List Placed
  keyBase   : Nat
  copyA     : Nat
  copyB     : Nat

/-- The lowest base of a free run of `n` numbers below `limit`. -/
def freeRun (used : List (Nat × Nat)) (limit n : Nat) : Option Nat := lowestFree used 0 limit 1 n

/-- The lowest-numbered job letterbox that is UNBOUND or CLOSED and that no job holds (R143). -/
def State.freeBox (s : State) : Option Nat :=
  (List.range 64).find? (fun lb => decide (2 ≤ lb)
    && ((s.box lb).state == .unbound || (s.box lb).state == .closed)
    && s.jobs.all (fun e => e.2.letterbox != some lb))

/-- Sum of a figure over jobs. -/
def sumJobs (l : List (Nat × Job)) (f : Job → Nat) : Nat := (l.map (fun e => f e.2)).sum

/-- Sum of a figure over the bandwidth records of a job that meet a condition. -/
def Job.bwSum (j : Job) (p : Bandwidth → Bool) (f : Bandwidth → Nat) : Nat := ((j.bandwidth.filter p).map f).sum

/-- The bandwidth record, by ordinal, at which a running sum passes a limit. -/
def overAt (l : List Bandwidth) (p : Bandwidth → Bool) (f : Bandwidth → Nat) (limit : Nat) : Nat → Nat → Option Nat
  | i, have_ =>
    match l with
    | [] => none
    | b :: r =>
      let now := if p b then have_ + f b else have_
      if p b ∧ limit < now then some i else overAt r p f limit (i + 1) now

/-- The first failing record over several limits. -/
def minOpt (l : List (Option Nat)) : Option Nat :=
  match l.filterMap id with
  | [] => none
  | a :: r => some (r.foldl min a)

/-- Rules 8 to 13 of R141 against the other jobs, with the offsets that name each failure. -/
def fitQuotas (s : State) (others : List (Nat × Job)) (part : Nat) (windows : Option Nat) (fences power : Nat)
    (groups : List RedGroup) (bw : List Bandwidth) (winOff redOff bwOff powOff : Nat) : Option Nat :=
  let inPart := others.filter (fun e => e.2.partition == part)
  let kind (k : Nat) (b : Bandwidth) : Bool := b.targetKind == k
  let exp (k : Nat) (b : Bandwidth) : Bool := b.targetKind == k && b.tc == 0
  let badGroup := (groups.zipIdx).find? (fun e =>
    others.any (fun o => o.2.groups.any (fun g => g.group == e.1.group))
      || decide (1024 < sumJobs others (fun j => (j.groups.map (·.descriptors)).sum)
            + ((groups.take (e.2 + 1)).map (·.descriptors)).sum))
  if windows.isSome ∧ 32768 < sumJobs others (fun j => j.windows.getD 0) + windows.getD 0 then some winOff
  else if 8128 < sumJobs others (·.fenceQuota) + fences then some 210
  else match badGroup with
    | some e => some (redOff + 12 * e.2)
    | none =>
      match minOpt [overAt bw (kind 0) (·.minBw) 14400 0 (sumJobs inPart (fun j => j.bwSum (kind 0) (·.minBw))),
                    overAt bw (kind 1) (·.minBw) 1152 0 (sumJobs others (fun j => j.bwSum (kind 1) (·.minBw))),
                    overAt bw (kind 2) (·.minBw) 1000 0 (sumJobs others (fun j => j.bwSum (kind 2) (·.minBw)))] with
      | some i => some (bwOff + 16 * i)
      | none =>
        match minOpt [overAt bw (exp 0) (·.outstanding) 256 0
                        (sumJobs inPart (fun j => j.bwSum (exp 0) (·.outstanding))),
                      overAt bw (exp 1) (·.outstanding) 32 0
                        (sumJobs others (fun j => j.bwSum (exp 1) (·.outstanding)))] with
        | some i => some (bwOff + 16 * i)
        | none => if s.budget < sumJobs others (·.powerShare) + power then some powOff else none

/-- The fit rules of R141, in order: the detail of the first that fails, or what is reserved. -/
def State.fit (s : State) (m : Manifest) : Except Nat Placement :=
  let p := s.part m.partition
  let stackList := p.tiles
  let here := s.jobsIn m.partition
  if p.state ≠ .active ∨ here.any (fun e => e.2.exclusive) ∨ (m.exclusive ∧ here.isEmpty = false) then .error 198
  else if m.binding ≠ 0 ∧ s.freeBox.isNone then .error 199
  else match freeRun (s.jobs.map (fun e => (e.2.ctxBase, e.2.maxContexts))) 4096 m.maxContexts with
    | none => .error 208
    | some ctxBase =>
      match freeRun (s.jobs.map (fun e => (e.2.regBase, e.2.regCount))) 16384 ((m.regions.map (·.count)).sum) with
      | none => .error 0
      | some regBase =>
        match placeRegions stackList m.regions s.extents with
        | .error d => .error d
        | .ok (placed, used) =>
          let keys := if m.keyRanges.isEmpty then some (0, 0, 0) else placeKeyTable used stackList
          match keys with
          | none => .error m.keyOff
          | some (kb, ka, kc) =>
            match (if stackList.length < 2 then m.regions.find? (fun r => !r.pooled && decide (r.cls = .fresh))
                   else none) with
            | some r => .error r.offset
            | none =>
              let unrouted := placed.find? (fun p => p.record.pooled &&
                (match tget s.remote.routes (p.base / 2 ^ 48) with | some e => !e.valid | none => true))
              match unrouted with
              | some p => .error p.record.offset
              | none =>
                match fitQuotas s s.jobs m.partition m.windows m.fenceQuota m.powerShare m.reductions m.bandwidth
                    m.winOff m.redOff m.bwOff 212 with
                | some d => .error d
                | none => .ok { letterbox := if m.binding = 0 then none else s.freeBox, ctxBase := ctxBase,
                                regBase := regBase, placed := placed, keyBase := kb, copyA := ka, copyB := kc }

/-! ### Admission (R143 to R145) -/

/-- Creates the job: its slot LOADED, everything reserved, step 7 next. -/
def State.createJob (s : State) (h id : Nat) (m : Manifest) (r : Placement) (jrk : Key) (digest : Key) : State :=
  let j : Job :=
    { number := m.jobNumber, state := .admitting, partition := m.partition, confidential := m.confidential,
      exclusive := m.exclusive, teardownDead := m.teardownDead, letterbox := r.letterbox, binding := m.binding,
      ctxBase := r.ctxBase, maxContexts := m.maxContexts, regBase := r.regBase,
      regCount := r.placed.length, fenceQuota := m.fenceQuota, powerShare := m.powerShare,
      modelDigest := m.modelDigest, manifestDigest := digest, admittedAt := s.now, keyRanges := m.keyRanges,
      windows := m.windows, groups := m.reductions, bandwidth := m.bandwidth, placed := r.placed,
      keyBase := r.keyBase,
      keyTree := { sectors := keyTableSectors, copyA := r.copyA, copyB := r.copyB },
      step := 7, op := some id }
  { s with jobs := tput s.jobs h j,
           kv := { s.kv with jobRoots := tput s.kv.jobRoots h { state := .loaded, job := m.jobNumber, jrk := jrk, pre := kmacPrefix (bytesOf jrk) } },
           boot := if s.life.inForce = .test then { s.boot with tap := .bypass, cpHalted := false } else s.boot }

/-- The lowest free local job handle: R143 step 6 says only that one is assigned, and so of the context run and the region run, which
`State.fit` takes lowest first as well (DESIGN CHOICE, log 64). -/
def State.freeHandle (s : State) : Option Nat :=
  firstBelow (fun h => (s.job h).isNone && (tget s.kv.jobRoots h).isNone) 256

/-- Remaining bound of a job's teardown, in µs (R153, R515). -/
def State.teardownLeft (s : State) (j : Job) : Nat := s.remaining j.closeBy

/-- The tree initialisation time of an admission in µs, rounded up (R144, R210). -/
def treeTime (placed : List Placed) : Nat := ((placed.filter (fun p => p.record.cls == .fresh)).length + 9) / 10

/-- Step 1 of R143: in PRODUCTION, a permit with SCAN or CP_DEBUG is open. -/
def State.toolsOpen (s : State) : Bool := s.life.inForce == .production && (s.right 0 none || s.right 1 none)

/-- ADMIT_JOB (R143): its step 1 comes before the length of the body is judged (its step 2), except where the command is to be held
first (R62). A job that fits while no local job handle is free is answered NO_FIT with detail 0 (DESIGN CHOICE, log 64). -/
def hAdmitJob : Handler where
  manager := false
  job := false
  states l := l == .test || l == .production
  service := true
  length := fun l => decide (192 ≤ l)
  before s _ := if s.awaitsService = false ∧ s.toolsOpen = true then some (.badState, 0) else none
  run s c :=
    let token := c.bytes 0 128
    let text := c.p.body.drop 128
    if s.toolsOpen = true then refuse .badState
    else match parseManifest s text with
      | .error d => badField d
      | .ok m =>
        if field token 4 4 ≠ m.jobNumber then badField 200
        else match s.jobs.find? (fun e => e.2.number == m.jobNumber && e.2.state == .closing) with
          | some e => .behind (.job m.jobNumber) (s.teardownLeft e.2)
          | none =>
            let digest := labelled "MANIFEST" text
            let go (s : State) : Except (Status × Nat) Key × State :=
              (s.calls (shakeCalls (8 + text.length)) false).openToken token digest
            match go s with
            | (.error (st, d), s') => .reply { status := st, detail := d } s'
            | (.ok jrk, s') =>
              match s'.fit m, s'.freeHandle with
              | .error d, _ => .reply { status := .noFit, detail := d } s'
              | .ok _, none => .reply { status := .noFit } s'
              | .ok r, some h =>
                .accept [] (some (2000 + treeTime r.placed)) (fun id s => (s.createJob h id m r jrk digest).endSweep m.partition)
                  (fun s => (go s).2)

/-- Region numbers of a job, with what admission placed there. -/
def Job.regions (j : Job) : List (Nat × Placed) := j.placed.zipIdx.map (fun e => (j.regBase + e.2, e.1))

/-- The first and last key index that may seal a region (R161). -/
def keySpan (ranges : List KeyRange) (r : RegionRec) : Nat × Nat :=
  if r.cls = .opened then (0, 0)
  else if r.keyRange = 0xFF then (0, 0xFFFFF)
  else match ranges[r.keyRange]? with
    | some k => (k.base, k.base + k.count - 1)
    | none => (0, 0)

/-- The region table entry of a region at admission (R143 step 7, R160). -/
def newRegion (h : Nat) (ranges : List KeyRange) (p : Placed) : Region :=
  let span := keySpan ranges p.record
  { state := if p.record.cls = .weights then .loading else .active, cls := p.record.cls,
    sectorLog := if p.record.cls = .opened then 6 else p.record.sectorLog, pooled := p.record.pooled, handle := h,
    keyFirst := span.1, keyLast := span.2, base := p.base, size := p.size, wcWindow := 1000,
    tree := if p.record.cls = .fresh
      then { sectors := p.size / 2 ^ p.record.sectorLog, copyA := p.treeA, copyB := p.treeB } else {} }

/-- A job's letterbox is issued (R37, R44, R68, R143 step 9).  Its counts, the ring-full drops among them, start at zero (DESIGN CHOICE,
log 70). -/
def State.issueBox (s : State) (lb : Nat) (binding : Nat) (key : Key) : State :=
  let (nonce, s) := s.draw 64
  let b : Lbx := { state := if binding = 3 then .opened else .idle,
                   binding := if binding = 1 then .host0 else if binding = 2 then .host1 else .fabric,
                   session := nonce, tokenAt := s.now }
  { s with sniby := { s.sniby with boxes := tput s.sniby.boxes lb b },
           kv := { s.kv with lbxKeys := tput s.kv.lbxKeys lb key } }

/-- Removes a job and what it holds in the tables (R144, R153 step 13). -/
def State.dropJob (s : State) (h : Nat) : State :=
  match s.job h with
  | none => s
  | some j =>
    let regs := j.regions.map (·.1)
    { s with jobs := tdel s.jobs h,
             regions := s.regions.filter (fun e => decide (e.1 ∉ regs)),
             ctxs := tmap s.ctxs (fun c x => if j.ctxBase ≤ c ∧ c < j.ctxBase + j.maxContexts
               then { incarnation := x.incarnation } else x),
             kv := { s.kv with jobRoots := tdel s.kv.jobRoots h },
             mem := { s.mem with lines := s.mem.lines.filter (fun (l : Line) => match l.key with
               | .node t _ _ => t != tableTree h
               | _ => true) } }

/-- A failed admission is undone (R144). -/
def State.undoAdmission (s : State) (h : Nat) (st : Status) : State :=
  match s.job h with
  | none => s
  | some j =>
    let s := match j.letterbox with
      | some lb =>
        if 9 < j.step then
          { s with sniby := { s.sniby with boxes := tput s.sniby.boxes lb { state := .closed } },
                   kv := { s.kv with lbxKeys := tdel s.kv.lbxKeys lb } }
        else s
      | none => s
    (s.dropJob h).purgeJob h |>.completeOpt j.op st []

/-- A pooled FRESH region has no route to its mirror tray (R205). -/
def State.mirrorUnrouted (s : State) (j : Job) : Bool :=
  j.placed.any (fun p => p.record.pooled && p.record.cls == .fresh &&
    (match tget s.remote.routes (p.treeB / 2 ^ 48) with | some r => !r.valid | none => true))

/-- ADMISSION_PROGRESS (R143 steps 7 to 11): the next step runs, or fails and undoes the admission.  A step that needs the job root
slot fails once END_OF_LIFE has emptied it; where it asks KV for a key, that is a key-vault check failure (R88, R101). -/
def State.admissionProgress (s : State) (h : Nat) (good : Bool) : State :=
  match s.job h with
  | none => s
  | some j =>
    if j.state ≠ .admitting then s
    else if (good = false ∧ j.step < 11) ∨ (j.step = 7 ∧ s.mirrorUnrouted j) then s.undoAdmission h .integrityLost
    else if j.step = 7 ∧ s.sweepHits j.partition then s
    else
      let next (s : State) : State := s.modJob h (fun j => { j with step := j.step + 1 })
      match j.step with
      | 7 =>
        let room := if j.keyRanges.isEmpty then (true, s) else s.tableRoom j
        if room.1 = false then room.2
        else
        let s := room.2
        let table := j.regions.foldl (fun t e => tput t e.1 (newRegion h j.keyRanges e.2)) s.regions
        let s : State := { s with regions := table }
        let s := if j.keyRanges.isEmpty then s
          else match s.slotKey h (.data 0 0xFF) with
            | some _ => (s.setupTable h).derived 1
            | none => s.hardFault 1 islandKV
        if j.keyRanges.isEmpty = false ∧ (s.metaKey h).isNone then s.undoAdmission h .integrityLost else next s
      | 8 => next s
      | 9 =>
        match j.letterbox, tget s.kv.jobRoots h with
        | some lb, some r =>
          let (nonce, s) := s.draw 64
          let s := s.issueBox lb j.binding (lbxJobKey r.jrk j.number lb nonce)
          next ((s.derived 1).modJob h (fun j => { j with admissionNonce := nonce }))
        | some _, none => (s.hardFault 1 islandKV).undoAdmission h .integrityLost
        | none, _ => next s
      | 10 =>
        if (tget s.kv.jobRoots h).isNone then s.undoAdmission h .integrityLost
        else
        let m := shake256 (ascii "JOB" ++ bytesOf s.att.dmr ++ le 4 j.number ++ bytesOf j.manifestDigest
          ++ bytesOf j.modelDigest) 256
        let slots := tmod s.kv.jobRoots h (fun r => { r with state := .active })
        let s : State := { s with kv := { s.kv with jobRoots := slots } }
        next ((s.calls (shakeCalls 103) false).modJob h (fun j => { j with measurement := m }))
      | _ =>
        let s := s.modJob h (fun j => { j with state := .active, op := none, step := 0, admittedAt := s.now })
        s.completeOpt j.op .done [(1, h), (1, j.letterbox.getD 0xFF), (2, j.regBase), (2, j.ctxBase), (2, 0),
                                  (8, j.admissionNonce.toNat)]

/-! ### JOB_STATUS (R157) -/

/-- Bytes of a record in the grammar of R139. -/
def regionRecBytes (r : RegionRec) : Bytes :=
  enc [(1, 1), (1, 0), (2, 32), (2, r.count), (1, r.cls.code),
       (1, if r.sectorLog = 6 then 0 else if r.sectorLog = 8 then 1 else 2), (8, r.size), (2, r.stackMask),
       (1, flag r.pooled), (1, r.keyRange), (4, 0), (8, r.address)]

/-- The records in force of a job. -/
def Job.records (j : Job) : Bytes :=
  let regs := (j.placed.zipIdx.filter (fun e =>
    !(j.placed.take e.2).any (fun q => q.record.offset == e.1.record.offset))).map (fun e => e.1.record)
  regs.flatMap regionRecBytes
    ++ j.keyRanges.flatMap (fun k => enc [(1, 2), (1, 0), (2, 16), (4, k.base), (4, k.count), (4, 0)])
    ++ (match j.windows with | some q => enc [(1, 3), (1, 0), (2, 8), (2, q), (2, 0)] | none => [])
    ++ j.groups.flatMap (fun g =>
        enc [(1, 4), (1, 0), (2, 12), (2, g.group), (2, g.contributors), (2, g.descriptors), (2, 0)])
    ++ j.bandwidth.flatMap (fun b => enc [(1, 5), (1, 0), (2, 16), (1, b.tc), (1, b.targetKind), (2, 0),
        (2, b.minBw), (2, b.outstanding), (2, b.latency), (2, 0)])

/-- Job state codes. -/
def JobState.code : JobState → Nat
  | .admitting => 0 | .active => 1 | .resizing => 2 | .closing => 3

/-- The context numbers of a job. -/
def Job.ctxs (j : Job) : List Nat := (List.range j.maxContexts).map (j.ctxBase + ·)

/-- The body of JOB_STATUS (R157). -/
def jobBody (s : State) (h : Nat) (j : Job) : Bytes :=
  enc [(1, j.state.code), (1, h), (1, j.partition), (1, j.letterbox.getD 0xFF), (2, j.regBase), (2, j.regCount),
       (2, j.ctxBase),
       (2, (s.ctxs.filter (fun e => e.2.state == .opened && decide (j.ctxBase ≤ e.1)
            && decide (e.1 < j.ctxBase + j.maxContexts))).length),
       (4, j.powerShare), (4, (j.keyRanges.map (·.count)).sum),
       (2, (s.remote.windows.filter (fun e => e.2.state == .opened && e.2.handle == h)).length),
       (2, (s.remote.fences.filter (fun e => e.2.state != .free && e.2.handle == h && decide (e.1 < 8128))).length),
       (8, j.admittedAt)] ++ j.records

/-- The job that a number names, if it is admitted. -/
def State.named (s : State) (number : Nat) : Option (Nat × Job) := s.jobs.find? (fun e => e.2.number == number)

/-- A command of a job (R135, R146): the job is admitted, its partition takes commands, and it is ACTIVE. -/
def State.jobGate (s : State) (number : Nat) : Except Verdict (Nat × Job) :=
  match s.named number with
  | none => .error (refuse .badState)
  | some (h, j) =>
    match s.partGate j.partition false false with
    | some v => .error v
    | none => if j.state = .active then .ok (h, j) else .error (refuse .badState)

def hJobStatus : Handler where
  manager := false
  job := false
  length := exactly 8
  params _ c := [zeroAt c 4 4]
  run s c :=
    match s.named (c.arg 0 4) with
    | some (h, j) =>
      match s.partGate j.partition false false with
      | some v => v
      | none => answerWith s (jobBody s h j)
    | none => refuse .badState

/-! ### RESIZE_PARTITION (R137) -/

/-- A stack holds something of a job: a region, a tree copy, or key-index metadata. -/
def State.stackHeld (s : State) (t : Nat) : Bool :=
  s.extents.any (fun e => decide (0 < e.2) && stackOf e.1 == t)

def hResizePartition : Handler where
  manager := false
  job := false
  service := true
  length := exactly 4
  params _ c := [(64, decide (c.arg 0 1 < 16)), zeroAt c 1 1, (66, c.arg 2 2 != 0)]
  run s c :=
    let p := c.arg 0 1
    let tiles := tilesOf (c.arg 2 2)
    let old := (s.part p).tiles
    match s.partGate p false false with
    | some v => v
    | none =>
      if (tiles.filter (fun t => decide (t ∈ old))).isEmpty then badField 66
      else if tiles.any (fun t => decide (t ∉ old) && s.tileTaken t) then refuse .badState
      else if (old.filter (fun t => decide (t ∉ tiles))).any s.stackHeld then refuse .badState
      else if tiles.length < 2 ∧ (s.jobsIn p).any (fun e => e.2.placed.any (fun q =>
          !q.record.pooled && q.record.cls == .fresh)) then .stop { status := .noFit }
      else .accept [] (some 50) (fun id s => s.modPart p (fun q =>
        { q with state := .resizing, newTiles := tiles, op := some id, since := s.now }))

/-- A request of a job of the partition, from a tile outside `tiles`, has not run to completion (R137 step 2): a READ, WRITE or
ATOMIC, a FENCE, or a REDUCE_CONTRIBUTE. -/
def State.leftBehind (s : State) (p : Nat) (tiles : List Nat) : Bool :=
  let mine (h : Nat) : Bool := match s.job h with | some j => j.partition == p | none => false
  s.mem.reqs.any (fun r => match r.origin with
      | .tile t _ => decide (t ∉ tiles) && mine r.handle
      | _ => false)
    || s.remote.fences.any (fun e => match e.2.tileReq with
      | some r => decide (r / 65536 ∉ tiles) && mine e.2.handle
      | none => false)
    || s.red.descs.any (fun e => mine e.2.handle && e.2.waiting.any (fun w => decide (w.tile ∉ tiles)))

/-- PARTITION_RESIZE_PROGRESS (R137): first the removed tiles leave; then, once their requests have run to completion,
the added tiles join; a fenced stack stays fenced (R424). -/
def State.partitionResizeProgress (s : State) (p : Nat) : State :=
  let q := s.part p
  if q.state ≠ .resizing then s
  else
    let kept := q.tiles.filter (fun t => decide (t ∈ q.newTiles))
    if kept ≠ q.tiles then
      (s.modPart p (fun q => { q with tiles := kept })).testEnable (q.tiles.filter (fun t => decide (t ∉ q.newTiles))) true
    else if s.leftBehind p kept then s
    else
      let added := q.newTiles.filter (fun t => decide (t ∉ kept))
      let s := s.modPart p (fun q => { q with tiles := q.newTiles, state := .active, newTiles := [], op := none })
      (s.testEnable added false).completeOpt q.op .done []

/-! ### Contexts (R148) -/

/-- A job letterbox names a context of its own run (R156): bits 11:0 of the field name it, and the others are reserved (R148). -/
def State.ownCtx (s : State) (c : Cmd) (field : Nat) : Bool :=
  let ctx := field % 4096
  decide (c.lb < 2) || (match s.jobOfBox c.lb with
    | some e => decide (e.2.ctxBase ≤ ctx) && decide (ctx < e.2.ctxBase + e.2.maxContexts)
    | none => false)

/-- Fields of a context command. -/
def ctxParams (c : Cmd) : List (Nat × Bool) := [(64, decide (c.arg 0 2 < 4096)), zeroAt c 2 6]

/-- A context command's job: admitted, in a state that takes context commands; its partition's gate. -/
def State.ctxGate (s : State) (ctx : Nat) (resizing resetting : Bool) : Except Verdict Nat :=
  match s.jobOfCtx ctx with
  | none => .error (refuse .badState)
  | some h =>
    match s.job h with
    | none => .error (refuse .badState)
    | some j =>
      match s.partGate j.partition resizing resetting with
      | some v => .error v
      | none => .ok h

/-- The remaining bound of an operation that a table entry names, in µs (R515). -/
def State.opLeft (s : State) (op : Option Nat) : Nat :=
  match op.bind s.opOf with
  | some o => (match o.bound with | some b => s.remaining b | none => 100)
  | none => 100

/-- The job's state takes context commands (R146). -/
def Job.takesCtx (j : Job) : Bool := j.state == .active || j.state == .resizing

/-- OPEN_CONTEXT (R148, R312, R418): a fresh incarnation, no faults. -/
def hOpenContext : Handler where
  manager := false
  service := true
  length := exactly 8
  allowed s c := s.ownCtx c (c.arg 0 2)
  params _ c := ctxParams c
  run s c :=
    let ctx := c.arg 0 2
    match s.ctxGate ctx true false with
    | .error v => v
    | .ok h =>
      match (s.ctx ctx).state with
      | .opened => refuse .badState
      | .closing => .behind (.ctx ctx) (s.remaining (s.ctx ctx).closeBy)
      | .free =>
        if (match s.job h with | some j => j.takesCtx | none => false) then
          let (i, s) := s.draw 32
          let i := if i = (s.ctx ctx).incarnation then i + 1 else i
          doneWith (s.modCtx ctx (fun _ => { state := .opened, incarnation := i }))
        else refuse .badState

/-- Requests in flight of a context (R150). -/
def State.inFlight (s : State) (ctx : Nat) : Nat :=
  (s.mem.reqs.filter (fun r => r.ctx == some ctx && r.window.isNone)).length
    + (s.remote.fences.filter (fun e => e.2.tileReq.isSome && e.2.tileCtx == ctx)).length
    + ((s.red.descs.filter (fun e => e.2.ctx == ctx)).map (fun e => e.2.waiting.length)).sum

/-- Context state codes. -/
def CtxState.code : CtxState → Nat
  | .free => 0 | .opened => 1 | .closing => 2

/-- The body of CONTEXT_STATUS (R156). -/
def ctxBody (s : State) (ctx : Nat) : Bytes :=
  enc [(1, (s.ctx ctx).state.code), (3, 0), (4, s.inFlight ctx)]

def hContextStatus : Handler where
  manager := false
  service := true
  length := exactly 8
  allowed s c := s.ownCtx c (c.arg 0 2)
  params _ c := ctxParams c
  run s c :=
    match s.ctxGate (c.arg 0 2) true true with
    | .error v => v
    | .ok _ => answerWith s (ctxBody s (c.arg 0 2))

end Machine
end Sys2Proof
end

