-- ==== Sys2Proof/Machine/Regulation.lean ====
section
/-!
DEFINITION. Machine/Regulation.lean: masters, budgets, levels, guarantees and boosts (R367 to R384), and the commands
0x0Axx.
-/

namespace Sys2Proof
namespace Machine

/-! ### Contracts (R139, R368, R369) -/

/-- Budget and guaranteed minimum of an internal master of R369, by its row; its class. -/
def internalContract (row kind : Nat) : Nat × Nat × Nat :=
  match row with
  | 0 => (64, if kind = 0 then 160 else 80, 3)
  | 1 => (64, 0, 3)
  | 2 => (128, 0, 3)
  | 3 => (0, 0, 3)
  | 4 => (64, 0, 2)
  | 5 => (16, 0, 1)
  | 6 => (16, 0, 2)
  | _ => (16, 0, 3)

/-- The BANDWIDTH record of a master, if its job has one. -/
def State.contract (s : State) (m tc kind : Nat) : Option Bandwidth :=
  if m < 256 then (s.job m).bind (fun j => j.bandwidth.find? (fun b => b.tc == tc && b.targetKind == kind))
  else
    let c := internalContract (m - 256) kind
    some { tc := tc, targetKind := kind, minBw := c.2.1, outstanding := c.1, latency := 0 }

/-- Outstanding-transaction budget (R139: 16 without a record). -/
def State.masterBudget (s : State) (m tc kind : Nat) : Nat :=
  match s.contract m tc kind with
  | some b => b.outstanding
  | none => 16

/-! ### Acceptance and completion (R367, R370, R371, R374) -/

/-- The job's manifest has a TC0 record (R139, R367). -/
def State.hasTc0 (s : State) (h : Nat) : Bool :=
  match s.job h with | some j => j.bandwidth.any (fun b => b.tc == 0) | none => false

/-- The class a tile request travels in: TC0 of a job with no TC0 record is demoted to TC1 (R139, R367). -/
def State.reclass (s : State) (h tc : Nat) : Nat × State :=
  if tc = 0 ∧ s.hasTc0 h = false then
    (1, { s with reg := { s.reg with tc0Reclassed := sat64 s.reg.tc0Reclassed } })
  else (tc, s)

/-- Tokens of a master now, in fortieths of a byte (R374). -/
def tokensOf (x : Master) (minBw now : Nat) : Nat :=
  min (x.tokens + (now - x.tokenAt) * minBw) (max 4096 (minBw * 100) * 40)

/-- A context's budget on a target (R376): its master's while the context is OPEN, then zero (R151 step 2), as in a reset of its
partition (R440 step 1); traffic of no context, and what comes through a window, has its master's. -/
def State.ctxBudget (s : State) (ctx : Option Nat) (m tc kind : Nat) : Nat :=
  let resets := match (s.jobOfCtx (ctx.getD 0)).bind s.job with | some j => (s.part j.partition).state == .resetting | none => false
  match ctx with
  | some c => if (s.ctx c).state = .opened ∧ resets = false then s.masterBudget m tc kind else 0
  | none => s.masterBudget m tc kind

/-- Charges a request of `bytes` to a master: its level (R371), and the state with it outstanding. The budget holds against what is
outstanding of the master, or against the count that is given: a host link's (R369). Tree maintenance has level 6 always. -/
def State.charge (s : State) (ctx : Option Nat) (m tc kind target bytes : Nat) (count : Option Nat) : Nat × State :=
  let x := s.master m tc kind target
  let budget := s.ctxBudget ctx m tc kind
  let minBw := match s.contract m tc kind with | some b => b.minBw | none => 0
  let within := decide (count.getD x.outstanding < budget) || m == 259
  let tokens := tokensOf x minBw s.now
  let paid := within && decide (0 < minBw) && decide (bytes * 40 ≤ tokens) && tc != 0
  let level := if within = false then 0
    else if tc = 0 then 7
    else if paid = true ∨ m = 259 then 6
    else min 4 (4 - tc + x.boost)
  let x := { x with outstanding := x.outstanding + 1,
                    inBudget := if within then x.inBudget + 1 else x.inBudget,
                    tokens := if paid then tokens - bytes * 40 else tokens, tokenAt := s.now,
                    demoted := if within then x.demoted else sat64 x.demoted }
  let s := s.putMaster x
  (level, if within then s else
    { s with reg := { s.reg with demoted := sat64 s.reg.demoted,
                                 tc0Over := if tc = 0 then sat64 s.reg.tc0Over else s.reg.tc0Over } })

/-- Requests that a later one of their stream would overtake take its level, where that is the higher (R372). -/
def State.raiseStream (s : State) (mine : Req → Bool) (level : Nat) : State :=
  { s with mem := { s.mem with reqs := s.mem.reqs.map (fun (q : Req) =>
      if mine q = true ∧ q.level < level then { q with level := level } else q) } }

/-- Mean latency of a master's last completions, in ns (R375). -/
def meanLatency (x : Master) : Nat :=
  if x.latencies.isEmpty then 0 else x.latencies.sum / x.latencies.length / 4

/-! ### Events -/

/-- Since when a request, or a contribution, waits at an arbiter: at a port, for its turn in its island, or in XB for a place of its
port island; none while it is being served (R371; DEDUCED, log 67). -/
def State.waitsSince (s : State) (id : Nat) : Option Nat :=
  let at_ := (s.boot.heldItems.filter (fun x => x.stamp.req == id)).map (·.since)
    ++ (s.mem.ops.filter (fun o => o.req == id && o.stage == .waiting)).map (·.since)
    ++ (s.remote.reqs.filter (fun q => q.req == id && q.parked)).map (·.accepted)
    ++ s.red.descs.flatMap (fun e => (e.2.waiting.filter (fun c => c.id == id)).map (·.accepted))
  match at_ with
  | [] => none
  | t :: r => some (r.foldl min t)

/-- The level of a request, or of a contribution, the wait of which a rise has been counted, and its master: handle, class, kind of
target, target. -/
def State.waiting (s : State) (id : Nat) : Option (Nat × Option Nat × Master) :=
  match s.mem.reqs.find? (fun r => r.id == id) with
  | some r => some (r.level, r.aged, s.master r.master r.tc r.tkind r.target)
  | none => (s.red.descs.findSome? (fun e => (e.2.waiting.find? (fun c => c.id == id)).map (fun c =>
      (c.level, c.aged, s.master e.2.handle c.tc 1 e.2.port))))

/-- The rise of a request, or of a contribution, in a wait that began at a moment has been counted. -/
def State.raiseAged (s : State) (id since : Nat) : State :=
  { s with
    mem := { s.mem with reqs := s.mem.reqs.map (fun (q : Req) => if q.id = id then { q with aged := some since } else q) },
    red := { s.red with descs := tmap s.red.descs (fun _ d => { d with
      waiting := d.waiting.map (fun (c : Contribution) => if c.id = id then { c with aged := some since } else c) }) } }

/-- AGEING_TIMER (R371): a request that has waited 2 µs at an arbiter below level 5 is raised to it there, and counted once for that
wait; the arbiters serve it at that level for as long as it waits (`aged`), and by its stamp again at the next one. -/
def State.ageing (s : State) (id : Nat) : State :=
  match s.waiting id, s.waitsSince id with
  | some (level, done, x), some t =>
    if level < 5 ∧ done ≠ some t ∧ t + 2 * Config.us ≤ s.now then
      let s := s.putMaster { x with aged := sat64 x.aged }
      State.count { s.raiseAged id t with reg := { s.reg with aged := sat64 s.reg.aged } } islandXB 7 (some x.tc) 1
    else s
  | _, _ => s

/-- A request of a master, or a contribution, accepted within budget waits at an arbiter (R384). -/
def State.masterWaits (s : State) (x : Master) : Bool :=
  let name : MasterName := { handle := x.handle, tc := x.tc, kind := x.targetKind, target := x.target }
  s.mem.reqs.any (fun q => q.within && q.masterName == name && (s.waitsSince q.id).isSome)
    || s.red.descs.any (fun e => e.2.handle == x.handle && x.targetKind == 1 && e.2.port == x.target
      && e.2.waiting.any (fun c => c.within && c.tc == x.tc))

/-- Masters of which no request waits within budget any more have not waited throughout the window in progress (R384). -/
def State.waitMarks (s : State) : State :=
  { s with reg := { s.reg with masters := s.reg.masters.map (fun (x : Master) =>
      { x with waitedAll := x.waitedAll && s.masterWaits x }) } }

/-- Object and payload of the notices of R384. -/
def State.masterNotice (s : State) (x : Master) (type : Nat) (st : Status) : State :=
  let number := if x.handle < 256 then (match s.job x.handle with | some j => j.number | none => 0xFFFFFFFF)
                else 0xFFFFFFFF
  s.postLimited Config.ms type (masterKey x.handle x.tc x.targetKind x.target) st
    [(4, number), (1, x.tc), (1, x.targetKind), (1, x.target), (1, 0)]
    [(8, x.lastBytes), (4, meanLatency x), (4, 0)] (if x.handle < 256 then [x.handle] else []) []

/-- A master's mean latency is below some hundredths of a target in ns; the mean is in postmarks, unrounded (R375). -/
def Master.below (x : Master) (hundredths target : Nat) : Bool :=
  decide (x.latencies.sum * 100 < hundredths * target * 4 * max 1 x.latencies.length)

/-- The boost that a master's mean latency gives under a target (R375). -/
def boostFor (target : Nat) (x : Master) : Nat :=
  if target = 0 then 0
  else if x.below 60 target then 0
  else if x.below 75 target then x.boost
  else if x.below 100 target then max x.boost 1
  else 2

/-- latency_target of a master, and its guaranteed minimum; 0 where it has none. -/
def State.latencyTarget (s : State) (x : Master) : Nat :=
  match s.contract x.handle x.tc x.targetKind with | some b => b.latency | none => 0
def State.minimum (s : State) (x : Master) : Nat :=
  match s.contract x.handle x.tc x.targetKind with | some b => b.minBw | none => 0

/-- A master's boost is set; with boost 2 and a mean at or above its target for 1 ms, LATENCY_TARGET_MISSED (R375). -/
def State.boostMaster (s : State) (x : Master) : State :=
  let target := s.latencyTarget x
  let boost := boostFor target x
  let since := if target ≠ 0 ∧ boost = 2 ∧ x.below 100 target = false then some (x.missedSince.getD s.now) else none
  let y := { x with boost := boost, missedSince := since }
  match since with
  | some t => if t + Config.ms ≤ s.now then (s.putMaster y).masterNotice y 0x0A02 .timeout else s.putMaster y
  | none => s.putMaster y

/-- BOOST_UPDATE (R375): every 1 µs RG sets each master's boost from its mean latency. -/
def State.boostUpdate (s : State) : State :=
  if s.now < s.reg.boostAt + Config.us then s
  else s.reg.masters.foldl State.boostMaster { s with reg := { s.reg with boostAt := s.now } }

/-- A window ends for a master: one with requests waiting throughout it and served less than its minimum had a shortfall (R384). -/
def State.windowMaster (s : State) (x : Master) : State :=
  let minBw := s.minimum x
  let y := { x with windowBytes := 0, lastBytes := x.windowBytes, waitedAll := s.masterWaits x }
  if 0 < minBw ∧ x.waitedAll = true ∧ x.windowBytes < minBw * 1000 then
    (s.putMaster { y with shortfalls := sat32 x.shortfalls }).masterNotice y 0x0A01 .noFit
  else s.putMaster y

/-- GUARANTEE_WINDOW (R384): at the end of each 10 µs window, masters served less than their minimum. -/
def State.guaranteeWindow (s : State) : State :=
  if s.now < s.reg.windowAt + 10 * Config.us then s
  else s.reg.masters.foldl State.windowMaster { s with reg := { s.reg with windowAt := s.now } }

/-! ### Commands 0x0Axx (R381 to R383) -/

/-- A master is over its budget now (R382): tree maintenance never, since its level is 6 always, and masters without a context by the
count of one of the host links (R369). -/
def State.overBudget (s : State) (m tc kind target : Nat) : Bool :=
  let x := s.master m tc kind target
  let budget := s.masterBudget m tc kind
  if m = 259 then false
  else if m = 260 then (List.range 2).any (fun link => decide (budget ≤ (s.mem.reqs.filter (fun q => match q.origin with
    | .bar l _ => l == link
    | _ => false)).length))
  else decide (budget ≤ x.outstanding) && decide (0 < x.outstanding)

/-- The body of R382. -/
def masterBody (s : State) (m tc kind target : Nat) (flags : Nat) : Bytes :=
  let x := s.master m tc kind target
  let b := s.contract m tc kind
  let budget := s.masterBudget m tc kind
  enc [(2, budget), (2, x.outstanding), (2, match b with | some b => b.minBw | none => 0),
       (2, match b with | some b => b.latency | none => 0), (4, meanLatency x), (1, x.boost),
       (1, flags + flag (s.overBudget m tc kind target)), (2, 0), (8, x.bytes),
       (8, x.demoted), (8, x.aged), (4, x.shortfalls), (4, 0)]

/-- A target number is in the range of its kind. -/
def targetOk (kind target : Nat) : Bool :=
  if kind = 0 then decide (target < 16) else if kind = 1 then decide (target < 32) else decide (target < 2)

/-- MASTER_STATUS (R381). -/
def hMasterStatus : Handler where
  job := false
  length := exactly 8
  params _ c := [(68, decide (c.arg 4 1 ≤ 3)), (69, decide (c.arg 5 1 ≤ 2)),
    (70, targetOk (c.arg 5 1) (c.arg 6 1)), zeroAt c 7 1]
  run s c :=
    match s.jobGate (c.arg 0 4) with
    | .error v => v
    | .ok (h, j) =>
      if c.arg 5 1 = 0 ∧ c.arg 6 1 ∉ (s.part j.partition).tiles then badField 70
      else
        let none_ := (s.contract h (c.arg 4 1) (c.arg 5 1)).isNone
        answerWith s (masterBody s h (c.arg 4 1) (c.arg 5 1) (c.arg 6 1)
          (2 * flag none_ + 4 * flag (c.arg 4 1 == 0 && !s.hasTc0 h)))

/-- INTERNAL_STATUS (R381). -/
def hInternalStatus : Handler where
  job := false
  length := exactly 8
  params _ c := [(64, decide (c.arg 0 1 ≤ 7)), (65, decide (c.arg 1 1 ≤ 2)),
    (66, targetOk (c.arg 1 1) (c.arg 2 1)), zeroAt c 3 5]
  run s c :=
    let row := c.arg 0 1
    answerWith s (masterBody s (256 + row) (internalContract row (c.arg 1 1)).2.2 (c.arg 1 1) (c.arg 2 1) 0)

/-- REGULATION_COUNTS (R383). -/
def regulationBody (s : State) : Bytes :=
  enc [(8, s.reg.demoted), (8, s.reg.aged), (8, s.reg.tc0Over), (8, s.reg.tc0Reclassed), (8, s.reg.slotsCut)]

def hRegulationCounts : Handler where
  job := false
  length := exactly 0
  run s _ := answerWith s (regulationBody s)

end Machine
end Sys2Proof
end

