-- ==== Sys2Proof/Machine/Tree.lean ====
section
/-!
DEFINITION. Machine/Tree.lean: freshness trees (R200 to R224): lookup of nodes, the metadata caches, write-back, mirror
copies, wraps of interior nodes, lost nodes.

A tree is named by its region number, or by 65536 + job handle for a key-index table (R170).  Level 1 holds the leaves;
the on-chip root stands one level above the highest stored one.
-/

namespace Sys2Proof
namespace Machine

/-! ### Trees -/

/-- A tree's record and its job's handle. -/
def State.treeOf (s : State) (tree : Nat) : Option (Tree × Nat) :=
  if 65536 ≤ tree then (s.job (tree - 65536)).map (fun j => (j.keyTree, tree - 65536))
  else
    let r := s.region tree
    if r.cls = .fresh ∧ r.state ≠ .free then some (r.tree, r.handle) else none

/-- Changes a tree's record. -/
def State.modTree (s : State) (tree : Nat) (f : Tree → Tree) : State :=
  if 65536 ≤ tree then s.modJob (tree - 65536) (fun j => { j with keyTree := f j.keyTree })
  else s.modRegion tree (fun r => { r with tree := f r.tree })

/-- The tree's data is pooled. -/
def State.treePooled (s : State) (tree : Nat) : Bool := decide (tree < 65536) && (s.region tree).pooled

/-- The port of a node's route, if one is set (R289). -/
def State.routePort (s : State) (node : Nat) : Option Nat :=
  match tget s.remote.routes node with
  | some r => if r.valid then some r.port else none
  | none => none

/-- The island that seals and opens a region: its stack's, or its tray's route's port (R189). -/
def State.regionIsland (s : State) (r : Region) : Option Nat :=
  if r.pooled then (s.routePort (r.base / 2 ^ 48)).map islandP else some (stackOf r.base)

/-- The island that keeps a tree. -/
def State.treeIsland (s : State) (tree : Nat) : Nat :=
  if 65536 ≤ tree then (match s.job (tree - 65536) with | some j => stackOf j.keyBase | none => 0)
  else (s.regionIsland (s.region tree)).getD 16

/-- Levels that a tree stores (R204). -/
def Tree.depth (t : Tree) : Nat := (treeLevels t.sectors).length

/-- Nodes of a level. -/
def Tree.width (t : Tree) (lvl : Nat) : Nat := (treeLevels t.sectors).getD (lvl - 1) 0

/-! ### Lookup -/

/-- What a lookup of a node finds. -/
inductive Look where
  | found (n : Node)
  | absent
  | lost
deriving DecidableEq, Repr

/-- The cached contents of a node. -/
def State.nodeLine (s : State) (tree lvl idx : Nat) : Option Node :=
  match s.mem.lines.find? (fun l => l.key == .node tree lvl idx) with
  | some l => (match l.val with | .node n => some n | _ => none)
  | none => none

/-- The node is listed as lost (R223). -/
def State.isLost (s : State) (tree lvl idx : Nat) : Bool := s.mem.lost.any (fun e => e.2 == .node tree lvl idx)

/-- The node has been found lost, and is on the list or past its end. -/
def State.knownLost (s : State) (tree lvl idx : Nat) : Bool :=
  s.isLost tree lvl idx || s.mem.unlisted.any (fun e => e.2 == .node tree lvl idx)

/-- Looks a node up from the root down: a node whose parent's child counter is zero has never been written (R210), and
nothing below a lost node is found. -/
def State.lookUp (s : State) (tree depth : Nat) (root : Node) : Nat → Nat → Look
  | 0, _ => .found root
  | up + 1, idx =>
    match s.nodeLine tree (depth - up) idx with
    | some n => .found n
    | none =>
      if s.isLost tree (depth - up) idx then .lost
      else match s.lookUp tree depth root up (idx / 64) with
        | .found p => if p.childZero (idx % 64) then .found {} else .absent
        | o => o

/-- What is known of a node. -/
def State.nodeAt (s : State) (tree lvl idx : Nat) : Look :=
  match s.treeOf tree with
  | none => .lost
  | some (t, _) => if t.rootLost then .lost else s.lookUp tree t.depth t.root (t.depth + 1 - lvl) idx

/-- The nodes of a leaf's path, level and index. -/
def pathOf (depth leaf : Nat) : List (Nat × Nat) := (List.range depth).map (fun j => (j + 1, leaf / 64 ^ j))

/-- The nodes of a leaf's path that have to be fetched (R214). -/
def State.absentPath (s : State) (tree leaf : Nat) : List (Nat × Nat) :=
  match s.treeOf tree with
  | none => []
  | some (t, _) => (pathOf t.depth leaf).filter (fun e => s.nodeAt tree e.1 e.2 == .absent)

/-! ### Notices of class 6 about trees (R239) -/

/-- Object of a notice of class 6. -/
def treeObject (tree h lvl : Nat) : List (Nat × Nat) :=
  [(2, if 65536 ≤ tree then 0xFFFF else tree), (1, h), (1, lvl), (4, 0)]

/-- Payload of a notice of class 6.  The notices that name no key index hold 0 as the generation in force too (DESIGN CHOICE,
log 66). -/
def treePayload (value key gen code : Nat) : List (Nat × Nat) := [(8, value), (4, key), (1, gen), (1, code), (2, 0)]

/-- The handle of a tree's job. -/
def State.treeHandle (s : State) (tree : Nat) : Nat := match s.treeOf tree with | some e => e.2 | none => 0

/-! ### Fetches (R214, R217, R219) -/

/-- The address of a node's copy. -/
def Tree.nodeAddress (t : Tree) (copyB : Bool) (lvl idx : Nat) : Nat :=
  (if copyB then t.copyB else t.copyA) + nodeOffset t.sectors lvl idx

/-- The address of a metadata line in memory: a block of 64 bytes (R490). -/
def State.lineAddress (s : State) (key : LineKey) (copyB : Bool) : Nat :=
  match key with
  | .frank r line =>
    let r := s.region r
    r.base + r.size + 64 * line
  | .node tree lvl idx => (match s.treeOf tree with | some (t, _) => t.nodeAddress copyB lvl idx | none => 0)
  | .keySector h sector => (match s.job h with | some j => j.keyBase + 64 * sector | none => 0)

/-- The blocks that a fetch of a line reads: a table sector comes with the block of eight franks that holds its own (R170, R173). -/
def State.lineBlocks (s : State) (key : LineKey) (copyB : Bool) : List Nat :=
  s.lineAddress key copyB :: (match key with
    | .keySector h sector => (match s.job h with | some j => [j.tableFrank (sector / 8 * 8)] | none => [])
    | _ => [])

/-- The stack whose memory controller a line is read from; none for a line that a tray holds. -/
def State.lineStack (s : State) (key : LineKey) (copyB : Bool) : Option Nat :=
  let tray := match key with
    | .frank r _ => (s.region r).pooled
    | .node t _ _ => s.treePooled t
    | .keySector _ _ => false
  if tray then none else some (stackOf (s.lineAddress key copyB))

/-- Copy B is read first for a node of R216. -/
def State.copyBFirst (s : State) (key : LineKey) : Bool := s.mem.bFirst.any (fun e => e.2 == key)

/-- The stack that a line is read from is fenced: it takes no new request (R424). -/
def State.lineFenced (s : State) (key : LineKey) (copyB : Bool) : Bool :=
  match s.lineStack key copyB with
  | some n => decide (n ∈ s.fault.stacksFenced)
  | none => false

/-- Issues one read of a metadata line, in a traffic class (R217); a fenced stack gets none. -/
def State.issueFetch (s : State) (island : Nat) (key : LineKey) (copyB ahead : Bool) (tc failed : Nat) : State :=
  let id := s.mem.nextId
  let blocks := s.lineBlocks key copyB
  if s.lineFenced key copyB then s
  else
    let s : State := { s with mem := { s.mem with
      nextId := id + 1,
      fetches := s.mem.fetches ++ [{ id := id, island := island, key := key, copyB := copyB, ahead := ahead, tc := tc,
                                     failed := failed, got := none, since := s.now }] } }
    let s := blocks.foldl (fun s a => s.emit (.metaRead island id a 64 tc)) s
    match s.lineStack key copyB with
    | some n => s.count n 9 (some tc) (64 * blocks.length)
    | none => s.count island 4 (some tc) 64

/-- The internal master of tree maintenance has a transaction at an island (R369, R371); the level of all that it does is 6. -/
def State.maintain (s : State) (island bytes : Nat) : State :=
  (s.charge none 259 3 (if island < 16 then 0 else 1) (if island < 16 then island else island - 16) bytes none).2

/-- Such a transaction is done. -/
def State.maintained (s : State) (island since bytes : Nat) : State :=
  s.release 259 3 (if island < 16 then 0 else 1) (if island < 16 then island else island - 16) since bytes true

/-- Bytes that a node's access charges: none on a stack (R370). -/
def nodeCharge (island : Nat) : Nat := if island < 16 then 0 else 64

/-- A fetch is done for the internal master that is charged for it, if one is: a tracker's or tree maintenance's (R369, R370). -/
def State.fetchDone (s : State) (f : Fetch) : State :=
  if f.predicted then s.release 258 3 0 f.island f.since 0 true
  else if f.upkeep then s.maintained f.island f.since (nodeCharge f.island)
  else s

/-- Takes fetches out. -/
def State.endFetches (s : State) (p : Fetch → Bool) : State :=
  (s.mem.fetches.filter p).foldl State.fetchDone
    { s with mem := { s.mem with fetches := s.mem.fetches.filter (fun (f : Fetch) => !p f) } }

/-- The fetches issued from a moment on are a tracker's: each is charged to the internal master of predicted fetches. -/
def State.predicted (s : State) (first : Nat) : State :=
  let new := s.mem.fetches.filter (fun f => decide (first ≤ f.id))
  new.foldl (fun s f => (s.charge none 258 3 0 f.island 0 none).2)
    { s with mem := { s.mem with fetches := s.mem.fetches.map (fun (f : Fetch) =>
        if first ≤ f.id then { f with predicted := true } else f) } }

/-- The fetches issued from a moment on are tree maintenance's. -/
def State.upkeepFetches (s : State) (first : Nat) : State :=
  let new := s.mem.fetches.filter (fun f => decide (first ≤ f.id))
  new.foldl (fun s f => s.maintain f.island (nodeCharge f.island))
    { s with mem := { s.mem with fetches := s.mem.fetches.map (fun (f : Fetch) =>
        if first ≤ f.id then { f with upkeep := true } else f) } }

/-- A fetch that another is issued for is charged as that one was. -/
def State.chargedLike (s : State) (f : Fetch) (first : Nat) : State :=
  if f.predicted then s.predicted first else if f.upkeep then s.upkeepFetches first else s

/-- Fetches a metadata line unless it is on its way.  A run-ahead holds at most 128 fetches in flight, until they return (R219). -/
def State.fetchMeta (s : State) (island : Nat) (key : LineKey) (ahead : Bool) (tc : Nat) : State :=
  if s.mem.fetches.any (fun f => f.island == island && f.key == key)
      ∨ (ahead = true ∧ 128 ≤ (s.mem.fetches.filter (fun f => f.island == island && f.ahead)).length) then s
  else s.issueFetch island key (s.copyBFirst key) ahead tc 0

/-- Fetches nodes of a tree that a wrap of their parent, or a RESET_SUBTREE, needs (R221, R224): tree maintenance (R369). -/
def State.fetchNodes (s : State) (island tree : Nat) (nodes : List (Nat × Nat)) : State :=
  (nodes.foldl (fun s e => s.fetchMeta island (.node tree e.1 e.2) false 3) s).upkeepFetches s.mem.nextId

/-- Holds the nodes of a leaf's path from the top down, those never written as nodes of zero counters (R210, R211). -/
def State.holdPath (s : State) (tree leaf : Nat) : State :=
  match s.treeOf tree with
  | none => s
  | some (t, _) =>
    (pathOf t.depth leaf).reverse.foldl (fun s e =>
      match s.nodeLine tree e.1 e.2, s.nodeAt tree e.1 e.2 with
      | none, .found n => s.putLine (s.treeIsland tree) (.node tree e.1 e.2) (.node n)
      | _, _ => s) s

/-- All the nodes of a leaf's path are held, so that their counters can change. -/
def State.pathHeld (s : State) (tree leaf : Nat) : Bool :=
  match s.treeOf tree with
  | none => false
  | some (t, _) => (pathOf t.depth leaf).all (fun e => (s.nodeLine tree e.1 e.2).isSome)

/-- Changes a node's counters: the node is dirty; the root is only on chip. -/
def State.modNode (s : State) (tree lvl idx : Nat) (f : Node → Node) : State :=
  match s.treeOf tree with
  | none => s
  | some (t, _) =>
    if t.depth < lvl then s.modTree tree (fun t => { t with root := f t.root })
    else s.modLine (fun l => l.key == .node tree lvl idx) (fun l => { l with
      val := (match l.val with | .node n => .node (f n) | v => v), dirty := true, lastUse := s.now })

/-- Takes the floor of a tree and advances it; at 2^56 − 1 a region becomes SEALED (R209). -/
def State.takeFloor (s : State) (tree : Nat) : Nat × State :=
  match s.treeOf tree with
  | none => (0, s)
  | some (t, _) =>
    let s := s.modTree tree (fun t => { t with floor := t.floor + 1 })
    (t.floor, if t.floor + 1 = 2 ^ 56 - 1 ∧ tree < 65536 then s.modRegion tree (fun r => { r with state := .sealed }) else s)

/-! ### Writing nodes (R212, R231) -/

/-- Emits a write of bytes to an address of a region's or tree's memory: to a tray through a given port, which an operation in
flight keeps (R190), or through its route's. -/
def State.writeTo (s : State) (via : Option Nat) (pooled : Bool) (id address : Nat) (b : Bytes) : State :=
  if pooled then
    match via.or (s.routePort (address / 2 ^ 48)) with
    | some p => s.emitPort p (.trayWrite p id (address / 2 ^ 48) (address % 2 ^ 48) b)
    | none => s
  else s.emitMem (stackOf address) (.memWrite (stackOf address) id (address % 2 ^ 36) (b.map some))

/-- The island through which such a write goes. -/
def State.writeIsland (s : State) (via : Option Nat) (pooled : Bool) (address : Nat) : Option Nat :=
  if pooled then (via.or (s.routePort (address / 2 ^ 48))).map islandP else some (stackOf address)

/-- Writes a copy of a node as tree maintenance. -/
def State.writeNode (s : State) (pooled : Bool) (id address : Nat) (b : Bytes) : State :=
  let s := match s.writeIsland none pooled address with
    | some i =>
      let s := s.maintain i (nodeCharge i)
      if i < 16 then s.count i 8 (some 3) b.length else s
    | none => s
  s.writeTo none pooled id address b

/-- Resume records of a port that are free (R231). -/
def State.resumeRoom (s : State) (island : Nat) : Bool :=
  decide ((s.mem.resume.filter (fun r => islandP r.port == island)).length < 16)

/-- Takes a resume record: its first two writes are issued, the others follow as they are acknowledged. -/
def State.takeResume (s : State) (island region op : Nat) (writes : List (Nat × Bytes)) : State :=
  { s with mem := { s.mem with resume := s.mem.resume ++
    [{ port := island - 16, region := region, op := op, writes := writes.take 2, rest := writes.drop 2, progress := 0,
       since := s.now, suspended := false }] } }

/-- Changes the resume record of an operation. -/
def State.modResume (s : State) (op : Nat) (f : ResumeRec → ResumeRec) : State :=
  { s with mem := { s.mem with resume := s.mem.resume.map (fun (x : ResumeRec) => if x.op = op then f x else x) } }

/-- The write of a record that an acknowledgement acknowledges, by its place: of those still unacknowledged that went out through the
port, or of all where the route has changed since, the `nth`, or the last (R231). -/
def State.ackedWrite (s : State) (x : ResumeRec) (port nth : Nat) : Nat :=
  let all := List.range x.writes.length
  let here := all.filter (fun i => s.routePort ((x.writes.getD i (0, [])).1 / 2 ^ 48) == some port)
  let l := if here.isEmpty then all else here
  (l[nth]?).getD (l.getLast?.getD 0)

/-- A write of an operation's record is acknowledged through a port (R231): the record keeps the others, and with the last of a
sector's two the next sector's are issued, which for RESUME_REGION are tree maintenance. -/
def State.recordAck (s : State) (via : Option Nat) (port nth op : Nat) : State :=
  match s.mem.resume.find? (fun x => x.op == op) with
  | none => s
  | some x =>
    let left := x.writes.eraseIdx (s.ackedWrite x port nth)
    if left.isEmpty = false ∨ x.rest = [] then
      s.modResume op (fun x => { x with writes := left, progress := x.progress + 1 })
    else
      let next : ResumeRec := { x with writes := x.rest.take 2, rest := x.rest.drop 2, progress := x.progress + 1,
                                       since := s.now }
      let s : State := { s with mem := { s.mem with resume := s.mem.resume.filter (fun (y : ResumeRec) => y.op != op) ++ [next] } }
      next.writes.foldl (fun s w =>
        (match x.suspended, s.writeIsland via true w.1 with
          | true, some i => s.maintain i w.2.length
          | _, _ => s).writeTo via true op w.1 w.2) s

/-- Frees the resume record of an operation. -/
def State.freeResume (s : State) (op : Nat) : State :=
  { s with mem := { s.mem with resume := s.mem.resume.filter (fun r => r.op != op || r.suspended) } }

/-- A node's bytes as stored under a child counter, by a job's metadata key (R208). -/
def nodeStored (dk : Key) (tree lvl idx counter : Nat) (n : Node) : Bytes :=
  storedNode (treeKey dk) (nodeIdentity (decide (65536 ≤ tree)) lvl (tree % 65536) idx) counter n

/-- The children of a node that an interior wrap must have and that are not held (R221); one that was found lost is not fetched
for it again. -/
def State.wrapMissing (s : State) (tree lvl idx : Nat) : List (Nat × Nat) :=
  match s.treeOf tree with
  | none => []
  | some (t, _) =>
    ((List.range 64).filter (fun k => decide (64 * idx + k < t.width (lvl - 1))
        && s.nodeAt tree (lvl - 1) (64 * idx + k) == .absent
        && !s.mem.unlisted.any (fun e => e.2 == .node tree (lvl - 1) (64 * idx + k)))).map (fun k => (lvl - 1, 64 * idx + k))

/-- The children of an interior node, or of the root. -/
def Tree.children (t : Tree) (lvl idx : Nat) : List Nat :=
  ((List.range 64).map (64 * idx + ·)).filter (fun i => decide (i < t.width (lvl - 1)))

/-- The children that a wrap holds as nodes of zero counters, since they have never been written (R221). -/
def State.wrapNew (s : State) (tree lvl idx : Nat) : List Line :=
  match s.treeOf tree with
  | none => []
  | some (t, _) => (t.children lvl idx).filterMap (fun i =>
      match s.nodeLine tree (lvl - 1) i, s.nodeAt tree (lvl - 1) i with
      | none, .found n => some { island := s.treeIsland tree, key := .node tree (lvl - 1) i, val := .node n, dirty := true,
                                 lastUse := s.now, writing := 0, wid := 0 }
      | _, _ => none)

/-- Room is made for them: whether there is room now (R211). -/
def State.wrapRoom (s : State) (tree lvl idx : Nat) : Bool × State :=
  let n := (s.wrapNew tree lvl idx).length
  let s := State.evict (s.treeIsland tree) n 80 s
  (s.hasRoom (s.treeIsland tree) n, s)

/-- Wraps an interior node or the root (R221): the floor, all minors 0, every child but a lost one dirty; those never written are held
as nodes of zero counters. -/
def State.interiorWrap (s : State) (tree lvl idx : Nat) : State :=
  match s.treeOf tree with
  | none => s
  | some (t, _) =>
    let kids := t.children lvl idx
    let new := s.wrapNew tree lvl idx
    let (f, s) := s.takeFloor tree
    let s := s.modNode tree lvl idx (fun _ => { major := f, minors := [] })
    let s := s.modTree tree (fun t => { t with interiorWraps := sat64 t.interiorWraps })
    let s := kids.foldl (fun s i => s.modLine (fun l => l.key == .node tree (lvl - 1) i) (fun l => { l with dirty := true })) s
    { s with mem := { s.mem with lines := s.mem.lines ++ new } }

/-- The copies of a node that a write-back reaches: a fenced stack takes no request (R424). -/
def State.backCopies (s : State) (tree lvl idx : Nat) : List Nat :=
  match s.treeOf tree with
  | some (t, _) => [t.nodeAddress false lvl idx, t.nodeAddress true lvl idx].filter
      (fun a => s.treePooled tree || decide (stackOf a ∉ s.fault.stacksFenced))
  | none => []

/-- Writes a dirty node back (R212): the parent's minor, the check under it and its verify lane, both copies.  It waits for the
writes of an earlier write-back, while a wrap of the parent misses children or room for them, while its region is SUSPENDED, or while
a port has no resume record free; nothing sealed is written while outputs are held back (R102, R421), nor without the metadata key
(R101, R165).  The block says whether it was issued. -/
def State.writeBack (s : State) (tree lvl idx : Nat) : Bool × State :=
  match s.treeOf tree, s.mem.lines.find? (fun l => l.key == .node tree lvl idx) with
  | some (t, h), some l =>
    if l.dirty = false ∨ s.backCopies tree lvl idx = [] then (true, s)
    else if l.writing ≠ 0 ∨ s.sealsHeldBack = true ∨ (tree < 65536 ∧ (s.region tree).state = .suspended) then (false, s)
    else if s.laneOff then (false, s.laneFound.hardFault 3 l.island)
    else match s.nodeAt tree (lvl + 1) (idx / 64), s.metaKey h with
      | .found p, some dk =>
        let wraps := decide (p.minor (idx % 64) = 63)
        let missing := if wraps then s.wrapMissing tree (lvl + 1) (idx / 64) else []
        let pooled := s.treePooled tree
        let room := if wraps then s.wrapRoom tree (lvl + 1) (idx / 64) else (true, s)
        if missing.isEmpty = false then (false, s.fetchNodes (s.treeIsland tree) tree missing)
        else if pooled = true ∧ s.resumeRoom l.island = false then (false, s)
        else if room.1 = false then (false, room.2)
        else
          let s := room.2
          let s := if p.minor (idx % 64) = 63 then s.interiorWrap tree (lvl + 1) (idx / 64) else s
          let s := s.modNode tree (lvl + 1) (idx / 64) (fun p => p.setMinor (idx % 64) (p.minor (idx % 64) + 1))
          let counter := match s.nodeAt tree (lvl + 1) (idx / 64) with
            | .found p => p.childCounter (idx % 64)
            | _ => 0
          let n := (s.nodeLine tree lvl idx).getD {}
          let b := nodeStored dk tree lvl idx counter n
          let id := s.mem.nextId
          let a := t.nodeAddress false lvl idx
          let a' := t.nodeAddress true lvl idx
          let s : State := { s with mem := { s.mem with
            nextId := id + 1, repaired := s.mem.repaired.filter (fun e => e.1 != .node tree lvl idx),
            bFirst := s.mem.bFirst.filter (fun e => e.2 != .node tree lvl idx) } }
          let s := s.modLine (fun l => l.key == .node tree lvl idx) (fun l =>
            { l with dirty := false, writing := (s.backCopies tree lvl idx).length, wid := id, wroteAt := s.now })
          let s := if pooled then s.takeResume l.island tree id [(a, b), (a', b)] else s
          (true, (s.backCopies tree lvl idx).foldl (fun s a => s.writeNode pooled id a b) s)
      | .found _, none => (false, s.metaRefused h)
      | _, _ => (false, s)
  | _, _ => (true, s)

/-- Issues the write-backs that are asked for. -/
def State.runBacks (s : State) : State :=
  s.mem.backs.foldl (fun s e =>
    let (done, s) := s.writeBack e.1 e.2.1 e.2.2
    if done then { s with mem := { s.mem with backs := s.mem.backs.filter (fun x => x != e) } } else s) s

/-- Asks for the write-back of a node, and issues it if it can be. -/
def State.askBack (s : State) (tree lvl idx : Nat) : State :=
  State.runBacks { s with mem := { s.mem with backs := s.mem.backs ++ [(tree, lvl, idx)] } }

/-- A write of tree maintenance is accepted at an island: of a node's write-back, of a RESET_SUBTREE, or one of `upkeep`. -/
def State.upkeepAccepted (s : State) (island id : Nat) : State :=
  let s := match s.mem.lines.find? (fun l => l.wid == id && l.writing != 0) with
    | some l => s.maintained island l.wroteAt (nodeCharge island)
    | none => s
  let s := match s.mem.subtrees.find? (fun x => x.id == id && x.writes != 0) with
    | some x => s.maintained island x.since (nodeCharge island)
    | none => s
  match s.mem.upkeep.find? (fun u => u.island == island && u.id == id) with
  | some u =>
    let s : State := { s with mem := { s.mem with upkeep := s.mem.upkeep.erase u } }
    if u.charged then s.maintained island u.since (nodeCharge island) else s
  | none => s

/-- Memory, or the tray behind a port, has accepted a write of a node's write-back (R212 step 5). -/
def State.backAccepted (s : State) (island nth id : Nat) : State :=
  let s := s.modLine (fun l => l.wid == id && l.writing != 0) (fun l => { l with writing := l.writing - 1 })
  let s := if s.mem.resume.any (fun x => x.op == id && !x.suspended) then s.recordAck none (island - 16) nth id else s
  if s.mem.lines.any (fun l => l.wid == id && l.writing != 0) then s else s.freeResume id

/-! ### Zeros over OPEN regions (R153 step 7) -/

/-- Zeros go to a stack in writes of at most 1 MiB, one at a time (DESIGN CHOICE, log 77); a fenced stack takes none (R424). -/
def State.wipe (s : State) (h stack address left : Nat) : State :=
  if left = 0 ∨ stack ∈ s.fault.stacksFenced then s
  else
    let n := min left (2 ^ 20)
    let id := s.mem.nextId
    State.emit { s with mem := { s.mem with
      nextId := id + 1,
      wipes := s.mem.wipes ++ [{ handle := h, stack := stack, id := id, address := address, length := n, left := left - n,
                                 since := s.now }] } } (.memZero stack id (address % 2 ^ 36) n)

/-- A stack has accepted a write of zeros: the next one goes out. -/
def State.wipeAccepted (s : State) (stack id : Nat) : State :=
  match s.mem.wipes.find? (fun w => w.stack == stack && w.id == id) with
  | some w =>
    State.wipe { s with mem := { s.mem with wipes := s.mem.wipes.filter (fun (x : Wipe) => x.id != id) } } w.handle stack
      (w.address + w.length) w.left
  | none => s

/-! ### Repair and loss (R215, R216, R223) -/

/-- Remembers that copy B of a node is read first; past 256 in an island the oldest is forgotten (R216). -/
def State.readBFirst (s : State) (island : Nat) (key : LineKey) : State :=
  let rest := s.mem.bFirst.filter (fun e => e.2 != key)
  let mine := rest.filter (fun e => e.1 == island)
  let rest := if 256 ≤ mine.length then (match mine with | o :: _ => rest.erase o | [] => rest) else rest
  { s with mem := { s.mem with bFirst := rest ++ [(island, key)] } }

/-- A copy of a node failed (`code` as in R239) and the other one verified: its bytes go over it, unless an uncorrectable error has
made the same copy fail again within 1 s of its last repair (R215, R216), or nothing sealed reaches its stack (R421, R424). -/
def State.repairNode (s : State) (island tree lvl idx : Nat) (copyB : Bool) (code : Nat) (b : Bytes) : State :=
  match s.treeOf tree with
  | none => s
  | some (t, h) =>
    let key : LineKey := .node tree lvl idx
    let a := t.nodeAddress copyB lvl idx
    let recent := s.mem.repaired.filter (fun e => decide (s.now < e.2.2 + 1000 * Config.ms))
    if s.treePooled tree = false ∧ s.writeBarred (stackOf a) = true then s
    else if code = 1 ∧ recent.any (fun e => e.1 == key && e.2.1 == copyB) = true then
      if copyB then s else s.readBFirst island key
    else
      let recent := recent.filter (fun e => !(e.1 == key && e.2.1 == copyB))
      let s : State := { s with mem := { s.mem with
        repaired := recent ++ [(key, copyB, s.now)], repairs := sat64 s.mem.repairs } }
      let id := s.mem.nextId
      let io : List Upkeep := (s.writeIsland none (s.treePooled tree) a).toList.map (fun i =>
        { island := i, id := id, address := a, since := s.now, charged := true })
      let s : State := { s with mem := { s.mem with nextId := id + 1, upkeep := s.mem.upkeep ++ io } }
      let s := (s.writeNode (s.treePooled tree) id a b).modTree tree (fun t => { t with repairs := sat64 t.repairs })
      s.postLimited (10 * Config.us) 0x0601 island .done (treeObject tree h lvl) (treePayload idx 0 0 code) [h] []

/-- Both copies of a node failed: it is listed, at most 256 to an island, counted, and NODE_LOST is posted, once each (R223). -/
def State.loseNode (s : State) (island : Nat) (tree lvl idx code : Nat) : State :=
  if s.isLost tree lvl idx then s
  else
    let h := s.treeHandle tree
    let key : LineKey := .node tree lvl idx
    let known := s.mem.unlisted.any (fun e => e.2 == key)
    let others := s.mem.unlisted.filter (fun e => e.2 != key)
    let s : State :=
      if (s.mem.lost.filter (fun e => e.1 == island)).length < 256 then
        { s with mem := { s.mem with lost := s.mem.lost ++ [(island, key)], unlisted := others } }
      else { s with mem := { s.mem with unlisted := others ++ [(island, key)] } }
    if known then s
    else
      State.post { s with mem := { s.mem with nodesLost := sat64 s.mem.nodesLost } } 0x0602 .integrityLost
        (treeObject tree h lvl) (treePayload idx 0 0 code) [h]

/-- The root of a tree, read to verify a node, met an uncorrectable SRAM error (R223): nothing below it is found any more, and a region
is SUSPENDED for good. -/
def State.loseRoot (s : State) (tree : Nat) : State :=
  match s.treeOf tree with
  | none => s
  | some (t, h) =>
    if t.rootLost then s
    else
      let s := s.modTree tree (fun t => { t with rootLost := true })
      State.post { s with mem := { s.mem with nodesLost := sat64 s.mem.nodesLost } } 0x0602 .integrityLost
        (treeObject tree h (t.depth + 1)) (treePayload 0 0 0 1) [h]

/-- A node is lost no more, and none of those below it that `gone` names (R223, R224). -/
def State.notLost (s : State) (gone : LineKey → Bool) : State :=
  { s with mem := { s.mem with lost := s.mem.lost.filter (fun e => !gone e.2),
                               unlisted := s.mem.unlisted.filter (fun e => !gone e.2) } }

/-- The check of a node's copy as it came back, under the metadata key delivered (R203, R210): its counters when it verifies. -/
def verifyNode (dk : Key) (tree lvl idx counter : Nat) (b : Bytes) (ue : Bool) : Option Node :=
  match parseNode b with
  | none => none
  | some n => if ue = false ∧ b = nodeStored dk tree lvl idx counter n then some n else none

end Machine
end Sys2Proof
end

