-- ==== Sys2Proof/Machine/Sectors.lean ====
section
/-!
DEFINITION. Machine/Sectors.lean: the sector engine of the memory islands and port islands (R28, R158 to R190, R311):
requests as they enter an island, operations on one sector, the write-combining buffer, sealing and opening, and what
memory and trays return.
-/

namespace Sys2Proof
namespace Machine

/-! ### Regions, sectors, addresses (R161 to R167) -/

/-- Where no region lies: unallocated memory that a master without a context reads and writes (R192). -/
def noRegion : Nat := 16384

/-- A region table entry, or the whole of local memory as 64 B blocks. -/
def State.regionX (s : State) (n : Nat) : Region :=
  if n = noRegion then { state := .active, cls := .opened, handle := 0xFFFF, size := 2 ^ 48 } else s.region n

/-- Bytes of a region's sector. -/
def Region.sector (r : Region) : Nat := sectorBytes r.sectorLog

/-- Sectors of a region. -/
def Region.sectors (r : Region) : Nat := r.size / r.sector

/-- Logical block number of a sector (R166); zero for OPEN, which has none. -/
def lbnOf (n : Nat) (r : Region) (k : Nat) : Nat :=
  if r.cls = .opened then 0
  else if r.pooled then 2 ^ 63 + (r.base + k * r.sector) / r.sector
  else n * 2 ^ 48 + k

/-- Address of a sector and of its frank. -/
def Region.sectorAddress (r : Region) (k : Nat) : Nat := r.base + k * r.sector
def Region.frankAddress (r : Region) (k : Nat) : Nat := r.base + r.size + 8 * k

/-- The expanded schedule of a key that an island holds (R95). -/
def State.schedule? (s : State) (island h i g : Nat) : Option Key :=
  (s.kv.schedules.find? (fun k => k.island == island && k.handle == h && k.index == i && k.gen == g)).map (·.key)

/-- The generations under which a sector may open, in the order of R228. -/
def State.openGens (s : State) (n h k i : Nat) : List Nat :=
  match (s.regionX n).courier with
  | some c =>
    if c.index = i then (if k < c.watermark then [c.gen] else [c.gen - 1, c.gen]) else [(s.entry h i).gen]
  | none => [(s.entry h i).gen]

/-! ### Faults of class 5 (R186 to R188) -/

/-- Status of the notices of class 5 (R187). -/
def sectorStatus (type : Nat) : Status := if type ≤ 0x0502 then .integrityLost else .notPermitted

/-- Records a fault of class 5 against a context, and posts it at most once for a type and a context in 10 µs.  A master without
a context has none to record it against, and its notices say 0xFFFF (R187); the job and the class of unallocated memory are left
open (DESIGN CHOICE, log 12). -/
def State.sectorFault (s : State) (island n h : Nat) (ctx : Option Nat) (type reason lbn key : Nat) : State :=
  let s := if type = 0x0501 ∧ n ≠ noRegion then
      State.modRegion { s with mem := { s.mem with unverifiable := sat64 s.mem.unverifiable } } n
        (fun r => { r with unverifiable := sat64 r.unverifiable })
    else s
  let c := ctx.getD 0xFFFF
  let late := s.sniby.posted.any (fun e => e.1 == type && e.2.1 == c && decide (s.now < e.2.2 + 10 * Config.us))
  let s := if late = true ∧ (ctx.isNone = true ∨ (s.ctx c).state = .opened) ∧ n ≠ noRegion
    then s.modRegion n (fun r => { r with suppressed := sat32 r.suppressed }) else s
  let ((job, cls), s) : (Nat × Nat) × State :=
    if n = noRegion then
      let (a, s) := s.free 8
      let (b, s) := s.free 8
      ((a.toNat, b.toNat), s)
    else ((h, (s.region n).cls.code), s)
  let object := [(2, if n = noRegion then 0x3FFF else n), (1, job), (1, cls), (4, 0)]
  let payload := [(8, lbn), (2, c), (1, reason), (1, 0), (4, key)]
  if ctx.isNone then
    s.postLimited (10 * Config.us) type c (sectorStatus type) object payload (if n = noRegion then [] else [h]) []
  else s.raiseFault island c type reason (10 * Config.us) c (sectorStatus type) object payload

/-! ### Requests that complete (R370, R476, R489) -/

/-- The response to a tile (R489). -/
def Req.response (q : Req) (tag : BitVec 16) : TileResponse :=
  match q.failure with
  | some (st, type, reason) => errorResponse tag st type reason (if q.kind = .read then q.length else 0)
  | none => { tag := tag, status := .done, noticeType := 0, reason := 0,
              data := if q.kind = .read then q.data else [], result := q.result }

/-- A request completes: its master, its counters, its record, its answer; a request of another unit waits to be handed
over to it. -/
def State.reqDone (s : State) (q : Req) : State :=
  let s := s.conclude q.job q.master q.tc q.tkind q.target q.accepted q.charged q.within
  match q.origin with
  | .tile t tag =>
    let st := match q.failure with | some f => f.1 | none => .done
    (s.completeRec q st).tileAnswer t q.ctx (q.response tag)
  | .bar l tag =>
    if q.kind = .read then s.emit (.barData l tag (if q.failure.isSome then zeros q.length else q.data)) else s
  | _ => { s with mem := { s.mem with finished := s.mem.finished ++ [q] } }

/-- One part of a request is done; the last one completes it. -/
def State.pieceDone (s : State) (id : Nat) (f : Req → Req) : State :=
  match s.mem.reqs.find? (fun q => q.id == id) with
  | none => s
  | some q =>
    let q := f { q with left := q.left - 1 }
    if q.left = 0 then
      State.reqDone { s with mem := { s.mem with reqs := s.mem.reqs.filter (fun (x : Req) => x.id != id) } } q
    else { s with mem := { s.mem with reqs := s.mem.reqs.map (fun (x : Req) => if x.id = id then q else x) } }

/-- The first failure of a request stands. -/
def Req.fail (q : Req) (st : Status) (type reason : Nat) : Req :=
  { q with failure := match q.failure with | some f => some f | none => some (st, type, reason) }

/-! ### Operations on one sector (R28) -/

def State.reqOf (s : State) (id : Nat) : Option Req := s.mem.reqs.find? (fun q => q.id == id)

def State.secOp (s : State) (id : Nat) : Option SecOp := s.mem.ops.find? (fun o => o.id == id)

def State.setOp (s : State) (o : SecOp) : State :=
  { s with mem := { s.mem with ops := s.mem.ops.map (fun (x : SecOp) => if x.id = o.id then o else x) } }

/-- The internal master of the courier gives a sector back that it has walked (R230, R369). -/
def State.walkedOff (s : State) (island since bytes level : Nat) : State :=
  s.release 256 3 (if island < 16 then 0 else 1) (if island < 16 then island else island - 16) since bytes (level != 0)

/-- An operation ends: its slot is free, its leaf group's where it wrapped, and its resume record unless its region is suspended. -/
def State.dropOp (s : State) (id : Nat) : State :=
  let s : State := match s.secOp id with
    | some o =>
      if o.kind = .courier then s.walkedOff o.island o.since o.len o.level
      else if o.group then s.maintained o.island o.since (o.issued.length / 2 * (s.regionX o.region).sector)
      else s
    | none => s
  State.freeResume { s with mem := { s.mem with ops := s.mem.ops.filter (fun (x : SecOp) => x.id != id) } } id

/-- Puts an operation before another of the queue, or at its end. -/
def State.addOp (s : State) (o : SecOp) (before : Option Nat) : State :=
  let o := { o with id := s.mem.nextId }
  let ops := match before with
    | none => s.mem.ops ++ [o]
    | some b => s.mem.ops.flatMap (fun (x : SecOp) => if x.id = b then [o, x] else [x])
  { s with mem := { s.mem with ops := ops, nextId := s.mem.nextId + 1 } }

/-- A failure of it loses bytes that completed to their writer before (R180, R185). -/
def SecOp.buffered (o : SecOp) : Bool := (o.req == 0 && o.kind != .courier) || o.kind == .merge true

/-- Reason of MERGE_LOST (R187) for a failure of the path; one of its tree counts as a frank mismatch, one of its key
entry or key as a key refused (DEDUCED, log 21). -/
def lostReason (type reason : Nat) : Nat :=
  if type = 0x0504 then 3 else if reason = 2 then 2 else if reason = 4 then 3 else 1

/-- MERGE_LOST against the context of the entry's first write (R180). -/
def State.mergeLost (s : State) (o : SecOp) (reason : Nat) : State :=
  let r := s.regionX o.region
  let s := s.modRegion o.region (fun r => { r with mergesLost := sat64 r.mergesLost })
  let s : State := { s with mem := { s.mem with
    mergesLost := sat64 s.mem.mergesLost, lostChunks := s.mem.lostChunks ++ o.chunks } }
  s.sectorFault o.island o.region r.handle o.ctx 0x0502 reason (lbnOf o.region r o.sector) o.keyIndex

/-- An operation fails with a fault of class 5: the request's context takes it, once for the request (R186, R195), and lost bytes
are reported. -/
def State.failOp (s : State) (o : SecOp) (type reason : Nat) : State :=
  let r := s.regionX o.region
  let s := s.dropOp o.id
  let s := if o.buffered then s.mergeLost o (lostReason type reason) else s
  match s.reqOf o.req with
  | none => s
  | some q =>
    let s := if q.failure.isSome then s
      else s.sectorFault o.island o.region r.handle q.ctx type reason (lbnOf o.region r o.sector) o.keyIndex
    s.pieceDone q.id (fun q => q.fail (sectorStatus type) type reason)

/-- Fails the operations that wait for something that will not come, before their read, on a tray with it under way, or with their
sector at hand. -/
def State.failWaiting (s : State) (p : SecOp → Bool) (type reason : Nat) : State :=
  (s.mem.ops.filter (fun o => (o.stage == .waiting
      || (o.stage == .reading && ((s.regionX o.region).pooled || o.got.isSome))) && p o)).foldl
    (fun s o => s.failOp o type reason) s

/-- A verify lane found the sealed output wrong (R23, R185): nothing is released, and the block quarantines. -/
def State.laneMismatch (s : State) (o : SecOp) : State :=
  let s := if o.buffered then s.mergeLost o 4 else s
  s.laneFound.hardFault 3 o.island

/-- The piece of a request's bytes that an operation touches: its position in the request. -/
def SecOp.position (r : Region) (o : SecOp) (q : Req) : Nat := r.base + o.sector * r.sector + o.off - q.address

/-- Delivers the plaintext of a sector to the request that reads it. -/
def State.deliverTo (s : State) (o : SecOp) (pt : Bytes) : State :=
  let r := s.regionX o.region
  s.pieceDone o.req (fun q => { q with data := splice q.data (o.position r q) (slice pt o.off o.len) })

/-- The SECTOR record of a memory island (R462, kind 0x18), some units from now. -/
def State.sectorRec (s : State) (o : SecOp) (operation : Nat) (delay : Nat := 0) : State :=
  if o.island < 16 ∧ o.region ≠ noRegion then
    let r := s.regionX o.region
    s.traceLater delay o.island 0x18 (some r.handle) o.ctx
      [(8, lbnOf o.region r o.sector), (1, operation), (1, r.cls.code), (2, o.ctx.getD 0xFFFF), (4, o.keyIndex),
       (2, min (s.now + delay - o.entered) 0xFFFF), (2, 0)]
  else s

/-- An event of a memory island, or the one that port islands count (R473). -/
def State.islandCount (s : State) (o : SecOp) (event n : Nat) : State :=
  if o.island < 16 then s.count o.island event (some o.tc) n else s

/-! ### Usage and arming (R225, R226) -/

/-- The index is in the armed queue. -/
def State.isArmed (s : State) (h i : Nat) : Bool := s.courier.armed.any (fun a => a.1 == h && a.2.1 == i)

/-- The pass of an index, if one is started. -/
def State.passOf (s : State) (h i : Nat) : Option Pass := s.courier.passes.find? (fun p => p.handle == h && p.index == i)

/-- The index has made every seal that its key may make. -/
def atLimit (e : KeyEntry) : Bool := decide (2 ^ 34 ≤ e.seals)

/-- Counts seals under the current generation of an index; arms the courier, or exhausts generation 0xFE. -/
def State.countSeals (s : State) (h i n : Nat) : State :=
  let e := s.entry h i
  let e := { e with seals := e.seals + n }
  let e := if e.gen = 0xFE ∧ atLimit e = true then { e with state := .exhausted } else e
  let s := s.setEntry h i e
  if 0x300000000 ≤ e.seals ∧ e.gen ≠ 0xFE ∧ s.isArmed h i = false ∧ (s.passOf h i).isNone
      ∧ s.courier.armed.length < 4096
  then { s with courier := { s.courier with armed := s.courier.armed ++ [(h, i, [])] } }
  else s

/-- USAGE_LIMIT_REACHED, once for the index (R226). -/
def State.limitReached (s : State) (h i : Nat) : State :=
  if (h, i) ∈ s.courier.limitPosted then s
  else
    let s : State := { s with courier := { s.courier with limitPosted := s.courier.limitPosted ++ [(h, i)] } }
    s.post 0x0608 .notPermitted (treeObject (tableTree h) h 0) (treePayload 0 i (s.entry h i).gen 0) [h]

/-! ### Sealing (R177, R181, R185, R189) -/

/-- The trace operation of a sealing (R462). -/
def State.sealCode (s : State) (o : SecOp) : Nat :=
  o.sealAs.getD (match o.kind with
  | .courier => 6
  | .merge _ => 4
  | .atomic => 4
  | _ =>
    if o.req = 0 then 3
    else match s.reqOf o.req with
      | some q => (match q.origin with | .zero _ => 7 | _ => 2)
      | none => 2)

/-- The port that an operation on a tray goes through to its end (R190). -/
def SecOp.port (o : SecOp) : Option Nat := if o.island < 16 then none else some (o.island - 16)

/-- Seals a sector with its frank and writes both: to the stack, or as two writes to the tray.  The writes of a wrap on a tray are
issued one sector after another (R231): `later` only seals.  A fetch of the frank's line that is on its way takes the new frank with
it. -/
def State.writeSealed (s : State) (o : SecOp) (k : Nat) (dk : Key) (version : Nat) (pt : Bytes) (later : Bool := false) :
    State × List (Nat × Bytes) :=
  let r := s.regionX o.region
  let lbn := lbnOf o.region r k
  let ct := xtsEncrypt dk lbn version pt
  let frank := frankOf dk lbn version ct
  let w := [(r.sectorAddress k, ct), (r.frankAddress k, bytesOf frank)]
  let s := if later then s else w.foldl (fun s e => s.writeTo o.port r.pooled o.id e.1 e.2) s
  let s := s.modLine (fun l => l.is o.island (.frank o.region (k / 8))) (fun l =>
    { l with val := (match l.val with | .franks f => .franks (f.set (k % 8) frank) | v => v) })
  let s : State := { s with mem := { s.mem with fetches := s.mem.fetches.map (fun (f : Fetch) =>
      if f.island = o.island ∧ f.key = .frank o.region (k / 8) then { f with franks := f.franks ++ [(k % 8, frank)] } else f) } }
  let first := o.kind = .courier ∨ k ≠ o.sector ∨ (o.kind = .full ∧ o.sealAs = none)
  let s := if r.pooled then (if first then s.count o.island 10 (some o.tc) 1 else s)
    else s.count o.island 8 (some o.tc) (r.sector + 8)
  (s, w)

/-- Seals the plaintext of an operation's sector under the version that its leaf gives it, and writes it (R169). -/
def State.sealNow (s : State) (o : SecOp) (pt : Bytes) (dk : Key) : State :=
  let r := s.regionX o.region
  let s := if r.cls = .fresh then
      (s.holdPath o.region (o.sector / 64)).modNode o.region 1 (o.sector / 64)
        (fun n => n.setMinor (o.sector % 64) (n.minor (o.sector % 64) + 1))
    else s
  let n := match s.nodeAt o.region 1 (o.sector / 64) with | .found n => n | _ => {}
  let s := s.sectorRec o (s.sealCode o) (if o.kind = .merge true then 8 else 0)
  let (s, w) := s.writeSealed o o.sector dk (versionOf r.cls n o.sector) pt
  let s := if r.pooled ∧ r.cls = .fresh then s.takeResume o.island o.region o.id w else s
  let s := if s.sealCode o = 2 ∨ s.sealCode o = 7 then s.islandCount o 3 1 else s
  (s.countSeals r.handle o.keyIndex 1).setOp
    { o with stage := .writing, writes := if r.pooled then 2 else 1, issued := w, since := s.now, got := none }

/-- Seals a sector under the current generation of its key index and hands it to memory.  A minor counter of 63 makes the
operation wait for the wrap of its leaf (R220), a port without a free resume record, or a cache without room for the path of its leaf,
before it changes anything (R211, R231); a key schedule that has gone is asked for again, and a key that may not be used is not
(R165). -/
def State.sealOp (s : State) (o : SecOp) (pt : Bytes) : State :=
  let r := s.regionX o.region
  let e := s.entry r.handle o.keyIndex
  let again : SecOp :=
    { o with stage := .waiting, kind := .full, bytes := pt.map some, got := none, sealAs := some (s.sealCode o), since := s.now }
  let back := s.setOp again
  if e.state ≠ .live then s.failOp o 0x0504 (if e.state = .outside then 2 else 3)
  else if atLimit e then (s.limitReached r.handle o.keyIndex).failOp o 0x0504 5
  else match s.schedule? o.island r.handle o.keyIndex e.gen with
    | none => back.keyRequest o.island r.handle (.data o.keyIndex e.gen)
    | some dk =>
      let leaf := if r.cls = .fresh then s.nodeAt o.region 1 (o.sector / 64) else .found {}
      if usableKey dk = false then s.failOp o 0x0501 4
      else match leaf with
      | .lost => s.failOp o 0x0501 3
      | .absent => back
      | .found n =>
        if r.cls = .fresh ∧ n.minor (o.sector % 64) = 63 then
          s.setOp { o with stage := .wrapping, bytes := pt.map some, got := none, since := s.now }
        else if r.pooled = true ∧ r.cls = .fresh ∧ s.resumeRoom o.island = false then back
        else if s.laneOff then s.laneMismatch o
        else if r.cls = .fresh ∧ (s.holdPath o.region (o.sector / 64)).pathHeld o.region (o.sector / 64) = false then
          (s.holdPath o.region (o.sector / 64)).setOp again
        else s.sealNow o pt dk

/-! ### Atomics (R296, R311) -/

/-- A value of 4 or 8 bytes as two's complement. -/
def signedOf (size v : Nat) : Int := if v < 2 ^ (8 * size - 1) then v else (v : Int) - 2 ^ (8 * size)

/-- Memory afterwards (R296). -/
def atomicAfter (op size old operand compare : Nat) : Nat :=
  match op with
  | 1 => (old + operand) % 2 ^ (8 * size)
  | 2 => Nat.land old operand
  | 3 => Nat.lor old operand
  | 4 => Nat.xor old operand
  | 5 => operand
  | 6 => if old = compare then operand else old
  | 7 => if signedOf size operand < signedOf size old then operand else old
  | 8 => if signedOf size old < signedOf size operand then operand else old
  | 9 => min old operand
  | 10 => max old operand
  | _ => old

/-- An atomic on the plaintext of its sector: the old value and the plaintext afterwards. -/
def SecOp.atomicOn (o : SecOp) (pt : Bytes) : Nat × Bytes :=
  let old := field pt o.off o.len
  let m := 2 ^ (8 * o.len)
  (old, splice pt o.off (le o.len (atomicAfter o.atomicOp o.len old (o.operand.toNat % m) (o.compare.toNat % m))))

/-! ### A sector's plaintext is at hand (R164, R181, R182, R311) -/

/-- The bytes of a merge over the sector's plaintext. -/
def mergeBytes (new : List (Option Byte)) (old : Bytes) : Bytes := (new.zip old).map (fun e => e.1.getD e.2)

/-- What an operation does with the plaintext of its sector. -/
def State.gotPlain (s : State) (o : SecOp) (pt : Bytes) : State :=
  match o.kind with
  | .read =>
    let s := (s.sectorRec o 1).islandCount o 2 1
    (s.deliverTo o pt).dropOp o.id
  | .merge _ =>
    let merged := mergeBytes o.bytes pt
    if o.kind = .merge true ∧ o.req ≠ 0 then
      ((((s.sectorRec o 1).islandCount o 2 1).deliverTo o merged).setOp { o with req := 0 }).sealOp { o with req := 0 } merged
    else s.sealOp o merged
  | .atomic =>
    let a := o.atomicOn pt
    let o := { o with result := BitVec.ofNat 64 a.1 }
    (s.setOp o).sealOp o a.2
  | _ => s

/-- The frank against which a sector is opened: the cached line's for a stack, the tray's own answer for a tray. -/
def State.storedFrank (s : State) (o : SecOp) (d : SectorData) : BitVec 64 :=
  match s.line o.island (.frank o.region (o.sector / 8)) with
  | some l => (match l.val with | .franks f => f.getD (o.sector % 8) 0 | _ => d.frank)
  | none => d.frank

/-! ### Metadata that an operation needs (R173, R211, R214) -/

/-- The island, and the lines, that hold a key-index entry and the nodes above it (R170, R173). -/
def State.tableNeeds (s : State) (h i : Nat) : List (Nat × LineKey) :=
  (s.absentPath (tableTree h) (i / 8 / 64)).map (fun e => (s.treeIsland (tableTree h), .node (tableTree h) e.1 e.2))

/-- The operation reads its sector. -/
def SecOp.reads (o : SecOp) : Bool :=
  match o.kind with | .read => true | .merge _ => true | .atomic => true | _ => false

/-- The operation seals its sector. -/
def SecOp.seals (o : SecOp) : Bool :=
  match o.kind with | .full => true | .merge _ => true | .atomic => true | _ => false

/-- The sector's counters are known and zero (R167, R210). -/
def State.neverSealed (s : State) (o : SecOp) : Bool :=
  match s.nodeAt o.region 1 (o.sector / 64) with
  | .found n => n.childZero (o.sector % 64)
  | _ => false

/-- A node on a leaf's path has been found lost and is on no list: its copies are read again for every request below it (R223). -/
def State.pathUnlisted (s : State) (tree leaf : Nat) : Bool :=
  match s.treeOf tree with
  | some (t, _) => (pathOf t.depth leaf).any (fun e => s.mem.unlisted.any (fun x => x.2 == .node tree e.1 e.2))
  | none => false

/-- The sector's counters are known and not zero. -/
def State.everSealed (s : State) (o : SecOp) : Bool :=
  match s.nodeAt o.region 1 (o.sector / 64) with
  | .found n => !n.childZero (o.sector % 64)
  | _ => false

/-- The lines that hold an operation's key-index entry: its sector, and what the table's island lacks above it (R173). -/
def State.keyNeeds (s : State) (o : SecOp) : List (Nat × LineKey) :=
  let h := (s.regionX o.region).handle
  let key : LineKey := .keySector h (o.keyIndex / 8)
  (o.island, key) :: (if (s.line o.island key).isNone ∨ s.pathUnlisted (tableTree h) (o.keyIndex / 8 / 64) = true
    then s.tableNeeds h o.keyIndex else [])

/-- The path of an operation's leaf. -/
def State.pathNeeds (s : State) (o : SecOp) : List (Nat × LineKey) :=
  match s.treeOf o.region with
  | some (t, _) => (pathOf t.depth (o.sector / 64)).map (fun e => (o.island, .node o.region e.1 e.2))
  | none => []

/-- The lines an operation has to look up; a write on its way to the buffer looks up its key-index entry alone (R173, R180), and its
path only where that has a lost node on no list (R223). -/
def State.needs (s : State) (o : SecOp) : List (Nat × LineKey) :=
  let r := s.regionX o.region
  if r.cls = .opened then []
  else if o.kind = .part then
    s.keyNeeds o ++ (if r.cls = .fresh ∧ s.pathUnlisted o.region (o.sector / 64) = true then s.pathNeeds o else [])
  else
    s.keyNeeds o
      ++ (if r.cls = .fresh then s.pathNeeds o else [])
      ++ (if o.reads ∧ r.pooled = false ∧ ¬ (r.cls = .fresh ∧ s.neverSealed o = true)
          then [(o.island, .frank o.region (o.sector / 8))] else [])

/-- What the run-ahead looks up for a request that it has seen (R217): the frank line, the key-index entry, the path. -/
def State.sees (s : State) (o : SecOp) : List (Nat × LineKey) := s.needs { o with kind := .merge false }

/-- A line of `needs` is at hand. -/
def State.hasLine (s : State) (island : Nat) (key : LineKey) : Bool :=
  match key with
  | .node t l i => s.nodeAt t l i != .absent
  | k => (s.line island k).isSome

/-- Asks for lines that are missing, and for the metadata key that verifies them (R207). -/
def State.fetchAll (s : State) (h : Nat) (missing : List (Nat × LineKey)) (ahead : Bool) (tc : Nat) : State :=
  missing.foldl (fun s e =>
    (if (s.schedule? e.1 h 0 0xFF).isNone then s.keyRequest e.1 h (.data 0 0xFF) else s).fetchMeta e.1 e.2 ahead tc) s

/-- The first lookup of an operation's metadata is counted, once (R238, R473). -/
def State.firstLook (s : State) (o : SecOp) (all missing : Nat) : State :=
  if o.looked.isSome then s
  else
    let n := all - missing
    let s : State := { s with mem := { s.mem with hits := satAdd 64 s.mem.hits n } }
    (s.islandCount o 6 n).setOp { o with looked := some missing }

/-- The run-ahead looks an operation's metadata up, before its turn (R217). -/
def State.lookAhead (s : State) (o : SecOp) : State :=
  let all := s.sees o
  let missing := all.filter (fun e => !s.hasLine e.1 e.2)
  (s.firstLook o all.length missing.length).fetchAll (s.regionX o.region).handle missing true o.tc

/-- An operation that has come to its turn looks its metadata up: whether all of it is at hand, and what is missing asked for.  Its
misses are judged when its data is `ready`, or when nothing is missing any more: one made good by then was hidden, one that keeps
the data waiting is exposed (R219; DEDUCED, log 53). -/
def State.lookMeta (s : State) (o : SecOp) (ready : Bool) : Bool × State :=
  let all := s.needs o
  let missing := all.filter (fun e => !s.hasLine e.1 e.2)
  let s := s.firstLook o all.length missing.length
  let s := if o.judged = true ∨ (ready = false ∧ missing.isEmpty = false) then s
    else
      let late := missing.length
      let s : State := { s with mem := { s.mem with
        hidden := satAdd 64 s.mem.hidden (o.looked.getD late - late), exposed := satAdd 64 s.mem.exposed late } }
      (s.islandCount o 7 late).setOp { o with looked := some (o.looked.getD late), judged := true }
  let s := all.foldl (fun s e => s.useLine e.1 e.2) s
  (missing.isEmpty, s.fetchAll (s.regionX o.region).handle missing false o.tc)

/-! ### What stands between an operation and its sector -/

/-- The operation's stack, or the stack that holds a line it has to look up, is fenced (R424). -/
def State.deadStack (s : State) (o : SecOp) : Bool :=
  decide (o.island ∈ s.fault.stacksFenced)
    || (s.needs o).any (fun e => !s.hasLine e.1 e.2 && (match s.lineStack e.2 (s.copyBFirst e.2) with
      | some n => decide (n ∈ s.fault.stacksFenced)
      | none => false))

/-- What cannot be had for an operation, as the type and reason of its fault: its stack (R424), its key-index entry below a lost
node, its counters below one (R223). -/
def State.lostFor (s : State) (o : SecOp) : Option (Nat × Nat) :=
  let r := s.regionX o.region
  if s.deadStack o then some (0x0501, 2)
  else if r.cls = .opened then none
  else if s.nodeAt (tableTree r.handle) 1 (o.keyIndex / 8 / 64) = .lost then some (0x0501, 4)
  else if r.cls = .fresh ∧ s.nodeAt o.region 1 (o.sector / 64) = .lost then some (0x0501, 3)
  else none

/-- The reason for which an operation's key-index entry, at hand, refuses it (R173, R226): a read, one that finds buffered bytes too,
is not held to the limit of seals. -/
def State.keyRefuses (s : State) (o : SecOp) : Option Nat :=
  let r := s.regionX o.region
  let e := s.entry r.handle o.keyIndex
  if r.cls = .opened then none
  else if e.state = .outside then some 2
  else if e.state = .exhausted then some 3
  else if o.kind ≠ .read ∧ ¬ (o.kind = .merge true ∧ o.req ≠ 0) ∧ atLimit e = true then some 5
  else none

/-- A refusal of the key-index entry. -/
def State.refuseKey (s : State) (o : SecOp) (reason : Nat) : State :=
  (if reason = 5 then s.limitReached (s.regionX o.region).handle o.keyIndex else s).failOp o 0x0504 reason

/-- Generations whose schedules an operation uses first: of its sector, and of its sealing (R228). -/
def State.firstGens (s : State) (o : SecOp) : List Nat :=
  let r := s.regionX o.region
  let opens := (s.openGens o.region r.handle o.sector o.keyIndex).take 1
  if o.kind = .read then opens
  else if o.kind = .full then [(s.entry r.handle o.keyIndex).gen]
  else opens ++ [(s.entry r.handle o.keyIndex).gen]

/-! ### A sector comes back (R165, R169, R228) -/

/-- Opens a sector that came back and whose metadata is at hand, at most `n` generations. -/
def State.openSector : Nat → State → SecOp → SectorData → State
  | 0, s, _, _ => s
  | n + 1, s, o, d =>
    let r := s.regionX o.region
    let gens := s.openGens o.region r.handle o.sector o.keyIndex
    let gens := if o.retried then gens.drop 1 else gens
    match gens, (if r.cls = .fresh then s.nodeAt o.region 1 (o.sector / 64) else .found {}) with
    | [], _ => s.failOp o 0x0501 1
    | g :: rest, .found leaf =>
      match s.schedule? o.island r.handle o.keyIndex g with
      | none => s.keyRequest o.island r.handle (.data o.keyIndex g)
      | some dk =>
        let v := versionOf r.cls leaf o.sector
        let lbn := lbnOf o.region r o.sector
        let s := s.useSchedule o.island r.handle o.keyIndex g
        if usableKey dk = false then s.failOp o 0x0501 4
        else if r.cls = .fresh ∧ leaf.childZero (o.sector % 64) then s.gotPlain o (zeros r.sector)
        else if frankOf dk lbn v d.bytes = s.storedFrank o d then s.gotPlain o (xtsDecrypt dk lbn v d.bytes)
        else if rest.isEmpty then s.failOp o 0x0501 1
        else
          let o := { o with retried := true }
          State.openSector n (s.setOp o) o d
    | _, _ => s

/-- A sector is at hand: what cannot be had or is refused fails it, what is still missing is waited for.  An uncorrectable error of a
FRESH sector counts only once its counters say that it was ever sealed (R167). -/
def State.openStep (s : State) (o : SecOp) : State :=
  match o.got with
  | none => s
  | some d =>
    if d.ue = true ∧ (s.regionX o.region).cls ≠ .fresh then s.failOp o 0x0501 2
    else match s.lostFor o with
      | some f => s.failOp o f.1 f.2
      | none =>
        let (all, s) := s.lookMeta o true
        let o := (s.secOp o.id).getD o
        if all = false then s
        else match s.keyRefuses o with
          | some reason => s.refuseKey o reason
          | none => if d.ue = true ∧ s.neverSealed o = false then s.failOp o 0x0501 2 else State.openSector 3 s o d

/-! ### An operation starts -/

/-- Bytes to write as runs of known bytes: offset and bytes. -/
def runsOf : List (Option Byte) → Nat → List (Nat × Bytes)
  | [], _ => []
  | none :: r, k => runsOf r (k + 1)
  | some b :: r, k =>
    match runsOf r (k + 1) with
    | (o, l) :: rest => if o = k + 1 then (k, b :: l) :: rest else (k, [b]) :: (o, l) :: rest
    | [] => [(k, [b])]

/-- Issues the read of a sector, with its frank to a tray (R189). -/
def State.issueRead (s : State) (o : SecOp) : State :=
  let r := s.regionX o.region
  let a := r.sectorAddress o.sector
  let s := s.setOp { o with stage := .reading, since := s.now }
  if r.pooled then
    let s := s.emitPort (o.island - 16) (.trayRead (o.island - 16) o.id (a / 2 ^ 48) (a % 2 ^ 48) r.sector)
    let s := if r.cls = .opened then s
      else s.emitPort (o.island - 16) (.trayRead (o.island - 16) o.id (a / 2 ^ 48) (r.frankAddress o.sector % 2 ^ 48) 8)
    s.count o.island 10 (some o.tc) 1
  else
    (s.emit (.memRead o.island o.id (a % 2 ^ 36) r.sector)).count o.island 9 (some o.tc) r.sector

/-- Writes bytes of an OPEN region or of unallocated memory, under their mask. -/
def State.openWrite (s : State) (o : SecOp) (bytes : List (Option Byte)) : State :=
  let r := s.regionX o.region
  let a := r.sectorAddress o.sector
  let s := if o.kind = .atomic then s
    else if r.pooled then s.count o.island 10 (some o.tc) 1
    else s.islandCount o (if bytes.all (·.isSome) then 3 else 4) 1
  if r.pooled then
    let w := (runsOf bytes 0).map (fun e => (a + e.1, e.2))
    let s := w.foldl (fun s e => s.writeTo o.port true o.id e.1 e.2) s
    if w.isEmpty then (s.dropOp o.id).pieceDone o.req (fun q => { q with result := o.result })
    else s.setOp { o with stage := .writing, writes := w.length, issued := w, since := s.now }
  else
    (((s.sectorRec o (if o.kind = .atomic then 4 else 2)).emit (.memWrite o.island o.id (a % 2 ^ 36) bytes)).count o.island 8
      (some o.tc) r.sector).setOp { o with stage := .writing, writes := 1, since := s.now }

/-- A merge path runs, for a partial write or for an atomic on a sealed sector (R181, R195, R311): it is counted. -/
def State.mergeRuns (s : State) (o : SecOp) : State :=
  if o.seals = true ∧ o.kind ≠ .full then
    let r := s.regionX o.region
    let s := s.modRegion o.region (fun r => { r with merges := sat64 r.merges })
    let s : State := { s with mem := { s.mem with merges := sat64 s.mem.merges } }
    (s.islandCount o 5 1).modCounters r.handle (fun k => { k with merges := sat64 k.merges })
  else s

/-- The read of a merge is charged again to the master of the write (R370): of buffered bytes, to that of their entry's first write, also
where it is a read that finds them. -/
def State.mergeCharge (s : State) (o : SecOp) : State :=
  if o.seals = true ∧ o.kind ≠ .full then
    let r := s.regionX o.region
    let m := match s.reqOf o.req, o.kind with
      | some q, .merge false | some q, .atomic => q.masterName
      | _, _ => o.master
    let x := s.master m.handle m.tc m.kind m.target
    s.putMaster { x with bytes := satAdd 64 x.bytes r.sector, windowBytes := x.windowBytes + r.sector }
  else s

/-- An operation whose metadata is at hand goes to its sector, once its keys and, on a tray, a resume record can be had (R231). -/
def State.goOn (s : State) (o : SecOp) : State :=
  let r := s.regionX o.region
  let gens := s.firstGens o
  let wanted := gens.filter (fun g => (s.schedule? o.island r.handle o.keyIndex g).isNone)
  match s.keyRefuses o with
  | some reason => s.refuseKey o reason
  | none =>
    if wanted.isEmpty = false then
      wanted.foldl (fun s g => s.keyRequest o.island r.handle (.data o.keyIndex g)) s
    else if gens.any (fun g => match s.schedule? o.island r.handle o.keyIndex g with
        | some dk => !usableKey dk
        | none => false) then s.failOp o 0x0501 4
    else if o.seals = true ∧ r.pooled = true ∧ r.cls = .fresh ∧ s.resumeRoom o.island = false then s
    else
      let s := gens.foldl (fun s g => s.useSchedule o.island r.handle o.keyIndex g) s
      let s := s.mergeRuns o
      if o.kind = .full then s.sealOp o (mergeBytes o.bytes (zeros r.sector))
      else if r.cls = .fresh ∧ s.neverSealed o = true then s.gotPlain o (zeros r.sector)
      else (s.mergeCharge o).issueRead o

/-- An operation whose turn has come (R28): it looks up its metadata and its keys, and touches its sector.  The read of a sector goes
with the fetches of the metadata that it misses, and waits for them with its data (R219; DEDUCED, log 53). -/
def State.start (s : State) (o : SecOp) : State :=
  match s.lostFor o with
  | some f => s.failOp o f.1 f.2
  | none =>
    if (s.regionX o.region).cls = .opened then
      if o.reads then s.issueRead o else s.openWrite o o.bytes
    else
      let (all, s) := s.lookMeta o (!o.reads)
      let o := (s.secOp o.id).getD o
      if all then s.goOn o
      else if o.reads then ((s.mergeRuns o).mergeCharge o).issueRead o
      else s

/-! ### The write-combining buffer (R177 to R182) -/

/-- The buffer entry of a sector. -/
def State.wcEntry (s : State) (region sector : Nat) : Option WcEntry :=
  s.mem.wc.find? (fun e => e.region == region && e.sector == sector)

/-- Removes a buffer entry. -/
def State.dropEntry (s : State) (e : WcEntry) : State :=
  { s with mem := { s.mem with wc := s.mem.wc.filter (fun (x : WcEntry) => !(x.region == e.region && x.sector == e.sector)) } }

/-- The operation of a buffer entry on its path: a full write when its mask is full, else a merge. -/
def WcEntry.toOp (e : WcEntry) (req now : Nat) : SecOp :=
  { id := 0, req := req, island := e.island, region := e.region, sector := e.sector,
    kind := if e.bytes.all (·.isSome) then .full else .merge true, stage := .waiting, keyIndex := e.keyIndex,
    ctx := e.ctx, tc := e.tc, off := 0, len := e.bytes.length, bytes := e.bytes, atomicOp := 0, operand := 0,
    compare := 0, result := 0, retried := false, writes := 0, issued := [], looked := none, got := none, since := now,
    entered := e.first, chunks := e.chunks, level := e.level, master := e.master }

/-- Sends a buffer entry to its path, before the operations that wait for its sector: all of them arrived after its bytes
(R179, R180). -/
def State.flushEntry (s : State) (e : WcEntry) : State :=
  (s.dropEntry e).addOp (e.toOp 0 s.now)
    ((s.mem.ops.find? (fun o => o.stage == .waiting && o.region == e.region && o.sector == e.sector)).map (·.id))

/-- Slots of 1 KiB that entries of an island fill (R178): the fewest that the entries of each size could fill, as if places freed in
a slot were always used again (DESIGN CHOICE, log 65). -/
def slotsUsed (l : List (Nat × Nat)) : Nat :=
  ([6, 8, 10].map (fun log => ((l.filter (fun e => e.2 == log)).length + 2 ^ (10 - log) - 1) / 2 ^ (10 - log))).sum

/-- The entries of an island with the log of their sectors. -/
def State.slotsOf (s : State) (island : Nat) : List (Nat × Nat) :=
  (s.mem.wc.filter (fun e => e.island == island)).map (fun e => (e.sector, (s.regionX e.region).sectorLog))

/-- The entry of an island with the earliest first write. -/
def State.earliest (s : State) (island : Nat) : Option WcEntry :=
  match s.mem.wc.filter (fun e => e.island == island) with
  | [] => none
  | e :: r => some (r.foldl (fun m x => if x.first < m.first then x else m) e)

/-- Makes room in an island's buffer for one more sector, at most `n` entries of it: the earliest go to their paths (R178, R179). -/
def State.makeRoom (island : Nat) (new : Nat × Nat) : Nat → State → State
  | 0, s => s
  | n + 1, s =>
    if slotsUsed (s.slotsOf island ++ [new]) ≤ 256 then s
    else match s.earliest island with
      | some e => State.makeRoom island new n (s.flushEntry e)
      | none => s

/-- The chunk of a reduction that an operation writes (R354). -/
def State.chunkOf (s : State) (o : SecOp) : List (Nat × Nat) :=
  match s.reqOf o.req with
  | some q => (match q.origin with | .chunk d c => [(d, c)] | _ => [])
  | none => []

/-- A partial write enters the buffer (R177, R179 rules 1 to 4, R180). -/
def State.intoBuffer (s : State) (o : SecOp) : State :=
  let r := s.regionX o.region
  let done (s : State) : State := (s.islandCount o 4 1).pieceDone o.req id
  match s.wcEntry o.region o.sector with
  | some e =>
    if e.keyIndex ≠ o.keyIndex then s.flushEntry e
    else
      let bytes := (o.bytes.zip e.bytes).map (fun b => b.1.or b.2)
      if bytes.all (·.isSome) then
        let s := s.dropEntry e
        let s := s.modRegion o.region (fun r => { r with combined := sat32 r.combined })
        let full := e.toOp 0 s.now
        (done s).setOp { full with id := o.id, kind := .full, bytes := bytes, chunks := e.chunks ++ s.chunkOf o }
      else
        let wc := s.mem.wc.map (fun (x : WcEntry) =>
          if x.region = e.region ∧ x.sector = e.sector then { x with bytes := bytes, chunks := e.chunks ++ s.chunkOf o } else x)
        (done { s with mem := { s.mem with wc := wc } }).dropOp o.id
  | none =>
    if r.wcWindow = 0 then s.setOp { o with kind := .merge false }
    else
      let s := State.makeRoom o.island (o.sector, r.sectorLog) 4096 s
      let e : WcEntry := { island := o.island, region := o.region, sector := o.sector, keyIndex := o.keyIndex,
                           ctx := o.ctx, tc := o.tc, bytes := o.bytes, first := s.now, chunks := s.chunkOf o,
                           level := (s.opStamp o).level,
                           master := match s.reqOf o.req with | some q => q.masterName | none => o.master }
      (done { s with mem := { s.mem with wc := s.mem.wc ++ [e] } }).dropOp o.id

/-- A partial write whose turn has come: its key-index entry is looked up before the buffer takes it (R173, R223, R226). -/
def State.bufferWrite (s : State) (o : SecOp) : State :=
  match s.lostFor o with
  | some f => s.failOp o f.1 f.2
  | none =>
    let (all, s) := s.lookMeta o true
    let o := (s.secOp o.id).getD o
    if all = false then s
    else match s.keyRefuses o with
      | some reason => s.refuseKey o reason
      | none => s.intoBuffer o

/-! ### Turns (R28, R220) -/

/-- The operation must wait: an earlier one on its sector is not done, or one is in flight, or a wrap holds or wants its leaf group. -/
def State.slotBusy (s : State) (o : SecOp) : Bool :=
  let same (x : SecOp) : Bool := x.region == o.region && x.sector == o.sector && (o.region != noRegion || x.island == o.island)
  (s.mem.ops.takeWhile (fun x => x.id != o.id)).any same
    || s.mem.ops.any (fun x => x.id != o.id && ((same x && (x.stage == .reading || x.stage == .writing))
      || ((x.stage == .wrapping || x.group) && x.region == o.region && x.sector / 64 == o.sector / 64)))

/-- One operation goes on as far as it can. -/
def State.advance (s : State) (id : Nat) : State :=
  match s.secOp id with
  | none => s
  | some o =>
    match o.stage with
    | .reading => if o.got.isSome then s.openStep o else s
    | .writing => s
    | .wrapping => s
    | .waiting =>
      if s.slotBusy o then s
      else
        let zero := match s.reqOf o.req with
          | some q => (match q.origin with | .zero _ => true | _ => false)
          | none => false
        match o.kind, s.wcEntry o.region o.sector with
        | .part, _ => s.bufferWrite o
        | _, none => s.start o
        | .read, some e =>
          if e.keyIndex = o.keyIndex then
            let m := e.toOp o.req s.now
            let m := { m with id := o.id, kind := .merge true, off := o.off, len := o.len }
            ((s.dropEntry e).setOp m).start m
          else s.flushEntry e
        | _, some e => if zero then (s.dropEntry e).start o else s.flushEntry e

/-- The order in which the islands' arbiters serve their operations (R372): one that has waited 2 µs for its turn has level 5 (R371). -/
def State.turnOrder (s : State) : List Nat :=
  arbitrate (s.mem.ops.map (fun o => (if o.stage = .waiting then aged (s.opStamp o).level o.since s.now else (s.opStamp o).level,
    (s.opStamp o).master, (s.regionX o.region).sector, o.id)))

/-- Every operation goes on as far as it can, in the arbiters' order; a flush put before one goes next time. -/
def State.pump : Nat → State → State
  | 0, s => s
  | n + 1, s => State.pump n (s.turnOrder.foldl (fun s id => s.advance id) s)

/-! ### The run-ahead (R217 to R219) -/

/-- The operations that a memory island's run-ahead sees: of the first 512 requests that have not come to their turn. -/
def State.inView (s : State) (island : Nat) : List SecOp :=
  let mine := s.mem.ops.filter (fun o => o.island == island && o.req != 0 && o.stage == .waiting && !o.judged)
  let ids := ((mine.map (·.req)).eraseDups).take 512
  mine.filter (fun o => (s.regionX o.region).cls != .opened && decide (o.req ∈ ids))

/-- Whether the metadata of a sector is fetched ahead, in TC3 BULK. -/
def State.prefetch (s : State) (island n key k : Nat) : State :=
  let o : SecOp := { id := 0, req := 0, island := island, region := n, sector := k, kind := .read, stage := .waiting,
                     keyIndex := key, ctx := none, tc := 3, off := 0, len := 0, bytes := [], atomicOp := 0, operand := 0, compare := 0,
                     result := 0, retried := false, writes := 0, issued := [], looked := none, got := none, since := 0 }
  (s.fetchAll (s.region n).handle ((s.sees o).filter (fun e => !s.hasLine e.1 e.2)) true 3).predicted s.mem.nextId

/-- A tracker fetches the metadata of the next 256 sectors of its stride. -/
def State.predict (s : State) (t : Tracker) : State :=
  ((List.range 256).map (fun (k : Nat) => (t.last : Int) + t.stride * ((k : Int) + 1))).foldl (fun s (k : Int) =>
    if 0 ≤ k ∧ k < (s.region t.region).sectors then s.prefetch t.island t.region t.key k.toNat else s) s

/-- Some values stand in a list in their order. -/
def inOrder : List Int → List Int → Bool
  | [], _ => true
  | _ :: _, [] => false
  | a :: l, b :: r => if a = b then inOrder l r else inOrder (a :: l) r

/-- The stride of a stream that a request to sector `k` ends (R218): three requests before it, within 2 µs. -/
def streamStride (before : List Int) (k : Int) : Option Int :=
  [1, -1, 2, -2, 3, -3, 4, -4].find? (fun d => inOrder [k - 3 * d, k - 2 * d, k - d] before)

/-- A new stream takes a tracker of its island: with all 16 busy, of the one that advanced least recently. -/
def State.newTracker (s : State) (t : Tracker) : State :=
  let mine := s.mem.trackers.filter (fun x => x.island == t.island)
  let rest := if 16 ≤ mine.length then
      (match leastUsed (·.at_) mine with | some old => s.mem.trackers.erase old | none => s.mem.trackers)
    else s.mem.trackers
  { s with mem := { s.mem with trackers := rest ++ [t] } }

/-- The trackers of an island see a context's request, by its first sector (R218). -/
def State.track (s : State) (island n key ctx k : Nat) : State :=
  let recent := s.mem.seen.filter (fun e => decide (s.now ≤ e.at_ + 2 * Config.us))
  let before := (recent.filter (fun e => e.island == island && e.ctx == ctx && e.region == n)).map (fun e => (e.sector : Int))
  let next (t : Tracker) : Bool := t.island == island && t.ctx == ctx && t.region == n && decide ((k : Int) = t.last + t.stride)
  let s : State := { s with mem := { s.mem with
    seen := recent ++ [{ island := island, ctx := ctx, region := n, sector := k, at_ := s.now }] } }
  if s.mem.trackers.any next then
    { s with mem := { s.mem with trackers := s.mem.trackers.map (fun (t : Tracker) =>
        if next t then { t with last := k, key := key, at_ := s.now } else t) } }
  else match streamStride before k with
    | some d => s.newTracker { island := island, ctx := ctx, region := n, key := key, last := k, stride := d, at_ := s.now }
    | none => s

/-- STREAM_TRACKER_EXPIRED (R218): a tracker that has not advanced for 10 µs is freed. -/
def State.trackerExpired (s : State) (island k : Nat) : State :=
  match (s.mem.trackers.filter (fun t => t.island == island))[k]? with
  | some t =>
    if t.at_ + 10 * Config.us ≤ s.now then { s with mem := { s.mem with trackers := s.mem.trackers.erase t } } else s
  | none => s

/-- The run-aheads look up what they see and what their trackers predict. -/
def State.runAhead (s : State) : State :=
  let s := (List.range 16).foldl (fun s i => (s.inView i).foldl (fun s o => s.lookAhead o) s) s
  s.mem.trackers.foldl (fun s t => s.predict t) s

/-- What follows every event of the engine; what its evictions ask to be written back goes too (R211). -/
def State.turn (s : State) : State := ((State.pump 4 s).runBacks).runAhead

/-! ### Requests enter (R28, R367 to R371) -/

/-- A request that has passed the checks of XB. -/
structure Ask where
  origin   : Origin
  kind     : ReqKind
  ctx      : Option Nat
  keyIndex : Nat
  region   : Nat
  address  : Nat
  length   : Nat
  tc       : Nat
  /-- The master charged, none for the job's own. -/
  master   : Option Nat := none
  /-- The host link charged, for an envelope transfer (R368). -/
  host     : Option Nat := none
  window   : Option Nat := none
  bytes    : List (Option Byte) := []
  atomicOp : Nat := 0
  operand  : BitVec 64 := 0
  compare  : BitVec 64 := 0

/-- The sectors that a range touches: index, first byte within it, length, position in the range. -/
def sectorsOf (size off len : Nat) : List (Nat × Nat × Nat × Nat) :=
  if len = 0 then []
  else
    let first := off / size
    (List.range ((off + len - 1) / size + 1 - first)).map (fun i =>
      let k := first + i
      let lo := max off (k * size)
      let hi := min (off + len) ((k + 1) * size)
      (k, lo - k * size, hi - lo, lo - off))

/-- The pending bytes of one sector of a write. -/
def sectorPart (size : Nat) (bytes : List (Option Byte)) (off len pos : Nat) : List (Option Byte) :=
  List.replicate off none ++ (bytes.drop pos).take len ++ List.replicate (size - off - len) none

/-- XB's record and counts of a request that a tile makes (R462, R473). -/
def State.noteRequest (s : State) (a : Ask) (handle kind code tc level : Nat) : State :=
  match a.origin with
  | .tile _ _ =>
    let s := s.traceRec islandXB 0x10 (some handle) a.ctx
      [(8, s.globalOf kind a.address), (2, a.ctx.getD 0xFFFF), (1, code), (1, tc), (2, a.length), (4, a.keyIndex), (2, 0)]
    let s := s.count islandXB 2 (some tc) 1
    if level = 0 then s.count islandXB 6 (some tc) 1 else s
  | _ => s

/-- One sector's operation of a request (R28): queued. -/
def State.addPart (s : State) (a : Ask) (r : Region) (island id tc : Nat) (e : Nat × Nat × Nat × Nat) : State :=
  let bytes := if a.kind = .write then sectorPart r.sector a.bytes e.2.1 e.2.2.1 e.2.2.2 else []
  let k : SecKind := match a.kind with
    | .read => .read
    | .atomic => .atomic
    | .write =>
      if r.cls = .opened ∨ bytes.all (·.isSome) then .full
      else if r.pooled then .merge false else .part
  let oid := s.mem.nextId
  let o : SecOp := { id := oid, req := id, island := island, region := a.region, sector := e.1, kind := k,
                     stage := .waiting, keyIndex := a.keyIndex, ctx := a.ctx, tc := tc, off := e.2.1, len := e.2.2.1,
                     bytes := bytes, atomicOp := a.atomicOp, operand := a.operand, compare := a.compare, result := 0,
                     retried := false, writes := 0, issued := [], looked := none, got := none, since := s.now,
                     entered := s.now }
  let s := s.addOp o none
  if s.slotBusy o then s.islandCount o 10 1 else s

/-- Two inbound requests are of one stream (R297). -/
def Origin.sameStream : Origin → Origin → Bool
  | .stream i, .stream k => !i.orphan && !k.orphan && i.handle == k.handle && i.peer == k.peer && i.tc == k.tc
  | _, _ => false

/-- A request goes on as one operation for each of its sectors; a fenced stack answers it (R186, R424). -/
def State.inParts (s : State) (a : Ask) (r : Region) (island id tc : Nat) (secs : List (Nat × Nat × Nat × Nat)) : State :=
  if island ∈ s.fault.stacksFenced ∧ island < 16 then
    let lbn := match secs with | e :: _ => lbnOf a.region r e.1 | [] => 0
    let s := s.sectorFault island a.region r.handle a.ctx 0x0501 2 lbn a.keyIndex
    { s with mem := { s.mem with reqs := s.mem.reqs.map (fun (x : Req) =>
        if x.id = id then ({ x with left := 1 }).fail .integrityLost 0x0501 2 else x) } }.pieceDone id (fun q => q)
  else
    let s := secs.foldl (fun s e => s.addPart a r island id tc e) s
    let s : State := match a.ctx, secs with
      | some c, e :: _ => if r.cls = .opened ∨ r.pooled = true then s else s.track island a.region a.keyIndex c e.1
      | _, _ => s
    s.turn

/-- A request enters its island: it is charged, recorded and split into operations on its sectors. -/
def State.submit (s : State) (a : Ask) : State :=
  let r := s.regionX a.region
  let island := if a.region = noRegion then stackOf a.address else (s.regionIsland r).getD 16
  let kind := if a.host.isSome then 2 else if r.pooled then 1 else 0
  let target := match a.host with | some l => l | none => if r.pooled then island - 16 else island
  let secs := sectorsOf r.sector (a.address - r.base) a.length
  let (tc, s) := if a.master.isNone then s.reclass r.handle a.tc else (a.tc, s)
  let m := a.master.getD r.handle
  let charged := if a.host.isSome then a.length + 64 else secs.length * r.sector
  let onLink := match a.origin with
    | .bar link _ => some ((s.mem.reqs.filter (fun q => match q.origin with | .bar l _ => l == link | _ => false)).length)
    | _ => none
  let (level, s) := s.charge (if a.window.isSome then none else a.ctx) m tc kind target charged onLink
  let s := if m < 256 then s.modCounters m (fun k => { k with requests := addAt k.requests tc 1,
                                                              bytes := addAt k.bytes tc charged }) else s
  let part (e : Nat × Nat × Nat × Nat) : List (Option Byte) := sectorPart r.sector a.bytes e.2.1 e.2.2.1 e.2.2.2
  let partial_ := decide (a.kind = .write) && secs.any (fun e => !(part e).all (·.isSome))
  let s := if partial_ ∧ m < 256 then s.modCounters m (fun k => { k with partials := sat64 k.partials }) else s
  let id := s.mem.nextId
  let q : Req := { id := id, origin := a.origin, kind := a.kind,
                   code := if a.kind = .read then 1 else if a.kind = .atomic then 4 else if partial_ then 3 else 2, ctx := a.ctx,
                   handle := r.handle, keyIndex := a.keyIndex, address := a.address, length := a.length, tc := tc, level := level,
                   accepted := s.now,
                   timeout := (match s.job r.handle with | some j => j.timeout | none => 20) * Config.us, left := secs.length,
                   data := zeros (if a.kind = .read then a.length else 0), failure := none, result := 0, window := a.window,
                   master := m, tkind := kind, target := target, charged := charged,
                   within := level != 0 }
  let s := s.raiseStream (fun x => x.origin.sameStream a.origin) level
  let s : State := { s with mem := { s.mem with reqs := s.mem.reqs ++ [q], nextId := id + 1 } }
  (s.noteRequest a r.handle kind q.code tc level).inParts a r island id tc secs

/-! ### Memory and trays answer -/

/-- The sector, or block, of an operation came back. -/
def State.cameBack (s : State) (island id : Nat) (d : SectorData) : State :=
  match s.secOp id with
  | none => s
  | some o =>
    if o.island ≠ island ∨ o.stage ≠ .reading ∨ o.got.isSome then s
    else
      let r := s.regionX o.region
      let s := if r.cls = .opened then
          if d.ue then s.failOp o 0x0501 2
          else match o.kind with
            | .atomic =>
              let a := o.atomicOn (slice d.bytes 0 r.sector)
              s.openWrite { o with result := BitVec.ofNat 64 a.1 }
                (sectorPart r.sector ((slice a.2 o.off o.len).map some) o.off o.len 0)
            | _ => (((s.sectorRec o 1).islandCount o 2 1).deliverTo o (slice d.bytes 0 r.sector)).dropOp o.id
        else
          let o := { o with got := some d }
          (s.setOp o).openStep o
      s.turn

/-- MEMORY_READ_DATA (R164). -/
def State.memoryData (s : State) (stack id : Nat) (d : SectorData) : State := s.cameBack stack id d

/-- TRAY_READ_DATA (R189). -/
def State.trayData (s : State) (port id : Nat) (d : SectorData) : State :=
  let s := match s.secOp id with
    | some o => s.count (islandP port) 5 (some o.tc) (64 + d.bytes.length)
    | none => s
  s.cameBack (islandP port) id d

/-- An operation's writes are all accepted: it is ordered, and its request's part is done. -/
def State.written (s : State) (o : SecOp) : State :=
  (s.dropOp o.id).pieceDone o.req (fun q => if q.kind = .atomic then { q with result := o.result } else q)

/-! ### Metadata comes back (R214, R215) -/

/-- Operations whose sector lies below a node, or whose key entry does. -/
def SecOp.below (tree lvl idx : Nat) (h : Nat) (o : SecOp) : Bool :=
  if 65536 ≤ tree then tree == tableTree h && o.keyIndex / 8 / 64 ^ lvl == idx
  else o.region == tree && o.sector / 64 ^ lvl == idx

/-- Table sectors are sealed afresh and written; a fetch of one of them on its way is made again. -/
def State.tableStored (s : State) (h : Nat) (secs : List (Nat × Node)) (charged : Bool := false) : State :=
  let first := s.mem.upkeep.length
  let s := s.storeTable h secs charged
  let s := if charged then (s.mem.upkeep.drop first).foldl (fun s u => s.maintain u.island 0) s else s
  (s.mem.fetches.filter (fun (f : Fetch) => match f.key with
    | .keySector x k => x == h && secs.any (fun e => e.1 == k)
    | _ => false)).foldl (fun s f =>
      (((s.endFetches (fun x => x.id == f.id)).issueFetch f.island f.key false f.ahead f.tc 0)).chargedLike f s.mem.nextId) s

/-- A table sector whose entry was written is sealed under its next version, once its leaf is at hand (R171, R212); a
minor counter of 63 wraps its leaf (R220); it waits while the table's stack is fenced (R424), and while the cache has no room for the
leaf's path (R211). -/
def State.tableWrite (s : State) (h sec : Nat) : State :=
  let t := tableTree h
  let leafNo := sec / 64
  let done : State := s.modJob h (fun j => { j with keyPending := j.keyPending.filter (fun x => x != sec) })
  if (match s.job h with | some j => decide (sec ∈ j.keyLost) | none => true) then done
  else if s.treeIsland t ∈ s.fault.stacksFenced then s
  else match s.nodeAt t 1 leafNo with
  | .lost => done
  | .absent =>
    let island := s.treeIsland t
    let s := if (s.schedule? island h 0 0xFF).isNone then s.keyRequest island h (.data 0 0xFF) else s
    (s.absentPath t leafNo).foldl (fun s e => s.fetchMeta island (.node t e.1 e.2) false 3) s
  | .found leaf =>
    if (s.holdPath t leafNo).pathHeld t leafNo = false then s.holdPath t leafNo
    else
    let s := done.holdPath t leafNo
    if leaf.minor (sec % 64) = 63 then
      let (f, s) := s.takeFloor t
      let new : Node := { major := f, minors := [] }
      let s := (s.modNode t 1 leafNo (fun _ => new)).modTree t (fun t => { t with leafWraps := sat64 t.leafWraps })
      s.tableStored h ((List.range 64).map (fun k => (64 * leafNo + k, new))) true
    else
      let new := leaf.setMinor (sec % 64) (leaf.minor (sec % 64) + 1)
      (s.modNode t 1 leafNo (fun _ => new)).tableStored h [(sec, new)]

/-- Writes what waits to be written of every table. -/
def State.tablesWritten (s : State) : State :=
  s.jobs.foldl (fun s e => e.2.keyPending.foldl (fun s sec => s.tableWrite e.1 sec) s) s

/-- An entry of a table sector was written: the sector is to be sealed again. -/
def State.tableTouch (s : State) (h sec : Nat) : State :=
  State.tableWrite (s.modJob h (fun j => { j with
    keyPending := if sec ∈ j.keyPending then j.keyPending else j.keyPending ++ [sec] })) h sec

/-- Every entry of the table sectors below a node becomes EXHAUSTED or OUTSIDE, and the sectors are sealed afresh (R224
step 5). -/
def State.tableReset (s : State) (h level index : Nat) (leaf : Node) : State :=
  let n := 64 ^ level
  let s := ((List.range (8 * n)).map (index * (8 * n) + ·)).foldl (fun s i =>
    let inRange := match s.job h with
      | some j => j.keyRanges.any (fun k => decide (k.base ≤ i) && decide (i < k.base + k.count))
      | none => false
    s.setEntry h i { s.entry h i with state := if inRange then .exhausted else .outside }) s
  (s.tableStored h ((List.range n).map (fun k => (index * n + k, leaf)))).modJob h (fun j => { j with
    keyLost := j.keyLost.filter (fun k => k / n != index) })

/-- The named node of a RESET_SUBTREE and all nodes below it. -/
def SubtreeRun.covers (r : SubtreeRun) (k : LineKey) : Bool :=
  match k with
  | .node t l i => t == r.tree && decide (l ≤ r.level) && i / 64 ^ (r.level - l) == r.index
  | _ => false

def State.setRun (s : State) (r : SubtreeRun) : State :=
  { s with mem := { s.mem with subtrees := s.mem.subtrees.map (fun (x : SubtreeRun) => if x.id = r.id then r else x) } }

/-- Writes a node of a RESET_SUBTREE to both copies, the fenced stacks' left out; how many writes that is. -/
def State.putNode (s : State) (r : SubtreeRun) (dk : Key) (lvl idx counter : Nat) (n : Node) : State × Nat :=
  let b := nodeStored dk r.tree lvl idx counter n
  let at_ := s.backCopies r.tree lvl idx
  (at_.foldl (fun s a => s.writeNode (s.treePooled r.tree) r.id a b) s, at_.length)

/-- Rewrites everything below a lost node, and the node, and asks for its parent's write-back (R224 steps 2 to 5); on a verify-lane
mismatch nothing is released (R23, R212). -/
def State.rewrite (s : State) (r : SubtreeRun) : State :=
  match s.treeOf r.tree, s.metaKey (s.treeHandle r.tree) with
  | none, _ => s
  | some (_, h), none => s.metaRefused h
  | some (t, h), some dk =>
    if s.laneOff then s.laneFound.hardFault 3 r.island else
    let (up, child) := (r.index / 64, r.index % 64)
    let (f, s) := s.takeFloor r.tree
    let s : State := { s with mem := { s.mem with lines := s.mem.lines.filter (fun (x : Line) => !r.covers x.key) } }
    let s := match s.nodeAt r.tree (r.level + 1) up with
      | .found p => if p.minor child = 63 then s.interiorWrap r.tree (r.level + 1) up else s
      | _ => s
    let s := s.modNode r.tree (r.level + 1) up (fun p => p.setMinor child (p.minor child + 1))
    let counter := match s.nodeAt r.tree (r.level + 1) up with | .found p => p.childCounter child | _ => 0
    let inner : Node := { major := f, minors := List.replicate 64 1 }
    let node (l : Nat) : Node := if l = 1 then { major := f, minors := [] } else inner
    let put (e : State × Nat) (l i : Nat) : State × Nat :=
      let (s, n) := e.1.putNode r dk l i (if l = r.level then counter else inner.childCounter (i % 64)) (node l)
      (s, e.2 + n)
    let (s, writes) := (List.range r.level).foldl (fun e d =>
      let l := d + 1
      let n := 64 ^ (r.level - l)
      ((List.range n).map (r.index * n + ·)).foldl (fun e i => if i < t.width l then put e l i else e) e) (s, 0)
    let s := if r.tree < 65536 then s else s.tableReset h r.level r.index (node 1)
    let s := s.setRun { r with started := true, writes := writes, since := s.now }
    if r.level < t.depth then s.askBack r.tree (r.level + 1) up else s

/-- Step 2 of RESET_SUBTREE may come: the parent is held, and where its minor for the node is 63, every child that its wrap needs
(R221), with room for those it holds afresh (R211); what is missing is fetched. -/
def State.rewriteDue (s : State) (r : SubtreeRun) : State :=
  let up := r.index / 64
  match s.nodeAt r.tree (r.level + 1) up with
  | .found p =>
    let s := s.holdPath r.tree (r.index * 64 ^ (r.level - 1))
    let root := match s.treeOf r.tree with | some (t, _) => decide (t.depth ≤ r.level) | none => true
    let wraps := decide (p.minor (r.index % 64) = 63)
    let missing := if wraps then
        (s.wrapMissing r.tree (r.level + 1) up).filter (fun e => e.2 != r.index) else []
    let room := if wraps then s.wrapRoom r.tree (r.level + 1) up else (true, s)
    if missing.isEmpty = false then s.fetchNodes r.island r.tree missing
    else if room.1 = false ∨ (root = false ∧ (s.nodeLine r.tree (r.level + 1) up).isNone) then room.2
    else room.2.rewrite r
  | .absent => s.fetchNodes r.island r.tree [(r.level + 1, up)]
  | .lost =>
    State.complete { s with mem := { s.mem with subtrees := s.mem.subtrees.filter (fun (x : SubtreeRun) => x.id != r.id) } }
      r.op .badState []

/-- RESET_SUBTREE's step 4: the write-back of the named node's parent is still under way; the root is never written. -/
def State.parentPending (s : State) (r : SubtreeRun) : Bool :=
  s.backAsked (.node r.tree (r.level + 1) (r.index / 64))
    || s.mem.lines.any (fun l => l.key == .node r.tree (r.level + 1) (r.index / 64) && l.writing != 0)

/-- RESET_SUBTREE ends once all that it wrote is accepted (R224 step 6): no node below the named one is lost any more. -/
def State.subtreesEnd (s : State) : State :=
  (s.mem.subtrees.filter (fun r => r.started && r.writes == 0 && !s.parentPending r)).foldl (fun s r =>
    let s : State := { s with mem := { s.mem with
      subtrees := s.mem.subtrees.filter (fun (x : SubtreeRun) => x.id != r.id) } }
    (s.notLost (r.covers)).complete r.op .done []) s

/-- The runs of RESET_SUBTREE go on: those that have read both copies rewrite, those that have written all end. -/
def State.subtreesRun (s : State) : State :=
  ((s.mem.subtrees.filter (fun r => r.reads == 0 && !r.started)).foldl (fun s r => s.rewriteDue r) s).subtreesEnd

/-- A copy read again by RESET_SUBTREE (R224 step 1), with its failure (0 for none).  Once both have come: a copy that verifies
repairs the other and ends the command; a line that the island holds of the node stays as it is. -/
def State.reread (s : State) (r : SubtreeRun) (copyB : Bool) (code : Nat) (b : Bytes) : State :=
  match r.first with
  | none => s.setRun { r with reads := r.reads - 1, first := some (copyB, code, b) }
  | some (copyB', code', b') =>
    if code ≠ 0 ∧ code' ≠ 0 then s.setRun { r with reads := 0 }
    else
      let good := if code = 0 then b else b'
      let s : State := { s with mem := { s.mem with
        subtrees := s.mem.subtrees.filter (fun (x : SubtreeRun) => x.id != r.id) } }
      let s := s.notLost (· == .node r.tree r.level r.index)
      let s := match s.nodeLine r.tree r.level r.index, parseNode good with
        | none, some n => s.putLine r.island (.node r.tree r.level r.index) (.node n)
        | _, _ => s
      let s := if code ≠ 0 then s.repairNode r.island r.tree r.level r.index copyB code good
        else if code' ≠ 0 then s.repairNode r.island r.tree r.level r.index copyB' code' good else s
      s.complete r.op .badState []

/-- A write of a RESET_SUBTREE was accepted. -/
def State.subtreeAccepted (s : State) (id : Nat) : State :=
  { s with mem := { s.mem with subtrees := s.mem.subtrees.map (fun (x : SubtreeRun) =>
      if x.id = id then { x with writes := x.writes - 1 } else x) } }

/-- A pass that neither a SUSPENDED region nor a reset of its partition holds (R225). -/
def State.passFree (s : State) (p : Pass) : Bool :=
  p.regions.all (fun k => (s.region k).state != .suspended)
    && (match s.job p.handle with | some j => (s.part j.partition).state != .resetting | none => true)

/-- PAUSED passes that nothing holds any more are RUNNING again. -/
def State.unpause (s : State) : State :=
  { s with courier := { s.courier with passes := s.courier.passes.map (fun (p : Pass) =>
      if p.state = .paused ∧ s.passFree p = true then { p with state := .running } else p) } }

/-- The writes that RESUME_REGION re-issued for a region and that are unacknowledged are outstanding no more. -/
def State.resumeStops (s : State) (n : Nat) : State :=
  (s.mem.resume.filter (fun x => x.region == n && x.suspended)).foldl (fun s x => x.writes.foldl (fun s w =>
    match s.writeIsland none true w.1 with
    | some i => s.maintained i x.since 0
    | none => s) s) s

/-- A suspended region whose re-issued writes are all acknowledged resumes (R233), unless its root has been lost (R223). -/
def State.resumed (s : State) (n : Nat) : State :=
  let r := s.region n
  if r.resumeOp.isNone ∨ r.tree.rootLost = true ∨ s.mem.resume.any (fun x => x.region == n && x.suspended) = true then s
  else
    let s := (s.modRegion n (fun r => { r with state := r.before, resumeOp := none })).unpause
    State.runBacks ((s.completeOpt r.resumeOp .done []).post 0x0607 .done (treeObject n r.handle 0) (treePayload 0 0 0 0) [r.handle])

/-- A tray acknowledges a re-issued write of a suspended region's record: the operation goes on from its recorded progress, and
with its last write the record is free and a node is clean (R233). -/
def State.resumeAck (s : State) (port nth id : Nat) : State :=
  match s.mem.resume.find? (fun x => x.op == id && x.suspended) with
  | none => s
  | some x =>
    if (s.region x.region).resumeOp.isNone then s
    else
    let s := s.maintained (islandP port) x.since (x.writes.getD (s.ackedWrite x port nth) (0, [])).2.length
    if x.writes.length ≤ 1 ∧ x.rest = [] then
      let s : State := { s with mem := { s.mem with resume := s.mem.resume.filter (fun (y : ResumeRec) => y.op != id) } }
      State.resumed (s.modLine (fun l => l.wid == id && l.writing != 0) (fun l => { l with writing := 0 })) x.region
    else s.recordAck none port nth id

/-- A fetched line is installed (R217): it is on its way until the cache has a place for it (R211). -/
def State.installed (s : State) (f : Fetch) (val : LineVal) : State :=
  let t := s.putLine f.island f.key val
  if (t.line f.island f.key).isSome then t.endFetches (fun x => x.id == f.id) else t

/-- Operations that wait for a sector of a key-index table that is unverifiable fail (R173). -/
def State.keySectorFails (s : State) (island h sec : Nat) : State :=
  s.failWaiting (fun o => o.island == island && (s.regionX o.region).handle == h && (s.regionX o.region).cls != .opened
    && o.keyIndex / 8 == sec) 0x0501 4

/-- A line lies below a node: a node's of the same tree, or a table sector's. -/
def LineKey.below (k : LineKey) (tree l i : Nat) : Bool :=
  match k with
  | .node t v x => t == tree && decide (v < l) && x / 64 ^ (l - v) == i
  | .keySector h sec => tableTree h == tree && sec / 64 ^ l == i
  | .frank _ _ => false

/-- A node cannot be had (R173, R223): operations below it fail, lines below it that have come back are not checked, and a
RESET_SUBTREE of a node below it ends, with BAD_STATE for a lost ancestor (R224). -/
def State.cutOff (s : State) (tree l i reason : Nat) : State :=
  let s := s.endFetches (fun f => f.got.isSome && f.key.below tree l i)
  let runs := s.mem.subtrees.filter (fun r => !r.started && LineKey.below (.node r.tree r.level r.index) tree l i)
  let s : State := { s with mem := { s.mem with
    subtrees := s.mem.subtrees.filter (fun (x : SubtreeRun) => !runs.any (fun r => r.id == x.id)) } }
  let s := runs.foldl (fun s r => s.complete r.op (if reason = 2 then .integrityLost else .badState) []) s
  s.failWaiting (fun o => o.below tree l i ((s.regionX o.region).handle) && (s.regionX o.region).cls != .opened) 0x0501 reason

/-- A copy of a node came back and has been checked (R215, R216): it is installed, the other copy repaired where that one failed
before it; or the other copy is read, or the node is lost.  NODE_LOST tells how the copy read last failed (DESIGN CHOICE, log 66). -/
def State.nodeCame (s : State) (f : Fetch) (tree l i : Nat) (good : Option Node) (code : Nat) (b : Bytes) : State :=
  match good with
  | some n =>
    let t := if (s.nodeLine tree l i).isSome then s.endFetches (fun x => x.id == f.id) else s.installed f (.node n)
    if (t.nodeLine tree l i).isNone then t
    else
      let t := t.notLost (· == f.key)
      if f.failed ≠ 0 then t.repairNode f.island tree l i (!f.copyB) f.failed b else t
  | none =>
    let s := s.endFetches (fun x => x.id == f.id)
    if f.failed ≠ 0 then (s.loseNode f.island tree l i code).cutOff tree l i (if 65536 ≤ tree then 4 else 3)
    else if s.lineFenced f.key (!f.copyB) then s.cutOff tree l i 2
    else (s.issueFetch f.island f.key (!f.copyB) f.ahead f.tc code).chargedLike f s.mem.nextId

/-- What came back for a fetch is used, if its parent is at hand (R214) and the cache has a place for it (R211); a metadata key that may
not be used verifies nothing (R165). -/
def State.settle (s : State) (f : Fetch) (b : Bytes) (ue : Bool) : State :=
  let rest := s.endFetches (fun x => x.id == f.id)
  match f.key with
  | .frank r line =>
    if (s.region r).state = .free then rest
    else if ue then
      rest.failWaiting (fun o => o.island == f.island && o.region == r && o.sector / 8 == line && o.reads
        && ((s.region r).cls != .fresh || rest.everSealed o)) 0x0501 2
    else
      s.installed f (.franks (f.franks.foldl (fun l e => l.set e.1 e.2)
        ((List.range 8).map (fun i => BitVec.ofNat 64 (field b (8 * i) 8)))))
  | .keySector h sec =>
    if (s.job h).isNone then rest
    else match s.nodeAt (tableTree h) 1 (sec / 64), s.schedule? (s.treeIsland (tableTree h)) h 0 0xFF with
    | .lost, _ => rest.keySectorFails f.island h sec
    | .absent, _ => s.fetchMeta (s.treeIsland (tableTree h)) (.node (tableTree h) 1 (sec / 64)) false f.tc
    | .found leaf, key =>
      if leaf.childZero (sec % 64) then s.installed f .keySector
      else match key with
      | none => s.keyRequest (s.treeIsland (tableTree h)) h (.data 0 0xFF)
      | some dk =>
        if ue = false ∧ tableGood dk h sec leaf b = true then
          let t := (s.modJob h (fun j => { j with keyLost := j.keyLost.filter (fun x => x != sec) })).installed f .keySector
          if (t.line f.island f.key).isSome then t.tableRec 0 (s.treeIsland (tableTree h)) h sec 1 else t
        else
          (rest.modJob h (fun j => { j with
            keyLost := if sec ∈ j.keyLost then j.keyLost else j.keyLost ++ [sec] })).keySectorFails f.island h sec
  | .node tree l i =>
    match s.nodeAt tree (l + 1) (i / 64) with
    | .lost =>
      (rest.mem.subtrees.filter (fun r => r.tree == tree && r.level == l && r.index == i && r.reads != 0)).foldl
        (fun s r => State.complete { s with mem := { s.mem with
          subtrees := s.mem.subtrees.filter (fun (x : SubtreeRun) => x.id != r.id) } } r.op .badState []) rest
    | .absent =>
      s.fetchMeta f.island (.node tree (l + 1) (i / 64)) false f.tc
    | .found p =>
      let h := s.treeHandle tree
      if p.childZero (i % 64) then rest
      else match s.schedule? f.island h 0 0xFF with
        | none => s.keyRequest f.island h (.data 0 0xFF)
        | some dk =>
          let good := verifyNode dk tree l i (p.childCounter (i % 64)) b ue
          let code := if good.isSome then 0 else if ue then 1 else 2
          if usableKey dk = false then rest.cutOff tree l i 4
          else match s.mem.subtrees.find? (fun r => r.tree == tree && r.level == l && r.index == i && r.reads != 0) with
          | some r => rest.reread r f.copyB code b
          | none => s.nodeCame f tree l i good code b

/-- Uses whatever has come back and can be used, top down, in at most `n` rounds. -/
def State.settleAll : Nat → State → State
  | 0, s => s.tablesWritten
  | n + 1, s =>
    State.settleAll n (s.mem.fetches.foldl (fun s f =>
      match s.mem.fetches.find? (fun x => x.id == f.id) with
      | some f => (match f.got with | some (b, ue) => s.settle f b ue | none => s)
      | none => s) s)

/-- A write of an operation, of a node's write-back or of a RESET_SUBTREE was accepted; what waited for room in the cache goes on. -/
def State.accepted (s : State) (island nth id : Nat) : State :=
  let s := match s.secOp id with
    | some o =>
      if o.island = island ∧ o.stage = .writing then
        if 1 < o.writes then (s.setOp { o with writes := o.writes - 1 }).recordAck o.port (island - 16) nth o.id else s.written o
      else s
    | none => (((s.upkeepAccepted island id).wipeAccepted island id).backAccepted island nth id).subtreeAccepted id
  ((State.settleAll 6 (State.evict island 0 16 s)).runBacks.subtreesRun).turn

/-- MEMORY_WRITE_ACCEPTED (R30, R212, R224): of a node's write-back, the stacks of both copies accept. -/
def State.memoryAccepted (s : State) (stack id : Nat) : State := s.accepted stack 0 id

/-- TRAY_WRITE_ACK (R189, R231, R233): of two writes of an operation still unacknowledged at a port, `nth` tells which. -/
def State.trayAck (s : State) (port nth id : Nat) : State :=
  ((s.count (islandP port) 5 (some 3) 64).resumeAck port nth id).accepted (islandP port) nth id

/-- A write under a resume record met a dead tray, or the region's root is lost: the region is SUSPENDED, with what it holds (R223,
R232). -/
def State.suspend (s : State) (n : Nat) : State :=
  let r := s.region n
  if r.state = .suspended then s
  else
    let s := s.modRegion n (fun r => { r with before := r.state, state := .suspended })
    let resume := s.mem.resume.map (fun (x : ResumeRec) => if x.region = n then { x with suspended := true } else x)
    let mine := s.mem.ops.filter (fun o => o.region == n)
    let s : State := { s with mem := { s.mem with resume := resume } }
    let s := mine.foldl (fun s o => (s.dropOp o.id).pieceDone o.req (fun q => q.fail .targetDead 0 0)) s
    let passes := s.courier.passes.map (fun (p : Pass) =>
      if n ∈ p.regions ∧ p.state = .running then { p with state := .paused } else p)
    let s : State := { s with courier := { s.courier with passes := passes } }
    s.post 0x0606 .targetDead (treeObject n r.handle 0) (treePayload 0 0 0 0) [r.handle]

/-- A RESUME_REGION that runs while its region's root is lost ends, and the region stays SUSPENDED (R223). -/
def State.resumeFails (s : State) (n : Nat) : State :=
  match (s.region n).resumeOp with
  | none => s
  | some id =>
    ((s.resumeStops n).modRegion n (fun r => { r with resumeOp := none })).complete id .integrityLost []

/-- Verifying a line found an uncorrectable SRAM error in the root of its tree (R223): operations below fail, and a region is
SUSPENDED. -/
def State.rootFails (s : State) (key : LineKey) : State :=
  let tree := match key with
    | .node t _ _ => t
    | .keySector h _ => tableTree h
    | .frank n _ => n
  match s.treeOf tree with
  | none => s
  | some (t, _) =>
    let s := (s.loseRoot tree).cutOff tree (t.depth + 1) 0 (if 65536 ≤ tree then 4 else 3)
    if tree < 65536 then (s.resumeFails tree).suspend tree else s

/-- METADATA_FETCH_RETURN (R214); its check may meet an uncorrectable SRAM error in the root. -/
def State.metaReturn (s : State) (island id : Nat) (b : Bytes) (ue rootError : Bool) : State :=
  match s.mem.fetches.find? (fun f => f.id == id && f.island == island && f.got.isNone) with
  | none => s
  | some f =>
    let s := if rootError then s.rootFails f.key else s
    let s := if 16 ≤ island then s.count island 5 (some f.tc) (64 + b.length) else s
    let fetches := s.mem.fetches.map (fun (x : Fetch) => if x.id = f.id then { x with got := some (b, ue) } else x)
    ((State.settleAll 6 { s with mem := { s.mem with fetches := fetches } }).runBacks.subtreesRun).turn

/-- Room is made for a key schedule in an island's cache (R211): whether there is room now. -/
def State.scheduleRoom (s : State) (island : Nat) : Bool × State :=
  let s := State.evict island Config.scheduleLines 16 s
  (s.hasRoom island Config.scheduleLines, s)

/-- KEY_DELIVERED of a data key (R99, R165): the island expands it, and what waited for it goes on. -/
def State.dataKeyDelivered (s : State) (r : KeyReq) (index gen : Nat) : State :=
  match tget s.kv.jobRoots r.handle with
  | none => s
  | some root =>
    let k : Schedule := { island := r.island, handle := r.handle, index := index, gen := gen,
                          key := dataKey root.jrk index gen, lastUse := s.now }
    ((State.settleAll 6 { s with kv := { s.kv with schedules := s.kv.schedules ++ [k] } }).runBacks.subtreesRun).turn

/-- WC_WINDOW_EXPIRED (R179 rule 5). -/
def State.windowExpired (s : State) (island region sector : Nat) : State :=
  match s.wcEntry region sector with
  | some e =>
    if e.island = island ∧ e.first + (s.region region).wcWindow * 4 ≤ s.now then (s.flushEntry e).turn else s
  | none => s

/-- Sends every buffer entry that meets a condition to its path (R179 rule 6). -/
def State.flushWhere (s : State) (p : WcEntry → Bool) : State :=
  ((s.mem.wc.filter p).foldl (fun s e => s.flushEntry e) s).turn

/-! ### Leaf wraps (R220, R222) -/

/-- Wraps of an island that run, in their order: those at their writes, and of those that have not begun the first that make them
eight. -/
def State.wrapsOf (s : State) (island : Nat) : List SecOp :=
  let writing := (s.mem.ops.filter (fun o => o.island == island && o.group)).length
  (s.mem.ops.filter (fun o => o.island == island && o.stage == .wrapping)).take (8 - writing)

/-- The sectors of a leaf group. -/
def State.leafGroup (s : State) (region leaf : Nat) : List Nat :=
  ((List.range 64).map (leaf * 64 + ·)).filter (fun k => decide (k < (s.region region).sectors))

/-- Seals one sector of a wrapped leaf group: its new plaintext, none when it does not open. -/
def State.wrapPlain (s : State) (o : SecOp) (leaf : Node) (k : Nat) (d : SectorData) : Option Bytes :=
  let r := s.regionX o.region
  if k = o.sector then some (mergeBytes o.bytes (zeros r.sector))
  else if leaf.childZero (k % 64) then some (zeros r.sector)
  else if d.ue then none
  else
    let frank := s.storedFrank { o with sector := k } d
    ((s.openGens o.region r.handle k o.keyIndex).filterMap (fun g =>
      match s.schedule? o.island r.handle o.keyIndex g with
      | some dk =>
        let v := versionOf r.cls leaf k
        let lbn := lbnOf o.region r k
        if usableKey dk = true ∧ frankOf dk lbn v d.bytes = frank then some (xtsDecrypt dk lbn v d.bytes) else none
      | none => none)).head?

/-- A leaf whose counter would wrap is sealed again at a new major (R220): every sector of it is opened under the old leaf
and sealed under the new one, and the operations that waited go on once its writes are accepted.  On a tray one sector's writes
follow another's (R231). -/
def State.wrapLeaf (s : State) (island region leaf : Nat) (data : List SectorData) (o : SecOp) (old : Node) (dk : Key) : State :=
  let r := s.region region
  let e := s.entry r.handle o.keyIndex
  let (f, s) := s.takeFloor region
  let new : Node := { major := f, minors := [] }
  let s := s.modNode region 1 leaf (fun _ => new)
  let s := s.modTree region (fun t => { t with leafWraps := sat64 t.leafWraps })
  let s := s.setOp { o with stage := .writing, since := s.now, group := true }
  let step (acc : State × List (Nat × Bytes)) (k : Nat) : State × List (Nat × Bytes) :=
    match acc.1.wrapPlain o old k (data.getD (k % 64) { bytes := [], frank := 0, flags := [true] }) with
    | some pt =>
      let (s, w) := (acc.1.sectorRec { o with sector := k } 5 (8 * (k % 64))).writeSealed o k dk (versionOf r.cls new k) pt r.pooled
      (s.countSeals r.handle o.keyIndex 1, acc.2 ++ w)
    | none =>
      let s := acc.1.modTree region (fun t => { t with wrapLost := sat64 t.wrapLost })
      (s.post 0x0603 .integrityLost (treeObject region r.handle 0)
        (treePayload (lbnOf region r k) o.keyIndex e.gen 0) [r.handle], acc.2)
  let (s, w) := (s.leafGroup region leaf).foldl step (s, [])
  let s := if r.pooled then
      (w.take 2).foldl (fun s e => s.writeTo o.port true o.id e.1 e.2) (s.takeResume island region o.id w)
    else s
  let s := (s.setOp { o with stage := .writing, writes := if r.pooled then w.length else 1, issued := w, since := s.now,
                             group := true }).maintain island ((s.leafGroup region leaf).length * r.sector)
  let again := s.mem.ops.map (fun (x : SecOp) =>
    if x.region = region ∧ x.sector / 64 = leaf ∧ x.stage = .wrapping
    then { x with stage := .waiting, kind := .full } else x)
  State.turn { s with mem := { s.mem with ops := again } }

/-- LEAF_WRAP (R220): the whole leaf group is sealed afresh under a new major counter, once the slots of its sectors are free, the
schedules that its sectors may need are there, room for the leaf's path, and on a tray a resume record.  A key whose last seals the wrap would overrun seals
nothing more (R225; DESIGN CHOICE, log 55). -/
def State.leafWrap (s : State) (island region leaf : Nat) (data : List SectorData) : State :=
  match (s.wrapsOf island).find? (fun o => o.region == region && o.sector / 64 == leaf) with
  | none => s
  | some o =>
    let r := s.region region
    let e := s.entry r.handle o.keyIndex
    let group := s.leafGroup region leaf
    let gens := ((group.flatMap (fun k => s.openGens region r.handle k o.keyIndex)) ++ [e.gen]).eraseDups
    let wanted := gens.filter (fun g => (s.schedule? island r.handle o.keyIndex g).isNone)
    let busy := s.mem.ops.any (fun x => x.region == region && x.sector / 64 == leaf
      && (x.stage == .reading || x.stage == .writing))
    if busy = true ∨ (r.pooled = true ∧ s.resumeRoom island = false) then s
    else if 2 ^ 34 < e.seals + group.length then (s.refuseKey o 5).turn
    else if wanted.isEmpty = false then wanted.foldl (fun s g => s.keyRequest island r.handle (.data o.keyIndex g)) s
    else match s.nodeAt region 1 leaf, s.schedule? island r.handle o.keyIndex e.gen with
      | .found old, some dk =>
        let held := s.holdPath region leaf
        if usableKey dk = false then (s.failOp o 0x0501 4).turn
        else if s.laneOff then s.laneMismatch o
        else if held.pathHeld region leaf = false then held.runBacks
        else held.wrapLeaf island region leaf data o old dk
      | _, _ => s

end Machine
end Sys2Proof
end

