-- ==== Sys2Proof/Machine/SectorCommands.lean ====
section
/-!
DEFINITION. Machine/SectorCommands.lean: zeroing, retirement of key indices, courier passes, and the commands 0x05xx and
0x06xx (R174, R175, R194 to R199, R224 to R238).
-/

namespace Sys2Proof
namespace Machine

/-! ### Who may name what (R194, R234) -/

/-- The letterbox may name a region. -/
def State.ownRegion (s : State) (c : Cmd) (field : Nat) : Bool :=
  let n := field % 16384
  decide (c.lb < 2) || (match s.job (s.region n).handle with
    | some j => (s.region n).state != .free && j.letterbox == some c.lb
    | none => false)

/-- The letterbox may name a job. -/
def State.ownNumber (s : State) (c : Cmd) (number : Nat) : Bool :=
  decide (c.lb < 2) || (match s.named number with
    | some (_, j) => j.letterbox == some c.lb
    | none => false)

/-- The fields of a command that names one region. -/
def regionParams (c : Cmd) : List (Nat × Bool) := [(64, decide (c.arg 0 2 < 16384)), zeroAt c 2 6]

/-- The fields of a command that names a job and a key index. -/
def indexParams (c : Cmd) : List (Nat × Bool) := [(68, decide (c.arg 4 4 < 2 ^ 20))]

/-! ### REGION_STATUS (R160, R161, R195) -/

/-- Region state codes (R159). -/
def RegState.code : RegState → Nat
  | .free => 0 | .loading => 1 | .active => 2 | .sealed => 3 | .rekeying => 4 | .suspended => 5 | .closing => 6

/-- The control word (R161). -/
def Region.control (r : Region) : Nat :=
  2 ^ 60 * r.state.code + 2 ^ 58 * r.cls.code + 2 ^ 56 * (if r.cls = .opened then 0 else (r.sectorLog - 6) / 2)
    + 2 ^ 55 * flag r.pooled + 2 ^ 40 * r.handle + 2 ^ 20 * r.keyFirst + r.keyLast

/-- The 128-byte entry (R160). -/
def Region.bytes (r : Region) : Bytes :=
  enc [(8, r.control), (8, r.base), (8, r.size), (8, r.base + r.size),
       (8, if r.cls = .fresh then r.tree.copyA else 0), (8, if r.cls = .fresh then r.tree.copyB else 0),
       (8, match r.courier with
           | some c => 2 ^ 44 * c.index + 2 ^ 36 * c.gen + c.watermark
           | none => 0), (4, r.wcWindow), (4, 0)]
    ++ (if r.cls = .fresh then nodeBytes r.tree.root ++ le 8 r.tree.floor else zeros 64)

/-- The body of REGION_STATUS (R195). -/
def Region.statusBody (r : Region) : Bytes :=
  r.bytes ++ enc [(8, r.unverifiable), (8, r.merges), (8, r.mergesLost), (4, r.combined), (4, r.suppressed)]

def hRegionStatus : Handler where
  manager := false
  service := true
  length := exactly 8
  allowed s c := s.ownRegion c (c.arg 0 2)
  params _ c := regionParams c
  run s c :=
    let r := s.region (c.arg 0 2)
    if r.state = .free then refuse .badState else answerWith s r.statusBody

/-! ### SEAL_REGION (R196) -/

/-- Completes the SEAL_REGION of each region that has no write and no buffer entry left. -/
def State.sealsEnd (s : State) : State :=
  s.regions.foldl (fun s e =>
    match e.2.sealOp with
    | none => s
    | some id =>
      if s.mem.ops.any (fun o => o.region == e.1 && o.kind != .read) ∨ s.mem.wc.any (fun w => w.region == e.1) then s
      else (s.modRegion e.1 (fun r => { r with sealOp := none })).complete id .done [(8, (s.region e.1).mergesLost)]) s

def hSealRegion : Handler where
  manager := false
  service := true
  length := exactly 8
  allowed s c := s.ownRegion c (c.arg 0 2)
  params _ c := regionParams c
  run s c :=
    let n := c.arg 0 2
    let r := s.region n
    if r.state ≠ .loading ∨ r.cls ≠ .weights then refuse .badState
    else .accept [] (some (r.wcWindow / 1000 + 20)) (fun id s =>
      (s.modRegion n (fun r => { r with state := .sealed, sealOp := some id })).flushWhere (fun e => e.region == n))

/-! ### SET_WC_WINDOW (R194) -/

def hSetWcWindow : Handler where
  manager := false
  service := true
  length := exactly 8
  allowed s c := s.ownRegion c (c.arg 0 2)
  params _ c := [(64, decide (c.arg 0 2 < 16384)), zeroAt c 2 2, (68, decide (c.arg 4 4 ≤ 10000))]
  run s c :=
    let n := c.arg 0 2
    let r := s.region n
    if r.state = .free ∨ r.state = .sealed ∨ r.state = .closing ∨ r.cls = .opened then refuse .badState
    else doneWith ((s.modRegion n (fun r => { r with wcWindow := c.arg 4 4 })).flushWhere (fun e => e.region == n))

/-! ### ZERO_SECTORS (R197) -/

/-- A retirement of an index is in progress (R174). -/
def State.retiring (s : State) (h i : Nat) : Bool :=
  s.courier.retirements.any (fun r => r.handle == h && r.index == i)
    || (match s.job h with
        | some j => j.removing.any (fun k => decide (k.base ≤ i) && decide (i < k.base + k.count))
        | none => false)

/-- A node above a table sector has been found lost and is on no list: its copies are read again for each request below it (R223). -/
def State.entryUnlisted (s : State) (h i : Nat) : Bool := s.pathUnlisted (tableTree h) (i / 8 / 64)

/-- The table's island holds the sector of an entry. -/
def State.entryHeld (s : State) (h i : Nat) : Bool := (s.line (s.treeIsland (tableTree h)) (.keySector h (i / 8))).isSome

/-- A stack that the fetch of a table sector would have to reach is fenced (R424). -/
def State.entryFenced (s : State) (h i : Nat) : Bool :=
  ((s.treeIsland (tableTree h), LineKey.keySector h (i / 8)) :: s.tableNeeds h i).any (fun e =>
    s.lineFenced e.2 (s.copyBFirst e.2))

/-- The fetch of a table sector that the CP asked for has ended without it: it, or a node above it, could not be had. -/
def State.entryGone (s : State) (h i : Nat) : Bool :=
  s.sniby.entryRead == some (h, i / 8) && !s.mem.fetches.any (fun f => f.key == .keySector h (i / 8)
    || (s.entryUnlisted h i && (s.tableNeeds h i).any (fun e => e.2 == f.key)))

/-- The entry's sector is at hand, and what is above it has not been found lost. -/
def State.entryAtHand (s : State) (h i : Nat) : Bool := s.entryHeld h i && !s.entryUnlisted h i

/-- The entry's sector is unverifiable (R173, R198, R223): it failed its check, lies below a lost node, or cannot be had. -/
def State.entryLost (s : State) (h i : Nat) : Bool :=
  (match s.job h with | some j => decide (i / 8 ∈ j.keyLost) | none => false)
    || s.nodeAt (tableTree h) 1 (i / 8 / 64) == .lost
    || (!s.entryAtHand h i && (s.entryFenced h i || s.entryGone h i))

/-- The fetch of a table sector, and of what is missing above it, for the control processor: through the table's memory island. -/
def State.readEntry (s : State) (h i : Nat) : State :=
  let island := s.treeIsland (tableTree h)
  let s : State := { s with sniby := { s.sniby with entryRead := some (h, i / 8) } }
  s.fetchAll h ((island, .keySector h (i / 8)) :: s.tableNeeds h i) false 3

/-- The key index may seal the region as for a tile write (R163, R173, R174, R226). -/
def State.sealable (s : State) (n i : Nat) : Bool :=
  let r := s.region n
  if r.cls = .opened then i == 0
  else decide (r.keyFirst ≤ i) && decide (i ≤ r.keyLast) && (s.entry r.handle i).state == .live
    && !atLimit (s.entry r.handle i) && !s.entryLost r.handle i && !s.retiring r.handle i

/-- The region's state takes ZERO_SECTORS. -/
def Region.zeroable (r : Region) : Bool := r.state == .loading || r.state == .active || r.state == .rekeying

/-- Ends a run of ZERO_SECTORS. -/
def State.zeroEnd (s : State) (z : ZeroRun) (st : Status) : State :=
  let runs := s.mem.zeroRuns.filter (fun (x : ZeroRun) => x.op != z.op)
  State.complete { s with mem := { s.mem with zeroRuns := runs } } z.op st [(8, z.written)]

/-- A check of a key index against a region needs the index's entry, which the table's island is still to fetch (R173). -/
def State.entryAwaited (s : State) (n i : Nat) : Bool :=
  let r := s.region n
  r.cls != .opened && decide (r.keyFirst ≤ i) && decide (i ≤ r.keyLast) && !s.entryAtHand r.handle i && !s.entryLost r.handle i

/-- A region's tray takes nothing new: it has no route, it is revoked, or this node is isolated (R289, R304, R432). -/
def State.trayCut (s : State) (r : Region) : Bool :=
  r.pooled && ((s.routePort (r.base / 2 ^ 48)).isNone || decide (r.base / 2 ^ 48 ∈ s.assocs.revoked) || s.fault.isolated)

/-- The next sector of a run of ZERO_SECTORS, or its end; a tray that takes nothing ends it as a dead target (DEDUCED, log 22). -/
def State.zeroNext (s : State) (op : Nat) : State :=
  match s.mem.zeroRuns.find? (fun z => z.op == op) with
  | none => s
  | some z =>
    let r := s.region z.region
    if z.squash then s.zeroEnd z .squashed
    else if z.stop ≤ z.next then s.zeroEnd z .done
    else if s.trayCut r then s.zeroEnd z .targetDead
    else
      let runs := s.mem.zeroRuns.map (fun (x : ZeroRun) => if x.op = op then { x with next := x.next + 1 } else x)
      State.submit { s with mem := { s.mem with zeroRuns := runs } }
        { origin := .zero op, kind := .write, ctx := none, keyIndex := z.keyIndex, region := z.region,
          address := r.sectorAddress z.next, length := r.sector, tc := 3, master := some 257,
          bytes := List.replicate r.sector (some 0) }

/-- A sector of a run has been written, or could not be: a failure ends the run with its status (DEDUCED, log 22). -/
def State.zeroDone (s : State) (op : Nat) (failure : Option (Status × Nat × Nat)) : State :=
  match s.mem.zeroRuns.find? (fun z => z.op == op) with
  | none => s
  | some z =>
    match failure with
    | some f => s.zeroEnd z f.1
    | none =>
      let runs := s.mem.zeroRuns.map (fun (x : ZeroRun) => if x.op = op then { x with written := x.written + 1 } else x)
      State.zeroNext { s with mem := { s.mem with zeroRuns := runs } } op

/-- ZERO_SECTORS: what depends on the region is judged at step 12 of R46, on the entry that the table's island holds or fetches. -/
def hZeroSectors : Handler where
  manager := false
  service := true
  length := exactly 24
  allowed s c := s.ownRegion c (c.arg 0 2)
  params _ c := [(64, decide (c.arg 0 2 < 16384)), zeroAt c 2 2, (68, decide (c.arg 4 4 < 2 ^ 20)), (80, decide (1 ≤ c.arg 16 8))]
  run s c :=
    let n := c.arg 0 2
    let i := c.arg 4 4
    if (s.region n).zeroable = false then refuse .badState
    else if s.entryAwaited n i then .wait (s.readEntry (s.region n).handle i)
    else if s.sealable n i = false then badField 68
    else if (s.region n).sectors < c.arg 8 8 + c.arg 16 8 then badField 80
    else .accept [] none (fun id s =>
      let z : ZeroRun := { op := id, region := n, keyIndex := c.arg 4 4, next := c.arg 8 8, stop := c.arg 8 8 + c.arg 16 8,
                           written := 0, squash := false, lb := c.lb }
      State.zeroNext { s with mem := { s.mem with zeroRuns := s.mem.zeroRuns ++ [z] } } id)

/-! ### Courier passes (R225 to R230) -/

/-- The regions of a pass: those of the job's sealed regions whose key indices include the index (R227). -/
def State.passRegions (s : State) (h i : Nat) : List Nat :=
  (s.regions.filter (fun e => e.2.state != .free && e.2.handle == h && e.2.cls != .opened
    && decide (e.2.keyFirst ≤ i) && decide (i ≤ e.2.keyLast))).map (·.1)

/-- A region's walk ends: its courier field is zero, and REKEYING returns to ACTIVE. -/
def Region.walkEnds (r : Region) : Region :=
  { r with courier := none, state := if r.state = .rekeying then .active else r.state,
           before := if r.before = .rekeying then .active else r.before }

/-- Abandons what the courier has of an index: its pass and its place in the armed queue (R175, R225). A START_COURIER of it
completes SQUASHED (DESIGN CHOICE, log 66). -/
def State.abandon (s : State) (h i : Nat) : State :=
  let ops := (s.courier.armed.filter (fun a => a.1 == h && a.2.1 == i)).flatMap (·.2.2)
    ++ (s.courier.passes.filter (fun p => p.handle == h && p.index == i)).flatMap (·.ops)
  let s := (s.courier.passes.filter (fun p => p.handle == h && p.index == i)).foldl (fun s p =>
    p.regions.foldl (fun s n => s.modRegion n Region.walkEnds) s) s
  let s : State := { s with courier := { s.courier with
    armed := s.courier.armed.filter (fun a => !(a.1 == h && a.2.1 == i)),
    passes := s.courier.passes.filter (fun (p : Pass) => !(p.handle == h && p.index == i)) } }
  ops.foldl (fun s id => s.complete id .squashed []) s

/-- A written entry: the cached copies of its table sector leave the islands (R174 step 6, R227 step 3), and the sector
is sealed again. -/
def State.uncacheEntry (s : State) (h i : Nat) : State :=
  State.tableTouch
    { s with mem := { s.mem with lines := s.mem.lines.filter (fun (l : Line) => l.key != .keySector h (i / 8)) } } h (i / 8)

/-- A pass ends: KV purges the old generation, and the commands that started it complete (R229). -/
def State.passEnd (s : State) (p : Pass) : State :=
  let s := s.purgeIndex p.handle p.index (p.gen - 1)
  let s : State := { s with
    courier := { s.courier with passes := s.courier.passes.filter (fun (q : Pass) =>
      !(q.handle == p.handle && q.index == p.index)) },
    mem := { s.mem with passesEnded := sat64 s.mem.passesEnded } }
  let s := s.post 0x0605 .done (treeObject 65536 p.handle 0) (treePayload 0 p.index p.gen 0) [p.handle]
  p.ops.foldl (fun s id => s.complete id .done []) s

/-- Passes whose earlier seals have completed become RUNNING, or PAUSED where something holds them (R225, R227 steps 4 and 5); one
that covers no region ends at once. -/
def State.passesRun (s : State) : State :=
  s.courier.passes.foldl (fun s p =>
    if p.state = .starting ∧ p.waits.all (fun id => (s.secOp id).isNone) = true then
      let st : PassState := if s.passFree p then .running else .paused
      let passes := s.courier.passes.map (fun (q : Pass) =>
        if q.handle = p.handle ∧ q.index = p.index then { q with state := st, waits := [] } else q)
      let s := State.post { s with courier := { s.courier with passes := passes } } 0x0604 .done (treeObject 65536 p.handle 0)
        (treePayload 0 p.index p.gen 0) [p.handle]
      if p.regions.isEmpty then s.passEnd p else s
    else s) s

/-- COURIER_PASS_START (R227): the head of the armed queue starts, when its regions and the passes allow.  An index whose entry is no
longer LIVE stays at the head, and no other starts before it (DESIGN CHOICE, log 66). -/
def State.passStart (s : State) : State :=
  match s.courier.armed with
  | [] => s
  | (h, i, ops) :: rest =>
    let e := s.entry h i
    let regions := s.passRegions h i
    if 64 ≤ s.courier.passes.length
        ∨ regions.any (fun n => (s.region n).courier.isSome || (s.region n).state == .suspended) = true
        ∨ e.state ≠ .live ∨ e.gen = 0xFE then s
    else
      let g := e.gen + 1
      let s := regions.foldl (fun s n => s.modRegion n (fun r => { r with
        courier := some { index := i, gen := g, watermark := 0 },
        state := if r.state = .active then .rekeying else r.state })) s
      let s := (s.setEntry h i { gen := g, state := .live, seals := 0 }).uncacheEntry h i
      let waits := (s.mem.ops.filter (fun o => o.keyIndex == i && (s.regionX o.region).handle == h
        && (o.stage == .writing || o.stage == .wrapping))).map (·.id)
      let p : Pass := { handle := h, index := i, gen := g, state := .starting, regions := regions, ops := ops,
                        waits := waits }
      State.passesRun { s with courier := { s.courier with
        armed := rest, passes := s.courier.passes ++ [p],
        limitPosted := s.courier.limitPosted.filter (fun x => x != (h, i)) } }

/-- A region's walk has ended, and with the last one its pass (R229). -/
def State.walkEnd (s : State) (p : Pass) (n : Nat) : State :=
  let s := s.modRegion n Region.walkEnds
  let left := p.regions.filter (fun k => k != n)
  if left.isEmpty then s.passEnd p
  else
    let passes := s.courier.passes.map (fun (q : Pass) =>
      if q.handle = p.handle ∧ q.index = p.index then { q with regions := left } else q)
    { s with courier := { s.courier with passes := passes } }

/-- A region's walk may go on: its pass is RUNNING, its partition takes traffic, and a walker of its island is free. -/
def State.walks (s : State) (p : Pass) (n : Nat) : Bool :=
  let r := s.region n
  let island := (s.regionIsland r).getD 16
  let walking := (s.courier.passes.filter (fun q => q.state == .running)).flatMap (fun q =>
    q.regions.filter (fun k => (s.regionIsland (s.region k)).getD 16 == island))
  let resetting := match s.job r.handle with
    | some j => (s.part j.partition).state == .resetting
    | none => true
  p.state == .running && !resetting && !(decide (island < 16) && decide (island ∈ s.fault.stacksFenced)) && decide (n ∈ walking.take (if island < 16 then 4 else 2))

/-- The pass goes past a sector (R229, R230). -/
def State.passStep (s : State) (n k : Nat) : State :=
  s.modRegion n (fun r => { r with courier := r.courier.map (fun c => { c with watermark := k + 1 }) })

/-- The walk of a region has passed its last sector, and released its slot. -/
def State.walked (s : State) (n : Nat) : Bool :=
  (match (s.region n).courier with | some c => decide ((s.region n).sectors ≤ c.watermark) | none => false)
    && !s.mem.ops.any (fun o => o.region == n && o.kind == .courier)

/-- The walks of RUNNING passes that have come to their end. -/
def State.walksEnd (s : State) : State :=
  (s.courier.passes.flatMap (fun p => p.regions)).foldl (fun s n =>
    match s.courier.passes.find? (fun p => p.state == .running && decide (n ∈ p.regions)) with
    | some p => if s.walked n then s.walkEnd p n else s
    | none => s) s

/-- The operation of a pass on one sector. -/
def State.passOp (s : State) (n k island index : Nat) : SecOp :=
  let r := s.region n
  { id := s.mem.nextId, req := 0, island := island, region := n, sector := k, kind := .courier, stage := .writing,
    keyIndex := index, ctx := none, tc := 3, off := 0, len := r.sector, bytes := [], atomicOp := 0, operand := 0,
    compare := 0, result := 0, retried := false, writes := if r.pooled then 2 else 1, issued := [], looked := none,
    got := none, since := s.now, entered := s.now }

/-- The courier's internal master takes a sector of an island that it walks: TC3 BULK (R230, R369). -/
def State.walkedOn (s : State) (r : Region) (island : Nat) : Nat × State :=
  s.charge none 256 3 (if island < 16 then 0 else 1) (if island < 16 then island else island - 16) r.sector none

/-- A sector that opened under the old key is sealed under the new one, and written back (R229). -/
def State.passSector (s : State) (n k island level : Nat) (c : CourierField) (plain : Bytes) (new : Key) (v : Nat) : State :=
  let r := s.region n
  let o := { s.passOp n k island c.index with level := level }
  let s := s.addOp o none
  let s := s.sectorRec o 6
  let (s, w) := s.writeSealed o k new v plain
  let s := if r.pooled then s.takeResume island n o.id w else s
  State.passStep ((s.setOp { o with issued := w }).countSeals r.handle c.index 1) n k

/-- COURIER_STEP (R229): the sector at the watermark, once nothing on it is before it (R28), is opened under g and sealed under g + 1,
or left as it is.  A key that has made
all its seals lets the walk go no further (R225; DESIGN CHOICE, log 55), nor does an isolated node's walk over a tray (R432; DESIGN
CHOICE, log 79). -/
def State.courierStep (s : State) (n : Nat) (d : SectorData) : State :=
  let r := s.region n
  match r.courier, s.courier.passes.find? (fun p => decide (n ∈ p.regions) && s.walks p n) with
  | some c, some _ =>
    let h := r.handle
    let k := c.watermark
    let island := (s.regionIsland r).getD 16
    let busy := s.mem.ops.any (fun o => o.region == n && (o.sector == k
      || ((o.stage == .wrapping || o.group) && o.sector / 64 == k / 64)))
    let leaf := if r.cls = .fresh then s.nodeAt n 1 (k / 64) else .found {}
    if r.sectors ≤ k ∨ busy = true ∨ (r.pooled = true ∧ (s.resumeRoom island = false ∨ s.fault.isolated = true)) ∨ (r.pooled = true ∧ (s.regionIsland r).isNone)
        ∨ atLimit (s.entry h c.index) = true then s
    else
      let step (s : State) : State := s.passStep n k
      match leaf with
      | .absent => s.fetchAll h ((s.absentPath n (k / 64)).map (fun e => (island, .node n e.1 e.2))) false 3
      | .lost => step s
      | .found leaf =>
        if r.cls = .fresh ∧ leaf.childZero (k % 64) = true then step s
        else match s.schedule? island h c.index (c.gen - 1), s.schedule? island h c.index c.gen with
          | some old, some new =>
            let v := versionOf r.cls leaf k
            let lbn := lbnOf n r k
            if d.ue = true ∨ usableKey old = false ∨ usableKey new = false
                ∨ frankOf old lbn v d.bytes ≠ s.storedFrank (s.passOp n k island c.index) d
            then step ((s.walkedOn r island).2.walkedOff island s.now r.sector (s.walkedOn r island).1)
            else if s.laneOff then s.laneFound.hardFault 3 island
            else
              (s.walkedOn r island).2.passSector n k island (s.walkedOn r island).1 c (xtsDecrypt old lbn v d.bytes) new v
          | a, b =>
            let s := if a.isNone then s.keyRequest island h (.data c.index (c.gen - 1)) else s
            if b.isNone then s.keyRequest island h (.data c.index c.gen) else s
  | _, _ => s

/-! ### RETIRE_KEY_INDEX (R174, R175) -/

/-- Steps 1 and 2 of R174, and what R175 says of the commands that meet a retirement. -/
def State.retireStart (s : State) (h i : Nat) (op : Option Nat) : State :=
  let mine (n : Nat) : Bool := (s.region n).handle == h && (s.region n).cls != .opened
  let waits := (s.mem.reqs.filter (fun q => q.handle == h)).map (·.id)
  let r : Retirement := { handle := h, index := i, op := op, waits := waits, since := s.now }
  let s : State := { s with
    courier := { s.courier with retirements := s.courier.retirements ++ [r] },
    mem := { s.mem with
      wc := s.mem.wc.filter (fun (e : WcEntry) => !(mine e.region && e.keyIndex == i)),
      zeroRuns := s.mem.zeroRuns.map (fun (z : ZeroRun) =>
        if mine z.region = true ∧ z.keyIndex = i then { z with squash := true } else z) } }
  s.abandon h i

/-- Steps 3 to 7 are due: what was accepted before step 1 has completed. -/
def State.retireDue (s : State) (r : Retirement) : Bool :=
  r.waits.all (fun id => !s.mem.reqs.any (fun q => q.id == id) && !s.remote.reqs.any (fun q => q.req == id))
    && !s.mem.ops.any (fun o => o.keyIndex == r.index && (s.regionX o.region).handle == r.handle
          && (s.regionX o.region).cls != .opened)

/-- A range without one of its indices. -/
def KeyRange.without (k : KeyRange) (i : Nat) : List KeyRange :=
  if k.base ≤ i ∧ i < k.base + k.count then
    [{ base := k.base, count := i - k.base }, { base := i + 1, count := k.base + k.count - (i + 1) }].filter
      (fun (x : KeyRange) => x.count != 0)
  else [k]

/-- An index that RESIZE_JOB removed has been retired; with the last one the resize completes (R155). -/
def State.removed (s : State) (h i : Nat) : State :=
  match s.job h with
  | none => s
  | some j =>
    let left := j.removing.flatMap (·.without i)
    if left = j.removing then s
    else if left.isEmpty = true ∧ j.state = .resizing then
      (s.modJob h (fun j => { j with removing := [], state := .active, resizeOp := none })).completeOpt j.resizeOp .done []
    else s.modJob h (fun j => { j with removing := left })

/-- Steps 4 to 7 of R174; an index that RESIZE_JOB removed becomes OUTSIDE (R171), and one of which the last generation was retired
would come back EXHAUSTED (DEDUCED, log 29). -/
def State.retireEnd (s : State) (r : Retirement) : State :=
  let e := s.entry r.handle r.index
  let gone := match s.job r.handle with
    | some j => j.removing.any (fun k => decide (k.base ≤ r.index) && decide (r.index < k.base + k.count))
    | none => false
  let last := decide (e.gen = 0xFE)
  let new : KeyEntry :=
    { gen := if last then 0xFE else e.gen + 1, state := if gone then .outside else if last then .exhausted else .live,
      seals := 0, spent := gone && last }
  let s := ((s.setEntry r.handle r.index new).purgeIndex r.handle r.index e.gen).uncacheEntry r.handle r.index
  let s : State := { s with courier := { s.courier with
    retirements := s.courier.retirements.filter (fun (x : Retirement) => !(x.handle == r.handle && x.index == r.index)),
    limitPosted := s.courier.limitPosted.filter (fun x => x != (r.handle, r.index)) } }
  (s.completeOpt r.op .done
    [(4, r.index), (1, if last then 0xFF else new.gen), (1, new.state.code)]).removed r.handle r.index

/-- RETIREMENT_PROGRESS: a retirement that is due ends; of a resize's removed indices, the next is retired (R155). -/
def State.retirementProgress (s : State) (h i : Nat) : State :=
  match s.courier.retirements.find? (fun r => r.handle == h && r.index == i) with
  | some r => if s.retireDue r then s.retireEnd r else s
  | none =>
    match s.job h with
    | none => s
    | some j =>
      if j.state ≠ .resizing ∨ j.removing.any (fun k => decide (k.base ≤ i) && decide (i < k.base + k.count)) = false
          ∨ 64 ≤ s.courier.retirements.length then s
      else if (s.entry h i).state = .live then s.retireStart h i none
      else
        ((s.setEntry h i { s.entry h i with state := .outside, spent := (s.entry h i).state == .exhausted }).uncacheEntry
          h i).removed h i

/-- The µs that a retirement may still take (R174). -/
def State.retireBound (s : State) (h : Nat) (j : Job) : Nat :=
  let pooled := s.regions.any (fun e => e.2.handle == h && e.2.state != .free && e.2.pooled)
  8 + (if pooled then max 20 (j.timeout + 5) else 20)

/-- The least time that one of the retirements may still take, in µs (R175, R515). -/
def State.leastRetirement (s : State) : Nat :=
  let left (r : Retirement) : Nat := match s.job r.handle with
    | some j => s.retireBound r.handle j - (s.now - r.since) / Config.us
    | none => 0
  match s.courier.retirements.map left with
  | [] => 0
  | a :: l => l.foldl min a

def hRetireKeyIndex : Handler where
  manager := false
  service := true
  length := exactly 8
  allowed s c := s.ownNumber c (c.arg 0 4)
  params _ c := indexParams c
  run s c :=
    let i := c.arg 4 4
    match s.jobGate (c.arg 0 4) with
    | .error v => v
    | .ok (h, j) =>
      match s.courier.retirements.find? (fun r => r.handle == h && r.index == i) with
      | some r => busyFor (s.retireBound h j - (s.now - r.since) / Config.us)
      | none =>
        if (s.entry h i).state ≠ .live then refuse .badState
        else if 64 ≤ s.courier.retirements.length then
          busyFor s.leastRetirement
        else .accept [] (some (s.retireBound h j)) (fun id s => s.retireStart h i (some id))

/-! ### KEY_INDEX_STATUS, SECTOR_COUNTS (R198, R199)

KEY_INDEX_STATUS waits for the fetch of its entry's sector where the table's island does not hold it. -/

def hKeyIndexStatus : Handler where
  manager := false
  service := true
  length := exactly 8
  allowed s c := s.ownNumber c (c.arg 0 4)
  params _ c := indexParams c
  run s c :=
    match s.jobGate (c.arg 0 4) with
    | .error v => v
    | .ok (h, j) =>
      let i := c.arg 4 4
      if j.keyRanges.isEmpty then refuse .badState
      else if s.entryLost h i then failWith s .integrityLost
      else if s.entryAtHand h i then answerWith s (enc [(8, (j.entry i).word), (8, 0)])
      else .wait (s.readEntry h i)

/-- The body of SECTOR_COUNTS (R199). -/
def sectorCounts (s : State) : Bytes :=
  enc [(8, s.mem.protectedRefusals), (8, s.mem.unverifiable), (8, s.mem.merges), (8, s.mem.mergesLost)]

def hSectorCounts : Handler where
  manager := false
  job := false
  service := true
  length := exactly 0
  run s _ := answerWith s (sectorCounts s)

/-! ### Targets of 0x06xx (R234, R235) -/

/-- Fields of a target. -/
def targetParams (c : Cmd) : List (Nat × Bool) :=
  [(64, decide (c.arg 0 2 < 16384) || c.arg 0 2 == 0xFFFF), zeroAt c 2 2,
   (68, c.arg 0 2 == 0xFFFF || c.arg 4 4 == 0)]

/-- The letterbox may name the target. -/
def State.ownTarget (s : State) (c : Cmd) : Bool :=
  if c.arg 0 2 = 0xFFFF then s.ownNumber c (c.arg 4 4) else s.ownRegion c (c.arg 0 2)

/-- The tree that a target names, or what refuses it. -/
def State.target (s : State) (c : Cmd) : Except Verdict (Nat × Tree) :=
  if c.arg 0 2 = 0xFFFF then
    match s.jobGate (c.arg 4 4) with
    | .error v => .error v
    | .ok (h, j) => if j.keyRanges.isEmpty then .error (refuse .badState) else .ok (tableTree h, j.keyTree)
  else
    let r := s.region (c.arg 0 2)
    if r.state = .free ∨ r.cls ≠ .fresh then .error (refuse .badState) else .ok (c.arg 0 2, r.tree)

/-- The body of TREE_STATUS (R236). -/
def treeBody (s : State) (tree : Nat) (t : Tree) : Bytes :=
  enc [(1, t.depth), (7, 0), (8, (treeLevels t.sectors).sum), (8, t.floor), (8, t.repairs),
       (8, ((s.mem.lost ++ s.mem.unlisted).filter (fun e => match e.2 with | .node k _ _ => k == tree | _ => false)).length
             + flag t.rootLost),
       (8, t.leafWraps), (8, t.interiorWraps), (8, t.wrapLost)]

def hTreeStatus : Handler where
  manager := false
  service := true
  length := exactly 8
  allowed s c := s.ownTarget c
  params _ c := targetParams c
  run s c :=
    match s.target c with
    | .error v => v
    | .ok (tree, t) => answerWith s (treeBody s tree t)

/-- Nodes of a tree at and below one of its nodes. -/
def nodesBelow (lvl : Nat) : Nat := ((List.range lvl).map (fun j => 64 ^ j)).sum

/-- RESET_SUBTREE (R224): both copies are read again; a node never written verifies as it is (R210), and a copy on a fenced stack counts
as one that failed (R424). -/
def State.resetSubtree (s : State) (tree lvl idx id : Nat) : State :=
  let island := s.treeIsland tree
  let key : LineKey := .node tree lvl idx
  let zero := match s.nodeAt tree (lvl + 1) (idx / 64) with
    | .found p => p.childZero (idx % 64)
    | _ => false
  if zero then s.complete id .badState []
  else
    let dead (b : Bool) : Bool := s.lineFenced key b
    let r : SubtreeRun := { id := s.mem.nextId, op := id, island := island, tree := tree, level := lvl, index := idx,
                            reads := 2 - flag (dead false) - flag (dead true), writes := 0,
                            first := if dead false = true ∨ dead true = true then some (!dead false, 1, []) else none }
    let s : State := { s with mem := { s.mem with
      subtrees := s.mem.subtrees ++ [r], nextId := s.mem.nextId + 1 } }
    let s := s.endFetches (fun f => f.key == key)
    let h := s.treeHandle tree
    let s := if (s.schedule? island h 0 0xFF).isNone then s.keyRequest island h (.data 0 0xFF) else s
    (((s.issueFetch island key false false 3 0).issueFetch island key true false 3 0).upkeepFetches s.mem.nextId).subtreesRun

def hResetSubtree : Handler where
  manager := false
  service := true
  length := exactly 24
  allowed s c := s.ownTarget c
  params _ c := targetParams c ++ [zeroAt c 9 7]
  run s c :=
    match s.target c with
    | .error v => v
    | .ok (tree, t) =>
      let lvl := c.arg 8 1
      let idx := c.arg 16 8
      if tree < 65536 ∧ ((s.region tree).state = .suspended ∨ (s.region tree).state = .closing) then refuse .badState
      else if lvl = 0 ∨ t.depth < lvl then badField 72
      else if t.width lvl ≤ idx then badField 80
      else if t.rootLost = true ∨ (List.range t.depth).any (fun j => decide (lvl < j + 1) && s.knownLost tree (j + 1) (idx / 64 ^ (j + 1 - lvl))) = true
      then refuse .badState
      else .accept [] (some (50 + 128 * nodesBelow lvl / 200000)) (fun id s => s.resetSubtree tree lvl idx id)

/-! ### START_COURIER, COURIER_STATUS (R225, R237) -/

def hStartCourier : Handler where
  manager := false
  service := true
  length := exactly 8
  allowed s c := s.ownNumber c (c.arg 0 4)
  params _ c := indexParams c
  run s c :=
    let i := c.arg 4 4
    match s.jobGate (c.arg 0 4) with
    | .error v => v
    | .ok (h, _) =>
      let e := s.entry h i
      let starting := s.courier.passes.any (fun p => p.handle == h && p.index == i && p.state == .starting)
      if e.state ≠ .live ∨ e.gen = 0xFE ∨ ((s.passOf h i).isSome = true ∧ starting = false) then refuse .badState
      else if starting = false ∧ s.isArmed h i = false ∧ 4096 ≤ s.courier.armed.length then busyFor 100
      else .accept [] none (fun id s =>
        if starting then
          { s with courier := { s.courier with passes := s.courier.passes.map (fun (p : Pass) =>
              if p.handle = h ∧ p.index = i then { p with ops := p.ops ++ [id] } else p) } }
        else match s.courier.armed.find? (fun a => a.1 == h && a.2.1 == i) with
        | some a =>
          let rest := s.courier.armed.filter (fun x => !(x.1 == h && x.2.1 == i))
          { s with courier := { s.courier with armed := (h, i, a.2.2 ++ [id]) :: rest } }
        | none => { s with courier := { s.courier with armed := s.courier.armed ++ [(h, i, [id])] } })

/-- The body of COURIER_STATUS (R237). -/
def courierBody (s : State) (h i : Nat) : Bytes :=
  let e := s.entry h i
  let pass := s.passOf h i
  let regions := match pass with | some p => if p.state = .starting then [] else p.regions | none => []
  let low := match regions with | [] => 0xFFFF | a :: r => r.foldl min a
  let state := match pass with
    | some p => (match p.state with | .starting => 1 | .running => 2 | .paused => 3)
    | none => if s.isArmed h i then 1 else 0
  let pos := (s.courier.armed.findIdx? (fun a => a.1 == h && a.2.1 == i)).getD 0xFFFFFFFF
  enc [(1, state), (1, e.gen), (2, regions.length), (2, low), (2, 0),
       (8, match (s.region low).courier with | some c => if low = 0xFFFF then 0 else c.watermark | none => 0),
       (8, e.seals), (4, pos), (4, 0)]

def hCourierStatus : Handler where
  manager := false
  service := true
  length := exactly 8
  allowed s c := s.ownNumber c (c.arg 0 4)
  params _ c := indexParams c
  run s c :=
    match s.jobGate (c.arg 0 4) with
    | .error v => v
    | .ok (h, _) => answerWith s (courierBody s h (c.arg 4 4))

/-! ### RESUME_REGION (R233) -/

/-- Re-issues every write that the region's records hold, in the order in which they were first issued, as tree maintenance (R369);
an isolated node issues nothing to its trays, and the command ends as at a dead target (R432; DESIGN CHOICE, log 79). -/
def State.resumeStart (s : State) (n id : Nat) : State :=
  if s.fault.isolated then s.complete id .targetDead []
  else
  let s := s.modRegion n (fun r => { r with resumeOp := some id })
  let mine := s.mem.resume.filter (fun x => x.region == n && x.suspended)
  let s := mine.foldl (fun s x => x.writes.foldl (fun s w =>
      (match s.writeIsland none true w.1 with | some i => s.maintain i w.2.length | none => s).writeTo none true x.op w.1 w.2)
    (s.modResume x.op (fun x => { x with since := s.now }))) s
  s.resumed n

def hResumeRegion : Handler where
  manager := false
  service := true
  length := exactly 8
  allowed s c := s.ownRegion c (c.arg 0 2)
  params _ c := regionParams c
  run s c :=
    let n := c.arg 0 2
    let r := s.region n
    if r.state ≠ .suspended then refuse .badState
    else if r.tree.rootLost then refuse .integrityLost
    else if r.resumeOp.isSome then busyFor (s.opLeft r.resumeOp)
    else .accept [] (some ((match s.job r.handle with | some j => j.timeout | none => 20) + 5))
      (fun id s => s.resumeStart n id)

/-! ### TREE_COUNTS (R238) -/

def treeCounts (s : State) : Bytes :=
  enc [(8, s.mem.hits), (8, s.mem.hidden), (8, s.mem.exposed), (8, s.mem.repairs), (8, s.mem.nodesLost),
       (8, s.mem.passesEnded)]

def hTreeCounts : Handler where
  manager := false
  job := false
  service := true
  length := exactly 0
  run s _ := answerWith s (treeCounts s)

end Machine
end Sys2Proof
end

