-- ==== Sys2Proof/Machine/Assoc.lean ====
section
/-!
DEFINITION. Machine/Assoc.lean: associations (R240 to R247, R254 to R265): their keys, the sealed message packet, the
receive window, epochs and the ratchet.

An association is named by the local handle of its job and its peer's node number.
-/

namespace Sys2Proof
namespace Machine

/-! ### The table of associations -/

/-- The association of a job with a peer; none is the state ABSENT. -/
def State.assoc (s : State) (h peer : Nat) : Option Assoc :=
  s.assocs.entries.find? (fun a => a.handle == h && a.peer == peer)

def State.modAssoc (s : State) (h peer : Nat) (f : Assoc → Assoc) : State :=
  { s with assocs := { s.assocs with entries := s.assocs.entries.map (fun a =>
      if a.handle = h ∧ a.peer = peer then f a else a) } }

/-- Removes an entry, and its keys with it. -/
def State.removeAssoc (s : State) (h peer : Nat) : State :=
  { s with assocs := { s.assocs with entries := s.assocs.entries.filter (fun (a : Assoc) =>
      !(a.handle == h && a.peer == peer)) } }

/-- Puts an entry, in place of the pair's. -/
def State.putAssoc (s : State) (a : Assoc) : State :=
  let s := s.removeAssoc a.handle a.peer
  { s with assocs := { s.assocs with entries := s.assocs.entries ++ [a] } }

def State.modAssocs (s : State) (f : Assocs → Assocs) : State := { s with assocs := f s.assocs }

/-- The association seals packets. -/
def Assoc.seals (a : Assoc) : Bool := a.state == .opened || a.state == .ratcheting

/-- The current epoch. -/
def Assoc.epoch (a : Assoc) : Nat := match a.epochs with | e :: _ => e.number | [] => 0

/-- A job's number. -/
def State.numberOf (s : State) (h : Nat) : Nat := match s.job h with | some j => j.number | none => 0

/-- The job takes new associations: ACTIVE or RESIZING (R249). -/
def State.serving (s : State) (h : Nat) : Bool :=
  match s.job h with | some j => j.state == .active || j.state == .resizing | none => false

/-! ### Keys (R242, R246) -/

/-- The greatest epoch (R259). -/
def maxEpoch : Nat := 0xFFFFFFFE

/-- Keys of an epoch, this node's sending direction first.  A derivation that the slot does not allow is a key-vault check
failure (R101). -/
def State.pairKeys (s : State) (h peer e : Nat) : Option (Key × Key) × State :=
  match s.slotKey h (.assoc peer e) with
  | none => (none, s.hardFault 1 islandKV)
  | some jrk =>
    let m := assocKeys jrk s.boot.nodeNumber peer e
    let lo : Key := m.extractLsb' 0 256
    let hi : Key := m.extractLsb' 256 256
    (some (if s.boot.nodeNumber < peer then (lo, hi) else (hi, lo)), s.derived 1)

/-- The salt of an association (R246), from the keys of the agreed epoch. -/
def saltOf (node peer : Nat) (keys : Key × Key) (ni nr : BitVec 64) : BitVec 48 :=
  let k := if node < peer then keys.1 else keys.2
  BitVec.ofNat 48 (aes256 k (BitVec.ofNat 128 (ni.toNat + 2 ^ 64 * nr.toNat))).toNat

/-! ### Packets (R243 to R247, R458) -/

/-- Bytes 0 to 23 of a sealed message packet. -/
def msgHead (p : MsgPacket) : Bytes :=
  bytesOf p.kind ++ bytesOf p.revision ++ bytesOf p.flags ++ bytesOf p.reserved1 ++ bytesOf p.src ++ bytesOf p.dst
    ++ bytesOf p.job ++ bytesOf p.bodyLength ++ bytesOf p.reserved2 ++ bytesOf p.sequence ++ bytesOf p.reserved3

/-- A packet of this node, without its body's sealing and its tag. -/
def State.newPacket (s : State) (h peer kind epoch tc seq : Nat) (body : Bytes) : MsgPacket :=
  { kind := BitVec.ofNat 8 kind, revision := Config.revisionByte, flags := BitVec.ofNat 8 (epoch % 2 + 2 * (tc % 4)),
    reserved1 := 0, src := BitVec.ofNat 16 s.boot.nodeNumber, dst := BitVec.ofNat 16 peer,
    job := BitVec.ofNat 32 (s.numberOf h), bodyLength := BitVec.ofNat 16 body.length, reserved2 := 0,
    sequence := BitVec.ofNat 48 seq, reserved3 := 0, body := body, tag := 0 }

/-- A tag of 16 bytes as the field. -/
def tagOf (b : Bytes) : BitVec 128 := BitVec.ofNat 128 (ofLe b)

/-- Traffic class of a packet. -/
def packetTc (p : MsgPacket) : Nat := bits p.flags.toNat 2 1

/-- Hands a packet of a job to port logic, with its request's stamp if it carries one. -/
def State.handOver (s : State) (port h epoch : Nat) (p : MsgPacket) (stamp : Option Stamp := none) : State :=
  s.emitPacket port (some h) epoch stamp p

/-- Hands over a handshake message that the node has sealed now: a verify lane that finds its output wrong releases nothing (R23,
R257). -/
def State.releaseHandshake (s : State) (port h epoch : Nat) (p : MsgPacket) : State :=
  if s.laneOff then s.laneFound.hardFault 3 (islandP port)
  else (s.handOver port h epoch p).count (islandP port) 2 (some (packetTc p)) 1

/-- The IV of a DATA or RATCHET packet (R245). -/
def dataIv (salt : BitVec 48) (seq : Nat) : Bytes := bytesOf salt ++ le 6 seq

/-- The IV of a handshake message (R247). -/
def handshakeIv (nonce : BitVec 64) (kind : Nat) : Bytes := bytesOf nonce ++ enc [(3, 0xFFFFFF), (1, kind)]

/-- The tag of a handshake message. -/
def handshakeTag (key : Key) (nonce : BitVec 64) (p : MsgPacket) : BitVec 128 :=
  tagOf (gcmTag key (handshakeIv nonce p.kind.toNat) (msgHead p ++ p.body) [])

/-- A handshake message of this node; no rule gives its traffic class, which is a free value (DESIGN CHOICE, log 12). -/
def State.handshake (s : State) (h peer kind epoch : Nat) (key : Key) (nonce : BitVec 64) (body : Bytes) :
    MsgPacket × State :=
  let (tc, s) := s.free 2
  let p := s.newPacket h peer kind epoch tc.toNat 0 body
  ({ p with tag := handshakeTag key nonce p }, s)

/-! ### Epochs and the ratchet (R258 to R262) -/

/-- An epoch as it is entered: both sequences start at 1. -/
def newEpoch (n : Nat) (keys : Key × Key) : Epoch :=
  { number := n, keyTx := keys.1, keyRx := keys.2, txSeq := 1, rxHigh := 0, rxSeen := [], rxThrough := 0 }

/-- An association of a job enters an epoch: the floor rises; EPOCH_SPACE_LOW once for the job (R258, R264). -/
def State.enterEpoch (s : State) (h peer e : Nat) : State :=
  match s.job h with
  | none => s
  | some j =>
    let floor := max j.epochFloor (e + 1)
    let low := decide (0xFFFF0000 ≤ floor) && !j.spaceLowPosted
    let s := s.modJob h (fun j => { j with epochFloor := floor, spaceLowPosted := j.spaceLowPosted || low })
    if low then s.post 0x0704 .noFit [(4, j.number), (2, peer), (2, 0)] [(4, e), (12, 0)] [h] else s

/-- The association may start a step (R259). -/
def State.mayStep (s : State) (a : Assoc) : Bool :=
  a.state == .opened && a.epochs.length == 1 && !a.waitKeys && decide (a.epoch + 1 ≤ maxEpoch)
    && (match a.lastStep with | some t => decide (t + Config.ms ≤ s.now) | none => true)

/-- Step 1 of R260: the home asks KV for the keys of the next epoch. -/
def State.beginStep (s : State) (a : Assoc) : State :=
  (s.modAssoc a.handle a.peer (fun a => { a with trigger := false, waitKeys := true })).keyRequest
    (islandP a.home) a.handle (.assoc a.peer (a.epoch + 1))

/-- A trigger of R259: the step starts, or waits until it may. -/
def State.ratchetTrigger (s : State) (h peer : Nat) : State :=
  match s.assoc h peer with
  | none => s
  | some a => if s.mayStep a then s.beginStep a else s.modAssoc h peer (fun a => { a with trigger := true })

/-- Seals a body under an epoch that the association holds and hands the packet over (R245); a verify lane that finds the
output wrong releases nothing (R23).  DATA past the last sequence number of the epoch waits for the next (R262); a RATCHET there is
not sent: the peer learns the new epoch from its packets (DESIGN CHOICE, log 56). -/
def State.sealPacket (s : State) (h peer epoch kind tc : Nat) (body : Bytes) (stamp : Option Stamp := none) : State :=
  match s.assoc h peer with
  | none => s
  | some a =>
    match a.epochs.find? (fun e => e.number == epoch) with
    | none => s
    | some e =>
      if s.boot.tamperHeld = true then s
      else if 2 ^ 40 ≤ e.txSeq then
        if kind = 0x10 then s.modAssoc h peer (fun a => { a with overdue := a.overdue ++ [(tc, body)] }) else s
      else if s.laneOff then s.laneFound.hardFault 3 (islandP a.home)
      else
        let p := s.newPacket h peer kind epoch tc e.txSeq body
        let (ct, tag) := gcmSeal e.keyTx (dataIv a.salt e.txSeq) (msgHead p) body
        let s := s.modAssoc h peer (fun a => { a with
          epochs := a.epochs.map (fun (x : Epoch) => if x.number = epoch then { x with txSeq := x.txSeq + 1 } else x),
          sealed := if a.epoch = epoch then a.sealed + 1 else a.sealed,
          lastUse := s.now })
        let s := s.handOver a.home h epoch { p with body := ct, tag := tagOf tag } stamp
        let s := s.count (islandP a.home) 2 (some tc) 1
        if a.epoch = epoch ∧ a.sealed + 1 = 2 ^ 30 then s.ratchetTrigger h peer else s

/-- Seals a DATA body under the current epoch, if the association seals. -/
def State.sealData (s : State) (h peer tc : Nat) (body : Bytes) (stamp : Option Stamp := none) : State :=
  match s.assoc h peer with
  | some a => if a.seals then s.sealPacket h peer a.epoch 0x10 tc body stamp else s
  | none => s

/-- Seals a RATCHET that names an epoch; no rule gives its traffic class (DESIGN CHOICE, log 12). -/
def State.sealRatchet (s : State) (h peer under names : Nat) : State :=
  let (tc, s) := s.free 2
  s.sealPacket h peer under 0x24 tc.toNat (enc [(4, names), (4, 0)])

/-- Steps 2 and 3 of R260: the marker under e, then every later packet under e + 1.  The step counts as started now, as the association
becomes RATCHETING (R254, R259). -/
def State.switchEpoch (s : State) (h peer : Nat) (keys : Key × Key) : State :=
  match s.assoc h peer with
  | none => s
  | some a =>
    match a.epochs with
    | [e] =>
      let off := s.laneOff
      let s := s.sealRatchet h peer e.number (e.number + 1)
      if off then s
      else
        let s := s.modAssoc h peer (fun a => { a with
          epochs := newEpoch (e.number + 1) keys :: a.epochs, state := .ratcheting, sealed := 0, enteredAt := s.now,
          waitKeys := false, trigger := false, lastStep := some s.now, resends := 0,
          resendAt := s.now + 50 * Config.us })
        let s := s.modAssoc h peer (fun a => { a with overdue := [] })
        a.overdue.foldl (fun s w => s.sealPacket h peer (e.number + 1) 0x10 w.1 w.2) (s.enterEpoch h peer (e.number + 1))
    | _ => s

/-- RATCHET_KEYS_READY (R260): the keys of the new epoch reach the home. -/
def State.ratchetKeys (s : State) (h peer : Nat) : State :=
  match s.assoc h peer with
  | none => s
  | some a =>
    let mine (r : KeyReq) : Bool := r.handle == h && r.ready && r.kind == .assoc peer (a.epoch + 1)
    match s.kv.requests.find? mine, tget s.kv.jobRoots h with
    | some r, some root =>
      let s : State := { s with kv := { s.kv with requests := s.kv.requests.filter (fun (x : KeyReq) => x.id != r.id) } }
      let s := s.keyHeldBy h r.island
      if a.waitKeys then
        let m := assocKeys root.jrk s.boot.nodeNumber peer (a.epoch + 1)
        let lo : Key := m.extractLsb' 0 256
        let hi : Key := m.extractLsb' 256 256
        s.switchEpoch h peer (if s.boot.nodeNumber < peer then (lo, hi) else (hi, lo))
      else s
    | _, _ => s

/-- The step completes: learned, drained, and 200 µs after it was learned (R262). -/
def State.stepEnd (s : State) (h peer : Nat) : State :=
  match s.assoc h peer with
  | none => s
  | some a =>
    match a.state, a.learnedAt with
    | .ratcheting, some t =>
      if a.drained ∧ t + 200 * Config.us ≤ s.now then
        let s := s.modAssoc h peer (fun a => { a with
          epochs := a.epochs.take 1, state := .opened, learnedAt := none, drained := false, marker := none,
          ratchetOps := [] })
        let s := s.modAssocs (fun x => { x with steps := sat64 x.steps })
        let s := a.ratchetOps.foldl (fun s id => s.complete id .done []) s
        match s.assoc h peer with
        | some b => if b.trigger ∧ s.mayStep b then s.beginStep b else s
        | none => s
      else s
    | _, _ => s

/-- The member learns the new epoch from its peer (R260); a member that still sends under the old one carries out steps 1
to 3 at once, with the keys if they are at hand. -/
def State.learnEpoch (s : State) (h peer : Nat) (keys : Option (Key × Key)) : State :=
  match s.assoc h peer with
  | none => s
  | some a =>
    let s := s.modAssoc h peer (fun a => { a with learnedAt := a.learnedAt.or (some s.now) })
    match a.state, keys with
    | .opened, some k => s.switchEpoch h peer k
    | .opened, none => if a.waitKeys then s else s.beginStep a
    | _, _ => s

/-- EPOCH_DRAIN_TIMER (R261, R262). -/
def State.drainTimer (s : State) (h peer : Nat) : State :=
  match s.assoc h peer with
  | none => s
  | some a =>
    match a.learnedAt with
    | some t =>
      if t + 200 * Config.us ≤ s.now then (s.modAssoc h peer (fun a => { a with drained := true })).stepEnd h peer else s
    | none => s

/-- RATCHET_EPOCH_TIMER (R259): 60 s in the current epoch; while a step runs, the trigger waits for its end. -/
def State.epochTimer (s : State) (h peer : Nat) : State :=
  match s.assoc h peer with
  | some a =>
    if a.seals = true ∧ a.enteredAt + 60000 * Config.ms ≤ s.now ∧ a.waitKeys = false then s.ratchetTrigger h peer else s
  | none => s

/-- RATCHET_SPACING_ELAPSED (R259): a trigger that waited starts its step. -/
def State.spacingElapsed (s : State) (h peer : Nat) : State :=
  match s.assoc h peer with
  | some a => if a.trigger ∧ s.mayStep a then s.beginStep a else s
  | none => s

/-- Object and payload of the notices of class 7 (R286). -/
def assocObject (number peer : Nat) : List (Nat × Nat) := [(4, number), (2, peer), (2, 0)]
def assocPayload (epoch revision seq : Nat) : List (Nat × Nat) := [(4, epoch), (1, revision), (3, 0), (8, seq)]

/-- RATCHET_RESEND_TIMER (R260): the marker again, at most eight times; then RATCHET_STALLED. -/
def State.ratchetResend (s : State) (h peer : Nat) : State :=
  match s.assoc h peer with
  | none => s
  | some a =>
    match a.state, a.learnedAt, a.epochs with
    | .ratcheting, none, [new, old] =>
      if s.now < a.resendAt ∨ 8 < a.resends then s
      else if a.resends = 8 then
        (s.modAssoc h peer (fun a => { a with resends := 9 })).post 0x0703 .timeout (assocObject (s.numberOf h) peer)
          (assocPayload new.number 0 0) [h]
      else
        (s.sealRatchet h peer old.number new.number).modAssoc h peer (fun a =>
          { a with resends := a.resends + 1, resendAt := a.resendAt + 50 * Config.us })
    | _, _, _ => s

/-! ### The receive window (R256) -/

/-- The window accepts a sequence number. -/
def Epoch.accepts (e : Epoch) (q : Nat) : Bool :=
  decide (1 ≤ q) && (decide (e.rxHigh < q) || (decide (e.rxHigh < q + 512) && decide (q ∉ e.rxSeen)))

/-- Raises the number up to which every one has been accepted. -/
def through (seen : List Nat) : Nat → Nat → Nat
  | 0, n => n
  | k + 1, n => if n + 1 ∈ seen then through seen k (n + 1) else n

/-- Updates the window with an accepted number. -/
def Epoch.accept (e : Epoch) (q : Nat) : Epoch :=
  let high := max e.rxHigh q
  let seen := (q :: e.rxSeen).filter (fun x => decide (high < x + 512))
  { e with rxHigh := high, rxSeen := seen, rxThrough := through seen seen.length e.rxThrough }

/-- A packet of an epoch was accepted: the window and the drain fence of the old epoch (R256, R261). -/
def State.acceptSeq (s : State) (h peer epoch q : Nat) : State :=
  s.modAssoc h peer (fun a =>
    let a := { a with lastUse := s.now,
                      epochs := a.epochs.map (fun (e : Epoch) => if e.number = epoch then e.accept q else e) }
    match a.epochs.getLast?, a.marker with
    | some old, some m => { a with drained := a.drained || decide (m ≤ old.rxThrough) }
    | _, _ => a)

/-- A RATCHET was accepted under an epoch (R260, R261): a marker, and what it teaches; one that names the current epoch is
answered.  One that names an epoch past the last teaches nothing (R264). -/
def State.gotRatchet (s : State) (h peer under names q : Nat) : State :=
  match s.assoc h peer with
  | none => s
  | some a =>
    let current := a.epoch
    let s := if names = under + 1 ∧ names ≤ maxEpoch then
        let s := s.modAssoc h peer (fun a =>
          let m := match a.marker with | some m => min m q | none => q
          let oldest := match a.epochs.getLast? with | some e => e | none => newEpoch 0 (0, 0)
          if oldest.number = under then
            { a with marker := some m, drained := a.drained || decide (m ≤ oldest.rxThrough) }
          else a)
        if names = current + 1 ∨ (names = current ∧ a.state = .ratcheting) then s.learnEpoch h peer none else s
      else s
    let s := if names = current then s.sealRatchet h peer current current else s
    s.stepEnd h peer

/-! ### Status and counts (R283, R284) -/

/-- Association state codes. -/
def AssocState.code : AssocState → Nat
  | .absent => 0 | .calling => 1 | .answered => 2 | .opened => 3 | .ratcheting => 4 | .closing => 5

/-- The body of ASSOC_STATUS (R283).  In CALLING and ANSWERED no epoch is entered and no number sealed or accepted: those fields read 0,
and last_use starts as the association becomes OPEN, so that handshake messages do not count for it (DESIGN CHOICE, log 74). -/
def assocBody (s : State) (h peer floor : Nat) : Bytes :=
  match s.assoc h peer with
  | none => enc [(1, 0), (1, 0), (2, 0), (4, 0), (4, floor), (36, 0)]
  | some a =>
    let e := match a.epochs with | e :: _ => e | [] => { newEpoch 0 (0, 0) with txSeq := 0 }
    enc [(1, a.state.code), (1, a.home), (2, peer), (4, e.number), (4, floor), (4, 0), (8, e.txSeq), (8, e.rxHigh),
         (8, a.enteredAt), (8, a.lastUse)]

/-- The body of ASSOC_COUNTS (R284). -/
def assocCountsBody (s : State) : Bytes :=
  let c := s.assocs
  enc [(8, c.created), (8, c.evicted), (8, c.steps), (8, c.tagFails), (8, c.replayed), (8, c.stale), (8, c.noAssoc),
       (8, c.revRefused), (8, c.revokedDrops), (8, c.malformed)]

end Machine
end Sys2Proof
end

