-- ==== Sys2Proof/Machine/Issue.lean ====
section
/-!
DEFINITION. Machine/Issue.lean: the issuer's side of remote access (R287 to R306, R312, R318, R321 to R324): remote
requests, their answers and timeouts, the start and the end of associations, fences.
-/

namespace Sys2Proof
namespace Machine

/-! ### Faults of class 8 (R330) -/

def remoteObject (number node ctx : Nat) : List (Nat × Nat) := [(4, number), (2, node), (2, ctx)]
def remotePayload (address reason op ordinal : Nat) : List (Nat × Nat) :=
  [(8, address), (1, reason), (1, op), (2, 0), (4, ordinal)]

/-- Raises a fault of class 8 of an issuer's context. -/
def State.remoteFault (s : State) (h node ctx type reason : Nat) (st : Status) (address op ordinal : Nat) : State :=
  s.raiseFault islandXB ctx type reason (10 * Config.us) ctx st (remoteObject (s.numberOf h) node ctx)
    (remotePayload address reason op ordinal)

/-! ### Ordinals (R297) -/

/-- The ordinal after another. -/
def nextOrdinal (n : Nat) : Nat := (n + 1) % 2 ^ 32

/-- Ordinal `a` is earlier than `b`. -/
def earlier (a b : Nat) : Bool :=
  let d := (b + 2 ^ 32 - a % 2 ^ 32) % 2 ^ 32
  decide (1 ≤ d) && decide (d < 2 ^ 31)

/-- Ordinal `a` is at or before `b`. -/
def covered (a b : Nat) : Bool := a == b || earlier a b

/-- Changes one stream of an association. -/
def State.modStream (s : State) (h peer tc : Nat) (f : StreamSt → StreamSt) : State :=
  s.modAssoc h peer (fun a => { a with streams := setAt a.streams tc (f (a.streams.getD tc {})) })

/-- A stream of an association. -/
def State.stream (s : State) (h peer tc : Nat) : StreamSt :=
  match s.assoc h peer with | some a => a.streams.getD tc {} | none => {}

/-! ### Remote requests end (R301, R304, R312) -/

/-- Advances confirmed_through over the atomics answered (R312). -/
def confirm (answered : List Nat) : Nat → Nat → Nat
  | 0, c => c
  | k + 1, c => if nextOrdinal c ∈ answered then confirm answered k (nextOrdinal c) else c

/-- An atomic of a context ends, with a response or without one. -/
def Ctx.atomicEnds (c : Ctx) (seq : Nat) (answered : Bool) : Ctx :=
  let got := if answered then seq :: c.answered else c.answered
  let upto := confirm got got.length c.confirmed
  { c with unanswered := c.unanswered.filter (fun q => q != seq), confirmed := upto,
           answered := got.filter (fun q => !covered q upto) }

/-- A remote request ends: the part of the tile's request that it carries is done. -/
def State.remoteEnds (s : State) (q : RemReq) (answered : Bool) (f : Req → Req) : State :=
  let s : State := { s with remote := { s.remote with reqs := s.remote.reqs.filter (fun (x : RemReq) => x.id != q.id) } }
  let s := if q.op = 3 then s.modCtx q.ctx (fun c => c.atomicEnds q.atomicSeq answered) else s
  if q.req = 0 then s else s.pieceDone q.req f

/-- A remote request completes DONE, with the bytes or the value that came back. -/
def State.remoteDone (s : State) (q : RemReq) (data : Bytes) (result : BitVec 64) : State :=
  s.remoteEnds q true (fun r => { r with data := if q.op = 1 then splice r.data q.pos (slice data 0 q.length) else r.data,
                                         result := if q.op = 3 then result else r.result })

/-- A remote request ends with a fault against its context. -/
def State.remoteFails (s : State) (q : RemReq) (answered : Bool) (st : Status) (type reason : Nat) : State :=
  let s := if q.req = 0 then s
    else s.remoteFault q.handle q.node q.ctx type reason st q.address q.op q.ordinal
  s.remoteEnds q answered (fun r => r.fail st type reason)

/-- A fence that recorded an item learns that the item ended by its timeout (R322). -/
def State.fenceTimeout (s : State) (id : Nat) : State :=
  { s with remote := { s.remote with fences := tmap s.remote.fences (fun _ f =>
      { f with nodes := f.nodes.map (fun (n : FenceNode) =>
          { n with timedOut := n.timedOut || decide (id ∈ n.pooled), reqTimed := n.reqTimed || decide (id ∈ n.remote) }) }) } }

/-- A timeout ends a load or an atomic of a context: at step 7 of its close the request counts once (R151). -/
def State.missedAt (s : State) (req ctx : Nat) : State :=
  if (s.ctx ctx).step = 7 ∧ s.mem.reqs.any (fun q => q.id == req && q.failure.isNone) = true
  then s.modCtx ctx (fun c => { c with remoteMissed := c.remoteMissed + 1 }) else s

/-- The reason of an OUTCOME_UNKNOWN: a revoked node's 3, else none (R304). -/
def unknownReason (reason : Nat) : Nat := if reason = 3 then 3 else 0

/-- A request is answered as for a dead target (R304): an atomic that may have been sent has an unknown outcome. -/
def State.remoteDead (s : State) (q : RemReq) (reason : Nat) : State :=
  let s := s.fenceTimeout q.id
  let s := if reason = 1 then s.modStream q.handle q.node q.tc (fun t => { t with timed := q.ordinal :: t.timed }) else s
  let s := if reason = 1 ∧ (q.op = 1 ∨ q.op = 3) then s.missedAt q.req q.ctx else s
  if q.op = 3 ∧ (reason = 1 ∨ reason = 3) then
    State.remoteFails { s with remote := { s.remote with outcomeUnknown := sat64 s.remote.outcomeUnknown } } q false
      .unknownOutcome 0x0802 (unknownReason reason)
  else s.remoteFails q false .targetDead 0x0801 reason

/-- Every request of a job to a node that `p` picks is answered as for a dead target. -/
def State.giveUp (s : State) (h peer reason : Nat) (p : RemReq → Bool) : State :=
  (s.remote.reqs.filter (fun q => q.handle == h && q.node == peer && p q)).foldl (fun s q => s.remoteDead q reason) s

/-- A request not sent yet: it is held for a creation (R253). -/
def unsent (q : RemReq) : Bool := !q.sent

/-! ### The start of a teardown (R153 step 1, R147, R270) -/

/-- An object belongs to a job. -/
def State.ownObject (s : State) (h : Nat) (c : Closable) : Bool :=
  match c with
  | .ctx n => s.jobOfCtx n == some h
  | .window n => (match tget s.remote.windows n with | some w => w.handle == h | none => false)
  | .fence n => (match tget s.remote.fences n with | some f => f.handle == h | none => false)
  | .descriptor n => (match tget s.red.descs n with | some d => d.handle == h | none => false)
  | .job _ => false

/-- Creations of a job in progress, answered attempts beside an open association among them, are abandoned; the requests held for
one, whether or not it has its entry, are refused (R270). -/
def State.abandonCalls (s : State) (h : Nat) : State :=
  let held := s.remote.reqs.filter (fun q => q.handle == h && unsent q)
  let s : State := { s with assocs := { s.assocs with
    calls := s.assocs.calls.filter (fun c => c.1 != h),
    entries := (s.assocs.entries.filter (fun (a : Assoc) =>
        !(a.handle == h && (a.state == .calling || a.state == .answered)))).map (fun (a : Assoc) =>
      if a.handle = h then { a with answer := none, accept := none, answerKeys := (0, 0) } else a) } }
  held.foldl (fun s q => s.remoteFails q false .squashed 0x0803 0) s

/-- The OPEN regions of a job. -/
def State.openRegions (s : State) (h : Nat) : List Region :=
  (s.regions.filter (fun e => e.2.state != .free && e.2.handle == h && e.2.cls == .opened)).map (·.2)

/-- The µs that a teardown may take: 5 ms and the time of step 7 (R153). -/
def State.teardownBound (s : State) (h : Nat) : Nat :=
  let on (n : Nat) : Nat := (((s.openRegions h).filter (fun r => !r.pooled && stackOf r.base == n)).map (·.size)).sum
  5000 + ((List.range 16).map on).foldl max 0 / 1400000

/-- Step 1 of R153, with the operation that the teardown completes, if it has one. -/
def State.teardownStart (s : State) (h : Nat) (op : Option Nat) : State :=
  match s.job h with
  | none => s
  | some j =>
    let s := match j.state with
      | .admitting => s.completeOpt j.op .squashed []
      | .resizing => s.completeOpt j.resizeOp .squashed []
      | _ => s
    let s := s.modJob h (fun j => { j with state := .closing, step := 2, op := op, resizeOp := none, removing := [],
                                               closeBy := s.now + s.teardownBound h * Config.us })
    let s := j.regions.foldl (fun s e => s.modRegion e.1 (fun r => { r with state := .closing })) s
    let s := match j.letterbox with
      | some lb => if (s.box lb).state = LbxState.unbound ∨ (s.box lb).state = LbxState.closed then s
                   else s.modBox lb (fun b => { b with state := .closing })
      | none => s
    let slots := tmod s.kv.jobRoots h (fun r => { r with state := .draining })
    let s : State := { s with kv := { s.kv with jobRoots := slots } }
    let s := s.squashHeld (fun o k => s.ownObject h o || j.letterbox == some k.lb)
    s.abandonCalls h

/-- The teardown that R305 starts, as if TEARDOWN_JOB had been accepted on letterbox 0: an operation of that letterbox is pending
until its end. No packet gave it a sequence number and a cookie: its completion notice holds free values there (DESIGN CHOICE,
log 29). -/
def State.teardownOp (s : State) (h : Nat) : State :=
  let id := s.sniby.nextOp
  let (seq, s) := s.free 32
  let (cookie, s) := s.free 64
  let o : PendingOp := { id := id, lb := 0, opcode := 0x0401, sequence := seq, cookie := cookie, via := .host 0, accepted := s.now,
                         bound := some (s.now + s.teardownBound h * Config.us) }
  State.teardownStart { s with sniby := { s.sniby with nextOp := id + 1, pendingOps := s.sniby.pendingOps ++ [o] } } h (some id)

/-- A request of a job has met a dead target (R305): the teardown of a job whose manifest asks for it starts, with its notice. -/
def State.deadNode (s : State) (h node ctx address reason op ordinal : Nat) : State :=
  match s.job h with
  | none => s
  | some j =>
    if j.teardownDead ∧ j.state ≠ .closing then
      (s.teardownOp h).postAt s.now 0x0806 .targetDead (obj (remoteObject j.number node ctx))
        (pay (remotePayload address reason op ordinal)) [h] (0 :: j.letterbox.toList)
    else s

/-- The op of class 8 that a request stands for (R295). -/
def ReqKind.op : ReqKind → Nat
  | .read => 1 | .write => 2 | .atomic => 3

/-- An operation on a tray is answered as for a dead target (R304), for reason 1, its timeout, or 3, a revoked node (R271), its request
counted once; a write under a resume record suspends the region (R232). -/
def State.trayDead (s : State) (o : SecOp) (reason : Nat) : State :=
  let r := s.regionX o.region
  let node := r.base / 2 ^ 48
  let q := s.reqOf o.req
  let s := s.fenceTimeout o.id
  let unknown : Bool := match q with | some q => q.kind == ReqKind.atomic | none => false
  let (st, type, why) : Status × Nat × Nat :=
    if unknown then (Status.unknownOutcome, 0x0802, unknownReason reason) else (Status.targetDead, 0x0801, reason)
  let s := match q with
    | none => s
    | some q =>
      let first := q.failure.isNone
      let s : State := { s with remote := { s.remote with
        deadTimeouts := if reason = 1 ∧ first = true then sat64 s.remote.deadTimeouts else s.remote.deadTimeouts,
        outcomeUnknown := if unknown = true ∧ first = true then sat64 s.remote.outcomeUnknown else s.remote.outcomeUnknown } }
      let s := match q.ctx with
        | some c =>
          let s := if reason = 1 ∧ q.kind ≠ ReqKind.write ∧ q.window.isNone then s.missedAt q.id c else s
          s.remoteFault r.handle node c type why st (r.sectorAddress o.sector) q.kind.op 0
        | none => s
      { s with mem := { s.mem with reqs := s.mem.reqs.map (fun (x : Req) =>
          if x.id = q.id then x.fail st type why else x) } }
  let s := if s.mem.resume.any (fun x => x.op == o.id) then s.suspend o.region
    else (s.dropOp o.id).pieceDone o.req (fun q => q.fail st type why)
  match q with
  | some q => s.deadNode r.handle node (q.ctx.getD 0) (r.sectorAddress o.sector) reason q.kind.op 0
  | none => s

/-- `deadNode` for a remote request. -/
def State.deadTeardown (s : State) (q : RemReq) (reason : Nat) : State :=
  s.deadNode q.handle q.node q.ctx q.address reason q.op q.ordinal

/-! ### Sending (R294, R302, R312) -/

/-- The 64-byte header of a request (R294). -/
def State.requestHeader (s : State) (q : RemReq) (again : Bool) : Bytes :=
  let c := s.ctx q.ctx
  let job := q.op ≠ 6
  let route := match tget s.remote.routes q.node with | some r => r.epoch | none => 0
  let m := 2 ^ (8 * q.length)
  enc [(1, q.op), (1, flag again), (2, if job then q.ctx else 0), (4, q.ordinal), (8, if job then q.address else 0),
       (4, if job then q.keyIndex else 0), (1, q.mapEpoch), (1, route), (2, if job then q.length else 0), (4, 0),
       (4, q.atomicSeq), (4, if job then c.confirmed else 0), (1, q.atomicOp), (1, 0), (2, 0),
       (8, if q.op = 3 then q.operand.toNat % m else 0), (8, if q.atomicOp = 6 then q.compare.toNat % m else 0),
       (1, 0), (3, 0), (4, if job then c.incarnation.toNat else 0)]

def State.setRemote (s : State) (q : RemReq) : State :=
  { s with remote := { s.remote with reqs := s.remote.reqs.map (fun (x : RemReq) => if x.id = q.id then q else x) } }

/-- Seals and hands over a request whose association is open; a first sending takes the map epoch it is stamped with, and one with
the retransmit flag is counted (R303, R329). An isolated node sends nothing but its acknowledgements, REDIRECT_ACKs among them
(R432). -/
def State.transmit (s : State) (q : RemReq) (again : Bool) : State :=
  match s.assoc q.handle q.node with
  | none => s
  | some a =>
    if s.fault.isolated = true ∧ (again = true ∨ q.op ≠ 6) then s
    else
      let q := { q with mapEpoch := if q.sent then q.mapEpoch else a.mapEpoch, sent := true, parked := false }
      let s : State := { s with remote := { s.remote with
        retransmissions := if again then sat64 s.remote.retransmissions else s.remote.retransmissions } }
      (s.setRemote q).sealData q.handle q.node q.tc (s.requestHeader q again ++ q.data) ((s.reqOf q.req).map Req.stamp)

/-! ### Entries of the associations (R248, R265, R267, R268) -/

/-- Room for one more entry at a port island, the least recently used open association evicted if need be. -/
def State.entryRoom (s : State) (home : Nat) : Option State :=
  let mine := s.assocs.entries.filter (fun a => a.home == home)
  if mine.length < 512 then some s
  else match mine.filter (fun a => a.state == .opened && a.epochs.length == 1 && !a.waitKeys && a.answer.isNone) with
    | [] => none
    | a :: r =>
      let a := r.foldl (fun m x => if x.lastUse < m.lastUse then x else m) a
      let s := a.ratchetOps.foldl (fun s id => s.complete id .squashed []) (s.removeAssoc a.handle a.peer)
      some (s.modAssocs (fun x => { x with evicted := sat64 x.evicted }))

/-- ASSOC_REFUSED (R286). -/
def State.assocRefused (s : State) (h peer : Nat) (st : Status) (epoch revision : Nat) : State :=
  s.post 0x0701 st (assocObject (s.numberOf h) peer) (assocPayload epoch revision 0) [h]

/-- The requests held for a pair whose node has no route: route misses (R289, R329). -/
def State.missHeld (s : State) (h peer : Nat) : State :=
  (s.remote.reqs.filter (fun q => q.handle == h && q.node == peer && unsent q)).foldl (fun s q =>
    (State.count { s with remote := { s.remote with routeMisses := sat64 s.remote.routeMisses } } islandXB 9 (some q.tc) 1).remoteDead
      q 2) s

/-- Steps 1 to 3 of R248 as far as the CP's queue: the entry is CALLING and its HELLO takes a place (R251); a creation that finds no
entry waits for one (R268). -/
def State.callStart (s : State) (h peer : Nat) : State :=
  let s := s.modAssocs (fun x => { x with calls := x.calls.filter (fun c => c != (h, peer)) })
  if s.serving h = false ∨ (s.assoc h peer).isSome then s
  else if peer ∈ s.assocs.revoked then s.giveUp h peer 3 (fun _ => true)
  else
    let floor := match s.job h with | some j => j.epochFloor | none => 0
    if maxEpoch < floor then (s.assocRefused h peer .noFit floor 0).giveUp h peer 1 unsent
    else match s.routePort peer with
      | none => s.missHeld h peer
      | some home =>
        match s.entryRoom home with
        | none => s.modAssocs (fun x => { x with calls := x.calls ++ [(h, peer)] })
        | some s =>
          let s := s.putAssoc { handle := h, peer := peer, state := .calling, home := home, proposed := floor,
                                calledAt := s.now, dueAt := max s.now (tgetD s.assocs.noHello peer 0) }
          if s.sniby.places.length < 4096
          then { s with sniby := { s.sniby with places := s.sniby.places ++ [.hello h peer] } }
          else s

/-- Sends a request, or holds it until its association is open (R253, R254). -/
def State.sendRemote (s : State) (q : RemReq) (again : Bool) : State :=
  match s.assoc q.handle q.node with
  | some a => if a.seals then s.transmit q again else s
  | none => s.callStart q.handle q.node

/-- Inbound requests of a pair whose streams are gone answer nobody (R303). -/
def State.orphan (s : State) (h peer : Nat) : State :=
  let f (q : Req) : Req := match q.origin with
    | .stream i => if i.handle = h ∧ i.peer = peer then { q with origin := .stream { i with orphan := true } } else q
    | _ => q
  { s with mem := { s.mem with reqs := s.mem.reqs.map f, finished := s.mem.finished.map f } }

/-- The end of an association's close (R267): keys zeroised, the entry freed; requests that wait start R248. -/
def State.closeAssoc (s : State) (h peer : Nat) : State :=
  match s.assoc h peer with
  | none => s
  | some a =>
    let s := (s.removeAssoc h peer).orphan h peer
    let s := a.ratchetOps.foldl (fun s id => s.complete id .squashed []) s
    let s := s.completeOpt a.closeOp .done []
    if s.remote.reqs.any (fun q => q.handle == h && q.node == peer && unsent q) then s.callStart h peer else s

/-- The first ordinals of new streams for the requests of a pair, in their original order (R303). -/
def renumber (h peer : Nat) : List RemReq → List Nat → List RemReq
  | [], _ => []
  | q :: r, next =>
    if q.handle = h ∧ q.node = peer then
      let o := next.getD q.tc 1
      { q with ordinal := o } :: renumber h peer r (setAt next q.tc (nextOrdinal o))
    else q :: renumber h peer r next

/-- The last ordinal among the requests of a stream, zero when it has none. -/
def lastOrdinal (l : List RemReq) (h peer tc : Nat) : Nat :=
  match (l.filter (fun q => q.handle == h && q.node == peer && q.tc == tc)).getLast? with
  | some q => q.ordinal
  | none => 0

/-- The streams of a pair start afresh; a fence's recorded ordinals follow its requests. -/
def State.freshStreams (s : State) (h peer : Nat) : State :=
  let reqs := renumber h peer s.remote.reqs [1, 1, 1, 1]
  let s := (s.orphan h peer).modAssoc h peer (fun a => { a with
    streams := (List.range 4).map (fun tc =>
      { nextOrd := nextOrdinal (lastOrdinal reqs h peer tc) }), heldAhead := [], mapEpoch := 0 })
  { s with remote := { s.remote with
      reqs := reqs,
      fences := tmap s.remote.fences (fun _ f =>
        { f with nodes := f.nodes.map (fun (n : FenceNode) =>
          if n.handle = h ∧ n.node = peer then
            { n with ords := (List.range 4).map (lastOrdinal (reqs.filter (fun q => decide (q.id ∈ n.remote))) h peer) }
          else n) }) } }

/-- The association is OPEN (R248 step 7, R249): its floor and count, new streams, and every request of the pair sent in its
original order, those of an old association with the retransmit flag (R303). -/
def State.opened (s : State) (h peer epoch : Nat) : State :=
  let s := s.enterEpoch h peer epoch
  let s := s.modAssocs (fun x => { x with created := sat64 x.created })
  let s := s.freshStreams h peer
  (s.remote.reqs.filter (fun q => q.handle == h && q.node == peer)).foldl (fun s q =>
    s.transmit { q with sent := false } q.sent) s

/-! ### A tile's remote request (R287 to R289, R297, R302) -/

/-- The pieces of a request that no 4,096-byte boundary splits, and of a write the runs of bytes to be written: position and
length. -/
def piecesOf (address : Nat) : List Bool → Nat → List (Nat × Nat)
  | [], _ => []
  | false :: r, k => piecesOf address r (k + 1)
  | true :: r, k =>
    match piecesOf address r (k + 1) with
    | (o, n) :: rest =>
      if o = k + 1 ∧ (address + o) % 4096 ≠ 0 then (k, n + 1) :: rest else (k, 1) :: (o, n) :: rest
    | [] => [(k, 1)]

/-- The port island that a request is bound to. -/
def State.homeOf (s : State) (h node : Nat) : Nat :=
  match s.assoc h node with | some a => a.home | none => (s.routePort node).getD 0

/-- The requests that a port island holds for creations (R253): fewer than 64 of each association and 1,024 in all leave room for
one more. -/
def State.holdRoom (s : State) (port : Nat) : Bool :=
  let held := s.remote.reqs.filter (fun q => unsent q && !q.parked && s.homeOf q.handle q.node == port)
  let of (h node : Nat) : Nat := (held.filter (fun q => q.handle == h && q.node == node)).length
  held.all (fun q => decide (of q.handle q.node < 64)) && decide (held.length < 1024)

/-- Room in a port island for the headers and data kept (R302), and for the packets held for creations: at either limit of R253 XB
withholds every further packet bound to the port island, in the order of their acceptance. -/
def State.portRoom (s : State) (port : Nat) (bytes pieces : Nat) : Bool :=
  let mine := s.remote.reqs.filter (fun q => s.homeOf q.handle q.node == port)
  decide ((mine.map (fun q => 64 + q.data.length)).sum + bytes + 64 * pieces ≤ 196608)
    && mine.all (fun q => !q.parked) && s.holdRoom port

/-- The association of a pair does not seal: its requests are held for its creation (R254). -/
def State.holds (s : State) (h node : Nat) : Bool := match s.assoc h node with | some a => !a.seals | none => true

/-- The parts of requests that wait in XB go on to their port island, in order, as its places become free (R253). -/
def State.parkedSettle (s : State) : State :=
  (s.remote.reqs.filter (·.parked)).foldl (fun (s : State) (q : RemReq) =>
    let port := s.homeOf q.handle q.node
    let first : Option Nat := (s.remote.reqs.find? (fun x => x.parked && s.homeOf x.handle x.node == port)).map (·.id)
    if first = some q.id ∧ s.holdRoom port = true then (s.setRemote { q with parked := false }).sendRemote { q with parked := false } false
    else s) s

/-! ### TC0 places (R378) -/

/-- TC0 requests within budget that wait at a port: in the two places of its transmit arbiter, then in the three of XB's output channel
to it. A demoted one has none of these places (R373). -/
def State.tc0At (s : State) (port : Nat) : Nat :=
  (s.boot.heldItems.filter (fun x => x.port == port && s.heldLevel x == 7)).length
    + ((s.red.descs.filter (fun e => e.2.port == port)).map (fun e => (e.2.waiting.filter (fun c => c.level == 7)).length)).sum

/-- XB takes no TC0 tile request within budget for a port while every TC0 place of its output channel is taken: it waits in the tile
crossbar. -/
def State.tc0Full (s : State) (ctx h tc port : Nat) : Bool :=
  decide (tc = 0) && s.hasTc0 h && decide ((s.master h 0 1 port).outstanding < s.ctxBudget (some ctx) h 0 1)
    && decide (2 + 3 ≤ s.tc0At port)

/-- A TC0 request that finds the places of the port's arbiter taken waits in XB for one, and is counted. -/
def State.tc0Wait (s : State) (level port : Nat) : State :=
  if level = 7 ∧ 2 ≤ s.tc0At port then s.count islandXB 8 (some 0) 1 else s

/-- What a tile asks of another node. -/
structure RemAsk where
  tile     : Nat
  tag      : BitVec 16
  op       : Nat
  handle   : Nat
  ctx      : Nat
  tc       : Nat
  keyIndex : Nat
  address  : Nat
  length   : Nat
  data     : Bytes := []
  mask     : List Bool := []
  atomicOp : Nat := 0
  operand  : BitVec 64 := 0
  compare  : BitVec 64 := 0

/-- A request that goes nowhere is answered at once with TARGET_DEAD, or as R304 gives for an atomic. -/
def State.turnedAway (s : State) (a : RemAsk) (reason : Nat) : State :=
  let node := a.address / 2 ^ 48
  let unknown := a.op == 3 && reason == 3
  let (type, st, why) : Nat × Status × Nat :=
    if unknown then (0x0802, .unknownOutcome, unknownReason reason) else (0x0801, .targetDead, reason)
  let s : State := if unknown
    then { s with remote := { s.remote with outcomeUnknown := sat64 s.remote.outcomeUnknown } } else s
  let s := s.remoteFault a.handle node a.ctx type why st a.address a.op 0
  s.tileAnswer a.tile (some a.ctx) (errorResponse a.tag st type why (if a.op = 1 then a.length else 0))

/-- A request to a node without a route (R289). -/
def State.routeMiss (s : State) (a : RemAsk) : State :=
  let s : State := { s with remote := { s.remote with routeMisses := sat64 s.remote.routeMisses } }
  (s.count islandXB 9 (some a.tc) 1).turnedAway a 2

/-- A request to a revoked node (R304, R305). -/
def State.revokedNode (s : State) (a : RemAsk) : State :=
  (s.turnedAway a 3).deadNode a.handle (a.address / 2 ^ 48) a.ctx a.address 3 a.op 0

/-- Accepts a remote request: it is charged, split, numbered and sent or held.  A head that finds no room in its port, no
TC0 place, or a 65th unanswered atomic, is not acknowledged: nothing changes. -/
def State.issue (s : State) (a : RemAsk) : State :=
  let node := a.address / 2 ^ 48
  match s.routePort node with
  | none => s.routeMiss a
  | some port =>
    if s.boot.nodeNumber = 0xFFFF ∨ node = 0xFFFF then s.routeMiss a
    else if node ∈ s.assocs.revoked then s.revokedNode a
    else if s.fault.isolated then s.turnedAway a 4
    else
      let c := s.ctx a.ctx
      let home := s.homeOf a.handle node
      let pieces := if a.op = 3 then [(0, a.length)]
        else piecesOf a.address (if a.op = 2 then a.mask else List.replicate a.length true) 0
      let bytes := if a.op = 2 then (pieces.map (·.2)).sum else 0
      if (a.op = 3 ∧ 64 ≤ c.unanswered.length) ∨ s.portRoom home bytes pieces.length = false
          ∨ s.tc0Full a.ctx a.handle a.tc home = true then s
      else
        let (tc, s) := s.reclass a.handle a.tc
        let charged := (pieces.map (fun e => 104 + (if a.op = 2 then e.2 else 0))).sum
        let (level, s) := s.charge (some a.ctx) a.handle tc 1 port charged none
        let s := s.tc0Wait level home
        let s := s.modCounters a.handle (fun k => { k with
          requests := addAt k.requests tc 1, bytes := addAt k.bytes tc charged, remoteSent := sat64 k.remoteSent })
        let id := s.mem.nextId
        let T := (match s.job a.handle with | some j => j.timeout | none => 20) * Config.us
        let r : Req := { id := id, origin := .tile a.tile a.tag,
                         kind := if a.op = 1 then .read else if a.op = 2 then .write else .atomic,
                         code := 4 + a.op, ctx := some a.ctx, handle := a.handle, keyIndex := a.keyIndex, address := a.address,
                         length := a.length, tc := tc, level := level, accepted := s.now, timeout := T,
                         left := max 1 pieces.length, data := zeros (if a.op = 1 then a.length else 0), failure := none,
                         result := 0, window := none, master := a.handle, tkind := 1, target := port, charged := charged,
                         within := level != 0 }
        let s := s.raiseStream (fun q => q.tkind == 1 && q.handle == a.handle && q.tc == tc && q.address / 2 ^ 48 == node) level
        let s : State := { s with
          mem := { s.mem with reqs := s.mem.reqs ++ [r], nextId := id + 1 },
          remote := { s.remote with requestsSent := satAdd 64 s.remote.requestsSent pieces.length } }
        let s := s.traceRec islandXB 0x10 (some a.handle) (some a.ctx)
          [(8, a.address), (2, a.ctx), (1, 4 + a.op), (1, tc), (2, a.length), (4, a.keyIndex), (2, 0)]
        let s := (s.count islandXB 2 (some tc) 1).count islandXB 3 (some tc) pieces.length
        let s := if level = 0 then s.count islandXB 6 (some tc) 1 else s
        if pieces.isEmpty then s.pieceDone id (fun q => q)
        else
          let s := s.modCtx a.ctx (fun c => { c with
            atomicSeq := if a.op = 3 then nextOrdinal c.atomicSeq else c.atomicSeq,
            unanswered := if a.op = 3 then c.unanswered ++ [c.atomicSeq] else c.unanswered,
            dests := if a.op = 1 ∨ node ∈ c.dests then c.dests else c.dests ++ [node] })
          pieces.foldl (fun s e =>
            let ord := (s.stream a.handle node tc).nextOrd
            let q : RemReq := { id := s.mem.nextId, req := id, op := a.op, ctx := a.ctx, handle := a.handle, node := node,
                                tc := tc, ordinal := ord, address := a.address + e.1, keyIndex := a.keyIndex, length := e.2,
                                data := if a.op = 2 then slice a.data e.1 e.2 else [], pos := e.1, atomicOp := a.atomicOp,
                                operand := a.operand, compare := a.compare,
                                atomicSeq := if a.op = 3 then c.atomicSeq else 0, mapEpoch := 0, accepted := s.now,
                                timeout := T, retries := 0, sent := false, restamped := false,
                                parked := s.holds a.handle node && !s.holdRoom home }
            let s := s.modStream a.handle node tc (fun t => { t with nextOrd := nextOrdinal t.nextOrd })
            let s : State := { s with mem := { s.mem with nextId := s.mem.nextId + 1 },
                                      remote := { s.remote with reqs := s.remote.reqs ++ [q] } }
            s.sendRemote q false) s

/-! ### Timers (R303, R304) -/

/-- RETRANSMIT_TIMER (R303): at T/4, T/2 and 3T/4, unless the node is isolated (R432), or the request still waits in XB (R253). -/
def State.retransmit (s : State) (id : Nat) : State :=
  match s.remote.reqs.find? (fun q => q.id == id) with
  | none => s
  | some q =>
    if 3 ≤ q.retries ∨ s.now < q.accepted + (q.retries + 1) * q.timeout / 4 ∨ s.fault.isolated = true then s
    else
      let q := { q with retries := q.retries + 1 }
      let s := s.setRemote q
      match s.assoc q.handle q.node with
      | none => s.callStart q.handle q.node
      | some a =>
        if a.seals = true ∧ q.parked = false then s.transmit q q.sent else s

/-- DEAD_TARGET_TIMEOUT of a remote request (R304, R305). -/
def State.remoteTimeout (s : State) (q : RemReq) : State :=
  if s.now < q.accepted + q.timeout then s
  else if q.req = 0 then s.remoteDead q 1
  else
    let s : State := { s with remote := { s.remote with deadTimeouts := sat64 s.remote.deadTimeouts } }
    (s.remoteDead q 1).deadTeardown q 1

/-! ### Responses (R300, R301, R318) -/

/-- A field of a remote header (R294). -/
def hdr (b : Bytes) (off len : Nat) : Nat := field b off len

/-- A request that a fence recorded takes a new ordinal: the fence waits for that one (R318, R321; DEDUCED, log 57). -/
def State.fenceFollows (s : State) (x : RemReq) (ord : Nat) : State :=
  { s with remote := { s.remote with fences := tmap s.remote.fences (fun _ f =>
      { f with nodes := f.nodes.map (fun (n : FenceNode) =>
          if n.handle = x.handle ∧ n.node = x.node ∧ x.id ∈ n.remote then { n with ords := setAt n.ords x.tc ord } else n) }) } }

/-- The issuer adopts a map epoch and sends its stream again (R318). -/
def State.restamp (s : State) (q : RemReq) (epoch : Nat) : State :=
  let old := q.mapEpoch
  let s := s.modAssoc q.handle q.node (fun a => { a with mapEpoch := epoch })
  let mine := s.remote.reqs.filter (fun x => x.handle == q.handle && x.node == q.node && x.tc == q.tc && x.sent
    && x.mapEpoch == old && !x.restamped)
  mine.foldl (fun s x =>
    let ord := (s.stream x.handle x.node x.tc).nextOrd
    let s := s.modStream x.handle x.node x.tc (fun t => { t with nextOrd := nextOrdinal t.nextOrd })
    let x := { x with ordinal := ord, mapEpoch := epoch, restamped := true }
    ((s.setRemote x).fenceFollows x ord).transmit x false) s

/-- An applied_through of a stream (R300, R301): the stores it covers complete, all but one that the response itself answers. -/
def State.appliedThrough (s : State) (h peer tc n : Nat) (but : Nat := 0) : State :=
  let s := s.modStream h peer tc (fun t =>
    let upto := if covered t.appliedTx n then n else t.appliedTx
    { t with appliedTx := upto, timed := t.timed.filter (fun o => !covered o upto) })
  (s.remote.reqs.filter (fun q => q.handle == h && q.node == peer && q.tc == tc && (q.op == 2 || q.op == 6)
      && covered q.ordinal n && q.sent && q.id != but)).foldl (fun s q => s.remoteDone q [] 0) s

/-- The request that a response answers. -/
def asked (op : Nat) : Nat := if op = 0x81 then 1 else if op = 0x83 then 3 else 2

/-- LOAD_RESPONSE, ATOMIC_RESPONSE, STORE_NAK and STORE_ACK at the issuer (R301, R304, R315, R318): what the applied_through of a refusal
covers is complete, and not sent again. -/
def State.response (s : State) (h peer tc : Nat) (b : Bytes) : State :=
  let op := hdr b 0 1
  let st := (Status.ofCode (hdr b 38 2)).getD .integrityLost
  let reason := hdr b 56 1
  let epoch := hdr b 20 1
  let s := if op = 0x82 then s
    else match s.remote.reqs.find? (fun q => q.handle == h && q.node == peer && q.tc == tc && q.op == asked op && q.sent
        && q.ordinal == hdr b 4 4) with
      | none =>
        let c := hdr b 2 2
        if (s.ctx c).state = .free ∨ ((s.ctx c).state = .closing ∧ 7 < (s.ctx c).step) then
          (s.modDead (fun d => { d with fabricResponses := sat64 d.fabricResponses })).deadCtx c
        else { s with remote := { s.remote with late := sat64 s.remote.late } }
      | some q =>
        if st = .done ∧ op ≠ 0x86 then s.remoteDone q (b.drop 64) (BitVec.ofNat 64 (hdr b 40 8))
        else if st = .badState ∧ reason = 1 ∧ q.restamped = false then
          (s.appliedThrough h peer tc (hdr b 24 4) q.id).restamp q epoch
        else if op = 0x83 ∧ st = .unknownOutcome then
          State.remoteFails { s with remote := { s.remote with outcomeUnknown := sat64 s.remote.outcomeUnknown } } q true st
            0x0802 0
        else s.remoteFails q true st 0x0803 reason
  let s := s.modAssoc h peer (fun a => { a with mapEpoch := epoch })
  s.appliedThrough h peer tc (hdr b 24 4)

/-! ### Fences (R321 to R323) -/

/-- The pooled writes of a job to a node that are not complete. -/
def State.pooledWrites (s : State) (h node : Nat) : List Nat :=
  (s.mem.ops.filter (fun o => o.kind != .read && (s.regionX o.region).pooled && (s.regionX o.region).handle == h
    && (s.regionX o.region).base / 2 ^ 48 == node)).map (·.id)

/-- What an arm records for a node; one with which the job holds no association, and to which no pooled write is outstanding, is
satisfied (R322). -/
def State.fenceNode (s : State) (h node : Nat) : FenceNode :=
  { handle := h, node := node, ords := (List.range 4).map (fun tc =>
      ((s.stream h node tc).nextOrd + 2 ^ 32 - 1) % 2 ^ 32),
    remote := (s.remote.reqs.filter (fun q => q.handle == h && q.node == node)).map (·.id),
    pooled := s.pooledWrites h node,
    markers := (s.remote.markers.filter (fun m => m.node == node)).map (·.id),
    timedOut := false,
    reqTimed := (match s.assoc h node with | some a => a.streams.any (fun t => !t.timed.isEmpty) | none => false),
    satisfied := (s.assoc h node).isNone && (s.pooledWrites h node).isEmpty }

/-- The nodes in the scope of a fence of a job (R322). -/
def State.scopeNodes (s : State) (h scope : Nat) : List Nat :=
  if scope ≠ 0xFFFF then [scope]
  else
    let peers := (s.assocs.entries.filter (fun a => a.handle == h)).map (·.peer)
    let trays := (s.regions.filter (fun e => e.2.state != .free && e.2.handle == h && e.2.pooled)).map
      (fun e => e.2.base / 2 ^ 48)
    (peers ++ trays).eraseDups

/-- Arms a fence object. -/
def State.arm (s : State) (n scope : Nat) (nodes : List Nat) (f : Fence → Fence) : State :=
  { s with remote := { s.remote with fences := tmodD s.remote.fences n {} (fun x =>
      let x := f x
      { x with state := .armed, scope := scope, nodes := nodes.map (s.fenceNode x.handle), armedAt := s.now, missed := 0 }) } }

/-- The reserved fence objects that are free (R152). -/
def State.freeFences (s : State) : List Nat :=
  ((List.range 64).map (8128 + ·)).filter (fun n => (tgetD s.remote.fences n {}).state == .free)

/-- Takes a free reserved fence object (R152, R321) and arms it over the destinations of contexts: job handle and node. -/
def State.armReserved (s : State) (dests : List (Nat × Nat)) : Option (Nat × State) :=
  match s.freeFences with
  | [] => none
  | n :: _ =>
    let f : Fence := { state := .armed, scope := 0xFFFF, nodes := dests.map (fun e => s.fenceNode e.1 e.2), armedAt := s.now,
                       handle := 0xFFFF }
    some (n, { s with remote := { s.remote with fences := tput s.remote.fences n f } })

/-- Frees a reserved fence object. -/
def State.freeReserved (s : State) (n : Nat) : State :=
  { s with remote := { s.remote with fences := tdel s.remote.fences n } }

/-- applied_through has reached every ordinal that a fence recorded for a node (R322). -/
def State.streamsCovered (s : State) (n : FenceNode) : Bool :=
  match s.assoc n.handle n.node with
  | none => false
  | some a => a.seals && (List.range 4).all (fun tc =>
      n.ords.getD tc 0 == 0 || covered (n.ords.getD tc 0) (a.streams.getD tc {}).appliedTx)

/-- A node in scope is satisfied (R322): the recorded pooled writes and drain markers have ended, and every recorded ordinal is
covered, or no recorded request is left. -/
def State.nodeSatisfied (s : State) (n : FenceNode) : Bool :=
  n.satisfied
    || (n.pooled.all (fun id => (s.secOp id).isNone)
        && n.markers.all (fun id => !s.remote.markers.any (fun m => m.id == id))
        && (s.streamsCovered n || n.remote.all (fun id => !s.remote.reqs.any (fun q => q.id == id))))

/-- A node in scope as it stands now: one that is satisfied by the timeout of a request, whose stream is not covered yet, counts as
satisfied by timeout; one whose stream was covered late does not (R322, R323). -/
def State.fenceNodeNow (s : State) (n : FenceNode) : FenceNode :=
  if n.satisfied = true ∨ s.nodeSatisfied n = false then n
  else { n with satisfied := true, timedOut := n.timedOut || (n.reqTimed && !s.streamsCovered n) }

/-- The nodes that an arm found satisfied by timeout so far (R328). -/
def Fence.timeouts (f : Fence) : Nat :=
  if f.state = .armed then (f.nodes.filter (fun n => n.satisfied && n.timedOut)).length else f.missed

/-- A fence whose nodes are all satisfied completes: IDLE, its operation and its tile answered (R323). -/
def State.fenceEnds (s : State) (n : Nat) (f : Fence) : State :=
  let missed := (f.nodes.filter (·.timedOut)).length
  let st : Status := if missed = 0 then .done else .targetDead
  let idle : Fence := { f with state := .idle, op := none, tileReq := none, missed := missed }
  let s : State := { s with remote := { s.remote with fences := tput s.remote.fences n idle } }
  let s := s.completeOpt f.op st [(4, missed)]
  match f.tileReq with
  | some r => s.tileAnswer (r / 65536) (some f.tileCtx) { tag := BitVec.ofNat 16 r, status := st, noticeType := 0, reason := 0,
                                                          data := [], result := BitVec.ofNat 64 missed }
  | none => s

/-- Every armed fence: the nodes now satisfied, and the fences that complete. -/
def State.fencesSettle (s : State) : State :=
  s.remote.fences.foldl (fun s e =>
    if e.2.state = .armed then
      let f : Fence := { e.2 with nodes := e.2.nodes.map s.fenceNodeNow }
      if f.nodes.all (·.satisfied) then s.fenceEnds e.1 f
      else { s with remote := { s.remote with fences := tput s.remote.fences e.1 f } }
    else s) s

end Machine
end Sys2Proof
end

