-- ==== Sys2Proof/Machine/Inbound.lean ====
section
/-!
DEFINITION. Machine/Inbound.lean: the target's side of remote access (R292, R295, R298 to R300, R307 to R319): streams,
windows, pigeonholes, acknowledgements, drain markers and redirects.
-/

namespace Sys2Proof
namespace Machine

/-! ### Remote headers (R294, R295) -/

/-- The fields of a remote header: offset and length. -/
def headerFields : List (Nat × Nat) :=
  [(1, 1), (2, 2), (4, 4), (8, 8), (16, 4), (20, 1), (21, 1), (22, 2), (24, 4), (28, 4), (32, 4), (36, 1), (37, 1), (38, 2),
   (40, 8), (48, 8), (56, 1), (57, 3), (60, 4)]

/-- The offsets of the fields that an op uses; none for an op that is not defined (R295). -/
def usedFields (op : Nat) : Option (List Nat) :=
  let request := [1, 2, 4, 8, 16, 20, 21, 22, 32, 60]
  let response := [2, 4, 20, 21, 24, 38, 56]
  match op with
  | 0x01 => some request
  | 0x02 => some request
  | 0x03 => some (request ++ [28, 36, 40, 48])
  | 0x04 => some [21]
  | 0x05 => some [20, 21]
  | 0x06 => some [1, 4, 20, 21]
  | 0x81 => some (22 :: response)
  | 0x82 => some [2, 4, 20, 21, 24]
  | 0x83 => some (28 :: 40 :: response)
  | 0x84 => some [20, 21]
  | 0x86 => some response
  | _ => none

/-- The body is a remote header of this node with its data (R293 to R295). -/
def wellFormedBody (node : Nat) (b : Bytes) : Bool :=
  let op := hdr b 0 1
  let data := b.length - 64
  decide (64 ≤ b.length) && (match usedFields op with
    | none => false
    | some used =>
      headerFields.all (fun e => decide (e.1 ∈ used) || hdr b e.1 e.2 == 0)
        && decide (hdr b 1 1 < 2) && decide (hdr b 2 2 < 4096) && decide (hdr b 16 4 < 2 ^ 20) && decide (hdr b 21 1 < 16)
        && (if op = 1 ∨ op = 2 then decide (1 ≤ hdr b 22 2) && decide (hdr b 22 2 ≤ 4096)
            else if op = 3 then (hdr b 22 2 == 4 || hdr b 22 2 == 8) && (hdr b 36 1 == 6 || hdr b 48 8 == 0)
            else true)
        && (if op = 1 ∨ op = 2 ∨ op = 3 then hdr b 14 2 == node else true)
        && data == (if op = 2 ∨ (op = 0x81 ∧ hdr b 38 2 = 0) then hdr b 22 2 else 0))

/-- Epoch of the route to a node, for the headers this node sends. -/
def State.routeEpoch (s : State) (node : Nat) : Nat :=
  match tget s.remote.routes node with | some r => r.epoch | none => 0

/-- A job's current map epoch (R317). -/
def State.mapEpochOf (s : State) (h : Nat) : Nat := match s.job h with | some j => j.mapEpoch | none => 0

/-- The body of a response (R294, R295). -/
def State.responseBody (s : State) (i : Inbound) (op : Nat) (st : Status) (reason : Nat) (result : BitVec 64)
    (data : Bytes) : Bytes :=
  let map := s.mapEpochOf i.handle
  let named := op ≠ 0x82
  enc [(1, op), (1, 0), (2, i.ctx), (4, i.ordinal), (8, 0), (4, 0), (1, map),
       (1, s.routeEpoch i.peer), (2, if op = 0x81 then i.length else 0),
       (4, (s.stream i.handle i.peer i.tc).appliedRx), (4, if op = 0x83 then i.atomicSeq else 0), (4, 0), (1, 0), (1, 0),
       (2, if named then st.code else 0), (8, if op = 0x83 then result.toNat else 0), (8, 0),
       (1, if named then reason else 0), (3, 0), (4, 0)] ++ data

/-! ### Applying and acknowledging (R299, R300) -/

/-- Advances the ordinal up to which every request has been applied. -/
def advanceApplied : Nat → StreamSt → StreamSt
  | 0, t => t
  | k + 1, t =>
    let n := nextOrdinal t.appliedRx
    match t.ahead.find? (fun e => e.1 == n) with
    | none => t
    | some e => advanceApplied k { t with appliedRx := n, ahead := t.ahead.filter (fun x => x != e),
                                          newestStore := if e.2.isSome then n else t.newestStore,
                                          newestCtx := e.2.getD t.newestCtx }

/-- A request of a stream has been applied; a store, with its context. -/
def StreamSt.apply (t : StreamSt) (ordinal : Nat) (store : Option Nat) (now : Nat) : StreamSt :=
  let t := { t with ahead := (ordinal, store) :: t.ahead,
                    stores := if store.isSome then t.stores + 1 else t.stores,
                    firstAt := if store.isSome = true ∧ t.stores = 0 then now else t.firstAt }
  advanceApplied t.ahead.length t

/-- An acknowledgement is due: applied_through has advanced, and 16 stores, or 0.25 µs, have passed (R300). -/
def StreamSt.due (t : StreamSt) (now : Nat) : Bool :=
  t.appliedRx != t.acked && (decide (16 ≤ t.stores) || (decide (0 < t.stores) && decide (t.firstAt + 1000 ≤ now)))

/-- Sends a STORE_ACK of a stream. -/
def State.sendAck (s : State) (h peer tc : Nat) : State :=
  let t := s.stream h peer tc
  let i : Inbound := { handle := h, peer := peer, tc := tc, ordinal := t.newestStore, op := 2, dup := false, ctx := t.newestCtx,
                       atomicSeq := 0, incarnation := 0, address := 0, length := 0, window := 0 }
  let b := s.responseBody i 0x82 .done 0 0 []
  let s := s.modStream h peer tc (fun t => { t with acked := t.appliedRx, stores := 0 })
  s.sealData h peer tc b

/-- STORE_ACK_TIMER (R300). -/
def State.ackTimer (s : State) (h peer tc : Nat) : State :=
  if (s.stream h peer tc).due s.now then s.sendAck h peer tc else s

/-! ### Pigeonholes (R313 to R316) -/

/-- The row is bound to the source of a request. -/
def Row.bound (r : Row) (i : Inbound) : Bool :=
  r.src == i.peer && r.handle == i.handle && r.ctx == i.ctx && r.incarnation == i.incarnation

/-- Marks as confirmed what a request's confirmed_through covers. -/
def State.confirmHoles (s : State) (i : Inbound) (upto : Nat) : State :=
  { s with remote := { s.remote with rows := s.remote.rows.map (fun (r : Row) =>
      if r.bound i then { r with holes := r.holes.map (fun (p : Pigeonhole) =>
        { p with confirmed := p.confirmed || covered p.seq upto }) } else r) } }

/-- When the newest outcome of a row was recorded. -/
def Row.newest (r : Row) : Nat := (r.holes.map (·.applied)).foldl max 0

/-- Takes a row for a source that has none. -/
def State.takeRow (s : State) (i : Inbound) : State :=
  let new : Row := { src := i.peer, handle := i.handle, ctx := i.ctx, incarnation := i.incarnation, holes := [] }
  let put (s : State) (rows : List Row) : State := { s with remote := { s.remote with rows := rows ++ [new] } }
  if s.remote.rows.any (fun r => r.bound i) then s
  else if s.remote.rows.length < 4096 then put s s.remote.rows
  else match s.remote.rows.find? (fun r => r.holes.all (·.confirmed)) with
    | some r => put s (s.remote.rows.erase r)
    | none =>
      match s.remote.rows with
      | [] => s
      | a :: l =>
        let r := l.foldl (fun (m x : Row) => if x.newest < m.newest then x else m) a
        let s := put s (s.remote.rows.erase r)
        if r.newest + 2 * Config.ms < s.now then s
        else
          State.postLimited { s with remote := { s.remote with rowsEarly := sat64 s.remote.rowsEarly } } (10 * Config.us) 0x0805
            (r.src * 4096 + r.ctx) .noFit (remoteObject (s.numberOf r.handle) r.src r.ctx) (remotePayload 0 0 0 0) [r.handle] []

/-- Records an atomic's outcome in its source's row (R314). -/
def State.recordHole (s : State) (i : Inbound) (st : Status) (reason : Nat) (result : BitVec 64) : State :=
  let s := s.takeRow i
  let p : Pigeonhole := { seq := i.atomicSeq, confirmed := false, status := st, reason := reason, result := result,
                          applied := s.now }
  match s.remote.rows.find? (fun r => r.bound i) with
  | none => s
  | some r =>
    let rest := r.holes.filter (fun (x : Pigeonhole) => x.seq != p.seq)
    let (rest, early) : List Pigeonhole × Bool :=
      if rest.length < 64 then (rest, false)
      else match rest.find? (·.confirmed) with
        | some x => (rest.erase x, false)
        | none => (match rest with
          | a :: l => (rest.erase (l.foldl (fun (m x : Pigeonhole) => if x.applied < m.applied then x else m) a), true)
          | [] => ([], false))
    { s with remote := { s.remote with
        rows := s.remote.rows.map (fun (x : Row) => if x.bound i then { x with holes := rest ++ [p] } else x),
        rowsEarly := if early then sat64 s.remote.rowsEarly else s.remote.rowsEarly } }

/-! ### Answers of the target (R299, R300, R309) -/

/-- A request of a stream has been carried out or refused: it is applied, its outcome recorded, and it is answered. -/
def State.inboundEnds (s : State) (i : Inbound) (st : Status) (reason : Nat) (result : BitVec 64) (data : Bytes)
    (record : Bool) (stamp : Option Stamp := none) : State :=
  let s := if i.op = 3 ∧ record = true then s.recordHole i st reason result else s
  if i.orphan = true ∨ (s.assoc i.handle i.peer).isNone then s
  else
    let s := if i.dup then s
      else s.modStream i.handle i.peer i.tc (fun t => t.apply i.ordinal (if i.op = 2 then some i.ctx else none) s.now)
    let s := match i.op with
      | 1 => s.sealData i.handle i.peer i.tc
               (s.responseBody i 0x81 st reason 0 (if st = Status.done then data else [])) stamp
      | 3 => s.sealData i.handle i.peer i.tc (s.responseBody i 0x83 st reason result []) stamp
      | 2 => if st = Status.done then s else s.sealData i.handle i.peer i.tc (s.responseBody i 0x86 st reason 0 []) stamp
      | _ => s
    s.ackTimer i.handle i.peer i.tc

/-- A refusal of R309: counted, and reported to the target's job against the window's context. -/
def State.inboundRefused (s : State) (i : Inbound) (window : Option Nat) (st : Status) (reason : Nat) : State :=
  let s : State := { s with remote := { s.remote with
    inboundRefused := sat64 s.remote.inboundRefused,
    staleMap := if st = .badState then sat64 s.remote.staleMap else s.remote.staleMap } }
  match window with
  | some n =>
    let w := tgetD s.remote.windows n {}
    let windows := tmod s.remote.windows n (fun w => { w with refusals := sat64 w.refusals })
    State.raiseFault { s with remote := { s.remote with windows := windows } } islandXB w.ctx 0x0804 reason
      (10 * Config.us) w.ctx st (remoteObject (s.numberOf i.handle) i.peer n)
      (remotePayload i.address reason i.op i.ordinal)
  | none =>
    s.postLimited (10 * Config.us) 0x0804 (4096 + i.handle) st (remoteObject (s.numberOf i.handle) i.peer 0xFFFF)
      (remotePayload i.address reason i.op i.ordinal) [i.handle] []

/-- A request translated through a window has been carried out at its memory island (R309 check 10). -/
def State.inboundDone (s : State) (i : Inbound) (q : Req) : State :=
  match q.failure with
  | none =>
    (if q.kind = .atomic then s.modCounters i.handle (fun k => { k with atomics := sat64 k.atomics }) else s).inboundEnds i .done 0
      q.result q.data true (some q.stamp)
  | some f =>
    let (st, reason) : Status × Nat := if f.1 = .integrityLost then (.integrityLost, 9) else (.notPermitted, 6)
    (s.inboundRefused i (some i.window) st reason).inboundEnds i st reason 0 [] true (some q.stamp)

/-! ### The checks of R309 -/

/-- The region's state admits a write, or a read (R159). R153 does not say what a request of a still OPEN context to a CLOSING region
gets before its step 3: none is admitted, so it is ACCESS_REFUSED with reason 3 (DESIGN CHOICE, log 65). -/
def Region.admits (r : Region) (write : Bool) : Bool :=
  match r.state with
  | .loading => true
  | .active => true
  | .rekeying => true
  | .sealed => !write
  | _ => false

/-- The window of a job that covers a range in a map epoch (check 3). -/
def State.windowOf (s : State) (h epoch offset len : Nat) : Option (Nat × Window) :=
  s.remote.windows.find? (fun e => e.2.state != .free && e.2.handle == h && e.2.mapEpoch == epoch
    && decide (e.2.base ≤ offset) && decide (offset + len ≤ e.2.base + e.2.size))

/-- The map epoch is served for the job (R317). -/
def Job.liveEpoch (j : Job) (e : Nat) : Bool := e == j.mapEpoch || j.retiring == some e

/-- Checks 2 to 9 of R309: the window and its key index, or the refusal. -/
def State.windowCheck (s : State) (i : Inbound) (j : Job) (b : Bytes) : Except (Option Nat × Status × Nat) (Nat × Window × Nat) :=
  let epoch := hdr b 20 1
  if j.liveEpoch epoch = false then .error (none, .badState, 1)
  else match s.windowOf i.handle epoch (i.address % 2 ^ 48) i.length with
    | none => .error (none, .notPermitted, 1)
    | some (n, w) =>
      let r := s.region w.region
      let key := if w.useFixed then w.fixedKey else hdr b 16 4
      let right := if i.op = 1 then w.read else if i.op = 2 then w.write else w.atomic
      let stack := stackOf w.target
      let resetting := s.parts.any (fun e => e.2.state == .resetting && decide (stack ∈ e.2.tiles))
      let refuse (reason : Nat) : Except (Option Nat × Status × Nat) (Nat × Window × Nat) :=
        .error (some n, .notPermitted, reason)
      if w.handle ≠ i.handle then refuse 1
      else if w.state ≠ .opened then refuse 3
      else if right = false then refuse 4
      else if i.op ≠ 1 ∧ w.owner ≠ 0xFFFF ∧ w.owner ≠ i.peer then refuse 5
      else if resetting then refuse 11
      else if r.admits (i.op != 1) = false ∨ (i.op = 3 ∧ r.cls = .weights) then refuse 7
      else if i.op = 3 ∧ (hdr b 36 1 = 0 ∨ 10 < hdr b 36 1 ∨ i.address % i.length ≠ 0) then refuse 8
      else if r.cls ≠ .opened ∧ (key < r.keyFirst ∨ r.keyLast < key ∨ s.retiring i.handle key = true) then refuse 6
      else .ok (n, w, key)

/-- A request at XB (R309): an atomic sent again is answered by its pigeonhole (R315); a request of a closing job is a dead
letter (R153); one that passes the checks goes to its memory island. -/
def State.inbound (s : State) (i : Inbound) (b : Bytes) : State :=
  match s.job i.handle with
  | none => s
  | some j =>
    let s := s.confirmHoles i (hdr b 32 4)
    if j.state = .closing then s.modDead (fun d => { d with inbound := sat64 d.inbound })
    else if i.op = 3 ∧ (i.dup = true ∨ hdr b 1 1 = 1) then
      let s := s.count islandXB 5 none 1
      match (s.remote.rows.find? (fun r => r.bound i)).bind (fun r => r.holes.find? (fun p => p.seq == i.atomicSeq)) with
      | some p =>
        State.inboundEnds { s with remote := { s.remote with pigeonHits := sat64 s.remote.pigeonHits } } i p.status p.reason
          p.result [] false
      | none => s.inboundEnds i .unknownOutcome 0 0 [] false
    else match s.windowCheck i j b with
      | .error (n, st, reason) => (s.inboundRefused i n st reason).inboundEnds i st reason 0 [] true
      | .ok (n, w, key) =>
        let s := s.count islandXB 4 (some i.tc) 1
        let s := s.modCounters i.handle (fun k => { k with inbound := sat64 k.inbound })
        let i := { i with window := n }
        s.submit { origin := .stream i, kind := if i.op = 1 then .read else if i.op = 2 then .write else .atomic,
                   ctx := some w.ctx, keyIndex := if (s.region w.region).cls = .opened then 0 else key, region := w.region,
                   address := w.target + (i.address % 2 ^ 48 - w.base), length := i.length, tc := i.tc, window := some n,
                   bytes := if i.op = 2 then (b.drop 64).map some else [], atomicOp := hdr b 36 1,
                   operand := BitVec.ofNat 64 (hdr b 40 8), compare := BitVec.ofNat 64 (hdr b 48 8) }

/-! ### Streams (R298) -/

/-- A request with its header's fields. -/
def inboundOf (h peer tc : Nat) (dup : Bool) (b : Bytes) : Inbound :=
  { handle := h, peer := peer, tc := tc, ordinal := hdr b 4 4, op := hdr b 0 1, dup := dup, ctx := hdr b 2 2,
    atomicSeq := hdr b 28 4, incarnation := BitVec.ofNat 32 (hdr b 60 4), address := hdr b 8 8, length := hdr b 22 2,
    window := 0 }

/-- Passes a request to XB; a REDIRECT_ACK is applied, and tells the redirect of its job (R319). -/
def State.pass (s : State) (h peer tc : Nat) (dup : Bool) (b : Bytes) : State :=
  let i := inboundOf h peer tc dup b
  if i.op = 6 then
    if dup then s
    else
      let s := s.modStream h peer tc (fun t => t.apply i.ordinal none s.now)
      (s.modJob h (fun j => { j with redirect := j.redirect.map (fun (r : Redirect) =>
        { r with peers := r.peers.map (fun p =>
            if p.1 = peer ∧ hdr b 20 1 = j.mapEpoch ∧ bit p.2.1 tc = false then (p.1, p.2.1 + 2 ^ tc, p.2.2) else p) }) })).ackTimer
        h peer tc
  else s.inbound i b

/-- Passes the requests that a stream held ahead and whose turn has come. -/
def State.passHeld (h peer tc : Nat) : Nat → State → State
  | 0, s => s
  | n + 1, s =>
    match s.assoc h peer with
    | none => s
    | some a =>
      let cursor := (a.streams.getD tc {}).cursor
      match a.heldAhead.find? (fun r => r.tc == tc && r.ordinal == cursor) with
      | none => s
      | some r =>
        let s := s.modAssoc h peer (fun a => { a with heldAhead := a.heldAhead.erase r })
        let s := s.modStream h peer tc (fun t => { t with cursor := nextOrdinal t.cursor })
        State.passHeld h peer tc n (s.pass h peer tc false r.body)

/-- A request of a stream arrives at its home: at the cursor, ahead of it, or a duplicate; a duplicate STORE waits for the stream's
next STORE_ACK. -/
def State.streamArrives (s : State) (h peer tc port : Nat) (b : Bytes) : State :=
  match s.assoc h peer with
  | none => s
  | some a =>
    let ord := hdr b 4 4
    let cursor := (a.streams.getD tc {}).cursor
    if ord = cursor then
      let s := s.modStream h peer tc (fun t => { t with cursor := nextOrdinal t.cursor })
      State.passHeld h peer tc a.heldAhead.length (s.pass h peer tc false b)
    else if earlier ord cursor then
      if hdr b 0 1 = 2 then s else s.pass h peer tc true b
    else if a.heldAhead.any (fun r => r.tc == tc && r.ordinal == ord) then s
    else
      let here := (s.assocs.entries.filter (fun x => x.home == a.home)).flatMap (·.heldAhead)
      let bytes := (here.map (fun r => r.body.length - 64)).sum
      if 256 ≤ here.length ∨ 32768 < bytes + (b.length - 64) then
        { s with remote := { s.remote with outOfOrder := sat64 s.remote.outOfOrder } }
      else s.modAssoc h peer (fun a => { a with heldAhead := a.heldAhead ++
        [{ tc := tc, ordinal := ord, port := port, body := b }] })

/-! ### Drain acknowledgements (R290, R292) -/

/-- A drain marker of this node is acknowledged (R290 step 4). -/
def State.drained (s : State) (p : Marker → Bool) : State :=
  let mine := s.remote.markers.filter p
  let s : State := { s with remote := { s.remote with markers := s.remote.markers.filter (fun m => !p m) } }
  mine.foldl (fun s m => s.completeOpt m.op .done []) s

/-- A body of a control kind without data: a drain marker, its answer, a REDIRECT. -/
def controlBody (op map epoch : Nat) : Bytes := enc [(1, op), (19, 0), (1, map), (1, epoch), (42, 0)]

/-! ### Redirects at the issuer (R318, R319 step 3) -/

/-- REDIRECT_RECEIVED: this node adopts the target's map epoch and places a REDIRECT_ACK in each of its four streams. -/
def State.redirected (s : State) (h peer epoch : Nat) : State :=
  let s := s.modAssoc h peer (fun a => { a with mapEpoch := epoch })
  let T := (match s.job h with | some j => j.timeout | none => 20) * Config.us
  (List.range 4).foldl (fun s tc =>
    let ord := (s.stream h peer tc).nextOrd
    let q : RemReq := { id := s.mem.nextId, req := 0, op := 6, ctx := 0xFFFF, handle := h, node := peer, tc := tc,
                        ordinal := ord, address := 0, keyIndex := 0, length := 0, data := [], pos := 0, atomicOp := 0,
                        operand := 0, compare := 0, atomicSeq := 0, mapEpoch := 0, accepted := s.now, timeout := T,
                        retries := 0, sent := false, restamped := false }
    let s := s.modStream h peer tc (fun t => { t with nextOrd := nextOrdinal t.nextOrd })
    let s : State := { s with mem := { s.mem with nextId := s.mem.nextId + 1 },
                              remote := { s.remote with reqs := s.remote.reqs ++ [q] } }
    s.sendRemote q false) s

/-! ### What a DATA packet carried -/

/-- The body of a DATA packet that opened is delivered (R255 step 8, R295). -/
def State.deliverBody (s : State) (h peer tc port : Nat) (b : Bytes) : State :=
  if wellFormedBody s.boot.nodeNumber b = false then s.modAssocs (fun x => { x with malformed := sat64 x.malformed })
  else match hdr b 0 1 with
    | 0x01 => s.streamArrives h peer tc port b
    | 0x02 => s.streamArrives h peer tc port b
    | 0x03 => s.streamArrives h peer tc port b
    | 0x06 => s.streamArrives h peer tc port b
    | 0x04 => s.sealData h peer tc (controlBody 0x84 (s.mapEpochOf h) (hdr b 21 1))
    | 0x05 => s.redirected h peer (hdr b 20 1)
    | 0x84 => (s.modAssoc h peer (fun a => { a with mapEpoch := hdr b 20 1 })).drained (fun m => m.node == peer && m.tray == false && m.epoch == hdr b 21 1)
    | _ => s.response h peer tc b

end Machine
end Sys2Proof
end

