-- ==== Sys2Proof/Machine/Handshake.lean ====
section
/-!
DEFINITION. Machine/Handshake.lean: the creation of associations (R247 to R254), the receipt of packets (R255, R263, R269),
closes and revocation (R267, R271), the poste restante (R251, R508), and the commands 0x0700 to 0x0705.
-/

namespace Sys2Proof
namespace Machine

/-! ### Whether a packet is valid (R243, R244, R249 check 2, R255 check 1) -/

/-- Body length that a kind of packet has; none where it varies or is not defined. -/
def bodyLength (kind : Nat) : Option Nat :=
  if kind = 0x20 ∨ kind = 0x22 then some 16 else if kind = 0x21 then some 32 else if kind = 0x23 ∨ kind = 0x24 then some 8
  else none

/-- Reserved runs of a handshake body: offset and length (R244, R247). -/
def bodyReserved (kind : Nat) : List (Nat × Nat) :=
  if kind = 0x20 ∨ kind = 0x22 then [(4, 4)] else if kind = 0x21 then [(4, 4), (24, 8)] else if kind = 0x23 then [(7, 1)]
  else []

/-- Everything but the revision is valid for this node. -/
def wellFormedPacket (node : Nat) (p : MsgPacket) : Bool :=
  let kind := p.kind.toNat
  let len := p.bodyLength.toNat
  let handshake := decide (0x20 ≤ kind) && decide (kind ≤ 0x23)
  (if kind = 0x10 then decide (1 ≤ len) && decide (len ≤ 4160) else bodyLength kind == some len)
    && p.body.length == len && p.flags.toNat / 8 == 0 && p.reserved1 == 0 && p.reserved2 == 0 && p.reserved3 == 0
    && p.dst.toNat == node && p.src.toNat != node
    && (!handshake || (p.sequence == 0 && (bodyReserved kind).all (fun e => field p.body e.1 e.2 == 0)))

/-- The association block's counts of packets that were refused for their form, or for their revision alone. -/
def State.malformedPacket (s : State) : State := s.modAssocs (fun x => { x with malformed := sat64 x.malformed })
def State.otherRevision (s : State) : State := s.modAssocs (fun x => { x with revRefused := sat64 x.revRefused })
def State.droppedPacket (s : State) : State := s.modAssocs (fun x => { x with dropped := sat64 x.dropped })
def State.inboundLetter (s : State) : State := s.modDead (fun d => { d with inbound := sat64 d.inbound })

/-! ### HELLO (R248 steps 3 to 5, R249, R250) -/

/-- Sends a REFUSE (R244, R249) along the route to a node, else through the port its packet came by. -/
def State.sendRefuse (s : State) (port node number : Nat) (st : Status) (retry : Nat) : State :=
  let (tc, s) := s.free 2
  let p : MsgPacket :=
    { kind := 0x23, revision := Config.revisionByte, flags := BitVec.ofNat 8 (2 * tc.toNat), reserved1 := 0,
      src := BitVec.ofNat 16 s.boot.nodeNumber, dst := BitVec.ofNat 16 node, job := BitVec.ofNat 32 number, bodyLength := 8,
      reserved2 := 0, sequence := 0, reserved3 := 0, body := enc [(2, st.code), (4, retry), (1, 0x32), (1, 0)], tag := 0 }
  let dest_ := (s.routePort node).getD port
  s.emitPacket dest_ (s.handleOf number) 0 none p

/-- The CP's queue has room for a received HELLO (R508). -/
def State.helloRoom (s : State) : Bool := decide (s.sniby.places.length < 80)

/-- A HELLO is refused as BUSY, and counted for the waits of the next 100 ms (R508). -/
def State.refuseHello (s : State) (port node number : Nat) : State :=
  let (retry, s) := s.retryAfter s.posteWait
  let recent := s.sniby.refusals.filter (fun t => decide (s.now < t + 100 * Config.ms))
  State.sendRefuse { s with sniby := { s.sniby with refusals := recent ++ [s.now] } } port node number .busy retry

/-- Takes a place of the poste restante. -/
def State.takePlace (s : State) (x : Place) : State := { s with sniby := { s.sniby with places := s.sniby.places ++ [x] } }

/-- A HELLO arrives: checks 1 to 5 of R249. -/
def State.helloArrives (s : State) (port : Nat) (p : MsgPacket) : State :=
  let src := p.src.toNat
  if p.revision ≠ Config.revisionByte then
    let s := (s.otherRevision).sendRefuse port src p.job.toNat .revisionMismatch 0
    s.post 0x0701 .revisionMismatch (assocObject p.job.toNat src) (assocPayload 0 p.revision.toNat 0)
      (s.handleOf p.job.toNat).toList
  else if wellFormedPacket s.boot.nodeNumber p = false then s.malformedPacket
  else match s.handleOf p.job.toNat with
    | none => s.inboundLetter
    | some h =>
      if s.serving h = false then s.inboundLetter
      else if src ∈ s.assocs.revoked then s.modAssocs (fun x => { x with revokedDrops := sat64 x.revokedDrops })
      else if s.sniby.places.any (fun x => match x with | .message _ q => q == p | _ => false) then s
      else if s.helloRoom = false then s.refuseHello port src p.job.toNat
      else s.takePlace (.message port p)

/-- The ACCEPT of a HELLO and the answered attempt that it leaves (R249). -/
def State.answerHello (s : State) (h src port home agreed proposed : Nat) (ni : BitVec 64) (a : Option Assoc)
    (keys : Key × Key) : State :=
  let s := s.derived 1
  let (nr, s) := s.draw 64
  let body := enc [(4, agreed), (4, 0), (8, ni.toNat), (8, nr.toNat), (8, 0)]
  let (q, s) := s.handshake h src 0x21 agreed keys.1 nr body
  let x : Assoc := match a with
    | some a => if a.seals then a else { a with state := .answered, hello := none, sends := 0 }
    | none => { handle := h, peer := src, state := .answered, home := home }
  let s := s.putAssoc { x with
    proposed := proposed, accept := some q, answerKeys := keys, answerPort := port,
    answer := some (agreed, saltOf s.boot.nodeNumber src keys ni nr, ni, nr, s.now) }
  s.releaseHandshake home h agreed q

/-- A HELLO at its agreed epoch: refused past the last epoch, else answered (R249, R254); while its port island has no entry to give
it waits on in the poste restante (R268). -/
def State.agreedHello (s : State) (port : Nat) (p : MsgPacket) (h agreed home : Nat) (state : AssocState) : State :=
  let src := p.src.toNat
  let a := s.assoc h src
  if maxEpoch < agreed then
    let s := if state = .calling then s.removeAssoc h src else s
    (s.assocRefused h src .noFit agreed 0).giveUp h src 1 unsent
  else match (if a.isSome then some s else s.entryRoom home), (s.pairKeys h src agreed).1 with
    | some s, some keys =>
      s.answerHello h src port home agreed (field p.body 0 4) (BitVec.ofNat 64 (field p.body 8 8)) a keys
    | none, _ => s.takePlace (.message port p)
    | _, none => s.droppedPacket

/-- A HELLO whose tag verified, with no answer that it repeats: its agreed epoch (R249). -/
def State.newHello (s : State) (port : Nat) (p : MsgPacket) (h : Nat) : State :=
  let src := p.src.toNat
  let a := s.assoc h src
  let state := match a with | some a => a.state | none => .absent
  let floor := match s.job h with | some j => j.epochFloor | none => 0
  let own := match a with | some a => if state = .calling then a.proposed else 0 | none => 0
  s.agreedHello port p h (max (max (field p.body 0 4) own) floor)
    (match a with | some a => a.home | none => (s.routePort src).getD port) state

/-- A HELLO with the keys of its proposed epoch: its tag, then a repeated answer or a new one (R249). -/
def State.helloOpened (s : State) (port : Nat) (p : MsgPacket) (h : Nat) (offered : Key × Key) : State :=
  let src := p.src.toNat
  let proposed := field p.body 0 4
  let ni := BitVec.ofNat 64 (field p.body 8 8)
  let a := s.assoc h src
  let state := match a with | some a => a.state | none => .absent
  let again := match a with
    | some a => (match a.answer with | some (_, _, n, _, _) => n == ni && a.proposed == proposed | none => false)
    | none => false
  if handshakeTag offered.2 ni p ≠ p.tag then s.modAssocs (fun x => { x with tagFails := sat64 x.tagFails })
  else if state = .closing then s.modAssocs (fun x => { x with noAssoc := sat64 x.noAssoc })
  else if again then
    match a.bind (·.accept) with
    | some q => s.handOver ((s.routePort src).getD port) h proposed q
    | none => s
  else if state = .calling ∧ s.boot.nodeNumber < src then s.droppedPacket
  else s.newHello port p h

/-- A HELLO's place is due: check 6 of R249, R250, and the ACCEPT. -/
def State.helloServed (s : State) (port : Nat) (p : MsgPacket) : State :=
  match s.handleOf p.job.toNat with
  | none => s.inboundLetter
  | some h =>
    if s.serving h = false then s.inboundLetter
    else if p.src.toNat ∈ s.assocs.revoked then s.modAssocs (fun x => { x with revokedDrops := sat64 x.revokedDrops })
    else match s.pairKeys h p.src.toNat (field p.body 0 4) with
      | (none, s) => s
      | (some offered, s) => s.helloOpened port p h offered

/-- Until when no HELLO goes to a node (R508). -/
def State.helloBar (s : State) (peer : Nat) : Nat := tgetD s.assocs.noHello peer 0

/-- An initiated HELLO's place is due (R248 step 3): nonce, keys of the floor, the first sending; a floor that has passed the last
epoch meanwhile ends the attempt (R264), and a peer that has refused a HELLO as BUSY gets none before its retry_after has passed: the
attempt takes a place again then (R508), as that of an isolated node does 25 µs later (R432; DESIGN CHOICE, log 79). -/
def State.helloInitiated (s : State) (h peer : Nat) : State :=
  match s.assoc h peer, s.job h with
  | some a, some j =>
    if a.state ≠ .calling ∨ a.sends ≠ 0 then s
    else if s.now < s.helloBar peer then s.modAssoc h peer (fun a => { a with dueAt := s.helloBar peer })
    else if s.fault.isolated then s.modAssoc h peer (fun a => { a with dueAt := s.now + 25 * Config.us })
    else
      let p := j.epochFloor
      if maxEpoch < p then ((s.removeAssoc h peer).assocRefused h peer .noFit p 0).giveUp h peer 1 unsent
      else match s.pairKeys h peer p with
      | (none, s) => s
      | (some keys, s) =>
        let (ni, s) := s.draw 64
        let (q, s) := s.handshake h peer 0x20 p keys.1 ni (enc [(4, p), (4, 0), (8, ni.toNat)])
        let s := s.modAssoc h peer (fun a => { a with
          nonceI := ni, proposed := p, sends := 1, hello := some q, calledAt := s.now, dueAt := s.now + 25 * Config.us })
        s.releaseHandshake a.home h p q
  | _, _ => s

/-- HELLO_RESEND_TIMER (R248 step 4): the identical HELLO again, every 25 µs or when a deferral ends. -/
def State.helloResend (s : State) (h peer : Nat) : State :=
  match s.assoc h peer with
  | none => s
  | some a =>
    if a.state ≠ .calling ∨ s.now < max a.dueAt (s.helloBar peer) ∨ 8 ≤ a.sends ∨ 1000 * Config.ms < a.deferred
        ∨ (s.fault.isolated = true ∧ a.hello.isSome = true) then s
    else match a.hello with
      | some q =>
        (s.modAssoc h peer (fun a => { a with sends := a.sends + 1, dueAt := s.now + 25 * Config.us })).handOver a.home h
          a.proposed q
      | none =>
        if s.sniby.places.any (fun x => x == .hello h peer) ∨ 4096 ≤ s.sniby.places.length then s
        else s.takePlace (.hello h peer)

/-- An attempt is abandoned: ASSOC_REFUSED, and its held packets are answered as for a dead target. -/
def State.abandonAttempt (s : State) (a : Assoc) (st : Status) (revision : Nat) : State :=
  ((s.removeAssoc a.handle a.peer).assocRefused a.handle a.peer st a.proposed revision).giveUp a.handle a.peer 1 unsent

/-- HANDSHAKE_TIMEOUT (R248 step 4): the sends have run out, 2 ms without deferrals, or 1 s of deferrals. -/
def State.handshakeTimeout (s : State) (h peer : Nat) : State :=
  match s.assoc h peer with
  | none => s
  | some a =>
    if a.state ≠ .calling ∨ a.sends = 0 then s
    else if 1000 * Config.ms < a.deferred then s.abandonAttempt a .busy 0
    else if (8 ≤ a.sends ∧ a.dueAt ≤ s.now) ∨ a.calledAt + 2 * Config.ms + a.deferred ≤ s.now then
      s.abandonAttempt a .timeout 0
    else s

/-- A BUSY defers the next send until `t`; of a deferral that runs still, only what lies past its end is added (R248 step 4). -/
def Assoc.deferTo (a : Assoc) (now t : Nat) : Assoc :=
  { a with dueAt := max a.dueAt t, deferred := a.deferred + (t - max now a.deferUntil), deferUntil := max a.deferUntil t }

/-- A REFUSE with BUSY puts off every HELLO to its sender, of every attempt of whatever job (R248 step 4, R508). -/
def State.deferPeer (s : State) (peer t : Nat) : State :=
  s.modAssocs (fun x => { x with
    noHello := tput x.noHello peer (max (tgetD x.noHello peer 0) t),
    entries := x.entries.map (fun (a : Assoc) => if a.peer = peer ∧ a.state = .calling then a.deferTo s.now t else a) })

/-- REFUSE_RECEIVED (R248 steps 4 and 5, R271). -/
def State.refused (s : State) (p : MsgPacket) : State :=
  if wellFormedPacket s.boot.nodeNumber p = false then s.malformedPacket
  else match s.handleOf p.job.toNat with
    | none => s.inboundLetter
    | some h =>
      if p.src.toNat ∈ s.assocs.revoked then s.modAssocs (fun x => { x with revokedDrops := sat64 x.revokedDrops })
      else
        let st := Status.ofCode (field p.body 0 2)
        let s := if st = some .revisionMismatch then s.otherRevision else s
        let s := if st = some .busy then s.deferPeer p.src.toNat (s.now + field p.body 2 4 * Config.us) else s
        match s.assoc h p.src.toNat with
        | none => s
        | some a =>
          if a.state = .calling ∧ st = some .revisionMismatch then s.abandonAttempt a .revisionMismatch (field p.body 6 1)
          else s

/-! ### ACCEPT and CONFIRM (R248 steps 6 and 7, R249) -/

/-- An ACCEPT or CONFIRM arrives: its form, and a place for it (R508). -/
def State.answerArrives (s : State) (port : Nat) (p : MsgPacket) : State :=
  if wellFormedPacket s.boot.nodeNumber p = false then s.malformedPacket
  else if p.revision ≠ Config.revisionByte then s.otherRevision
  else match s.handleOf p.job.toNat with
    | none => s.inboundLetter
    | some h =>
      if s.serving h = false then s.inboundLetter
      else if p.src.toNat ∈ s.assocs.revoked then s.modAssocs (fun x => { x with revokedDrops := sat64 x.revokedDrops })
      else if 4096 ≤ s.sniby.places.length then s.droppedPacket
      else s.takePlace (.message port p)

/-- An entry as it opens: one epoch, nothing of an older association. -/
def Assoc.open (a : Assoc) (epoch : Nat) (salt : BitVec 48) (keys : Key × Key) (now : Nat) : Assoc :=
  { handle := a.handle, peer := a.peer, state := .opened, home := a.home, epochs := [newEpoch epoch keys], salt := salt,
    enteredAt := now, lastUse := now }

/-- ACCEPT's place is due: the checks of R248 step 6, then step 7. -/
def State.acceptServed (s : State) (p : MsgPacket) : State :=
  let src := p.src.toNat
  let agreed := field p.body 0 4
  let ni := BitVec.ofNat 64 (field p.body 8 8)
  let nr := BitVec.ofNat 64 (field p.body 16 8)
  match (s.handleOf p.job.toNat) with
  | none => s.droppedPacket
  | some h =>
    if src ∈ s.assocs.revoked then s.modAssocs (fun x => { x with revokedDrops := sat64 x.revokedDrops })
    else match s.assoc h src with
    | none => s.droppedPacket
    | some a =>
      if a.state ≠ .calling ∨ a.sends = 0 ∨ a.nonceI ≠ ni ∨ agreed < a.proposed ∨ maxEpoch < agreed then s.droppedPacket
      else match s.pairKeys h src agreed with
        | (none, s) => s
        | (some keys, s) =>
          if handshakeTag keys.2 nr p ≠ p.tag then s.modAssocs (fun x => { x with tagFails := sat64 x.tagFails })
          else
            let salt := saltOf s.boot.nodeNumber src keys ni nr
            let (q, s) := s.handshake h src 0x22 agreed keys.1 nr (enc [(4, agreed), (4, 0), (8, nr.toNat)])
            if s.laneOff then s.releaseHandshake a.home h agreed q
            else
              ((s.releaseHandshake a.home h agreed q).putAssoc (a.open agreed salt keys s.now)).opened h src agreed

/-- The home of an association that opens: the port island of the route, where that has an entry for it (R265, R268). -/
def State.newHome (s : State) (a : Assoc) : Nat × State :=
  match s.routePort a.peer with
  | none => (a.home, s)
  | some port =>
    if port = a.home then (port, s)
    else match s.entryRoom port with
      | some s => (port, s)
      | none => (a.home, s)

/-- The answered attempt is confirmed (R249): it replaces the association that is there. -/
def State.confirmed (s : State) (h peer : Nat) : State :=
  match s.assoc h peer with
  | none => s
  | some a =>
    match a.answer with
    | none => s
    | some (epoch, salt, _, _, _) =>
      let (home, s) := s.newHome a
      let s := a.ratchetOps.foldl (fun s id => s.complete id .squashed []) s
      (s.putAssoc ({ a with home := home }.open epoch salt a.answerKeys s.now)).opened h peer epoch

/-- CONFIRM's place is due. -/
def State.confirmServed (s : State) (p : MsgPacket) : State :=
  match s.handleOf p.job.toNat with
  | none => s.inboundLetter
  | some h =>
    if p.src.toNat ∈ s.assocs.revoked then s.modAssocs (fun x => { x with revokedDrops := sat64 x.revokedDrops })
    else match (s.assoc h p.src.toNat).bind (fun a => a.answer.map (fun x => (a, x))) with
    | none => s.droppedPacket
    | some (a, (epoch, _, _, nr, _)) =>
      if field p.body 0 4 ≠ epoch ∨ BitVec.ofNat 64 (field p.body 8 8) ≠ nr then s.droppedPacket
      else if handshakeTag a.answerKeys.2 nr p ≠ p.tag then s.modAssocs (fun x => { x with tagFails := sat64 x.tagFails })
      else s.confirmed h a.peer

/-- ANSWERED_ATTEMPT_EXPIRED (R249): after 200 µs an unconfirmed attempt is discarded. -/
def State.attemptExpired (s : State) (h peer : Nat) : State :=
  match s.assoc h peer with
  | none => s
  | some a =>
    match a.answer with
    | some (_, _, _, _, t) =>
      if s.now < t + 200 * Config.us then s
      else if a.state = .answered then
        let s := s.removeAssoc h peer
        if s.remote.reqs.any (fun q => q.handle == h && q.node == peer) then s.callStart h peer else s
      else s.modAssoc h peer (fun a => { a with answer := none, accept := none, answerKeys := (0, 0) })
    | none => s

/-! ### A DATA or RATCHET packet (R255, R256, R263, R269) -/

/-- A packet opened: the window is updated, the packet is recorded and counted, and a packet of the epoch to which this node
stepped tells that the peer has it. -/
def State.packetIn (s : State) (h port epoch : Nat) (p : MsgPacket) : State :=
  let peer := p.src.toNat
  let s := s.acceptSeq h peer epoch p.sequence.toNat
  let home := match s.assoc h peer with | some a => a.home | none => port
  let s := (s.packetRec port 0x21 (some h) epoch p).count (islandP home) 3 (some (packetTc p)) 1
  match s.assoc h peer with
  | some a => if a.state = AssocState.ratcheting ∧ a.epoch = epoch then s.learnEpoch h peer none else s
  | none => s

/-- What a packet that opened carried is used. -/
def State.openedPacket (s : State) (h port epoch : Nat) (p : MsgPacket) (plain : Bytes) : State :=
  let peer := p.src.toNat
  let s := s.packetIn h port epoch p
  let s := if p.kind = 0x24 then
      if field plain 4 4 = 0 then s.gotRatchet h peer epoch (field plain 0 4) p.sequence.toNat else s.malformedPacket
    else s.deliverBody h peer (packetTc p) port plain
  s.stepEnd h peer

/-- A packet whose tag does not verify (R255 check 7, R286). -/
def State.tagFailed (s : State) (h peer epoch : Nat) : State :=
  (s.modAssocs (fun x => { x with tagFails := sat64 x.tagFails })).postLimited (10 * Config.us) 0x0702 (h * 65536 + peer)
    .integrityLost (assocObject (s.numberOf h) peer) (assocPayload epoch 0 0) [h] []

/-- A packet that finds no association (R269): dropped, and a creation started towards its sender.  One that an ANSWERED attempt cannot
open, which R254 drops with no count named, is counted here too (DESIGN CHOICE, log 74). -/
def State.noAssociation (s : State) (h peer : Nat) : State :=
  let s := s.modAssocs (fun x => { x with noAssoc := sat64 x.noAssoc })
  if (s.assoc h peer).isSome ∨ s.serving h = false
      ∨ s.assocs.recalls.any (fun r => r.1 == h && r.2.1 == peer && decide (s.now < r.2.2 + 100 * Config.us)) = true then s
  else
    (s.modAssocs (fun x => { x with recalls :=
      (x.recalls.filter (fun (r : Nat × Nat × Nat) => !(r.1 == h && r.2.1 == peer))) ++ [(h, peer, s.now)] })).callStart h peer

/-- Opens a packet under a key. -/
def openPacket (key : Key) (salt : BitVec 48) (p : MsgPacket) : Option Bytes :=
  gcmOpen key (dataIv salt p.sequence.toNat) (msgHead p) p.body (bytesOf p.tag)

/-- Checks 5 to 8 of R255 on an association that seals and opens. -/
def State.openUnder (s : State) (a : Assoc) (port : Nat) (p : MsgPacket) : State :=
  let h := a.handle
  let q := p.sequence.toNat
  let try_ (e : Epoch) : State :=
    if e.accepts q = false then s.modAssocs (fun x => { x with replayed := sat64 x.replayed })
    else match openPacket e.keyRx a.salt p with
      | none => s.tagFailed h a.peer e.number
      | some plain => s.openedPacket h port e.number p plain
  let ahead (e : Epoch) : State :=
    if q = 0 then s.modAssocs (fun x => { x with replayed := sat64 x.replayed })
    else match s.pairKeys h a.peer (e.number + 1) with
      | (none, s) => s
      | (some keys, s) =>
        match openPacket keys.2 a.salt p with
        | none => s.tagFailed h a.peer (e.number + 1)
        | some plain => (s.learnEpoch h a.peer (some keys)).openedPacket h port (e.number + 1) p plain
  match a.epochs with
  | [e] => if e.number % 2 = p.flags.toNat % 2 then
             (if a.drained then s.modAssocs (fun x => { x with stale := sat64 x.stale }) else try_ e)
           else if maxEpoch < e.number + 1 then s.modAssocs (fun x => { x with stale := sat64 x.stale })
           else ahead e
  | e :: o :: _ =>
    if e.number % 2 = p.flags.toNat % 2 then try_ e
    else if a.drained then s.modAssocs (fun x => { x with stale := sat64 x.stale })
    else try_ o
  | [] => s.modAssocs (fun x => { x with stale := sat64 x.stale })

/-- A DATA or RATCHET packet arrives (R255).  A job that is still ADMITTING is found by its number, and has no association: its packets
are no dead letters (DESIGN CHOICE, log 74). -/
def State.dataArrives (s : State) (port : Nat) (p : MsgPacket) : State :=
  let src := p.src.toNat
  if wellFormedPacket s.boot.nodeNumber p = false then s.malformedPacket
  else if p.revision ≠ Config.revisionByte then s.otherRevision
  else match s.handleOf p.job.toNat with
    | none => s.inboundLetter
    | some h =>
      let past : Bool := match s.job h with | some j => j.state == .closing && decide (8 < j.step) | none => true
      if past then s.inboundLetter
      else if src ∈ s.assocs.revoked then s.modAssocs (fun x => { x with revokedDrops := sat64 x.revokedDrops })
      else
        let a := s.assoc h src
        let attempt := match a.bind (fun a => a.answer.map (fun x => (a.answerKeys, x))) with
          | some (keys, (epoch, salt, _, _, _)) =>
            if epoch % 2 = p.flags.toNat % 2 ∧ p.sequence ≠ 0 then (openPacket keys.2 salt p).map (fun t => (epoch, t)) else none
          | none => none
        match attempt, a with
        | some (epoch, plain), _ => (s.confirmed h src).openedPacket h port epoch p plain
        | none, some a =>
          if a.seals then s.openUnder a port p else s.noAssociation h src
        | none, none => s.noAssociation h src

/-! ### A message arrives, and the poste restante -/

/-- A message packet arrives at a port (R243, R288, R421). -/
def State.message (s : State) (port : Nat) (p : MsgPacket) : State :=
  if s.boot.inReset = true ∨ s.boot.powered = false ∨ s.boot.blockState = .starting ∨ s.boot.tamperHeld = true
      ∨ s.boot.nodeNumber = 0xFFFF then s
  else
    let s := s.count (islandP port) 5 (some (packetTc p)) (40 + p.body.length)
    if s.quarantined = true then s.modDead (fun d => { d with quarantine := sat64 d.quarantine })
    else match p.kind.toNat with
      | 0x10 => s.dataArrives port p
      | 0x24 => s.dataArrives port p
      | 0x20 => s.helloArrives port p
      | 0x21 => s.answerArrives port p
      | 0x22 => s.answerArrives port p
      | 0x23 => s.refused p
      | _ => s.malformedPacket

/-- Serves a place of the poste restante. -/
def State.servePlace (table : Nat → Option Handler) (s : State) (x : Place) : State :=
  match x with
  | .command k => s.startHeld (table k.opcode) k false
  | .hello h peer => s.helloInitiated h peer
  | .message port p =>
    match p.kind.toNat with
    | 0x20 => s.helloServed port p
    | 0x21 => s.acceptServed p
    | _ => s.confirmServed p

/-- A place can be served now: a HELD command once the block is in full service (R62, R508). -/
def State.placeReady (s : State) (x : Place) : Bool :=
  match x with
  | .command _ => s.boot.blockState == .fullService
  | _ => true

/-- The CP can serve a place of the poste restante. -/
def State.placeWaits (s : State) : Bool := s.cpServes && s.sniby.places.any (fun x => s.placeReady x)

/-- POSTE_RESTANTE_PLACE_DUE (R251, R508): once in 25 µs the first place that can be served is served. -/
def State.placeDue (table : Nat → Option Handler) (s : State) : State :=
  if s.cpServes = false ∨ s.now < s.sniby.lastDue + 25 * Config.us then s
  else
    let s : State := { s with sniby := { s.sniby with lastDue := s.now } }
    match s.sniby.places.find? (fun x => s.placeReady x) with
    | none => s
    | some x => State.servePlace table { s with sniby := { s.sniby with places := s.sniby.places.erase x } } x

/-! ### Closes (R267, R271) -/

/-- An association begins to close: it seals nothing more and its keys are gone. -/
def State.beginClose (s : State) (h peer : Nat) (op : Option Nat) : State :=
  s.modAssoc h peer (fun a => { a with state := .closing, closeOp := op, overdue := [],
                                       epochs := a.epochs.map (fun (e : Epoch) => { e with keyTx := 0, keyRx := 0 }), answer := none, answerKeys := (0, 0),
                                       accept := none, hello := none, waitKeys := false, trigger := false })

/-- The closes that run end within 1 µs, and with them the revocations (R267, R271). -/
def State.closesSettle (s : State) : State :=
  let s := (s.assocs.entries.filter (fun a => a.state == .closing)).foldl (fun s a => s.closeAssoc a.handle a.peer) s
  let due := s.assocs.revokeOps.filter (fun r => !s.assocs.entries.any (fun a => a.peer == r.2))
  let s := s.modAssocs (fun x => { x with revokeOps := x.revokeOps.filter (fun r => r ∉ due) })
  due.foldl (fun s r =>
    let lb := (s.opOf r.1).map (·.lb)
    (s.complete r.1 .done []).postAt s.now 0x0705 .done (obj (assocObject 0 r.2)) 0 [] lb.toList) s

/-! ### Commands 0x0700 to 0x0705 (R282) -/

/-- Fields of a command that names a job and a peer. -/
def pairParams (c : Cmd) : List (Nat × Bool) := [zeroAt c 6 2]

def hAssocStatus : Handler where
  length := exactly 8
  allowed s c := s.ownNumber c (c.arg 0 4)
  params _ c := pairParams c
  run s c :=
    match s.jobGate (c.arg 0 4) with
    | .error v => v
    | .ok (h, j) => answerWith s (assocBody s h (c.arg 4 2) j.epochFloor)

/-- EVICT_ASSOC (R254, R267). -/
def hEvictAssoc : Handler where
  length := exactly 8
  allowed s c := s.ownNumber c (c.arg 0 4)
  params _ c := pairParams c
  run s c :=
    match s.jobGate (c.arg 0 4) with
    | .error v => v
    | .ok (h, _) =>
      match s.assoc h (c.arg 4 2) with
      | none => refuse .badState
      | some a =>
        if a.state = .closing then refuse .badState
        else .accept [] (some 1) (fun id s => s.beginClose h (c.arg 4 2) (some id))

/-- RATCHET_NOW (R254, R259): until the peer has learned the epoch nothing bounds the step's remaining time (R515). -/
def hRatchetNow : Handler where
  length := exactly 8
  allowed s c := s.ownNumber c (c.arg 0 4)
  params _ c := pairParams c
  run s c :=
    match s.jobGate (c.arg 0 4) with
    | .error v => v
    | .ok (h, _) =>
      match s.assoc h (c.arg 4 2) with
      | none => refuse .badState
      | some a =>
        match a.state with
        | .ratcheting =>
          busyFor (match a.learnedAt with | some t => s.remaining (t + 200 * Config.us) | none => 100)
        | .opened => .accept [] none (fun id s =>
            (s.modAssoc h a.peer (fun a => { a with ratchetOps := a.ratchetOps ++ [id] })).ratchetTrigger h a.peer)
        | _ => refuse .badState

/-- What REVOKE_PEER does from its ACCEPTED on (R271).  A node that is on the list already takes no second entry of it, and the command
completes as for another (DESIGN CHOICE, log 74). -/
def State.revoke (s : State) (node id : Nat) : State :=
  let s := s.modAssocs (fun x => { x with
    revoked := if node ∈ x.revoked then x.revoked else x.revoked ++ [node], revokeOps := x.revokeOps ++ [(id, node)],
    calls := x.calls.filter (fun c => c.2 != node) })
  let mine := s.assocs.entries.filter (fun a => a.peer == node)
  let s := mine.foldl (fun s a =>
    if a.seals then s.beginClose a.handle node none else if a.state = .closing then s else s.removeAssoc a.handle node) s
  let s := (s.remote.reqs.filter (fun q => q.node == node)).foldl (fun s q => (s.remoteDead q 3).deadTeardown q 3) s
  (s.mem.ops.filter (fun o => (s.regionX o.region).pooled && (s.regionX o.region).base / 2 ^ 48 == node)).foldl
    (fun s o => s.trayDead o 3) s

def hRevokePeer : Handler where
  job := false
  length := exactly 8
  params s c := [(64, s.boot.nodeNumber == 0xFFFF || c.arg 0 2 != s.boot.nodeNumber), zeroAt c 2 6]
  run s c :=
    let node := c.arg 0 2
    if 1024 ≤ s.assocs.revoked.length then refuse .noFit
    else .accept [] (some 5) (fun id s => s.revoke node id)

def hRestorePeer : Handler where
  job := false
  length := exactly 8
  params _ c := [zeroAt c 2 6]
  run s c :=
    if c.arg 0 2 ∈ s.assocs.revoked then
      doneWith (s.modAssocs (fun x => { x with revoked := x.revoked.filter (fun n => n != c.arg 0 2) }))
    else refuse .badState

def hAssocCounts : Handler where
  job := false
  length := exactly 0
  run s _ := answerWith s (assocCountsBody s)

end Machine
end Sys2Proof
end

