-- ==== Sys2Proof/Machine/RemoteCommands.lean ====
section
/-!
DEFINITION. Machine/RemoteCommands.lean: the commands 0x0800 to 0x080E (R325 to R329), routes and drain markers (R289 to
R292), windows (R307, R308, R320), redirects (R317 to R319), fences (R321 to R323), and the dead-target timeouts (R304,
R232, R233).
-/

namespace Sys2Proof
namespace Machine

def State.modRemote (s : State) (f : Remote → Remote) : State := { s with remote := f s.remote }

/-! ### 0x0800 to 0x0802: node number and routes -/

/-- Sets the node number; a change of BLOCK_STATUS raises vector 320 (R288, R494, R496). -/
def State.numbered (s : State) (n : Nat) : State :=
  if s.boot.nodeNumber = n then s else State.statusChanged { s with boot := { s.boot with nodeNumber := n } }

/-- SET_NODE_NUMBER (R288). -/
def hSetNodeNumber : Handler where
  job := false
  length := exactly 8
  params _ c := [(64, c.arg 0 2 != 0xFFFF), zeroAt c 2 6]
  run s c :=
    if s.jobs.isEmpty then doneWith (s.numbered (c.arg 0 2))
    else refuse .badState

/-- A node's route entry (R289). -/
def State.route (s : State) (node : Nat) : Route := tgetD s.remote.routes node {}

/-- Drain markers of a node that are outstanding. -/
def State.draining (s : State) (node : Nat) : Nat := (s.remote.markers.filter (fun m => m.node == node)).length

/-- The word of a route entry (R289). -/
def State.routeWord (s : State) (node : Nat) : Nat :=
  let r := s.route node
  32768 * flag r.valid + 1024 * (if r.valid then r.port else 0) + 64 * r.epoch + 16 * min 3 (s.draining node)

/-- The node is a tray: it holds a pooled region of a job, or copy B of its tree (R205). -/
def State.isTray (s : State) (node : Nat) : Bool :=
  s.regions.any (fun e => e.2.state != .free && e.2.pooled
    && (e.2.base / 2 ^ 48 == node || (e.2.cls == .fresh && e.2.tree.copyB / 2 ^ 48 == node)))

/-- Step 2 of R290: the old port sends the drain marker of epoch `r`: to a tray as a management message, to a Thrumtar under
the association of the lowest job handle (DESIGN CHOICE, log 17); false where nothing of this node can be on the route. -/
def State.sendMarker (s : State) (node port r op : Nat) : Bool × State :=
  let id := s.remote.nextMarker
  let m : Marker := { id := id, node := node, epoch := r, tray := s.isTray node, sentAt := s.now, op := some op }
  let noted (s : State) : State :=
    s.modRemote (fun x => { x with markers := x.markers ++ [m], nextMarker := (id + 1) % 2 ^ 32 })
  if s.isTray node then
    (true, (noted s).emitPort port (.trayMarker port
      { subtype := 3, kind := 0x30, revision := 0x32, routeEpoch := BitVec.ofNat 8 r, reserved1 := 0,
        src := BitVec.ofNat 16 s.boot.nodeNumber, dst := BitVec.ofNat 16 node, markerId := BitVec.ofNat 32 id,
        reserved2 := 0 }))
  else match s.assocs.entries.filter (fun a => a.peer == node && a.seals) with
    | [] => (false, s)
    | a :: l =>
      let a := l.foldl (fun (x y : Assoc) => if y.handle < x.handle then y else x) a
      let (tc, s) := s.free 2
      (true, (noted s).sealData a.handle node tc.toNat (controlBody 4 0 r))

/-- Associations move to the port island of the route to their peer (R266); one that finds no entry there stays until one is
free (DEDUCED from R268, log 56). -/
def State.moveHomes (s : State) : State :=
  s.assocs.entries.foldl (fun s a =>
    match s.routePort a.peer with
    | none => s
    | some port =>
      if a.home = port ∨ (s.assoc a.handle a.peer).isNone then s
      else match s.entryRoom port with
        | some s => s.modAssoc a.handle a.peer (fun a => { a with home := port })
        | none => s) s

/-- Creations that wait for an entry start once one is free (R268). -/
def State.callsSettle (s : State) : State :=
  (((s.remote.reqs.filter unsent).map (fun q => (q.handle, q.node)) ++ s.assocs.calls).eraseDups).foldl
    (fun s c => s.callStart c.1 c.2) s

/-- What SET_ROUTE does from its ACCEPTED on (R290); an isolated node's marker is answered with an error at once, and raises
TARGET_DEAD with reason 4 (R432): of no job and no context, for a drain marker's op 4 (DEDUCED, log 17). -/
def State.setRoute (s : State) (node port op : Nat) : State :=
  let r := s.route node
  if r.valid = false then
    (s.modRemote (fun x => { x with routes := tput x.routes node { r with valid := true, port := port } })).moveHomes.complete
      op .done []
  else
    let next : Route := if port = 0xFF then { valid := false, port := 0, epoch := (r.epoch + 1) % 16 }
      else { valid := true, port := port, epoch := (r.epoch + 1) % 16 }
    let alone := s.fault.isolated
    let (sent, s) := if alone then (false, s) else s.sendMarker node r.port r.epoch op
    let s := s.modRemote (fun x => { x with routes := tput x.routes node next })
    let s := s.moveHomes
    if sent then s
    else if alone then
      (s.post 0x0801 .targetDead (remoteObject 0 node 0xFFFF) (remotePayload 0 4 4 0) []).complete op .targetDead []
    else s.complete op .done []

/-- SET_ROUTE (R290). -/
def hSetRoute : Handler where
  job := false
  length := exactly 8
  params s c := [(64, c.arg 0 2 != 0xFFFF && c.arg 0 2 != s.boot.nodeNumber),
    (66, decide (c.arg 2 1 < 32) || c.arg 2 1 == 0xFF), zeroAt c 3 5]
  run s c :=
    let node := c.arg 0 2
    let port := c.arg 2 1
    let r := s.route node
    if (r.valid = true ∧ r.port = port) ∨ (r.valid = false ∧ port = 0xFF) then doneWith s
    else if 3 ≤ s.draining node then
      busyFor (((s.remote.markers.filter (fun m => m.node == node)).map
        (fun m => s.remaining (m.sentAt + 20 * Config.us))).foldl min 100)
    else .accept [] (some 20) (fun id s => s.setRoute node port id)

def hRouteStatus : Handler where
  job := false
  length := exactly 8
  params _ c := [zeroAt c 2 6]
  run s c := answerWith s (enc [(2, s.routeWord (c.arg 0 2)), (2, 0), (4, s.draining (c.arg 0 2))])

/-- A management message of another subtype than it should have (R491): dropped, and counted with the malformed packets of R284 (DESIGN
CHOICE, log 71). -/
def State.wrongSubtype (s : State) : State :=
  if s.boot.fwRunning = false ∨ s.boot.tamperHeld = true then s else s.malformedPacket

/-- TRAY_DRAIN_ANSWER (R292): an answer that is not this node's marker returned is malformed, and has no effect (R9). -/
def State.trayDrainAnswer (s : State) (m : TrayMarker) : State :=
  if s.boot.fwRunning = false ∨ s.boot.tamperHeld = true then s
  else if s.quarantined = true then s.modDead (fun d => { d with quarantine := sat64 d.quarantine })
  else if m.subtype ≠ 3 then s.wrongSubtype
  else if m.kind ≠ 0x31 ∨ m.revision ≠ 0x32 ∨ 16 ≤ m.routeEpoch.toNat ∨ m.reserved1 ≠ 0 ∨ m.reserved2 ≠ 0
      ∨ m.src.toNat ≠ s.boot.nodeNumber then s
  else s.drained (fun k => k.tray && k.node == m.dst.toNat && k.id == m.markerId.toNat && k.epoch == m.routeEpoch.toNat)

/-- DRAIN_MARKER_TIMEOUT (R290, R306): the epoch counts as drained; the fences that recorded it learn of the timeout. -/
def State.markerTimeout (s : State) (node id : Nat) : State :=
  match s.remote.markers.find? (fun m => m.id == id && m.node == node && decide (m.sentAt + 20 * Config.us ≤ s.now)) with
  | none => s
  | some m =>
    let fences := tmap s.remote.fences (fun _ f => { f with nodes := f.nodes.map (fun (n : FenceNode) =>
      if n.node = node ∧ id ∈ n.markers then { n with timedOut := true } else n) })
    let s := s.modRemote (fun x => { x with markers := x.markers.erase m, fences := fences })
    let s := s.post 0x0807 .timeout [(4, 0), (2, node), (2, 0)] [(8, 0), (1, m.epoch), (7, 0)] []
    s.completeOpt m.op .timeout []

/-! ### Windows -/

def State.window (s : State) (n : Nat) : Window := tgetD s.remote.windows n {}

/-- Windows of a job, those that close included. -/
def State.jobWindows (s : State) (h : Nat) : List (Nat × Window) :=
  s.remote.windows.filter (fun e => e.2.state != .free && e.2.handle == h)

/-- The letterbox may name a window: a job letterbox, none that another job holds. -/
def State.ownWindow (s : State) (c : Cmd) : Bool :=
  s.ownNumber c (c.arg 0 4) && (decide (c.lb < 2) || (match tget s.remote.windows (c.arg 4 2 % 32768) with
    | some w => w.state == .free || s.numberOf w.handle == c.arg 0 4
    | none => true))

/-- Fields of a window command. -/
def windowParams (c : Cmd) : List (Nat × Bool) := [(68, decide (c.arg 4 2 < 32768))]

/-- Fields of OPEN_WINDOW (R326) that are judged by themselves. -/
def openWindowParams (c : Cmd) : List (Nat × Bool) :=
  [(68, decide (c.arg 4 2 < 32768)),
   (71, decide (1 ≤ c.arg 7 1) && decide (c.arg 7 1 < 8)),
   (72, decide (c.arg 8 8 < 2 ^ 48) && c.arg 8 8 % 4096 == 0),
   (80, decide (c.arg 16 8 < 2 ^ 48) && c.arg 16 8 != 0 && c.arg 16 8 % 4096 == 0),
   (96, decide (c.arg 32 2 < 16384)),
   (100, decide (c.arg 36 2 < 4096)),
   zeroAt c 38 2,
   (104, bits (c.arg 40 4) 30 20 == 0),
   zeroAt c 44 4]

/-- Fields of OPEN_WINDOW that are judged against the job and its region (R46 step 12, R308, R326). -/
def State.openWindowRanges (s : State) (c : Cmd) (h : Nat) (j : Job) : List (Nat × Bool) :=
  let target := c.arg 24 8
  let fixed := c.arg 40 4
  let r := s.region (c.arg 32 2)
  let mine : Bool := r.state != .free && r.handle == h && !r.pooled
  [(88, !mine || (decide (r.base ≤ target) && decide (target + c.arg 16 8 ≤ r.base + r.size))),
   (96, mine),
   (100, decide (j.ctxBase ≤ c.arg 36 2) && decide (c.arg 36 2 < j.ctxBase + j.maxContexts)),
   (104, !bit fixed 31 || (decide (r.keyFirst ≤ bits fixed 19 0) && decide (bits fixed 19 0 ≤ r.keyLast)))]

/-- OPEN_WINDOW (R308, R326). -/
def hOpenWindow : Handler where
  length := exactly 48
  allowed s c := s.ownNumber c (c.arg 0 4)
  params _ c := openWindowParams c
  run s c :=
    let n := c.arg 4 2
    let base := c.arg 8 8
    let size := c.arg 16 8
    let fixed := c.arg 40 4
    match s.jobGate (c.arg 0 4) with
    | .error v => v
    | .ok (h, j) =>
      let w := s.window n
      if w.state = .closing ∧ w.handle = h then .behind (.window n) (s.remaining w.closeBy)
      else if w.state ≠ .free then refuse .badState
      else if c.arg 6 1 ≠ j.mapEpoch ∧ c.arg 6 1 ≠ (j.mapEpoch + 1) % 256 then refuse .badState
      else if (s.jobWindows h).any (fun e => e.2.mapEpoch == c.arg 6 1 && decide (e.2.base < base + size)
          && decide (base < e.2.base + e.2.size)) then refuse .badState
      else match firstBad (s.openWindowRanges c h j) with
      | some d => badField d
      | none =>
      if j.windows.getD 0 ≤ (s.jobWindows h).length then failWith s .noFit
      else
        let w : Window := { state := .opened, read := bit (c.arg 7 1) 0, write := bit (c.arg 7 1) 1,
                            atomic := bit (c.arg 7 1) 2, mapEpoch := c.arg 6 1, handle := h, base := base, size := size,
                            target := c.arg 24 8, region := c.arg 32 2, owner := c.arg 34 2, ctx := c.arg 36 2,
                            useFixed := bit fixed 31, fixedKey := bits fixed 19 0, openedAt := s.now }
        doneWith (s.modRemote (fun x => { x with windows := tput x.windows n w }))

/-- CLOSE_WINDOW (R320). -/
def hCloseWindow : Handler where
  length := exactly 8
  allowed s c := s.ownWindow c
  params _ c := windowParams c ++ [zeroAt c 6 2]
  run s c :=
    let n := c.arg 4 2
    match s.jobGate (c.arg 0 4) with
    | .error v => v
    | .ok (h, _) =>
      if (s.window n).state = .opened ∧ (s.window n).handle = h then
        .accept [] (some 20) (fun id s => s.modRemote (fun x => { x with
          windows := tmod x.windows n (fun w => { w with state := .closing, closeOp := some id,
                                                              closeBy := s.now + 20 * Config.us }) }))
      else refuse .badState

/-- Requests that a window has translated and that are not complete. -/
def State.windowFlight (s : State) (n : Nat) : Nat := (s.mem.reqs.filter (fun q => q.window == some n)).length

def WinState.code : WinState → Nat
  | .free => 0 | .opened => 1 | .closing => 2

/-- The 64-byte entry of R307. -/
def Window.bytes (w : Window) : Bytes :=
  enc [(8, 2 ^ 62 * w.state.code + 2 ^ 61 * flag w.read + 2 ^ 60 * flag w.write + 2 ^ 59 * flag w.atomic
         + 2 ^ 48 * w.mapEpoch + 2 ^ 40 * w.handle),
       (8, w.base), (8, w.size), (8, w.target), (2, w.region), (2, w.owner), (2, w.ctx), (2, 0),
       (4, 2 ^ 31 * flag w.useFixed + w.fixedKey), (4, 0), (8, w.openedAt), (8, w.refusals)]

/-- WINDOW_STATUS (R325): a FREE entry reads its reset value, zero. -/
def hWindowStatus : Handler where
  length := exactly 8
  allowed s c := s.ownWindow c
  params _ c := windowParams c ++ [zeroAt c 6 2]
  run s c :=
    let n := c.arg 4 2
    match s.jobGate (c.arg 0 4) with
    | .error v => v
    | .ok (h, _) =>
      let w := s.window n
      if w.state = .free then answerWith s (zeros 72)
      else if w.handle ≠ h then refuse .badState
      else answerWith s (w.bytes ++ enc [(4, s.windowFlight n), (4, 0)])

/-- SET_WINDOW_OWNER (R310). -/
def hSetWindowOwner : Handler where
  length := exactly 8
  allowed s c := s.ownWindow c
  params _ c := windowParams c
  run s c :=
    let n := c.arg 4 2
    match s.jobGate (c.arg 0 4) with
    | .error v => v
    | .ok (h, _) =>
      if (s.window n).state = .opened ∧ (s.window n).handle = h then
        doneWith (s.modRemote (fun x => { x with windows := tmod x.windows n (fun w => { w with owner := c.arg 6 2 }) }))
      else refuse .badState

/-- The windows whose close has drained become FREE (R320). -/
def State.windowsSettle (s : State) : State :=
  (s.remote.windows.filter (fun e => e.2.state == .closing && s.windowFlight e.1 == 0)).foldl (fun s e =>
    let s := s.modRemote (fun x => { x with windows := tdel x.windows e.1 })
    (s.completeOpt e.2.closeOp .done []).closeEnded (.window e.1) true) s

/-! ### Redirects -/

/-- Steps 1 and 2 of R319; an isolated node sends no REDIRECT, and its peers are missed at T (R432; DESIGN CHOICE, log 79). -/
def State.redirectStart (s : State) (h id : Nat) : State :=
  match s.job h with
  | none => s
  | some j =>
    let c := (j.mapEpoch + 1) % 256
    let peers := (s.assocs.entries.filter (fun a => a.handle == h && a.seals)).map (·.peer)
    let r : Redirect := { op := id, peers := peers.map (fun p => (p, 0, s.now + j.timeout * Config.us)), missed := 0 }
    let s := s.modJob h (fun j => { j with mapEpoch := c, retiring := some j.mapEpoch, redirect := some r })
    if s.fault.isolated then s
    else peers.foldl (fun s p =>
      let (tc, s) := s.free 2
      s.sealData h p tc.toNat (controlBody 5 c (s.routeEpoch p))) s

/-- REDIRECT (R319). -/
def hRedirect : Handler where
  length := exactly 8
  allowed s c := s.ownNumber c (c.arg 0 4)
  params _ c := [zeroAt c 4 4]
  run s c :=
    match s.jobGate (c.arg 0 4) with
    | .error v => v
    | .ok (h, j) =>
      match j.redirect with
      | some r => busyFor (s.opLeft (some r.op))
      | none => .accept [] (some (j.timeout + 34)) (fun id s => s.redirectStart h id)

/-- REDIRECT_WAIT_TIMEOUT (R319 step 4): T has passed since step 2 for a peer that has not acknowledged in every stream. -/
def State.redirectTimeout (s : State) (h peer : Nat) : State :=
  s.modJob h (fun j => { j with redirect := j.redirect.map (fun (r : Redirect) =>
    match r.peers.find? (fun p => p.1 == peer && p.2.1 != 15 && decide (p.2.2 ≤ s.now)) with
    | some p => { r with peers := r.peers.erase p, missed := r.missed + 1 }
    | none => r) })

/-- Step 5 of R319 once every peer is settled: the windows of the retiring epoch close; step 6 once they are FREE. -/
def State.redirectsSettle (s : State) : State :=
  s.jobs.foldl (fun s e =>
    match e.2.redirect, e.2.retiring with
    | some r, some old =>
      if r.peers.all (fun p => p.2.1 == 15) then
        let mine := (s.jobWindows e.1).filter (fun w => w.2.mapEpoch == old)
        if mine.isEmpty then
          (s.modJob e.1 (fun j => { j with redirect := none, retiring := none })).complete r.op .done [(4, r.missed)]
        else (mine.filter (fun w => w.2.state == .opened)).foldl (fun s w => s.modRemote (fun x => { x with
          windows := tmod x.windows w.1 (fun w => { w with state := .closing, closeBy := s.now + 20 * Config.us }) })) s
      else s
    | _, _ => s) s

/-- MAP_STATUS (R327). -/
def mapBody (s : State) (h : Nat) (j : Job) : Bytes :=
  let in_ (e : Nat) : Nat := ((s.jobWindows h).filter (fun w => w.2.mapEpoch == e)).length
  enc [(1, j.mapEpoch), (1, j.retiring.getD 0), (1, flag j.retiring.isSome + 2 * flag j.redirect.isSome), (1, 0),
       (2, in_ j.mapEpoch), (2, in_ ((j.mapEpoch + 1) % 256))]

def hMapStatus : Handler where
  length := exactly 8
  allowed s c := s.ownNumber c (c.arg 0 4)
  params _ c := [zeroAt c 4 4]
  run s c :=
    match s.jobGate (c.arg 0 4) with
    | .error v => v
    | .ok (h, j) => answerWith s (mapBody s h j)

/-- SET_DEAD_TARGET_TIMEOUT (R306). -/
def hSetDeadTargetTimeout : Handler where
  length := exactly 8
  allowed s c := s.ownNumber c (c.arg 0 4)
  params _ c := [(68, decide (2 ≤ c.arg 4 4) && decide (c.arg 4 4 ≤ 200))]
  run s c :=
    match s.jobGate (c.arg 0 4) with
    | .error v => v
    | .ok (h, _) => doneWith (s.modJob h (fun j => { j with timeout := c.arg 4 4 }))

/-! ### Fences -/

def State.fenceObj (s : State) (n : Nat) : Fence := tgetD s.remote.fences n {}

/-- The letterbox may name a fence: a job letterbox, none that another job holds. -/
def State.ownFence (s : State) (c : Cmd) : Bool :=
  s.ownNumber c (c.arg 0 4) && (decide (c.lb < 2) || (match tget s.remote.fences (c.arg 4 2 % 8192) with
    | some f => f.state == .free || s.numberOf f.handle == c.arg 0 4
    | none => true))

/-- Fields of a fence command. -/
def fenceParams (c : Cmd) : List (Nat × Bool) := [(68, decide (c.arg 4 2 ≤ 8127))]

/-- OPEN_FENCE (R321). -/
def hOpenFence : Handler where
  manager := false
  length := exactly 8
  allowed s c := s.ownNumber c (c.arg 0 4)
  params _ c := fenceParams c ++ [zeroAt c 6 2]
  run s c :=
    let n := c.arg 4 2
    match s.jobGate (c.arg 0 4) with
    | .error v => v
    | .ok (h, j) =>
      let f := s.fenceObj n
      if f.state = .closing ∧ f.handle = h then .behind (.fence n) (s.opLeft f.closeOp)
      else if f.state ≠ .free then refuse .badState
      else if j.fenceQuota ≤ (s.remote.fences.filter (fun e => e.2.state != .free && e.2.handle == h
          && decide (e.1 < 8128))).length then failWith s .noFit
      else doneWith (s.modRemote (fun x => { x with fences := tput x.fences n { state := .idle, handle := h } }))

/-- What waits for an armed fence ends with a status; the object is not armed any more. -/
def State.disarm (s : State) (n : Nat) (st : Status) (f : Fence → Fence) : State :=
  let x := s.fenceObj n
  let s := s.modRemote (fun r => { r with
    fences := tmod r.fences n (fun x => f { x with op := none, tileReq := none, missed := x.timeouts, nodes := [] }) })
  let s := s.completeOpt x.op st []
  match x.tileReq with
  | some r => s.tileAnswer (r / 65536) (some x.tileCtx) (errorResponse (BitVec.ofNat 16 r) st 0 0 0)
  | none => s

/-- CLOSE_FENCE (R321). -/
def hCloseFence : Handler where
  manager := false
  length := exactly 8
  allowed s c := s.ownFence c
  params _ c := fenceParams c ++ [zeroAt c 6 2]
  run s c :=
    let n := c.arg 4 2
    match s.jobGate (c.arg 0 4) with
    | .error v => v
    | .ok (h, _) =>
      let f := s.fenceObj n
      if f.handle = h ∧ (f.state = .idle ∨ f.state = .armed) then
        .accept [] (some 1) (fun id s => s.disarm n .squashed (fun x => { x with state := .closing, closeOp := some id }))
      else refuse .badState

/-- The longest timeout, in postmark units, among what an arm over some nodes would record (R323). -/
def State.fenceTmax (s : State) (h : Nat) (nodes : List Nat) : Nat :=
  let T := (match s.job h with | some j => j.timeout | none => 20) * Config.us
  let sent := (s.remote.reqs.filter (fun q => q.handle == h && decide (q.node ∈ nodes))).map (·.timeout)
  let marks := (s.remote.markers.filter (fun m => decide (m.node ∈ nodes))).map (fun _ => 20 * Config.us)
  (sent ++ marks).foldl max T

/-- ARM_FENCE (R321 to R323). -/
def hArmFence : Handler where
  manager := false
  length := exactly 8
  allowed s c := s.ownFence c
  params _ c := fenceParams c
  run s c :=
    let n := c.arg 4 2
    match s.jobGate (c.arg 0 4) with
    | .error v => v
    | .ok (h, _) =>
      let f := s.fenceObj n
      let nodes := s.scopeNodes h (c.arg 6 2)
      if f.handle ≠ h ∨ (f.state ≠ .idle ∧ f.state ≠ .armed) then refuse .badState
      else if f.state = .armed then
        busyFor (s.remaining (f.armedAt + s.fenceTmax h (f.nodes.map (·.node)) + 5 * Config.us))
      else .accept [] (some (s.fenceTmax h nodes / Config.us + 5)) (fun id s =>
        s.arm n (c.arg 6 2) (s.scopeNodes h (c.arg 6 2)) (fun x => { x with op := some id }))

/-- The fences whose close has run its 1 µs become FREE (R321). -/
def State.fenceCloses (s : State) : State :=
  (s.remote.fences.filter (fun e => e.2.state == .closing)).foldl (fun s e =>
    let s := s.modRemote (fun x => { x with fences := tdel x.fences e.1 })
    (s.completeOpt e.2.closeOp .done []).closeEnded (.fence e.1) true) s

def FenceState.code : FenceState → Nat
  | .free => 0 | .idle => 1 | .armed => 2 | .closing => 3

/-- The body of FENCE_STATUS (R328). -/
def fenceBody (f : Fence) : Bytes :=
  enc [(1, f.state.code), (1, 0), (2, f.scope),
       (4, if f.state = .armed then (f.nodes.filter (fun n => !n.satisfied)).length else 0), (4, f.timeouts), (4, 0),
       (8, f.armedAt)]

def hFenceStatus : Handler where
  manager := false
  length := exactly 8
  allowed s c := s.ownFence c
  params _ c := fenceParams c ++ [zeroAt c 6 2]
  run s c :=
    let f := s.fenceObj (c.arg 4 2)
    match s.jobGate (c.arg 0 4) with
    | .error v => v
    | .ok (h, _) =>
      if f.state = .free then answerWith s (zeros 24)
      else if f.handle ≠ h then refuse .badState
      else answerWith s (fenceBody f)

/-! ### REMOTE_COUNTS (R329) -/

def remoteCounts (s : State) : Bytes :=
  let r := s.remote
  enc [(8, r.requestsSent), (8, r.retransmissions), (8, r.deadTimeouts), (8, r.outcomeUnknown), (8, r.inboundRefused),
       (8, r.staleMap), (8, r.outOfOrder), (8, r.pigeonHits), (8, r.rowsEarly), (8, r.routeMisses)]

def hRemoteCounts : Handler where
  job := false
  length := exactly 0
  run s _ := answerWith s (remoteCounts s)

/-! ### DEAD_TARGET_TIMEOUT (R304, R189, R232, R233) -/

/-- A tray has not answered an operation on a pooled region within T (R304, R232). -/
def State.trayTimeout (s : State) (o : SecOp) : State :=
  let r := s.regionX o.region
  let T := (match s.job r.handle with | some j => j.timeout | none => 20) * Config.us
  let due := match s.reqOf o.req with | some q => q.accepted + q.timeout | none => o.since + T
  if r.pooled = false ∨ s.now < due then s else s.trayDead o 1

/-- A write under a resume record of no operation on a sector has reached T: a node's write-back suspends its region (R232), and a
write that RESUME_REGION re-issued ends it (R233). -/
def State.resumeTimeout (s : State) (x : ResumeRec) : State :=
  let r := s.region x.region
  let T := (match s.job r.handle with | some j => j.timeout | none => 20) * Config.us
  if s.now < x.since + T then s
  else if x.suspended = false then s.suspend x.region
  else match r.resumeOp with
    | some id => ((s.resumeStops x.region).modRegion x.region (fun r => { r with resumeOp := none })).complete id .targetDead []
    | none => s

/-- DEAD_TARGET_TIMEOUT: of a remote request, of an operation on a tray, of a node's write-back to trays, or of a write that
RESUME_REGION re-issued. -/
def State.deadTimeout (s : State) (id : Nat) : State :=
  match s.remote.reqs.find? (fun q => q.id == id) with
  | some q => s.remoteTimeout q
  | none =>
    match s.mem.ops.find? (fun o => o.id == id) with
    | some o => s.trayTimeout o
    | none =>
      match s.mem.resume.find? (fun x => x.op == id) with
      | some x => s.resumeTimeout x
      | none => s

end Machine
end Sys2Proof
end

