-- ==== Sys2Proof/Machine/Tile.lean ====
section
/-!
DEFINITION. Machine/Tile.lean: the tile request port (R487 to R489): the heads, who may ask (R134, R148), the checks of R163
and R174, and where a request goes (R29, R287).
-/

namespace Sys2Proof
namespace Machine

/-! ### Heads (R487, R488) -/

/-- A tag of a tile's port is still outstanding (R488). -/
def State.tagBusy (s : State) (t : Nat) (tag : BitVec 16) : Bool :=
  let r := t * 65536 + tag.toNat
  s.mem.reqs.any (fun q => q.origin == .tile t tag)
    || s.remote.fences.any (fun e => e.2.tileReq == some r)
    || s.red.descs.any (fun e => e.2.waiting.any (fun w => w.tile == t && w.tag == tag))

/-- The bits of an operand that a head leaves zero. -/
def headClean (h : TileHead) : Bool :=
  decide (h.tc.toNat < 4) && decide (h.ctx.toNat < 4096) && decide (h.keyIndex.toNat < 2 ^ 20) && h.reserved == 0

/-- The operand fields of a request that is no ATOMIC. -/
def noOperands (h : TileHead) : Bool := h.atomicOp == 0 && h.operand == 0 && h.compare == 0

/-- The reserved bits and the length of a head are as R487 gives them, and an ATOMIC is one of R296. -/
def headGood (h : TileHead) : Bool :=
  let a := h.address.toNat
  let n := h.length.toNat
  headClean h && (match h.op.toNat with
    | 1 => noOperands h && decide (1 ≤ n) && decide (n ≤ 4096)
    | 2 => noOperands h && decide (1 ≤ n) && decide (n ≤ 4096)
    | 3 => (n == 4 || n == 8) && decide (1 ≤ h.atomicOp.toNat) && decide (h.atomicOp.toNat ≤ 10) && a % n == 0
        && (h.atomicOp == 6 || h.compare == 0)
    | 4 => noOperands h && n == 0 && bits a 15 13 == 0 && decide (a < 2 ^ 32)
    | 5 => noOperands h && (List.range 16).any (fun f => imageSize f == n) && bits a 15 10 == 0 && decide (a < 2 ^ 40)
    | _ => false)

/-- An error response to a head, without a notice. -/
def State.tileRefuse (s : State) (t : Nat) (h : TileHead) (st : Status) (reason : Nat) : State :=
  s.tileAnswer t (some h.ctx.toNat) (errorResponse h.tag st 0 reason (if h.op = 1 then h.length.toNat else 0))

/-- What XB finds of a head's tile and context: it takes no head (R150, R488), it has answered it, or the job's handle. -/
inductive Entry where
  | withheld
  | answered (s : State)
  | job (handle : Nat)

/-- The checks before the request's own: quarantine and tamper (R421, R102), the tile's partition (R134, R439), the head (R488), the
context (R148). -/
def State.tileEntry (s : State) (t : Nat) (h : TileHead) : Entry :=
  let c := h.ctx.toNat
  let letter (s : State) : State := s.modDead (fun d => { d with tileRequests := sat64 d.tileRequests })
  if s.boot.inReset = true ∨ s.boot.powered = false then .withheld
  else if s.boot.tamperHeld then .answered (s.tileRefuse t h .tamperHeld 0)
  else if s.quarantined = true then .answered (s.tileRefuse t h .faulted 0)
  else if s.boot.blockState ≠ .fullService ∧ s.boot.blockState ≠ .cpHung then .withheld
  else if s.tagBusy t h.tag then .withheld
  else match s.partOfTile t with
    | none => .answered ((letter s).tileRefuse t h .notPermitted 0)
    | some p =>
      if (s.part p).state = .resetting then
        .answered ((letter s).tileRefuse t h .notPermitted 0)
      else if headGood h = false then .answered (s.tileRefuse t h .badParam 0)
      else match s.jobOfCtx c with
        | none => .answered ((letter s).tileRefuse t h .notPermitted 0)
        | some j =>
          if (match s.job j with | some x => x.partition != p | none => true) then
            .answered (((letter s).deadCtx c).tileRefuse t h .notPermitted 0)
          else if (s.ctx c).state ≠ .opened then .answered (((letter s).deadCtx c).tileRefuse t h .badState 0)
          else .job j

/-- The head as the request of R163 to R174 and R287 that it makes. -/
def remAsk (t h : Nat) (d : TileHead) (data : Bytes) (mask : List Bool) : RemAsk :=
  { tile := t, tag := d.tag, op := d.op.toNat, handle := h, ctx := d.ctx.toNat, tc := d.tc.toNat,
    keyIndex := d.keyIndex.toNat, address := d.address.toNat, length := d.length.toNat, data := data,
    mask := (mask ++ List.replicate (d.length.toNat - mask.length) false).take d.length.toNat,
    atomicOp := d.atomicOp.toNat, operand := d.operand, compare := d.compare }

/-! ### Refusals of R163, R173 and R174 -/

/-- ACCESS_REFUSED or KEY_REFUSED to a request whose region is known. -/
def State.regionRefuse (s : State) (a : RemAsk) (n type reason : Nat) : State :=
  let r := s.region n
  let offset := if r.pooled then a.address else a.address % 2 ^ 48
  let s := s.sectorFault islandXB n a.handle (some a.ctx) type reason (lbnOf n r ((offset - r.base) / r.sector)) a.keyIndex
  s.tileAnswer a.tile (some a.ctx) (errorResponse a.tag .notPermitted type reason (if a.op = 1 then a.length else 0))

/-- Bytes that do not all lie in one region of the job (check 2); the notice's class, with no region, is left open (DESIGN CHOICE, log 12). -/
def State.noRegionFault (s : State) (h ctx key : Nat) : State :=
  let (cls, s) := s.free 8
  s.raiseFault islandXB ctx 0x0503 1 (10 * Config.us) ctx .notPermitted
    [(2, 0x3FFF), (1, h), (1, cls.toNat), (4, 0)] [(8, 0), (2, ctx), (1, 1), (1, 0), (4, key)]

/-- The same, answered to the tile. -/
def State.noRegionRefuse (s : State) (a : RemAsk) : State :=
  (s.noRegionFault a.handle a.ctx a.keyIndex).tileAnswer a.tile (some a.ctx)
    (errorResponse a.tag .notPermitted 0x0503 1 (if a.op = 1 then a.length else 0))

/-- Reason of check 3 for a state that does not admit the request. -/
def admitReason (r : Region) (op : Nat) : Nat :=
  if op ≠ 1 ∧ r.state = .sealed then 2
  else if op = 3 ∧ r.cls = .weights ∧ r.state = .loading then 4
  else 3

/-- The region of a job that holds every byte of a range, in the job's own addresses. -/
def State.regionAt (s : State) (h : Nat) (pooled : Bool) (address length : Nat) : Option (Nat × Region) :=
  s.regions.find? (fun e => e.2.state != .free && e.2.handle == h && e.2.pooled == pooled
    && decide (e.2.base ≤ address) && decide (address + length ≤ e.2.base + e.2.size))

/-- Checks 3 and 4 of R163 and the refusal of R174 on a region: notice type and reason, none where the request may go on. -/
def State.regionCheck (s : State) (h : Nat) (r : Region) (op key : Nat) : Option (Nat × Nat) :=
  if r.admits (op != 1) = false ∨ (op = 3 ∧ r.cls = .weights) then some (0x0503, admitReason r op)
  else if r.cls ≠ .opened ∧ (key < r.keyFirst ∨ r.keyLast < key) then some (0x0504, 1)
  else if r.cls ≠ .opened ∧ s.retiring h key = true then some (0x0504, 4)
  else none

/-- A READ, WRITE or ATOMIC to memory that this node's regions hold: checks 2 to 4 of R163 and the refusal of R174, a pooled
region's route, revocation, isolation and TC0 place (R289, R304, R378, R432), then the island (R29). -/
def State.regionAccess (s : State) (a : RemAsk) (pooled : Bool) : State :=
  let address := if pooled then a.address else a.address % 2 ^ 48
  match s.regionAt a.handle pooled address a.length with
  | none => s.noRegionRefuse a
  | some (n, r) =>
    match s.regionCheck a.handle r a.op a.keyIndex with
    | some (type, reason) => s.regionRefuse a n type reason
    | none =>
    if pooled = true ∧ (s.routePort (r.base / 2 ^ 48)).isNone then s.routeMiss a
    else if pooled = true ∧ r.base / 2 ^ 48 ∈ s.assocs.revoked then s.revokedNode a
    else if pooled = true ∧ s.fault.isolated = true then s.turnedAway a 4
    else if pooled = true ∧ s.tc0Full a.ctx a.handle a.tc ((s.routePort (r.base / 2 ^ 48)).getD 0) = true then s
    else
      let node := r.base / 2 ^ 48
      let s := if pooled = true ∧ a.op ≠ 1 then s.modCtx a.ctx (fun c => { c with
          dests := if node ∈ c.dests then c.dests else c.dests ++ [node] }) else s
      s.submit { origin := .tile a.tile a.tag,
                 kind := if a.op = 1 then .read else if a.op = 2 then .write else .atomic,
                 ctx := some a.ctx, keyIndex := if r.cls = .opened then 0 else a.keyIndex, region := n, address := address,
                 length := a.length, tc := a.tc,
                 bytes := if a.op = 2 then ((slice a.data 0 a.length).zip a.mask).map (fun e => if e.2 then some e.1 else none)
                          else [],
                 atomicOp := a.atomicOp, operand := a.operand, compare := a.compare }

/-- A READ, WRITE or ATOMIC (R29, R287): local, pooled, or to another Thrumtar; with no number assigned nothing is local (R288). -/
def State.access (s : State) (a : RemAsk) : State :=
  let node := a.address / 2 ^ 48
  if node = 0xFFFF ∨ s.boot.nodeNumber = 0xFFFF then s.routeMiss a
  else if node = s.boot.nodeNumber then s.regionAccess a false
  else if s.isTray node then s.regionAccess a true
  else s.issue a

/-- One tile request whose head is of the kind of its command. -/
def State.tileAccess (s : State) (op t : Nat) (h : TileHead) (data : Bytes) (mask : List Bool) : State :=
  if h.op.toNat ≠ op ∧ 1 ≤ h.op.toNat ∧ h.op.toNat ≤ 5 then s
  else match s.tileEntry t h with
    | .withheld => s
    | .answered s => s
    | .job j => s.access (remAsk t j h data mask)

/-! ### Tile fences (R321, R322) -/

/-- TILE_FENCE: the object is refused, or armed with the tile's request. -/
def State.tileFenceAsk (s : State) (t : Nat) (h : TileHead) : State :=
  if h.op.toNat ≠ 4 ∧ 1 ≤ h.op.toNat ∧ h.op.toNat ≤ 5 then s
  else match s.tileEntry t h with
    | .withheld => s
    | .answered s => s
    | .job j =>
      let n := bits h.address.toNat 12 0
      let scope := bits h.address.toNat 31 16
      let f := s.fenceObj n
      if 8127 < n ∨ (f.state ≠ .free ∧ f.handle ≠ j) then s.tileRefuse t h .notPermitted 12
      else match f.state with
        | .free => s.tileRefuse t h .badState 0
        | .closing => s.tileRefuse t h .badState 0
        | .armed => s.tileRefuse t h .notPermitted 10
        | .idle =>
          (s.arm n scope (s.scopeNodes j scope) (fun x => { x with tileReq := some (t * 65536 + h.tag.toNat),
                                                                    tileCtx := h.ctx.toNat })).fencesSettle

end Machine
end Sys2Proof
end

