-- ==== Sys2Proof/Machine/Envelope.lean ====
section
/-!
DEFINITION. Machine/Envelope.lean: host envelopes (R272 to R281, R285): the register page, the session keys, the checks of a
descriptor and its completion, and ENVELOPE_STATUS.
-/

namespace Sys2Proof
namespace Machine

/-! ### Rings (R273, R274) -/

/-- The key of a ring: link and local job handle. -/
def ringKey (link h : Nat) : Nat := link * 256 + h

def State.ring (s : State) (link h : Nat) : EnvRing := tgetD s.env (ringKey link h) {}

def State.modRing (s : State) (link h : Nat) (f : EnvRing → EnvRing) : State :=
  { s with env := tmodD s.env (ringKey link h) {} f }

/-- Block bn of R272: the number, the session nonce, and the label. -/
def sessionBlock (n : Nat) (nonce : BitVec 64) : Block :=
  BitVec.ofNat 128 (ofLe (BitVec.ofNat 8 n :: (bytesOf nonce ++ ascii "ENVSESS")))

/-- The session key of a direction from its host envelope key. -/
def sessionKey (hk : Key) (nonce : BitVec 64) : Key := twoBlocks hk (sessionBlock 1 nonce) (sessionBlock 2 nonce)

/-- The ring registers are valid. -/
def EnvRing.valid (e : EnvRing) : Bool := decide (4 ≤ e.descLog2) && decide (e.descLog2 ≤ 12) && e.descLog2 == e.cplLog2

/-- A closing ring with no descriptor in flight is DISABLED, its keys zeroised. -/
def State.ringSettle (s : State) (link h : Nat) : State :=
  let e := s.ring link h
  if e.state = .closing ∧ e.flights.isEmpty = true then s.modRing link h disableRing else s

/-- ENV_CONTROL (R274). -/
def State.envControl (s : State) (link h v : Nat) : State :=
  if s.pagesLive = false ∨ 2 ≤ link ∨ 256 ≤ h then s
  else
    let s := s.modRing link h (fun e => { e with msix := bit v 1 })
    let e := s.ring link h
    match e.state with
    | .disabled =>
      if bit v 0 = true ∧ s.serving h = true ∧ e.valid = true then
        match tget s.kv.jobRoots h with
        | some slot =>
          if slot.state ≠ .active then s.hardFault 1 islandKV
          else
            let (nonce, s) := s.draw 64
            let s := ((s.derived 1).derived 1).keyHeldBy h (islandH link)
            s.modRing link h (fun e => { e with
              state := .enabled, enable := true, nextSeq := 1, session := nonce, tagFails := 0, doneCount := 0,
              sk0 := some (sessionKey (envKey slot.jrk link 0) nonce),
              sk1 := some (sessionKey (envKey slot.jrk link 1) nonce) })
        | none => s.hardFault 1 islandKV
      else s
    | .enabled =>
      if bit v 0 then s
      else (s.modRing link h (fun e => { e with state := .closing, enable := false })).ringSettle link h
    | .closing => s

/-- A write to a register of an envelope page: the rings while DISABLED alone, as R35 gives for letterboxes. -/
def State.envRegister (s : State) (link h off v : Nat) : State :=
  if off = 16 then s.envControl link h v
  else if s.pagesLive = false ∨ 2 ≤ link ∨ 256 ≤ h then s
  else if off = 24 then (s.modRing link h (fun e => { e with produced := v % 65536 })).count (islandH link) 6 none 1
  else if (s.ring link h).state ≠ .disabled then s
  else if off = 0 then s.modRing link h (fun e => { e with descBase := v / 4096, descLog2 := v % 16 })
  else if off = 8 then s.modRing link h (fun e => { e with cplBase := v / 4096, cplLog2 := v % 16 })
  else s

def RingState.code : RingState → Nat
  | .disabled => 0 | .enabled => 1 | .closing => 2

/-- What a register of an envelope page reads (R273). -/
def State.envRead (s : State) (link h off : Nat) : Nat :=
  let e := s.ring link h
  if off = 0 then e.descBase * 4096 + e.descLog2
  else if off = 8 then e.cplBase * 4096 + e.cplLog2
  else if off = 16 then flag e.enable + 2 * flag e.msix
  else if off = 32 then e.state.code + 65536 * e.consumed + 2 ^ 32 * e.nextSeq
  else if off = 40 then (if e.state = .disabled then 0 else e.session.toNat)
  else 0

/-! ### Descriptors and completions (R275 to R279) -/

/-- Bytes 0 to 47 of a descriptor. -/
def descBytes (d : EnvDesc) : Bytes :=
  bytesOf d.op ++ bytesOf d.revision ++ bytesOf d.reserved1 ++ bytesOf d.job ++ bytesOf d.descSeq ++ bytesOf d.hostAddress
    ++ bytesOf d.deviceOffset ++ bytesOf d.keyIndex ++ bytesOf d.length ++ bytesOf d.context ++ bytesOf d.reserved2

/-- iv_d and iv_c of R276. -/
def envIv (seq : BitVec 64) (n : Nat) : Bytes := bytesOf seq ++ enc [(3, 0), (1, n)]

/-- Check 1 of R277: each field with its offset. -/
def descFields (d : EnvDesc) : List (Nat × Bool) :=
  [(0, d.op == 1 || d.op == 2), (1, d.revision == Config.revisionByte), (2, d.reserved1 == 0),
   (16, d.hostAddress.toNat % 4096 == 0), (24, d.deviceOffset.toNat % 64 == 0), (32, decide (d.keyIndex.toNat < 2 ^ 20)),
   (36, decide (64 ≤ d.length.toNat) && decide (d.length.toNat ≤ 4096) && d.length.toNat % 64 == 0),
   (38, decide (d.context.toNat < 4096)), (40, d.reserved2 == 0)]

/-- Advances desc_consumed over the completions written (R279). -/
def advanceConsumed : Nat → EnvRing → EnvRing
  | 0, e => e
  | n + 1, e =>
    if e.consumed ∈ e.finished then
      advanceConsumed n { e with finished := e.finished.filter (fun x => x != e.consumed), consumed := (e.consumed + 1) % 65536 }
    else e

/-- Writes a completion in a descriptor's slot: authenticated under R276, or with an all-zero tag. -/
def State.envComplete (s : State) (link h slot : Nat) (d : EnvDesc) (st : Status) (detail : Nat) (auth : Bool)
    (device : Bytes) : State :=
  let e := s.ring link h
  let cpl := enc [(8, d.descSeq.toNat), (2, st.code), (2, detail), (4, 0)]
  let done := decide (st = .done)
  let toHost := done && d.op == 2
  let (page, tag) : Bytes × Bytes := match e.sk1 with
    | some k => if auth then gcmSeal k (envIv d.descSeq 2) (descBytes d ++ cpl) (if toHost then device else []) else ([], zeros 16)
    | none => ([], zeros 16)
  let s := if toHost then s.emit (.hostWrite link d.hostAddress.toNat page) else s
  let s := s.emit (.hostWrite link (e.cplBase * 4096 + 32 * (slot % 2 ^ e.cplLog2)) (cpl ++ tag))
  let s := s.modRing link h (fun e => advanceConsumed (e.finished.length + 1) { e with
    finished := slot :: e.finished,
    flights := e.flights.filter (fun (f : EnvFlight) => f.slot != slot),
    doneCount := if done then sat64 e.doneCount else e.doneCount })
  let s := s.count (islandH link) 4 none (32 + page.length)
  let s := if done then s.count (islandH link) (if d.op = 1 then 2 else 3) none 1 else s
  let s := s.traceRec (islandH link) 0x28 (some h) (some d.context.toNat)
    [(8, d.descSeq.toNat), (1, d.op.toNat), (1, 0), (2, st.code), (2, d.length.toNat), (2, d.context.toNat), (4, 0)]
  let s := if e.msix then s.raise link (64 + h) else s
  s.ringSettle link h

/-- The host island reads a ring's next descriptor: the ring is ENABLED, the link up, the limits of R279 and R36 kept. -/
def State.envReads (s : State) (link h : Nat) : Bool :=
  let e := s.ring link h
  let onLink := ((List.range 256).map (fun i => (s.ring link i).flights.length)).sum
  e.state == .enabled && e.taken != e.produced && decide (link ∈ s.boot.hostUp) && decide (link ∉ s.boot.dmaAbandoned)
    && decide ((e.taken + 65536 - e.consumed) % 65536 < 2 ^ e.descLog2) && decide (e.flights.length < 64)
    && decide (onLink < 1024)

/-- Checks 5 and 6 of R277, desc_seq consumed: a device access goes to its island. -/
def State.envAccess (s : State) (link h slot : Nat) (j : Job) (d : EnvDesc) (plain : Bytes) : State :=
  let c := d.context.toNat
  let key := d.keyIndex.toNat
  let op := if d.op = 1 then 2 else 1
  let address := d.deviceOffset.toNat
  if c < j.ctxBase ∨ j.ctxBase + j.maxContexts ≤ c then s.envComplete link h slot d .notPermitted 0 true []
  else if (s.ctx c).state ≠ .opened then s.envComplete link h slot d .badState 0 true []
  else match s.regionAt h false address d.length.toNat with
    | none => (s.noRegionFault h c key).envComplete link h slot d .notPermitted 0 true []
    | some (n, r) =>
      match s.regionCheck h r op key with
      | some (type, reason) =>
        (s.sectorFault islandXB n h (some c) type reason (lbnOf n r ((address - r.base) / r.sector)) key).envComplete
          link h slot d .notPermitted 0 true []
      | none =>
        let s := s.modRing link h (fun e => { e with flights := e.flights ++ [{ slot := slot, desc := d, req := s.mem.nextId }] })
        s.submit { origin := .env link h slot, kind := if op = 2 then .write else .read, ctx := some c,
                   keyIndex := if r.cls = .opened then 0 else key, region := n, address := address,
                   length := d.length.toNat, tc := 2, host := some link,
                   bytes := if op = 2 then plain.map some else [] }

/-- A descriptor, with the page that it names for TO_DEVICE, is read and checked (R277).  A desc_seq above next_desc_seq is BAD_PARAM at
any value, and BAD_STATE is the answer to the number that is due once it is 0xFFFF_F000 or more (DESIGN CHOICE, log 74). -/
def State.envelope (s : State) (link h : Nat) (d : EnvDesc) (page : Bytes) : State :=
  if s.envReads link h = false then s
  else
    let e := s.ring link h
    let slot := e.taken
    let s := s.modRing link h (fun e => { e with taken := (e.taken + 1) % 65536 })
    let s := s.count (islandH link) 5 none (64 + (if d.op = 1 then d.length.toNat else 0))
    let q := d.descSeq.toNat
    let bad (st : Status) (detail : Nat) : State := s.envComplete link h slot d st detail false []
    match firstBad (descFields d), s.job h, e.sk0 with
    | some f, _, _ => bad .badParam f
    | none, some j, some sk0 =>
      if q < e.nextSeq then bad .replayed 0
      else if e.nextSeq < q then bad .badParam 8
      else if 0xFFFFF000 ≤ q then bad .badState 0
      else if d.job.toNat ≠ j.number then bad .notPermitted 0
      else match gcmOpen sk0 (envIv d.descSeq 1) (descBytes d) (if d.op = 1 then slice page 0 d.length.toNat else [])
          (bytesOf d.tag) with
        | none =>
          let s := s.modRing link h (fun e => { e with tagFails := sat32 e.tagFails })
          let s := s.postLimited (10 * Config.us) 0x0706 (ringKey link h) .integrityLost
            [(4, j.number), (1, link), (1, 0), (2, 0)] [(8, 0), (8, q)] [h] []
          s.envComplete link h slot d .integrityLost 0 false []
        | some plain =>
          (s.modRing link h (fun e => { e with nextSeq := e.nextSeq + 1 })).envAccess link h slot j d plain
    | none, _, _ => s

/-- ENVELOPE_TO_DEVICE and ENVELOPE_TO_HOST: a descriptor of the other operation is none of the command's. -/
def State.envelopeTo (s : State) (op link h : Nat) (d : EnvDesc) (page : Bytes) : State :=
  if d.op = BitVec.ofNat 8 (3 - op) then s else s.envelope link h d page

/-- The device access of an envelope is done (check 6, or 7). -/
def State.envDone (s : State) (link h slot : Nat) (q : Req) : State :=
  match (s.ring link h).flights.find? (fun f => f.slot == slot && f.req == q.id) with
  | none => s
  | some f =>
    match q.failure with
    | some x => s.envComplete link h slot f.desc x.1 0 true []
    | none => s.envComplete link h slot f.desc .done 0 true q.data

/-! ### ENVELOPE_STATUS (R285) -/

def EnvRing.body (e : EnvRing) : Bytes :=
  enc [(1, e.state.code), (3, 0), (4, e.nextSeq), (4, e.flights.length), (4, e.tagFails), (8, e.doneCount)]

def hEnvelopeStatus : Handler where
  manager := false
  length := exactly 8
  allowed s c := s.ownNumber c (c.arg 0 4)
  params _ c := [(68, decide (c.arg 4 1 < 2)), zeroAt c 5 3]
  run s c :=
    match s.jobGate (c.arg 0 4) with
    | .error v => v
    | .ok (h, _) => answerWith s (s.ring (c.arg 4 1) h).body

end Machine
end Sys2Proof
end

