-- ==== Sys2Proof/Machine/Power.lean ====
section
/-!
DEFINITION. Machine/Power.lean: tile clocks and rails, the power estimate and its limits, the lease, droop, thermal,
margins, and the commands 0x0Bxx (R385 to R416).
-/

namespace Sys2Proof
namespace Machine

/-! ### Tiles and rails -/

def State.modPower (s : State) (f : Power → Power) : State := { s with power := f s.power }
def State.clk (s : State) (t : Nat) : TileClock := tgetD s.power.tiles t {}
def State.modClk (s : State) (t : Nat) (f : TileClock → TileClock) : State :=
  s.modPower (fun p => { p with tiles := tmodD p.tiles t {} f })
def State.rail (s : State) (r : Nat) : Rail := s.power.rails.getD r { mv := 0, continuous := 0, peak := 0 }
def State.modRail (s : State) (r : Nat) (f : Rail → Rail) : State :=
  s.modPower (fun p => { p with rails := p.rails.zipIdx.map (fun e => if e.2 = r then f e.1 else e.1) })

/-- PW runs: the block is powered, out of reset, and step 6 of its start is done (R506). -/
def State.pwRuns (s : State) : Bool := s.boot.powered && !s.boot.inReset && s.power.running

/-- The rail that feeds a tile (R388). -/
def tileRail (t : Nat) : Nat := t / 8

/-- The frequency that a tile requests (R408); none for a tile without a partition. -/
def State.requested (s : State) (t : Nat) : Nat :=
  match s.partOfTile t with
  | none => 0
  | some p => if (s.part p).fixedMhz = 0 then 2100 else (s.part p).fixedMhz

/-- A job is admitted to the partition. -/
def State.hasJob (s : State) (p : Nat) : Bool := (s.jobsIn p).any (fun e => e.2.state != .admitting)

/-- The frequency of a tile before any throttle reason (R385). -/
def State.baseMhz (s : State) (t : Nat) : Nat :=
  match s.partOfTile t with
  | none => 0
  | some p => if s.fault.runs.any (fun n => n.part == p && n.reset && decide (2 < n.step)) then 0
    else if s.hasJob p then s.requested t else 900

/-- What a reason allows a tile now (R407). -/
def TileClock.allowed (c : TileClock) (code : Nat) : Option Nat := (c.reasons.find? (fun e => e.1 == code)).map (·.2)

/-- Puts a reason in force on a tile, or ends it. -/
def TileClock.hold (c : TileClock) (code : Nat) (mhz : Option Nat) : TileClock :=
  let rest := c.reasons.filter (fun e => e.1 != code)
  { c with reasons := match mhz with | some m => (code, m) :: rest | none => rest }

/-- The tile that a sweep has. -/
def State.tileSwept (s : State) (t : Nat) : Bool := match s.power.sweep with | some w => w.tile == t | none => false

/-- The reasons that hold a tile below what it requests (R407, R415); a margin sweep is the reason MARGIN_TEST (R411). -/
def State.holding (s : State) (t : Nat) : List Nat :=
  ((s.clk t).reasons.filter (fun e => decide (e.2 < s.requested t))).map (·.1)
    ++ (if s.tileSwept t && decide ((s.clk t).mhz < s.requested t) then [10] else [])

/-- Bit n set while reason n holds any tile (R413). -/
def State.activeReasons (s : State) : Nat := maskOf ((List.range 16).flatMap s.holding) 11

/-- The least fuse voltage of a tile at a frequency, in mV (R391). -/
def State.fuseMv (s : State) (t mhz : Nat) : Nat := s.fuses.calibration.vf.getD (t * 25 + min 24 ((mhz - 900) / 50)) 0

/-- A tile's clock changes: the clock generator is told, and PW writes LEVEL (R462). -/
def State.setClock (s : State) (t mhz : Nat) : State :=
  let old := (s.clk t).mhz
  if old = mhz then s
  else
    let s := (s.modClk t (fun c => { c with mhz := mhz })).emit (.clock t mhz)
    s.traceRec islandPW 0x39 none none [(1, t), (1, 0), (2, s.activeReasons), (2, old), (2, mhz), (12, 0)]

/-- Writes a rail's voltage over AVSBus; that of a silent rail is assumed unchanged, and stays as it is (R388). -/
def State.setVolts (s : State) (r mv : Nat) : State :=
  if (s.rail r).mv = mv ∨ (s.rail r).silent = true then s else (s.modRail r (fun x => { x with mv := mv })).emit (.voltage r mv)

/-- The voltage that a running or rising tile needs (R386); a timing sweep takes the fuse voltage itself (R411). -/
def State.tileNeed (s : State) (t : Nat) : Nat :=
  let c := s.clk t
  let top := max c.mhz (c.raising.getD 0)
  if top = 0 then 0
  else match s.power.sweep with
    | some w => if w.tile = t then s.fuseMv t 900 else s.fuseMv t top + 10
    | none => s.fuseMv t top + 10

/-- The voltage of a tile rail (R386). -/
def State.railNeed (s : State) (r : Nat) : Nat := ((List.range 8).map (fun i => s.tileNeed (8 * r + i))).foldl max 0

/-- A voltage sweep has the rail. -/
def State.railSwept (s : State) (r : Nat) : Bool :=
  match s.power.sweep with
  | some w => w.kind == 0 && tileRail w.tile == r
  | none => false

/-- Brings a tile rail to the voltage it needs; with no running tile it stays as it is. -/
def State.fitRail (s : State) (r : Nat) : State :=
  let need := s.railNeed r
  if need = 0 ∨ s.railSwept r = true then s else s.setVolts r need

def State.fitRails (s : State) : State := (s.fitRail 0).fitRail 1

/-- Begins to raise a tile: the voltage first, unless the rail is already there (R386). -/
def State.raiseTile (s : State) (t mhz : Nat) : State :=
  let r := tileRail t
  let busy := (List.range 8).any (fun i => (s.clk (8 * r + i)).raising.isSome)
  let s := s.modClk t (fun c => { c with raising := some mhz, lastRaise := s.now })
  if busy = false ∧ s.railNeed r ≤ (s.rail r).mv then
    (s.modClk t (fun c => { c with raising := none })).setClock t mhz
  else s.fitRail r

/-- VOLTAGE_REACHED: the tiles that waited for the rail rise (R386); on a silent rail none does until its regulator answers (R388). -/
def State.voltageReached (s : State) (r : Nat) : State :=
  if s.pwRuns = false ∨ (s.rail r).silent = true then s
  else (List.range 8).foldl (fun s i =>
    let t := 8 * r + i
    if 15 < t then s
    else match (s.clk t).raising with
      | some m => (s.modClk t (fun c => { c with raising := none })).setClock t m
      | none => s) s

/-- What the reasons and the request leave a tile (R385). -/
def State.targetMhz (s : State) (t : Nat) : Nat := ((s.clk t).reasons.map (·.2)).foldl min (s.baseMhz t)

/-- What the reasons leave a tile of a sweep that would have a frequency (R385, R411); on a silent rail no level rises (R388), and a
stopped tile restarts at 0.90 GHz. -/
def State.sweptMhz (s : State) (t mhz : Nat) : Nat :=
  let c := s.clk t
  let cap := (c.reasons.map (·.2)).foldl min (if (s.rail (tileRail t)).silent then c.mhz else mhz)
  min (min mhz cap) (if c.mhz = 0 then 900 else mhz)

/-- Lowers a tile at once to what it is allowed; in a sweep only the reasons in force lower it. -/
def State.lowerTile (s : State) (t : Nat) : State :=
  if s.tileSwept t then
    let goal := s.sweptMhz t (s.clk t).mhz
    let s := if goal < (s.clk t).raising.getD 0 then s.modClk t (fun c => { c with raising := none }) else s
    s.setClock t goal
  else
    let goal := s.targetMhz t
    let s := if goal < (s.clk t).raising.getD 0 then s.modClk t (fun c => { c with raising := none }) else s
    if goal < (s.clk t).mhz then s.setClock t goal else s

/-- Lowers every tile, and then the rails (R386). -/
def State.lowerTiles (s : State) : State := ((List.range 16).foldl State.lowerTile s).fitRails

/-- Raises a tile by one level, at most once in 20 µs (R396); a stopped tile restarts at 0.90 GHz. -/
def State.stepUp (s : State) (t : Nat) : State :=
  let c := s.clk t
  let goal := s.targetMhz t
  if s.tileSwept t = true ∨ goal ≤ c.mhz ∨ c.raising.isSome = true then s
  else if c.mhz = 0 then s.raiseTile t 900
  else if c.lastRaise + 20 * Config.us ≤ s.now then s.raiseTile t (c.mhz + 50) else s

/-! ### Notices of class 11 (R416) -/

/-- Mean of the first `n` entries. -/
def meanOf (n : Nat) (l : List Nat) : Nat := (l.take n).sum / max 1 (l.take n).length

/-- The highest domain temperature, in 1/16 °C. -/
def State.hottest (s : State) : Int :=
  match s.power.temps with
  | [] => 0
  | t :: r => r.foldl max t

/-- A signed value as a field of `n` bytes. -/
def twos (n : Nat) (v : Int) : Nat := (v % (256 ^ n : Nat)).toNat

/-- Posts an event of this chapter. -/
def State.powerNotice (s : State) (type : Nat) (st : Status) (object : List (Nat × Nat)) : State :=
  s.postLimited Config.ms type (pack object) st object
    [(8, meanOf 500 s.power.history), (2, twos 2 s.hottest), (6, 0)] [] []

/-! ### Limits (R395, R398) -/

/-- A job's power share, once step 8 of its admission has recorded it (R143). -/
def Job.shareNow (j : Job) : Nat := if j.state = .admitting ∧ j.step ≤ 8 then 0 else j.powerShare

/-- Sum of the admitted jobs' power shares, in mW. -/
def State.shares (s : State) : Nat := sumJobs s.jobs Job.shareNow

/-- The share scale, in units of 0.01 % (R395). -/
def State.shareScale (s : State) : Nat := if s.shares ≤ s.budget then 10000 else 10000 * s.budget / s.shares

/-- LIMIT_CHANGED when the package limit in force or the share scale changes (R416). -/
def State.limitSettle (s : State) : State :=
  if s.power.lastLimit = s.packageLimit ∧ s.power.lastScale = s.shareScale then s
  else (s.modPower (fun p => { p with lastLimit := s.packageLimit, lastScale := s.shareScale })).powerNotice 0x0B02 .done []

/-! ### The estimate (R389) -/

/-- The domain of a counter. -/
def domainOf (i : Nat) : Nat := if i < 3584 then i / 224 else 16

/-- The rail group of a counter: 0, 1 the tile rails, 4 the stacks, 2 Aethok, 5 the ports, 6 host links and clocking. -/
def groupOf (i : Nat) : Nat :=
  if i < 3584 then (if i % 224 < 192 then i / 1792 else 4)
  else if i < 3840 then 2 else if i < 4032 then 5 else 6

/-- Energy of a counter's events in the interval, in units of 1/(16 · 1000 · 750²) pJ: what its weight, its delta and
its rail's voltage give. -/
def State.energy (s : State) (e : Nat × Nat) : Nat :=
  let v := if groupOf e.1 < 2 then (s.rail (groupOf e.1)).mv else 750
  s.fuses.calibration.weights.getD e.1 0 * (1000 + tgetD s.power.userWeights e.1 0).toNat * e.2 * (v * v)

/-- Energies of 2 µs as mW. -/
def energyMw (l : List Nat) : Nat := l.sum / (32000 * 1000 * 562500)

/-- Temperature of a domain, in 1/16 °C. -/
def State.temp (s : State) (d : Nat) : Int := s.power.temps.getD d 0

/-- One in the fixed-point numbers of the leakage. -/
def fixOne : Nat := 2 ^ 64

/-- Bits of a square root, from the `k`-th down. -/
def rootBits : Nat → Nat → Nat → Nat
  | 0, _, r => r
  | k + 1, n, r => rootBits k n (if (r + 2 ^ k) * (r + 2 ^ k) ≤ n then r + 2 ^ k else r)

/-- 2 to the power of a fraction below one, by `k` binary digits of it: `c` is 2 to the power of the digit before. -/
def exp2Frac : Nat → Nat → Nat → Nat → Nat → Nat
  | 0, _, _, _, acc => acc
  | k + 1, c, num, den, acc =>
    let c := rootBits 66 (c * fixOne) 0
    if den ≤ 2 * num then exp2Frac k c (2 * num - den) den (acc * c / fixOne) else exp2Frac k c (2 * num) den acc

/-- A value times 2 ^ (p ÷ q). -/
def timesExp2 (x : Nat) (p : Int) (q : Nat) : Nat :=
  let y := x * exp2Frac 48 (2 * fixOne) (p % (q : Int)).toNat q fixOne / fixOne
  let k := p / (q : Int)
  if 0 ≤ k then y * 2 ^ k.toNat else y / 2 ^ (-k).toNat

/-- Bits of (v ÷ 750) ^ (j ÷ 100), from the `k`-th down. -/
def hundredthBits (v j : Nat) : Nat → Nat → Nat
  | 0, r => r
  | k + 1, r => hundredthBits v j k
      (if (r + 2 ^ k) ^ 100 * 750 ^ j ≤ v ^ j * fixOne ^ 100 then r + 2 ^ k else r)

/-- The leakage of R389 in whole mW below it: l × (1 + u ÷ 1,000) × 2^((t − 85) ÷ h) × (v ÷ 0.75)^e, with h in 0.1 °C, e in 0.01,
t in 1/16 °C and v in mV, to 14 digits. -/
def leakage (l : Nat) (u : Int) (h e : Nat) (t : Int) (v : Nat) : Nat :=
  let x := timesExp2 (l * (1000 + u).toNat * fixOne / 1000) ((t - 1360) * 10) (16 * h)
  x * v ^ (e / 100) / 750 ^ (e / 100) * hundredthBits v (e % 100) 72 0 / fixOne / fixOne

/-- Leakage of a domain, in mW; its rounding is open (DESIGN CHOICE, log 11). -/
def State.leak (s : State) (d : Nat) : Nat :=
  let c := s.fuses.calibration.leakage.getD d (0, 0, 0)
  let u := s.power.userLeak.getD d 0
  let v := if d < 16 then (s.rail (tileRail d)).mv else 750
  if c.2.1 = 0 then Config.leakMw c.1 u c.2.2 (s.temp d) v
  else leakage c.1 u c.2.1 c.2.2 (s.temp d) v + flag (Config.leakUp c.1 u c.2.1 c.2.2 (s.temp d) v)

/-- The estimate of a domain, in mW. -/
def State.domainMw (s : State) (counts : List (Nat × Nat)) (d : Nat) : Nat :=
  energyMw ((counts.filter (fun e => domainOf e.1 == d)).map s.energy) + s.leak d

/-- The dynamic estimate of a rail group, in mW. -/
def State.groupMw (s : State) (counts : List (Nat × Nat)) (g : Nat) : Nat :=
  energyMw ((counts.filter (fun e => groupOf e.1 == g)).map s.energy)

/-- The part of a group's estimate that the first of its two rails, `r`, carries: the split is open, and the other rail has the rest
(DESIGN CHOICE, log 11). -/
def firstShare (r mw : Nat) : Nat := min mw (Config.sharedRail r mw)

/-- The estimate of a rail, in mW: the sum of a group that two rails share is split between them. -/
def State.railMw (s : State) (counts : List (Nat × Nat)) (r : Nat) : Nat :=
  match r with
  | 0 | 1 => s.groupMw counts r + ((List.range 8).map (fun i => s.leak (8 * r + i))).sum
  | 2 => firstShare 2 (s.groupMw counts 2 + s.leak 16)
  | 3 => s.groupMw counts 2 + s.leak 16 - firstShare 2 (s.groupMw counts 2 + s.leak 16)
  | 4 => s.groupMw counts 4
  | 5 => s.groupMw counts 5
  | 6 => firstShare 6 (s.groupMw counts 6)
  | _ => s.groupMw counts 6 - firstShare 6 (s.groupMw counts 6)

/-- Power of a rail by its latest reading, in mW. -/
def Rail.readMw (x : Rail) : Nat := if x.silent then 0 else x.volts * x.amps / 10

/-- The current of a rail on which its limits are judged, in 0.1 A (R388, R394). -/
def Rail.judged (x : Rail) (mw : Nat) : Nat :=
  max (mw * 10 / max 1 x.mv) (if x.silent then 0 else x.amps)

/-! ### The 2 µs interval -/

/-- A partition's tile domains, in mW, and their mean over 1 ms (R394). -/
def State.partMw (s : State) (counts : List (Nat × Nat)) (p : Nat) : Nat := ((s.part p).tiles.map (s.domainMw counts)).sum
def State.partMean (s : State) (p : Nat) : Nat := meanOf 500 (tgetD s.power.partHist p [])

/-- A partition's cap, in mW: its jobs' shares, scaled while all shares do not fit the budget in force (R395). -/
def State.partCap (s : State) (p : Nat) : Nat :=
  let own := sumJobs (s.jobsIn p) Job.shareNow
  if s.shares ≤ s.budget then own else own * s.budget / s.shares

/-- The levels of a reduction that goes by `part` of the greatest of its kind: the pace for that one, in proportion for the others, in
whole levels (R396; the pace is open: DESIGN CHOICE, log 11). -/
def State.levelsFor (s : State) (part greatest : Nat) : Nat :=
  ((1 + Config.powerPace s.power.interval % 4) * part + greatest - 1) / greatest

/-- The levels by which PW lowers each tile for the package limit (R396): of the partitions above their caps in proportion to their
excess, else of every one in proportion to its cap. -/
def State.packageTiles (s : State) : List (Nat × Nat) :=
  let used := s.parts.filter (fun e => e.2.state != .free)
  let excess := used.map (fun e => (e.2.tiles, s.partMean e.1 - s.partCap e.1))
  let caps := used.map (fun e => (e.2.tiles, s.partCap e.1))
  let top (l : List (List Nat × Nat)) : Nat := (l.map (·.2)).foldl max 0
  let by_ := if top excess ≠ 0 then excess else if top caps ≠ 0 then caps else used.map (fun e => (e.2.tiles, 1))
  by_.flatMap (fun e => e.1.map (fun t => (t, s.levelsFor e.2 (top by_))))

/-- A rail is above a limit: its mean over 1 ms above the continuous one, or over 10 µs above the peak (R394). -/
def Rail.above (x : Rail) : Bool := decide (x.continuous < meanOf 500 x.currents) || decide (x.peak < meanOf 5 x.currents)

/-- The tiles that PW lowers for the rails' limits (R396). -/
def State.railTiles (s : State) : List Nat :=
  (List.range 8).flatMap (fun r => if (s.rail r).above then (if r < 2 then (List.range 8).map (8 * r + ·) else List.range 16) else [])

/-- A reason of R396 lowers a tile by some levels, at most four, or lets it rise by one in 20 µs. -/
def State.squeeze (s : State) (code t levels : Nat) : State :=
  let c := s.clk t
  let now := min c.mhz ((c.allowed code).getD 2100)
  if levels ≠ 0 then s.modClk t (fun c => c.hold code (some (max 900 (now - 50 * min 4 levels))))
  else match c.allowed code with
    | none => s
    | some m =>
      if c.lastRaise + 20 * Config.us ≤ s.now then
        s.modClk t (fun c => c.hold code (if s.requested t ≤ m + 50 then none else some (m + 50)))
      else s

/-- RAIL_ALERT: one level lower in each interval while the input is asserted, one higher in 100 µs after (R406). -/
def State.alertTile (s : State) (t : Nat) : State :=
  let c := s.clk t
  let hit := s.power.railAlert.isEmpty || s.power.railAlert.any (fun r => decide (1 < r) || r == tileRail t)
  if s.power.alertOn && hit then
    s.modClk t (fun c => { c.hold 2 (some (max 900 (min c.mhz ((c.allowed 2).getD 2100) - 50))) with lastAlertRaise := s.now })
  else match c.allowed 2 with
    | none => s
    | some m =>
      if c.lastAlertRaise + 100 * Config.us ≤ s.now then
        s.modClk t (fun c => { c.hold 2 (if s.requested t ≤ m + 50 then none else some (m + 50)) with lastAlertRaise := s.now })
      else s

/-- The reasons of droop, calibration and a silent regulator on a tile (R388, R392, R403). -/
def State.plainReasons (s : State) (t : Nat) : State :=
  let z := tgetD s.power.zones t {}
  let s := s.modClk t (fun c => ((((c.hold 6 none).hold 7 (if z.persistent then some 900 else none)).hold 8
    (if s.power.calFault then some 1200 else none)).hold 9 (if (s.rail (tileRail t)).silent then some c.mhz else none)).hold 5
    (if s.power.thermTrip then some 0 else none))
  if s.now < z.rateUntil then s.modClk t (fun c => c.hold 6 (some (max 900 (s.targetMhz t - 50)))) else s

/-- Counts the 2 µs of each reason that holds a tile (R407). -/
def State.countReasons (s : State) (t : Nat) : State :=
  s.modClk t (fun c => { c with reasonUs := (s.holding t).foldl (fun u n => tput u n (satAdd 64 (tgetD u n 0) 2)) c.reasonUs })

/-- A zone that has been clear for 1 ms ends its DROOP_PERSISTENT; THERM_TRIP ends once every domain is cool (R403, R406). -/
def State.holdsEnd (s : State) : State :=
  s.modPower (fun p => { p with
    zones := tmap p.zones (fun _ (z : Zone) => match z.clearAt with
      | some c => if c + Config.ms ≤ s.now then { z with persistent := false } else z
      | none => z),
    thermTrip := p.thermTrip && !(p.tripCleared && p.temps.all (fun t => decide (t < 16 * p.tThrottle))) })

/-- Closes the 1 ms window once it holds 500 intervals (R390, R414). -/
def State.closeWindow (s : State) : State :=
  let w := s.power.window
  if w.length < 500 then s
  else
    let rails := s.power.rails.map (fun (x : Rail) =>
      if x.silent then (0, 0, 0)
      else (meanOf 500 (x.polls.map (·.1)), meanOf 500 (x.polls.map (·.2)), meanOf 500 (x.polls.map (fun e => e.1 * e.2 / 10))))
    s.modPower (fun p => { p with
      window := [], windowEnd := s.now, mean := meanOf 500 (w.map (·.1)), meanShared := meanOf 500 (w.map (fun e => e.2.1)),
      meanDyn := meanOf 500 (w.map (fun e => e.2.2)), sampleRails := rails,
      rails := p.rails.map (fun (x : Rail) => { x with polls := [] }) })

/-- Commands that lower the limit complete once the 1 ms mean is at or below their budget (R399, R400). -/
def State.loweringEnds (s : State) : State :=
  let met (e : Nat × Nat) : Bool := decide (meanOf 500 s.power.history ≤ e.2 * 1000)
  let done := s.power.lowering.filter met
  done.foldl (fun s e => s.complete e.1 .done []) (s.modPower (fun p => { p with lowering := p.lowering.filter (fun e => !met e) }))

/-- FIXED_FREQUENCY_DEPARTED (R408). -/
def State.departures (s : State) : State :=
  s.parts.foldl (fun s e =>
    if e.2.state != .free && decide (0 < e.2.fixedMhz) && s.hasJob e.1 && e.2.tiles.any (fun t => decide ((s.clk t).mhz < e.2.fixedMhz))
    then s.powerNotice 0x0B0A .busy [(1, e.1)] else s) s

/-- POWER_INTERVAL (R385, R389, R394 to R396, R407): the estimate, the reasons, and each tile's level. -/
def State.powerInterval (s : State) (counts : List (Nat × Nat)) : State :=
  if s.pwRuns = false ∨ s.now < s.power.intervalAt + 2 * Config.us then s
  else
    let total := ((List.range 17).map (s.domainMw counts)).sum
    let dyn := s.groupMw counts 0 + s.groupMw counts 1
    let judged := max total (s.power.rails.map Rail.readMw).sum
    let mws := (List.range 8).map (s.railMw counts)
    let rails := s.power.rails.zipIdx.map (fun (e : Rail × Nat) =>
      { e.1 with estimate := mws.getD e.2 0, currents := (e.1.judged (mws.getD e.2 0) :: e.1.currents).take 500 })
    let s := s.modPower (fun p => { p with
      intervalAt := s.now, interval := p.interval + 1, estimate := total, shared := s.domainMw counts 16, tileDyn := dyn,
      window := (total, s.domainMw counts 16, dyn) :: p.window, history := (judged :: p.history).take 500, rails := rails,
      partHist := (s.parts.filter (fun e => e.2.state != .free)).map (fun e =>
        (e.1, (s.partMw counts e.1 :: tgetD p.partHist e.1 []).take 500)) })
    let s := s.closeWindow.holdsEnd
    let above := if s.packageLimit * 1000 < meanOf 500 s.power.history then s.packageTiles else []
    let byRail := s.railTiles
    let s := (List.range 16).foldl (fun s t =>
      (((s.squeeze 0 t ((above.filter (fun e => e.1 == t)).map (·.2)).sum).squeeze 1 t
        (if t ∈ byRail then s.levelsFor 1 1 else 0)).alertTile t).plainReasons t) s
    let s := (List.range 16).foldl State.stepUp s.lowerTiles
    (((List.range 16).foldl State.countReasons s).departures).loweringEnds

/-! ### Rails (R388) -/

/-- A mantissa times a power of two with a signed exponent, in the next whole unit below; below zero, zero. -/
def scaled (mantissa exponent : Int) : Nat :=
  if 0 ≤ exponent then mantissa.toNat * 2 ^ exponent.toNat else mantissa.toNat / 2 ^ (-exponent).toNat

/-- A READ_VOUT word of rail `r`, in mV: PMBus's ULINEAR16 (PRESUMED, log 75). -/
def railVolts (r : Nat) (w : BitVec 16) : Nat := scaled (w.toNat * 1000 : Nat) (Config.voutExponent r).toInt

/-- A READ_IOUT word, in 0.1 A: PMBus's LINEAR11, an exponent in bits 15:11 and a mantissa in bits 10:0, both signed (PRESUMED, log
75). -/
def railAmps (w : BitVec 16) : Nat := scaled ((w.extractLsb' 0 11).toInt * 10) (w.extractLsb' 11 5).toInt

/-- RAIL_POLL: TELEMETRY_READ goes to the regulator (R498), with an answer, or the third silence in a row. -/
def State.railPoll (s : State) (r : Nat) (answer : Option Telemetry) : State :=
  let x := s.rail r
  let polled := s.emit (.smbusRead r 0x40 0xDA)
  if s.pwRuns = false ∨ 8 ≤ r ∨ s.now < x.polledAt + 100 * Config.us then s
  else match answer with
    | some a => polled.modRail r (fun x => { x with
        polledAt := s.now, silentPolls := 0, silent := false, volts := railVolts r a.vout, amps := railAmps a.iout,
        status := a.status, polls := x.polls ++ [(railVolts r a.vout, railAmps a.iout)] })
    | none =>
      let s := polled.modRail r (fun x => { x with
        polledAt := s.now, silentPolls := x.silentPolls + 1, silent := x.silent || decide (3 ≤ x.silentPolls + 1) })
      if x.silent = false ∧ 3 ≤ x.silentPolls + 1 then s.powerNotice 0x0B09 .timeout [(1, r)] else s

/-! ### Thermal (R404 to R406) -/

/-- A reading of a sensor, corrected; none where the sensor is, or becomes, invalid. -/
def State.corrected (s : State) (readings : List (Option Int)) (i : Nat) : Option Int :=
  if i ∈ s.power.invalid then none
  else match readings.getD i none with
    | none => none
    | some v =>
      let v := v + s.fuses.calibration.thermal.getD i 0 + s.power.userThermal.getD i 0
      if -640 ≤ v ∧ v ≤ 2400 then some v else none

/-- The temperature of a domain from its sensors. -/
def State.domainTemp (s : State) (readings : List (Option Int)) (d : Nat) : Int :=
  let l := (if d < 16 then (List.range 5).map (5 * d + ·) else (List.range 16).map (80 + ·)).filterMap (s.corrected readings)
  match l with
  | [] => 16 * (s.power.tThrottle + 1)
  | v :: r => if l.length < (if d < 16 then 2 else 8) then 16 * (s.power.tThrottle + 1) else r.foldl max v

/-- The domains that withhold a raise: those that reached T_throttle, until they fall below it by 3 °C (R405). -/
def State.warmNow (s : State) : List Nat :=
  let limit : Int := 16 * s.power.tThrottle
  (List.range 17).filter (fun d => decide (limit ≤ s.temp d) || (decide (d ∈ s.power.warm) && decide (limit - 48 ≤ s.temp d)))

/-- THERMAL on a tile: one level lower at each hot read of its domain or of the shared one, one higher in 100 µs once each of the two that
throttled it is cool (R405). -/
def State.thermTile (s : State) (t : Nat) : State :=
  let c := s.clk t
  let limit : Int := 16 * s.power.tThrottle
  let hot := decide (limit ≤ s.temp t) || decide (limit ≤ s.temp 16)
  let cool := decide (t ∉ s.power.warm) && decide (16 ∉ s.power.warm)
  if hot then
    s.modClk t (fun c => { c.hold 3 (some (max 900 (min c.mhz ((c.allowed 3).getD 2100) - 50))) with lastThermRaise := s.now })
  else match c.allowed 3 with
    | none => s
    | some m =>
      if cool = true ∧ c.lastThermRaise + 100 * Config.us ≤ s.now then
        s.modClk t (fun c => { c.hold 3 (if s.requested t ≤ m + 50 then none else some (m + 50)) with lastThermRaise := s.now })
      else s

/-- THERMAL_CRITICAL on a domain: entered at 115 °C, left below T_throttle (R405). -/
def State.critical (s : State) (d : Nat) : State :=
  let t := s.temp d
  if 1840 ≤ t then
    if d ∈ s.power.critical then s
    else (s.modPower (fun p => { p with critical := d :: p.critical })).powerNotice 0x0B03 .busy [(1, d)]
  else if t < 16 * s.power.tThrottle then s.modPower (fun p => { p with critical := p.critical.filter (· != d) })
  else s

/-- THERMAL_READ (R404, R405). -/
def State.thermalRead (s : State) (readings : List (Option Int)) : State :=
  if s.pwRuns = false ∨ s.now < s.power.thermalAt + 20 * Config.us then s
  else
    let bad := (List.range 96).filter (fun i => decide (i ∉ s.power.invalid) && (s.corrected readings i).isNone)
    let s := s.modPower (fun p => { p with thermalAt := s.now, invalid := p.invalid ++ bad })
    let temps := (List.range 17).map (s.domainTemp readings)
    let s := s.modPower (fun p => { p with temps := temps })
    let s := s.modPower (fun p => { p with warm := s.warmNow })
    let s := bad.foldl (fun s i => s.powerNotice 0x0B07 .integrityLost [(1, i)]) s
    let s := (List.range 17).foldl State.critical s
    let s := (List.range 16).foldl (fun s t =>
      (s.thermTile t).modClk t (fun c => c.hold 4 (if t ∈ s.power.critical ∨ 16 ∈ s.power.critical then some 900 else none))) s
    s.lowerTiles

/-- An input is read as asserted: again, where it still `was`, which takes an edge each way (DESIGN CHOICE, log 76).  Eight edges within
100 µs are chatter (R503). -/
def Pin.falls (x : Pin) (was : Bool) (now : Nat) : Pin :=
  let edges := (if was then [now, now] else [now]) ++ x.edges.filter (fun t => decide (now < t + 100 * Config.us))
  { low := now, edges := edges, chatter := x.chatter || decide (8 ≤ edges.length) }

/-- An input may be read as deasserted: it has been high for its filter's time, or for 10 ms after chatter (R503). -/
def Pin.mayRise (x : Pin) (quiet now : Nat) : Bool := decide (x.low + (if x.chatter then 10 * Config.ms else quiet) ≤ now)

/-- An input is read as deasserted. -/
def Pin.rises (x : Pin) (now : Nat) : Pin :=
  { x with edges := now :: x.edges.filter (fun t => decide (now < t + 100 * Config.us)), chatter := false }

/-- THERM_TRIP_ASSERTED (R406): every tile clock stops; before PW starts the input is latched (R504). -/
def State.tripOn (s : State) : State :=
  if s.boot.powered = false then s
  else
    let was := s.power.thermTrip && !s.power.tripCleared
    let s := s.modPower (fun p => { p with thermTrip := true, tripCleared := false, tripPin := p.tripPin.falls was s.now })
    if s.pwRuns then
      let s := (List.range 16).foldl (fun s t => (s.modClk t (fun c => c.hold 5 (some 0))).lowerTile t) s
      if was then s else s.powerNotice 0x0B04 .busy []
    else s

/-- THERM_TRIP_DEASSERTED (R406): the tiles restart once every domain is below T_throttle.  The input's filter of 1 ms leaves one stop
and one restart in any 1 ms (R503); in reset no postmark runs, and no time is asked. -/
def State.tripOff (s : State) : State :=
  if s.boot.powered = false ∨ (s.boot.inReset = false ∧ s.power.tripPin.mayRise Config.ms s.now = false) then s
  else s.modPower (fun p => { p with tripCleared := true, tripPin := p.tripPin.rises s.now })

/-- PW reads the STATUS_WORD of the regulators, of which these alert, and posts PWR_ALERT; the rail of a notice when none does is a free
value (DESIGN CHOICE, log 12). -/
def State.statusRead (s : State) (alerting : List Nat) : State :=
  let s := s.modPower (fun p => { p with railAlert := alerting, statusAt := some s.now })
  match alerting with
  | [] => let (v, s) := s.free 8
          s.powerNotice 0x0B05 .busy [(1, v.toNat)]
  | l => l.foldl (fun s r => s.powerNotice 0x0B05 .busy [(1, r)]) s

/-- PWR_ALERT_ASSERTED, with the rails whose STATUS_WORD reports (R406): PW reads it at most once in any 20 µs (R503); before it starts
the input is latched (R504). -/
def State.alertAsserted (s : State) (alerting : List Nat) : State :=
  if s.boot.powered = false then s
  else
    let was := s.power.alertOn && !s.power.alertCleared
    let s := s.modPower (fun p => { p with
      alertOn := true, alertCleared := false, alertPin := p.alertPin.falls was s.now })
    if s.pwRuns = false then s.modPower (fun p => { p with railAlert := alerting })
    else match s.power.statusAt with
      | some t => if s.now < t + 20 * Config.us then s else s.statusRead alerting
      | none => s.statusRead alerting

/-- PWR_ALERT_DEASSERTED (R406), after the filter's 100 µs (R503); an assertion latched before PW starts stays for PW to act on
(R504). -/
def State.alertDeasserted (s : State) : State :=
  if s.boot.powered = false ∨ (s.boot.inReset = false ∧ s.power.alertPin.mayRise (100 * Config.us) s.now = false) then s
  else s.modPower (fun p => { p with
    alertOn := p.alertOn && !s.pwRuns, alertCleared := p.alertOn && !s.pwRuns, alertPin := p.alertPin.rises s.now })

/-! ### Droop (R401 to R403) -/

def State.modZone (s : State) (z : Nat) (f : Zone → Zone) : State :=
  s.modPower (fun p => { p with zones := tmodD p.zones z {} f })

/-- DROOP_ALARM (R402, R403). -/
def State.droopAlarm (s : State) (detector : Nat) : State :=
  if s.pwRuns = false ∨ 64 ≤ detector then s
  else
    let z := detector / 4
    let old := tgetD s.power.zones z {}
    let recent := s.now :: old.recent.filter (fun t => decide (s.now < t + 100 * Config.us))
    let s := s.cyclesSettle.modZone z (fun x => { x with
      alarms := { detector := detector, since := s.now } :: x.alarms.filter (fun a => a.detector != detector), stretched := true,
      since := if x.stretched then x.since else s.now, newest := s.now, recent := recent, clearAt := none,
      rateUntil := if 16 < recent.length then s.now + Config.ms else x.rateUntil })
    if old.stretched then s else s.emit (.stretch z true)

/-- STRETCH_RELEASE (R402, R407): the zone's last alarm cleared 32 ns ago. -/
def State.stretchRelease (s : State) (zone : Nat) : State :=
  let z := tgetD s.power.zones zone {}
  if s.pwRuns = false ∨ z.stretched = false ∨ s.now < z.newest + 128 then s
  else
    let ns := (s.now - z.since) / 4
    let s := (s.cyclesSettle.modZone zone (fun x => { x with alarms := [], stretched := false, clearAt := some (s.now - 128) })).emit
      (.stretch zone false)
    let s := s.modClk zone (fun c => { c with stretched := satAdd 64 c.stretched ns })
    s.traceAt z.since islandPW 0x38 none none [(1, zone), (3, 0), (4, ns), (12, 0)]

/-- The oldest alarm of a zone that has not been found to last. -/
def Zone.oldest (z : Zone) : Option Alarm :=
  match z.alarms.filter (fun a => !a.lasting) with
  | [] => none
  | a :: r => some (r.foldl (fun m x => if x.since < m.since then x else m) a)

/-- DROOP_PERSISTENT (R403): an alarm of the zone has lasted 10 µs. -/
def State.droopPersistent (s : State) (zone : Nat) : State :=
  match (tgetD s.power.zones zone {}).oldest with
  | none => s
  | some a =>
    if s.pwRuns = false ∨ s.now < a.since + 10 * Config.us then s
    else
      let s := s.modZone zone (fun x => { x with
        persistent := true, alarms := x.alarms.map (fun (y : Alarm) => if y = a then { y with lasting := true } else y) })
      let s := (s.modClk zone (fun c => c.hold 7 (some 900))).lowerTiles
      s.powerNotice 0x0B06 .busy [(1, zone)]

/-! ### Margins (R410, R411) -/

/-- The trip level of a detector, in units of 0.5 mV (R391, R393, R402). -/
def State.tripLevel (s : State) (d : Nat) : Nat :=
  Config.droopNominal d - s.fuses.calibration.droop.getD d 0 + s.power.userDroop.getD d 0

/-- MARGIN_COMPUTE (R410): `lowest` is the lowest supply that each detector saw, in units of 0.5 mV. -/
def State.marginCompute (s : State) (lowest : List Nat) : State :=
  if s.pwRuns = false ∨ s.now < s.power.marginAt + Config.ms then s
  else
    let s := s.modPower (fun p => { p with
      marginAt := s.now, headrooms := (List.range 64).map (fun d => lowest.getD d 0 - s.tripLevel d) })
    (List.range 16).foldl (fun s t =>
      s.modClk t (fun c => { c with voltMargin :=
        ((s.rail (tileRail t)).mv : Int) - (if c.mhz = 0 then 0 else s.fuseMv t c.mhz) })) s

/-- Last step of a sweep, and what one step moves: mV or MHz. -/
def Sweep.last (w : Sweep) : Nat := if w.kind = 0 then 20 else 30
def Sweep.unit (w : Sweep) : Nat := if w.kind = 0 then 5 else 50

/-- Takes the tile to a sweep's start: 0.90 GHz at its fuse voltage. -/
def State.sweepStart (s : State) (t kind id : Nat) : State :=
  let w : Sweep :=
    { tile := t, kind := kind, step := 0, op := id, nextAt := s.now + 100 * Config.us, squash := false,
      mv := (s.rail (tileRail t)).mv }
  let s := s.modPower (fun p => { p with sweep := some w })
  let s := s.modClk t (fun c => { c with raising := none })
  let goal := s.sweptMhz t 900
  let s := if (s.clk t).mhz < goal then s.raiseTile t goal else s.setClock t goal
  if kind = 0 then s.setVolts (tileRail t) (s.fuseMv t 900) else s.fitRails

/-- Ends a sweep: the rail and the level are restored, and the command completes. -/
def State.sweepEnd (s : State) (w : Sweep) (st : Status) (payload : List (Nat × Nat)) : State :=
  let s := s.modPower (fun p => { p with sweep := none })
  let s := (s.modClk w.tile (fun c => { c with raising := none })).setClock w.tile (min 900 (s.targetMhz w.tile))
  let s := if s.railNeed (tileRail w.tile) = 0 then s.setVolts (tileRail w.tile) w.mv else s
  s.fitRails.complete w.op st payload

/-- MARGIN_SWEEP_STEP (R411): an alarm of the tile's zone since the step before ends the sweep. -/
def State.sweepStep (s : State) (t : Nat) (alarm : Bool) : State :=
  match s.power.sweep with
  | none => s
  | some w =>
    if s.pwRuns = false ∨ w.tile ≠ t ∨ s.now < w.nextAt then s
    else if w.squash then s.sweepEnd w .squashed []
    else if alarm = true ∨ w.last ≤ w.step then
      let result := w.step * w.unit
      let s := s.modClk t (fun c => if w.kind = 0 then { c with sweepV := some result } else { c with sweepT := some result })
      s.sweepEnd w .done [(2, result), (1, flag (!alarm)), (13, 0)]
    else
      let n := w.step + 1
      let s := s.modPower (fun p => { p with sweep := some { w with step := n, nextAt := w.nextAt + 100 * Config.us } })
      if w.kind = 0 then s.setVolts (tileRail t) (s.fuseMv t 900 - 5 * n) else s.setClock t (s.sweptMhz t (900 + 50 * n))

/-! ### The lease (R399, R400) -/

/-- A lease that has not ended. -/
def State.liveLease (s : State) : Option Lease :=
  match s.power.lease with
  | some l => if s.now < l.ends then some l else none
  | none => none

/-- LEASE_LAPSED: the term has ended without a new grant. -/
def State.leaseLapsed (s : State) : State :=
  match s.power.lease with
  | none => s
  | some l =>
    if s.boot.powered = false ∨ s.boot.inReset = true ∨ s.now < l.ends then s
    else
      let s := s.modPower (fun p => { p with lease := none, lapses := sat32 p.lapses })
      s.powerNotice 0x0B01 .timeout [(4, l.id)]

/-! ### Commands 0x0Bxx (R412) -/

/-- calibration (R413). -/
def State.calibrationCode (s : State) : Nat :=
  if s.power.calFault then 3
  else if (List.range 3).all (fun i => decide (i ∈ s.power.userParts)) then 1
  else if s.power.userParts.isEmpty then 0 else 2

/-- limit_source (R413). -/
def State.limitSource (s : State) : Nat :=
  if s.power.calFault then 3
  else if s.power.leaseMode = 0 then 0
  else if s.liveLease.isSome then 1 else 2

/-- The body of POWER_STATUS (R413). -/
def State.powerBody (s : State) : Bytes :=
  let left := match s.liveLease with | some l => (l.id, (l.ends - s.now) / Config.ms) | none => (0, 0)
  enc [(4, s.power.estimate), (4, s.power.mean), (2, s.packageLimit), (2, s.packageLimit - s.power.reserve),
       (1, s.limitSource), (1, s.calibrationCode), (1, s.power.leaseMode), (1, 0), (4, left.1), (4, left.2), (4, s.shares),
       (2, s.shareScale), (2, 0), (4, s.power.shared), (2, twos 2 s.hottest), (2, s.activeReasons), (4, s.power.lapses),
       (4, 0), (8, s.now), (8, 0)]

def hPowerStatus : Handler where
  job := false
  length := exactly 0
  run s _ := answerWith s s.powerBody

/-- SET_POWER_LIMITS (R398). -/
def hSetPowerLimits : Handler where
  manager := false
  job := false
  length := exactly 8
  params _ c :=
    let board := c.arg 0 2
    [(64, decide (300 ≤ board) && decide (board ≤ 1400)), (66, decide (300 ≤ c.arg 2 2) && decide (c.arg 2 2 ≤ board)),
     (68, decide (40 ≤ c.arg 4 2) && decide (c.arg 4 2 ≤ 400)), (70, decide (c.arg 6 1 ≤ 1)), zeroAt c 7 1]
  run s c := doneWith (s.modPower (fun p => { p with
    boardLimit := c.arg 0 2, safeBudget := c.arg 2 2, reserve := c.arg 4 2, leaseMode := c.arg 6 1,
    lease := if c.arg 6 1 = 0 then none else p.lease }))

/-- The largest limits of a rail, in 0.1 A (R388). -/
def railLimits (r : Nat) : Nat × Nat :=
  [(7000, 9500), (7000, 9500), (1200, 1600), (600, 800), (2000, 2600), (1100, 1400), (200, 280), (120, 160)].getD r (0, 0)

def hSetRailLimits : Handler where
  manager := false
  job := false
  length := exactly 8
  params _ c :=
    let top := railLimits (c.arg 0 1)
    [(64, decide (c.arg 0 1 < 8)), zeroAt c 1 1, (66, decide (c.arg 2 2 ≤ top.1)),
     (68, decide (c.arg 4 2 ≤ top.2) && decide (c.arg 2 2 ≤ c.arg 4 2)), zeroAt c 6 2]
  run s c := doneWith (s.modRail (c.arg 0 1) (fun x => { x with continuous := c.arg 2 2, peak := c.arg 4 2 }))

/-- A lease is taken: the releases that were still lowering the limit are overtaken by it (R399). -/
def State.takeLease (s : State) (l : Lease) : State :=
  s.power.lowering.foldl (fun s e => s.complete e.1 .squashed [])
    (s.modPower (fun p => { p with lowering := [], lease := some l }))

/-- GRANT_LEASE (R399). -/
def hGrantLease : Handler where
  root := false
  job := false
  length := exactly 16
  params s c := [(64, c.arg 0 4 != 0), (68, decide (s.power.safeBudget ≤ c.arg 4 2) && decide (c.arg 4 2 ≤ s.power.boardLimit)),
    zeroAt c 6 2, (72, decide (10 ≤ c.arg 8 4) && decide (c.arg 8 4 ≤ 60000)), zeroAt c 12 4]
  run s c :=
    let l : Lease := { id := c.arg 0 4, budget := c.arg 4 2, ends := s.now + c.arg 8 4 * Config.ms }
    if s.power.leaseMode = 0 then refuse .badState
    else if (s.takeLease l).packageLimit < s.packageLimit then
      .accept [] (some 2000) (fun id s => (s.takeLease l).modPower (fun p => { p with lowering := [(id, c.arg 4 2)] }))
    else doneWith (s.takeLease l)

/-- RELEASE_LEASE (R400): it ends the lease as a lapse does, with its notice (DEDUCED, log 32). -/
def hReleaseLease : Handler where
  root := false
  job := false
  length := exactly 8
  params _ c := [zeroAt c 4 4]
  run s c :=
    match s.liveLease with
    | some l =>
      if l.id = c.arg 0 4 then
        .accept [] (some 2000) (fun id s =>
          (s.modPower (fun p => { p with lease := none, lowering := p.lowering ++ [(id, p.safeBudget)] })).powerNotice
            0x0B01 .timeout [(4, l.id)])
      else refuse .badState
    | none => refuse .badState

/-- A signed field of the body. -/
def Cmd.signed (c : Cmd) (off len : Nat) : Int :=
  let v := c.arg off len
  if v < 2 ^ (8 * len - 1) then v else (v : Int) - 2 ^ (8 * len)

/-- LOAD_USER_CALIBRATION (R393). -/
def hLoadUserCalibration : Handler where
  manager := false
  job := false
  length l := l == 2056 || l == 216
  params _ c :=
    let part := c.arg 0 1
    [(64, decide (part ≤ 2)), (8, c.p.bodyLength.toNat == (if part = 2 then 216 else 2056)), zeroAt c 1 7]
      ++ (if part = 2 then
            (List.range 17).map (fun d => (80 + 2 * d, decide (-500 ≤ c.signed (16 + 2 * d) 2) && decide (c.signed (16 + 2 * d) 2 ≤ 500)))
              ++ [zeroAt c 50 6]
          else [])
  run s c :=
    let part := c.arg 0 1
    let s := s.modPower (fun p => { p with userParts := if part ∈ p.userParts then p.userParts else part :: p.userParts })
    doneWith (if part = 2 then
      s.modPower (fun p => { p with
        calId := BitVec.ofNat 64 (c.arg 8 8), userLeak := (List.range 17).map (fun d => c.signed (16 + 2 * d) 2),
        userThermal := (List.range 96).map (fun i => c.signed (56 + i) 1), userDroop := (List.range 64).map (fun i => c.arg (152 + i) 1) })
    else
      let put (u : Table Int) (i : Nat) : Table Int := tput u (2048 * part + i) (c.signed (8 + i) 1)
      s.modPower (fun p => { p with userWeights := (List.range 2048).foldl put p.userWeights }))

def hCalibrationStatus : Handler where
  job := false
  length := exactly 0
  run s _ := answerWith s (enc [(1, s.calibrationCode), (1, maskOf s.power.userParts 3), (6, 0), (8, s.power.calId.toNat)])

/-- SET_FREQUENCY_MODE (R408). -/
def hSetFrequencyMode : Handler where
  manager := false
  job := false
  length := exactly 8
  params _ c :=
    let f := c.arg 2 2
    [(64, decide (c.arg 0 1 < 16)), (65, decide (c.arg 1 1 ≤ 1)),
     (66, if c.arg 1 1 = 0 then f == 0 else decide (900 ≤ f) && decide (f ≤ 1800) && f % 50 == 0), zeroAt c 4 4]
  run s c :=
    match s.partGate (c.arg 0 1) false false with
    | some v => v
    | none => doneWith (s.modPart (c.arg 0 1) (fun p => { p with fixedMhz := c.arg 2 2 }))

/-- SET_THERMAL_LIMIT (R405). -/
def hSetThermalLimit : Handler where
  manager := false
  job := false
  length := exactly 8
  params _ c := [(64, decide (70 ≤ c.arg 0 1) && decide (c.arg 0 1 ≤ 105)), zeroAt c 1 7]
  run s c := doneWith (s.modPower (fun p => { p with tThrottle := c.arg 0 1 }))

/-- A tile's clock has been stretched for so many ns, a stretch in progress included (R407). -/
def State.stretchedNs (s : State) (t : Nat) : Nat :=
  let z := tgetD s.power.zones t {}
  satAdd 64 (s.clk t).stretched (if z.stretched then (s.now - z.since) / 4 else 0)

def tileParams (c : Cmd) : List (Nat × Bool) := [(64, decide (c.arg 0 1 < 16)), zeroAt c 1 7]

/-- THROTTLE_STATUS (R415). -/
def hThrottleStatus : Handler where
  job := false
  length := exactly 8
  params _ c := tileParams c
  run s c :=
    let t := c.arg 0 1
    let x := s.clk t
    answerWith s (enc ([(2, x.mhz), (2, s.requested t), (2, maskOf (s.holding t) 11), (2, 0)]
      ++ (List.range 11).map (fun n => (8, tgetD x.reasonUs n 0)) ++ [(8, s.stretchedNs t)]))

/-- POWER_SAMPLE (R414). -/
def hPowerSample : Handler where
  job := false
  length := exactly 0
  run s _ :=
    let p := s.power
    answerWith s (enc ([(8, p.windowEnd), (4, p.mean), (4, (p.sampleRails.map (fun e => e.2.2)).sum)]
      ++ (List.range 8).flatMap (fun r => let e := p.sampleRails.getD r (0, 0, 0)
                                          [(2, e.1), (2, e.2.1), (4, e.2.2)])
      ++ [(4, p.meanDyn), (4, p.meanShared), (8, 0)]))

/-- MARGIN_SWEEP (R411). -/
def hMarginSweep : Handler where
  manager := false
  job := false
  length := exactly 8
  allowed s _ := s.right 5 none
  params _ c := [(64, decide (c.arg 0 1 < 16)), (65, decide (c.arg 1 1 ≤ 1)), zeroAt c 2 6]
  run s c :=
    let t := c.arg 0 1
    let kind := c.arg 1 1
    let taken (t : Nat) : Bool := match s.partOfTile t with | some p => !(s.jobsIn p).isEmpty | none => false
    if taken t || (kind == 0 && (List.range 8).any (fun i => taken (8 * tileRail t + i))) then refuse .badState
    else match s.power.sweep with
      | some w => busyFor (s.opLeft (some w.op))
      | none => .accept [] (some 3500) (fun id s => s.sweepStart t kind id)

/-- MARGIN_STATUS (R410, R412). -/
def hMarginStatus : Handler where
  job := false
  length := exactly 8
  params _ c := tileParams c
  run s c :=
    let t := c.arg 0 1
    let x := s.clk t
    answerWith s (enc ([(2, twos 2 x.voltMargin), (2, 0)]
      ++ (List.range 4).map (fun i => (2, s.power.headrooms.getD (4 * t + i) 0))
      ++ [(2, x.sweepV.getD 0xFFFF), (2, x.sweepT.getD 0xFFFF)]))

end Machine
end Sys2Proof
end

