-- ==== Sys2Proof/Machine/Reduction.lean ====
section
/-!
DEFINITION. Machine/Reduction.lean: masked reduction (R331 to R366): masks and checks, descriptors, contributions, received
packets, completion and close, the slot schedule of a port island, and the commands 0x09xx.
-/

namespace Sys2Proof
namespace Machine

def State.modRed (s : State) (f : Reduction → Reduction) : State := { s with red := f s.red }
def State.desc (s : State) (n : Nat) : Descriptor := tgetD s.red.descs n {}
def State.modDesc (s : State) (n : Nat) (f : Descriptor → Descriptor) : State :=
  s.modRed (fun r => { r with descs := tmod r.descs n f })

/-! ### Masks and weights (R338 to R342) -/

/-- The half of an AES block that belongs to an even or an odd lane, its upper three bits cleared. -/
def laneHalf (blk : Block) (l : Nat) : Nat := (if l % 2 = 0 then blk.toNat % 2 ^ 64 else blk.toNat / 2 ^ 64) % 2 ^ 61

/-- F(j, c, l) (R338). -/
def maskOfLane (km : Key) (gather : Bool) (j c l : Nat) : Nat :=
  laneHalf (aes256 km (BitVec.ofNat 128 (pack [(2, j), (4, c), (1, l / 2), (1, flag gather), (8, 0)]))) l % fxP

/-- w_k of a chunk (R342). -/
def weight (kc : Key) (c k : Nat) : Nat :=
  1 + laneHalf (aes256 kc (BitVec.ofNat 128 (pack [(4, c), (1, k / 2), (11, 0)]))) k % (fxP - 1)

/-- The check of 64 ring elements (R342). -/
def checkSum (kc : Key) (c : Nat) (l : List Nat) : Nat := l.zipIdx.foldl (fun a e => fxAdd a (weight kc c e.2 * e.1 % fxP)) 0

/-- What a contributor adds to lane l of chunk c (R339, R340). -/
def Descriptor.maskFor (d : Descriptor) (km : Key) (c l : Nat) : Nat :=
  if d.gather then maskOfLane km true d.index c l
  else fxSub (maskOfLane km false d.index c l) (maskOfLane km false (d.index + 1) c l)

/-- What a receiver subtracts: the residual of a SUM, the pad of a GATHER's contributor. -/
def Descriptor.residual (d : Descriptor) (km : Key) (j c l : Nat) : Nat :=
  if d.gather then maskOfLane km true j c l
  else fxSub (maskOfLane km false 0 c l) (maskOfLane km false d.n c l)

/-- Bytes of masks that a chunk takes from the look-ahead: 33 blocks for each F. -/
def maskBytes (gather : Bool) : Nat := if gather then 528 else 1056

/-! ### The slot schedule (R25, R341, R377) -/

def State.slotsOfPort (s : State) (p : Nat) : PortSlots := tgetD s.red.ports p {}
def State.modSlots (s : State) (p : Nat) (f : PortSlots → PortSlots) : State :=
  s.modRed (fun r => { r with ports := tmodD r.ports p {} f })

/-- A contribution of the port is active: its descriptor is not complete. -/
def State.activeOn (s : State) (p : Nat) : Bool :=
  s.red.descs.any (fun e => e.2.state == .active && e.2.port == p && e.2.ending.isNone)

/-- The look-ahead holds the masks of one more chunk of a descriptor (R341). -/
def State.masksFor (s : State) (x : Descriptor) : Bool := decide (maskBytes x.gather ≤ (s.slotsOfPort x.port).ahead)

/-- A descriptor of a port ends: its masks leave the look-ahead (R358); how many of those there were its, while others are active, is
open (a free value: DESIGN CHOICE, log 58). -/
def State.masksEnd (s : State) (p : Nat) : State :=
  let (left, s) := s.free 16
  s.modSlots p (fun x => { x with ahead := if s.activeOn p then min x.ahead left.toNat else 0 })

/-- Masks made by a masking slot that began at a postmark: 256 B in each clock of 1.8 GHz, in steps of 8 clocks, at most 64. -/
def State.slotMasks (s : State) (since : Nat) : Nat := 256 * min 64 (((s.now - since) * 9 / 20 + 7) / 8 * 8)

/-! ### Notices of class 9 (R366) -/

def State.redObject (s : State) (h d ctx : Nat) : List (Nat × Nat) := [(4, s.numberOf h), (2, d), (2, ctx)]
def redPayload (chunk reason contributor round : Nat) : List (Nat × Nat) :=
  [(4, chunk), (1, reason), (1, 0), (2, contributor), (4, round), (4, 0)]

/-- Payload of REDUCE_TX and REDUCE_RX (R462). -/
def redRecord (d : Nat) (x : Descriptor) (chunk contributor outcome : Nat) : List (Nat × Nat) :=
  [(2, x.group), (2, d), (4, x.round), (4, chunk), (2, contributor), (1, outcome), (5, 0)]

/-! ### Contributions (R336, R344, R351) -/

/-- The port takes a reduction packet now: its link is up, its logic answers, and the node is not isolated (R31, R432). -/
def State.portTakes (s : State) (p : Nat) : Bool :=
  decide (p ∈ s.boot.fabricUp) && decide (p ∉ s.fault.portsHung) && !s.fault.isolated

/-- The packet of a contribution. -/
def State.redPacket (s : State) (x : Descriptor) (km kc : Key) (chunk : Nat) (vs : List Int) : RedPacket :=
  let l := vs.map fxOf
  let lanes := (l ++ [checkSum kc chunk l]).zipIdx.map (fun e => fxAdd e.1 (x.maskFor km chunk e.2))
  { src := BitVec.ofNat 16 s.boot.nodeNumber, dst := Config.reductionDest x.group, tc := 0,
    tag0 := BitVec.ofNat 64 (2 ^ 56 * 0x32 + 2 ^ 55 * flag x.gather + 2 ^ 40 * x.group + 2 ^ 24 * x.filterKey + chunk),
    tag1 := BitVec.ofNat 64 (2 ^ 32 * x.round + s.numberOf x.handle),
    tag2 := BitVec.ofNat 64 (2 ^ 52 * (if x.gather then x.index else 0) + 2 ^ 40 * (x.n - 1)),
    lanes := lanes.map (fun n => BitVec.ofNat 64 n) }

/-- Hands over one contribution and completes it to its tile. -/
def State.contribute (s : State) (n : Nat) (x : Descriptor) (keys : Key × Key) (c : Contribution) : State :=
  let got := (imageValues x.inFmt c.image).map (fun v => convertIn v x.scale)
  let sat := (got.filter (fun g => g.2.1)).length
  let nan := (got.filter (fun g => g.2.2)).length
  let p := { s.redPacket x keys.1 keys.2 c.chunk (got.map (·.1)) with tc := BitVec.ofNat 8 c.tc }
  let s := s.modDesc n (fun d => { d with sent := d.sent + 1, inSat := d.inSat + sat, inNan := d.inNan + nan,
                                          waiting := d.waiting.filter (fun (w : Contribution) => w.chunk != c.chunk) })
  let s := s.modRed (fun r => { r with sent := sat64 r.sent, inSat := satAdd 64 r.inSat sat, inNan := satAdd 64 r.inNan nan })
  let s := s.modSlots x.port (fun y => { y with ahead := y.ahead - maskBytes x.gather })
  let s := (s.emit (.reduction x.port p)).count (islandP x.port) 4 (some c.tc) 544
  let s := s.traceRec (islandP x.port) 0x22 (some x.handle) (some x.ctx) (redRecord n x c.chunk x.index 0)
  let s := s.conclude (some x.handle) x.handle c.tc 1 x.port c.accepted 544 c.within
  s.tileAnswer c.tile (some x.ctx) { tag := c.tag, status := .done, noticeType := 0, reason := 0, data := [], result := 0 }

/-- Hands over one contribution of a descriptor, if its key and masks are there and its port takes it. -/
def State.serveContribution (s : State) (n : Nat) (c : Contribution) : State :=
  let x := s.desc n
  match x.keys with
  | none => s
  | some keys =>
    if x.state = .active ∧ x.ending.isNone = true ∧ s.portTakes x.port = true ∧ s.masksFor x = true then s.contribute n x keys c else s

/-- A descriptor's contributions as its port's arbiter sees them. -/
def State.waitingOf (s : State) (n : Nat) (x : Descriptor) : List (Nat × Nat × Nat × (Nat × Contribution)) :=
  x.waiting.map (fun c => (aged c.level c.accepted s.now, masterKey x.handle c.tc 1 x.port, 544, (n, c)))

/-- Hands over what waits at a descriptor, as far as it can be. -/
def State.flushDesc (s : State) (n : Nat) : State :=
  (arbitrate (s.waitingOf n (s.desc n))).foldl (fun s e => s.serveContribution e.1 e.2) s

/-- Puts something into a list in order of arrival, behind what arrived with it. -/
def arrivalInsert {α : Type} (key : α → Nat) (x : α) : List α → List α
  | [] => [x]
  | y :: r => if key x < key y then x :: y :: r else y :: arrivalInsert key x r

/-- The order of arrival of what waits at a port. -/
def arrivalOf (e : Nat × Nat × Nat × (Held ⊕ (Nat × Contribution))) : Nat :=
  match e.2.2.2 with
  | .inl x => 2 * x.order
  | .inr c => 2 * c.2.id + 1

/-- What waits at a port's transmit arbiter, in its order of arrival: what its island holds, and contributions. -/
def State.atArbiter (s : State) (p : Nat) : List (Nat × Nat × Nat × (Held ⊕ (Nat × Contribution))) :=
  let held := (s.boot.heldItems.filter (fun x => x.port == p)).map (fun x =>
    (s.heldLevel x, x.stamp.master, x.item.cost, (Sum.inl x : Held ⊕ (Nat × Contribution))))
  let chunks := ((s.red.descs.filter (fun e => e.2.port == p)).flatMap (fun e => s.waitingOf e.1 e.2)).map (fun e =>
    (e.1, e.2.1, e.2.2.1, (Sum.inr e.2.2.2 : Held ⊕ (Nat × Contribution))))
  (held ++ chunks).foldl (fun l x => arrivalInsert arrivalOf x l) []

/-- A held item that its arbiter can serve is handed over; another keeps its place. -/
def State.serveNext (s : State) (x : Held) : State :=
  if (s.sealsHeldBack = true ∧ x.item.sealed = true) ∨ s.portPasses x.port x.item = true then
    State.serveHeld { s with boot := { s.boot with heldItems := s.boot.heldItems.erase x } } x
  else s

/-- A port's transmit arbiter serves all that waits at it (R372). -/
def State.portServe (s : State) (p : Nat) : State :=
  (arbitrate (s.atArbiter p)).foldl (fun s e => match e with
    | .inl x => s.serveNext x
    | .inr c => s.serveContribution c.1 c.2) s

/-- CHUNK_REFUSED: the reason of R351, if there is one. -/
def State.chunkRefusal (s : State) (h : Nat) (d : TileHead) (n chunk : Nat) : Option Nat :=
  let x := s.desc n
  if x.state ≠ .active ∨ x.ending.isSome = true then some 1
  else if x.handle ≠ h ∨ x.ctx ≠ d.ctx.toNat then some 2
  else if x.chunks ≤ chunk ∨ chunk ∈ x.contributed then some 3
  else if d.length.toNat ≠ imageSize x.inFmt then some 4
  else none

/-- REDUCE_CONTRIBUTE (R351, R487). -/
def State.contributeAsk (s : State) (t : Nat) (d : TileHead) (image : Bytes) : State :=
  if d.op.toNat ≠ 5 ∧ 1 ≤ d.op.toNat ∧ d.op.toNat ≤ 5 then s
  else match s.tileEntry t d with
    | .withheld => s
    | .answered s => s
    | .job h =>
      let n := bits d.address.toNat 9 0
      let chunk := bits d.address.toNat 39 16
      let x := s.desc n
      match s.chunkRefusal h d n chunk with
      | some reason =>
        let s := s.raiseFault islandXB d.ctx.toNat 0x0901 reason (10 * Config.us) d.ctx.toNat .notPermitted
          (s.redObject h n d.ctx.toNat) (redPayload chunk reason 0 x.round)
        s.tileAnswer t (some d.ctx.toNat) (errorResponse d.tag .notPermitted 0x0901 reason 0)
      | none =>
        if s.tc0Full d.ctx.toNat h d.tc.toNat x.port = true then s
        else
        let (tc, s) := s.reclass h d.tc.toNat
        let (level, s) := s.charge (some d.ctx.toNat) h tc 1 x.port 544 none
        let s := s.tc0Wait level x.port
        let s := s.modCounters h (fun k => { k with requests := addAt k.requests tc 1, bytes := addAt k.bytes tc 544 })
        let s := s.count islandXB 2 (some tc) 1
        let s := if level = 0 then s.count islandXB 6 (some tc) 1 else s
        let c : Contribution := { chunk := chunk, image := slice image 0 d.length.toNat, tile := t, tag := d.tag,
                                  accepted := s.now, tc := tc, id := s.mem.nextId, level := level, within := level != 0 }
        let s : State := { s with mem := { s.mem with nextId := s.mem.nextId + 1 } }
        (s.modDesc n (fun y => { y with contributed := chunk :: y.contributed, waiting := y.waiting ++ [c] })).flushDesc n

/-! ### Received packets (R343, R352 to R354) -/

/-- The number by which a descriptor keeps a chunk, or a contributor's chunk. -/
def Descriptor.place (x : Descriptor) (j c : Nat) : Nat := if x.gather then j * x.chunks + c else c

/-- A chunk of a descriptor fails (R343, R354); the first failure is posted. -/
def State.chunkFails (s : State) (n place reason : Nat) : State :=
  let x := s.desc n
  let chunk := if x.gather then place % max 1 x.chunks else place
  let j := if x.gather then place / max 1 x.chunks else 0
  let s := s.modDesc n (fun d => { d with failed := d.failed + 1, firstFailed := if d.failed = 0 then chunk else d.firstFailed })
  let s := s.modRed (fun r => { r with failed := sat64 r.failed })
  if x.failed = 0 then s.post 0x0902 .integrityLost (s.redObject x.handle n x.ctx) (redPayload chunk reason j x.round) [x.handle]
  else s

/-- A decoded chunk goes to its place as a write of the descriptor's context (R354); no rule gives its class (DESIGN CHOICE, log 12). -/
def State.writeChunk (s : State) (n place : Nat) (image : Bytes) : State :=
  let x := s.desc n
  let address := x.dest + (if x.gather then place else place - x.rxFirst) * imageSize x.outFmt
  let (tc, s) := s.free 2
  match s.regionAt x.handle false address image.length with
  | none => (s.noRegionFault x.handle x.ctx x.keyIndex).chunkFails n place 4
  | some (m, r) =>
    match s.regionCheck x.handle r 2 x.keyIndex with
    | some (type, reason) =>
      (s.sectorFault islandXB m x.handle (some x.ctx) type reason (lbnOf m r ((address - r.base) / r.sector)) x.keyIndex).chunkFails
        n place 4
    | none =>
      s.submit { origin := .chunk n place, kind := .write, ctx := some x.ctx,
                 keyIndex := if r.cls = .opened then 0 else x.keyIndex, region := m, address := address,
                 length := image.length, tc := tc.toNat, bytes := image.map some }

/-- The destination write of a chunk is done (R354). -/
def State.chunkWritten (s : State) (n place : Nat) (failed : Bool) : State :=
  if (s.desc n).state = .free then s
  else if failed then s.chunkFails n place 4
  else (s.modDesc n (fun d => { d with delivered := d.delivered + 1, written := place :: d.written })).modRed
    (fun r => { r with delivered := sat64 r.delivered })

/-- What R343 says of a packet: the reason for which its chunk fails, or its 64 decoded sums. -/
def Descriptor.verdict (x : Descriptor) (keys : Key × Key) (j c : Nat) (lanes : List Nat) : Except Nat (List Int) :=
  if lanes.all (fun l => decide (l < fxP)) = false then .error 2
  else
    let l := lanes.zipIdx.map (fun e => fxSub e.1 (x.residual keys.1 j c e.2))
    let sums := (l.take 64).map fxSigned
    if checkSum keys.2 c (l.take 64) ≠ l.getD 64 0 then .error 1
    else if !x.gather && sums.any (fun v => decide ((x.n : Int) * maxIn < v.natAbs)) then .error 3
    else .ok sums

/-- Shared staging slots in use: those beyond a descriptor's four (R353). -/
def State.sharedSlots (s : State) : Nat := (s.red.descs.map (fun e => e.2.staged.length - 4)).sum

/-- XB has a staging slot for a descriptor: one of its four, or one of the 7,168 that are reserved for none (R348, R353). -/
def State.slotFree (s : State) (x : Descriptor) : Bool :=
  decide (x.staged.length < 4) || decide (s.sharedSlots < 7168 - 4 * 1024)

/-- Decides a chunk on a packet in a staging slot, which waits there for the key and for masks (DEDUCED, log 58); the slot is free again. -/
def State.decideChunk (s : State) (n : Nat) (p : RedPacket) : State :=
  let x := s.desc n
  let c := p.tag0.toNat % 2 ^ 24
  let j := if x.gather then p.tag2.toNat / 2 ^ 52 else 0
  let place := x.place j c
  match x.keys with
  | none => s
  | some keys =>
    if s.masksFor x = false then s
    else
    let s := s.modDesc n (fun d => { d with staged := d.staged.erase p })
    if place ∈ x.decided ∨ x.rxCount ≤ x.decided.length then s.modRed (fun r => { r with stray := sat64 r.stray })
    else
      let s := s.modDesc n (fun d => { d with decided := place :: d.decided })
      let s := s.count islandXB 10 none 1
      let s := s.modSlots x.port (fun y => { y with ahead := y.ahead - maskBytes x.gather })
      let seen (s : State) (outcome : Nat) : State :=
        s.traceRec (islandP x.port) 0x23 (some x.handle) (some x.ctx) (redRecord n x c j outcome)
      match x.verdict keys j c (p.lanes.map (·.toNat)) with
      | .error reason => (seen s reason).chunkFails n place reason
      | .ok sums =>
        let (image, sat) := convertOut x.outFmt sums x.scale
        let s := (seen s 0).modDesc n (fun d => { d with outSat := d.outSat + sat })
        (s.modRed (fun r => { r with outSat := satAdd 64 r.outSat sat })).writeChunk n place image

/-- Decides what waits in a descriptor's staging slots, oldest first. -/
def State.decideStaged (s : State) (n : Nat) : State := (s.desc n).staged.foldl (fun s p => s.decideChunk n p) s

/-- A packet takes a staging slot and its chunk is decided. -/
def State.stagePacket (s : State) (n : Nat) (p : RedPacket) : State :=
  (s.modDesc n (fun d => { d with staged := d.staged ++ [p] })).decideChunk n p

/-- A packet that passed the checks of R352: without a slot for it, XB withholds acknowledge and the port island holds it (R353). -/
def State.takePacket (s : State) (n : Nat) (p : RedPacket) : State :=
  if (s.desc n).held.isEmpty = true ∧ s.slotFree (s.desc n) = true then s.stagePacket n p
  else s.modDesc n (fun d => { d with held := d.held ++ [p], heldAt := if d.held.isEmpty then s.now else d.heldAt })

/-- XB takes what port islands hold for a descriptor, oldest first, as slots are free. -/
def State.drawSlots (s : State) (n : Nat) : State :=
  (s.desc n).held.foldl (fun s p => if s.slotFree (s.desc n) then
    (s.modDesc n (fun d => { d with held := d.held.erase p })).stagePacket n p else s) s

/-- A port goes on with the masks and the slot that it has: what it sends, then what it decides. -/
def State.masksMade (s : State) (p : Nat) : State :=
  (s.red.descs.filter (fun e => e.2.port == p)).foldl (fun s e => s.decideStaged e.1) (s.portServe p)

/-! ### The slots of a port island (R25, R341, R377) -/

/-- SLOT_BOUNDARY: the slot in progress ends, and the island chooses the next.  A residue mismatch in a masking slot is a
verify-lane mismatch (R341). -/
def State.slotBoundary (s : State) (p : Nat) : State :=
  let x := s.slotsOfPort p
  if s.boot.fwRunning = false then s
  else if x.masking = true ∧ s.laneOff = true then s.laneFound.hardFault 3 (islandP p)
  else
    let ahead := x.ahead + (if x.masking && s.activeOn p then 16384 else 0)
    let waits := s.boot.heldItems.any (fun x => x.port == p && s.laneSealed x.item)
    let three := decide (x.recent.length = 3) && x.recent.all id
    let mask := s.activeOn p && decide (ahead < 8192) && !(waits && three)
    let s := s.modSlots p (fun x => { x with ahead := ahead, masking := mask, since := s.now,
                                             recent := (mask :: x.recent).take 3 })
    (s.count (islandP p) (if mask then 6 else 7) none 1).masksMade p

/-- MASKING_SLOT_CUT (R377): a TC0 packet ends the masking slot in progress, and a sealing slot runs. -/
def State.slotCut (s : State) (p : Nat) : State :=
  let x := s.slotsOfPort p
  if x.masking = false then s
  else
    let s := s.modSlots p (fun y => { y with ahead := x.ahead + (if s.activeOn p then s.slotMasks x.since else 0), masking := false,
                                             since := s.now, recent := (false :: y.recent).take 3 })
    (State.count { s with reg := { s.reg with slotsCut := sat64 s.reg.slotsCut } } (islandP p) 7 none 1).masksMade p

/-! ### The tag-word checks (R352) -/

/-- The ACTIVE descriptor that a packet's tag words name (R352 check 2). -/
def State.descOf (s : State) (p : RedPacket) : Option (Nat × Descriptor) :=
  let t0 := p.tag0.toNat
  let t1 := p.tag1.toNat
  match s.handleOf (t1 % 2 ^ 32) with
  | none => none
  | some h => s.red.descs.find? (fun e => e.2.state == .active && e.2.ending.isNone && e.2.handle == h
      && e.2.group == bits t0 51 40 && e.2.round == t1 / 2 ^ 32 && e.2.gather == bit t0 55
      && e.2.n == bits p.tag2.toNat 51 40 + 1)

/-- REDUCTION_PACKET_RECEIVED (R352). -/
def State.reductionPacket (s : State) (port : Nat) (p : RedPacket) : State :=
  if s.boot.fwRunning = false ∨ s.boot.tamperHeld = true then s
  else
    let s := (s.count (islandP port) 8 none 1).count (islandP port) 5 none 544
    let t0 := p.tag0.toNat
    let c := t0 % 2 ^ 24
    let stray := s.modRed (fun r => { r with stray := sat64 r.stray })
    if s.quarantined = true then s.modDead (fun d => { d with quarantine := sat64 d.quarantine })
    else if t0 / 2 ^ 56 ≠ 0x32 ∨ bits t0 54 52 ≠ 0 ∨ p.tag2.toNat % 2 ^ 40 ≠ 0 ∨ p.lanes.length ≠ 65 then
      s.modRed (fun r => { r with malformed := sat64 r.malformed })
    else match s.descOf p with
      | none => stray
      | some (n, x) =>
        let j := p.tag2.toNat / 2 ^ 52
        let within := if x.gather then decide (j < x.n) && decide (c < x.chunks)
          else decide (x.rxFirst ≤ c) && decide (c < x.rxFirst + x.rxCount)
        if within = false ∨ x.place j c ∈ x.decided ∨ x.rxCount ≤ x.decided.length then stray
        else s.takePacket n p

/-- KEY_DELIVERED for a descriptor (R331): what waited for the key goes on. -/
def State.reduceKeyDelivered (s : State) (h n : Nat) : State :=
  let x := s.desc n
  match s.slotKey h (.reduce n) with
  | none => s
  | some jrk =>
    if x.state ≠ .active then s
    else
      let k := reduceKey jrk x.group x.round
      let s := s.modDesc n (fun d => { d with keys := some (k.extractLsb' 0 256, k.extractLsb' 256 256) })
      (s.flushDesc n).decideStaged n

/-! ### Completion and close (R355 to R358) -/

/-- Ends what a descriptor may still contribute and receive: contributions not handed over are answered with `st`, and packets not
decided are stray. -/
def State.descEnds (s : State) (n : Nat) (st : Status) : State :=
  let x := s.desc n
  let s := s.modDesc n (fun d => { d with ending := some st, endedAt := s.now, waiting := [], staged := [], held := [], keys := none })
  let s := s.modRed (fun r => { r with stray := satAdd 64 r.stray (x.staged.length + x.held.length) })
  let s := s.masksEnd x.port
  x.waiting.foldl (fun s c =>
    (s.conclude (some x.handle) x.handle c.tc 1 x.port c.accepted 0 c.within).tileAnswer c.tile (some x.ctx)
      (errorResponse c.tag st 0 0 0)) s

/-- A descriptor enters CLOSING (R358); one whose completion has begun keeps its status (R355). -/
def State.descCloses (s : State) (n : Nat) (op : Option Nat) (noRecord : Bool) : State :=
  let x := s.desc n
  if x.state ≠ .active then s
  else
    let s := if x.ending.isSome then s else s.descEnds n .squashed
    s.modDesc n (fun d => { d with state := .closing, cancelOp := op, noRecord := noRecord && x.ending.isNone,
                                   closeBy := s.now + 5 * Config.us })

/-- REDUCTION_DEADLINE (R355). -/
def State.redDeadline (s : State) (n : Nat) : State :=
  let x := s.desc n
  if x.state = .active ∧ x.ending.isNone = true ∧ x.activated + x.deadline * Config.us ≤ s.now then s.descEnds n .timeout
  else s

/-- The status with which a descriptor completes (R355). -/
def Descriptor.final (x : Descriptor) (st : Status) : Status :=
  if st ≠ .squashed ∧ 0 < x.failed then .integrityLost else st

/-- The completion record (R357). -/
def State.completionRecord (s : State) (n : Nat) (x : Descriptor) (st : Status) : Bytes :=
  enc [(2, (x.final st).code), (2, n), (4, x.round), (4, x.sent), (4, x.delivered), (4, x.failed), (4, x.firstFailed),
       (4, x.inSat), (4, x.inNan), (4, x.outSat), (4, 0), (8, x.activated), (8, x.endedAt), (8, 0)]

/-- Writes the completion record as a write of the descriptor's context; where the write is refused, none is written. -/
def State.writeRecord (s : State) (n : Nat) (x : Descriptor) (st : Status) : State :=
  let s := s.modDesc n (fun d => { d with recording := true })
  let (tc, s) := s.free 2
  match s.regionAt x.handle false x.doneAddr 64 with
  | none => s.noRegionFault x.handle x.ctx x.keyIndex
  | some (m, r) =>
    match s.regionCheck x.handle r 2 x.keyIndex with
    | some (type, reason) =>
      s.sectorFault islandXB m x.handle (some x.ctx) type reason (lbnOf m r ((x.doneAddr - r.base) / r.sector)) x.keyIndex
    | none =>
      s.submit { origin := .recordWrite n, kind := .write, ctx := some x.ctx,
                 keyIndex := if r.cls = .opened then 0 else x.keyIndex, region := m, address := x.doneAddr, length := 64,
                 tc := tc.toNat, bytes := (s.completionRecord n x st).map some }

/-- A write of a descriptor is still on its way. -/
def State.descWrites (s : State) (n : Nat) : Bool :=
  (s.mem.reqs ++ s.mem.finished).any (fun q => match q.origin with
    | .chunk d _ => d == n
    | .recordWrite d => d == n
    | _ => false)

/-- What the write-combining buffers still hold of a descriptor's chunks is nobody's once it is FREE. -/
def State.forgetChunks (s : State) (n : Nat) : State :=
  { s with mem := { s.mem with
      wc := s.mem.wc.map (fun (e : WcEntry) => { e with chunks := e.chunks.filter (fun c => c.1 != n) }),
      ops := s.mem.ops.map (fun (o : SecOp) => { o with chunks := o.chunks.filter (fun c => c.1 != n) }) } }

/-- The descriptor becomes FREE: its notice, and the end of its close. -/
def State.descFree (s : State) (n : Nat) (x : Descriptor) (st : Status) : State :=
  let final := x.final st
  let s := (s.forgetChunks n).modRed (fun r => { r with descs := tdel r.descs n, completed := sat64 r.completed })
  let s := if final = .done then s.modCounters x.handle (fun k => { k with reductions := sat64 k.reductions }) else s
  let s := s.completeOpt x.op final
    [(4, x.delivered), (4, x.failed), (4, x.firstFailed), (4, (x.inSat + x.outSat) % 2 ^ 32)]
  let s := s.completeOpt x.cancelOp .done []
  if x.state = .closing then s.closeEnded (.descriptor n) true else s

/-- One descriptor goes on towards its completion. -/
def State.descSettle (s : State) (n : Nat) : State :=
  let x := s.desc n
  match x.ending with
  | none =>
    if x.state = .active ∧ x.sent = x.chunks ∧ x.decided.length = x.rxCount then s.descEnds n .done
    else s
  | some st =>
    if s.descWrites n then s
    else if x.record = true ∧ x.noRecord = false ∧ x.recording = false then s.writeRecord n x st
    else s.descFree n x st

/-- A write of a chunk has ended in MERGE_LOST (R354): a chunk that counted as written fails, and one whose other sectors are still
being written fails at their end. -/
def State.chunkLost (s : State) (e : Nat × Nat) : State :=
  if e.2 ∈ (s.desc e.1).written then
    ((s.modDesc e.1 (fun y => { y with written := y.written.filter (fun q => q != e.2), delivered := y.delivered - 1 })).modRed
      (fun r => { r with delivered := r.delivered - 1 })).chunkFails e.1 e.2 4
  else
    { s with mem := { s.mem with reqs := s.mem.reqs.map (fun (q : Req) =>
        if q.origin = .chunk e.1 e.2 then q.fail .integrityLost 0x0502 0 else q) } }

/-- Every descriptor goes on as far as it can. -/
def State.redSettle (s : State) : State :=
  let lost := s.mem.lostChunks
  let s := lost.foldl (fun s e => s.chunkLost e) { s with mem := { s.mem with lostChunks := [] } }
  let s := s.red.descs.foldl (fun s e => s.drawSlots e.1) (((s.red.descs.map (fun e => e.2.port)).eraseDups).foldl State.portServe s)
  s.red.descs.foldl (fun s e => (s.descSettle e.1).descSettle e.1) s

/-! ### Commands 0x09xx (R350, R362 to R365) -/

/-- The letterbox may name a descriptor (bits 9:0 of its field): a job letterbox, none that another job holds. -/
def State.ownDesc (s : State) (c : Cmd) : Bool :=
  s.ownNumber c (c.arg 0 4) && (decide (c.lb < 2) || (match tget s.red.descs (c.arg 4 2 % 1024) with
    | some d => d.state == .free || s.numberOf d.handle == c.arg 0 4
    | none => true))

/-- The group's record, if the job has it. -/
def Job.group (j : Job) (g : Nat) : Option RedGroup := j.groups.find? (fun x => x.group == g)

/-- Check 1 of R350: the group (bits 11:0 of its field) and the context (bits 11:0) are the named job's. -/
def State.activateAllowed (s : State) (c : Cmd) : Bool :=
  match s.named (c.arg 0 4) with
  | none => true
  | some (_, j) => (j.group (c.arg 6 2 % 4096)).isSome && decide (j.ctxBase ≤ c.arg 22 2 % 4096)
      && decide (c.arg 22 2 % 4096 < j.ctxBase + j.maxContexts)

/-- The region of a job that may take a reduction's bytes (R350 check 3). -/
def State.redRegion (s : State) (h address length : Nat) : Option Region :=
  match s.regionAt h false address length with
  | some (_, r) => if r.cls ≠ .weights ∧ (r.state = .active ∨ r.state = .rekeying) then some r else none
  | none => none

/-- Key index check 4 of R163 for a region that may be absent. -/
def keyFits (r : Option Region) (key : Nat) : Bool :=
  match r with
  | some r => r.cls == .opened || (decide (r.keyFirst ≤ key) && decide (key ≤ r.keyLast))
  | none => true

/-- Checks 2 and 3 of R350. -/
def State.activateParams (s : State) (c : Cmd) : List (Nat × Bool) :=
  let gather := c.arg 16 1 == 1
  let n := c.arg 12 2
  let chunks := c.arg 24 4
  let rx := c.arg 32 4
  let key := c.arg 44 4
  let rec_ := bit (c.arg 21 1) 0
  let out := (if gather then n * chunks else rx) * imageSize (c.arg 18 1)
  let fields : List (Nat × Bool) :=
    [(68, decide (c.arg 4 2 < 1024)), (70, decide (c.arg 6 2 < 4096)),
     (76, decide (2 ≤ n) && (match s.named (c.arg 0 4) with
        | some (_, j) => (match j.group (c.arg 6 2) with | some g => decide (n ≤ g.contributors) | none => true)
        | none => true)),
     (78, decide (c.arg 14 2 < n)), (80, decide (c.arg 16 1 < 2)), (81, decide (c.arg 17 1 < 16)),
     (82, decide (c.arg 18 1 < 16)), (84, decide (c.arg 20 1 < 32)), (85, decide (c.arg 21 1 < 2)),
     (86, decide (c.arg 22 2 < 4096)), (88, decide (1 ≤ chunks) && decide (chunks ≤ 2 ^ 24)),
     (92, !gather || c.arg 28 4 == 0),
     (96, if gather then decide (rx ≤ n * chunks) else decide (c.arg 28 4 + rx ≤ chunks)),
     zeroAt c 38 2, (104, decide (10 ≤ c.arg 40 4) && decide (c.arg 40 4 ≤ 100000)), (108, decide (key < 2 ^ 20)),
     (120, if rec_ then c.arg 56 8 % 64 == 0 else c.arg 56 8 == 0)]
  match s.named (c.arg 0 4) with
  | none => fields
  | some (h, _) =>
    let dst := if rx = 0 then none else s.redRegion h (c.arg 48 8) out
    let done := if rec_ then s.redRegion h (c.arg 56 8) 64 else none
    fields ++ [(112, rx == 0 || dst.isSome), (120, !rec_ || done.isSome), (108, keyFits dst key && keyFits done key)]

/-- A scale byte as a signed number. -/
def scaleOf (b : Nat) : Int := if b < 128 then b else (b : Int) - 256

/-- ACTIVATE_REDUCTION from its ACCEPTED on (R350). -/
def State.activate (s : State) (h id : Nat) (c : Cmd) : State :=
  let x : Descriptor :=
    { state := .active, handle := h, group := c.arg 6 2, round := c.arg 8 4, n := c.arg 12 2, index := c.arg 14 2,
      gather := c.arg 16 1 == 1, inFmt := c.arg 17 1, outFmt := c.arg 18 1, scale := scaleOf (c.arg 19 1), port := c.arg 20 1,
      record := bit (c.arg 21 1) 0, ctx := c.arg 22 2, chunks := c.arg 24 4, rxFirst := c.arg 28 4, rxCount := c.arg 32 4,
      filterKey := c.arg 36 2, deadline := c.arg 40 4, keyIndex := c.arg 44 4, dest := c.arg 48 8, doneAddr := c.arg 56 8,
      activated := s.now, op := some id }
  let s := s.modRed (fun r => { r with descs := tput r.descs (c.arg 4 2) x })
  let s := s.modJob h (fun j => { j with groups := j.groups.map (fun (g : RedGroup) =>
    if g.group = x.group then { g with lastRound := x.round } else g) })
  s.keyRequest (islandP x.port) h (.reduce (c.arg 4 2))

/-- ACTIVATE_REDUCTION (R348 to R350): check 1 of R350 comes before step 11 of R46, and `run` applies the checks 1 to 3 again, for a
command that starts after it was held (R62). -/
def hActivateReduction : Handler where
  manager := false
  service := true
  length := exactly 64
  allowed s c := s.ownNumber c (c.arg 0 4) && (decide (c.lb < 2) || s.activateAllowed c)
  before s c := if s.activateAllowed c then none else some (.notPermitted, 0)
  params s c := s.activateParams c
  run s c :=
    let n := c.arg 4 2
    let x := s.desc n
    match s.named (c.arg 0 4) with
    | none => refuse .badState
    | some (h, j) =>
      if s.activateAllowed c = false then refuse .notPermitted
      else match firstBad (s.activateParams c), s.partGate j.partition false false with
      | some d, _ => badField d
      | none, some v => v
      | none, none =>
        if s.serving h = false ∨ (s.ctx (c.arg 22 2)).state ≠ .opened then refuse .badState
        else if x.state = .closing ∧ x.handle = h then .behind (.descriptor n) (s.remaining x.closeBy)
        else if x.state ≠ .free then refuse .badState
        else match j.group (c.arg 6 2) with
          | none => refuse .notPermitted
          | some g =>
            let mine := s.red.descs.filter (fun e => e.2.state == .active && e.2.handle == h && e.2.group == g.group)
            if c.arg 8 4 ≤ g.lastRound then refuse .badState
            else if g.descriptors ≤ mine.length then
              busyFor ((mine.map (fun e => s.remaining (e.2.activated + e.2.deadline * Config.us))).foldl min 100000)
            else .accept [] (some (c.arg 40 4)) (fun id s => s.activate h id c)

/-- Fields of a command that names a job and a descriptor. -/
def descParams (c : Cmd) : List (Nat × Bool) := [(68, decide (c.arg 4 2 < 1024)), zeroAt c 6 2]

/-- CANCEL_REDUCTION (R358). -/
def hCancelReduction : Handler where
  manager := false
  service := true
  length := exactly 8
  allowed s c := s.ownDesc c
  params _ c := descParams c
  run s c :=
    let n := c.arg 4 2
    let x := s.desc n
    match s.jobGate (c.arg 0 4) with
    | .error v => v
    | .ok (h, _) =>
      if x.state = .active ∧ x.handle = h ∧ x.ending.isNone = true then
        .accept [] (some 5) (fun id s => s.descCloses n (some id) false)
      else refuse .badState

def RedState.code : RedState → Nat
  | .free => 0 | .active => 1 | .closing => 2

/-- The 64-byte entry of R348. -/
def State.descBytes (s : State) (n : Nat) (x : Descriptor) : Bytes :=
  enc [(4, s.numberOf x.handle), (2, n), (2, x.group), (4, x.round), (2, x.n), (2, x.index), (1, flag x.gather), (1, x.inFmt),
       (1, x.outFmt), (1, (x.scale % 256).toNat), (1, x.port), (1, flag x.record), (2, x.ctx), (4, x.chunks), (4, x.rxFirst),
       (4, x.rxCount), (2, x.filterKey), (1, x.state.code), (1, x.handle), (4, x.deadline), (4, x.keyIndex), (8, x.dest),
       (8, x.doneAddr)]

/-- REDUCTION_STATUS (R363). -/
def hReductionStatus : Handler where
  service := true
  length := exactly 8
  allowed s c := s.ownDesc c
  params _ c := descParams c
  run s c :=
    let n := c.arg 4 2
    let x := s.desc n
    match s.jobGate (c.arg 0 4) with
    | .error v => v
    | .ok (h, _) =>
      if x.state = .free then answerWith s (zeros 80)
      else if x.handle ≠ h then refuse .badState
      else answerWith s (s.descBytes n x ++ enc [(4, x.sent), (4, x.decided.length), (4, x.failed), (4, x.staged.length)])

/-- GROUP_STATUS (R364). -/
def hGroupStatus : Handler where
  service := true
  length := exactly 8
  allowed s c := s.ownNumber c (c.arg 0 4) && (match s.named (c.arg 0 4) with
    | some (_, j) => (j.group (c.arg 4 2 % 4096)).isSome
    | none => true)
  params _ c := [(68, decide (c.arg 4 2 < 4096)), zeroAt c 6 2]
  run s c :=
    match s.jobGate (c.arg 0 4) with
    | .error v => v
    | .ok (h, j) =>
      match j.group (c.arg 4 2) with
      | none => refuse .notPermitted
      | some g =>
        answerWith s (enc [(4, g.lastRound),
          (2, (s.red.descs.filter (fun e => e.2.state == .active && e.2.handle == h && e.2.group == g.group)).length),
          (2, g.descriptors), (2, g.contributors), (6, 0)])

/-- The body of REDUCTION_COUNTS (R365). -/
def reductionCounts (s : State) : Bytes :=
  let r := s.red
  enc [(8, r.completed), (8, r.sent), (8, r.delivered), (8, r.failed), (8, r.stray), (8, r.malformed), (8, r.inSat),
       (8, r.inNan), (8, r.outSat)]

def hReductionCounts : Handler where
  job := false
  service := true
  length := exactly 0
  run s _ := answerWith s (reductionCounts s)

end Machine
end Sys2Proof
end

