-- ==== Sys2Proof/Machine/Faults.lean ====
section
/-!
DEFINITION. Machine/Faults.lean: watchdogs and fenced stacks, the health score, postcards, the wait-for graph, partition
reset, the mailbag, and the commands 0x0Cxx (R417 to R452).
-/

namespace Sys2Proof
namespace Machine

def State.modFault (s : State) (f : Faults → Faults) : State := { s with fault := f s.fault }

/-! ### Suspects (R426, R445) -/

/-- A request that waits on a unit: since when, what it is among all (its kind and identity), and its record. -/
structure Waiter where
  since   : Nat
  name    : Nat × Nat
  suspect : Suspect

/-- Puts one that has waited on its unit since a moment behind those that have waited longer. -/
def byAge (x : Waiter) : List Waiter → List Waiter
  | [] => [x]
  | y :: r => if y.since ≤ x.since then y :: byAge x r else x :: y :: r

/-- The suspects of a unit, the one that has waited longest on it first, each request once. -/
def suspectsOf (l : List Waiter) : List Suspect :=
  ((l.foldl (fun a x => byAge x a) []).foldl (fun (a : List Waiter) x =>
    if a.any (fun y => y.name == x.name) then a else a ++ [x]) []).map (·.suspect)

/-- A request as a suspect. -/
def State.suspectOf (s : State) (q : Req) (kind unit : Nat) : Suspect :=
  { ctx := q.ctx.getD 0xFFFF, op := if q.ctx.isNone then 9 else q.code, tc := q.tc, keyIndex := q.keyIndex,
    address := s.globalOf q.tkind q.address, length := q.length, unitKind := kind, unit := unit, outcome := 0, time := 0,
    accepted := q.accepted }

/-- The work of an island of its own as a suspect (R426, R445). -/
def State.ownSuspect (s : State) (op tc tkind address length since kind unit : Nat) : Suspect :=
  { ctx := 0xFFFF, op := op, tc := tc, keyIndex := 0, address := s.globalOf tkind address, length := length, unitKind := kind,
    unit := unit, outcome := 0, time := 0, accepted := since }

/-- What an operation on a sector stands for at a unit: its request, or the work of the island itself. -/
def State.opWaiter (s : State) (o : SecOp) (since kind unit : Nat) : Waiter :=
  match s.reqOf o.req with
  | some q => { since := since, name := (0, q.id), suspect := s.suspectOf q kind unit }
  | none =>
    let r := s.regionX o.region
    { since := since, name := (1, o.id), suspect :=
      { ctx := o.ctx.getD 0xFFFF, op := if o.ctx.isSome then 3 else 9, tc := o.tc, keyIndex := o.keyIndex,
        address := s.globalOf (flag r.pooled) (r.sectorAddress o.sector), length := r.sector, unitKind := kind, unit := unit,
        outcome := 0, time := 0, accepted := o.since } }

/-- A metadata fetch at a unit. -/
def State.fetchWaiter (s : State) (f : Fetch) (kind unit : Nat) : Waiter :=
  { since := f.since, name := (2, f.id), suspect :=
    s.ownSuspect 8 f.tc (flag (s.lineStack f.key f.copyB).isNone) (s.lineAddress f.key f.copyB) 64 f.since kind unit }

/-- A remote request as a suspect. -/
def RemReq.suspect (unit : Nat) (q : RemReq) : Suspect :=
  { ctx := q.ctx, op := 4 + q.op, tc := q.tc, keyIndex := q.keyIndex, address := q.address, length := q.length, unitKind := 1,
    unit := unit, outcome := 0, time := 0, accepted := q.accepted }

/-- An operation has been issued to its unit and is not done. -/
def SecOp.issuedNow (o : SecOp) : Bool := o.stage != .waiting && o.got.isNone

/-- An operation that is not done needs the line of a fetch. -/
def State.wants (s : State) (f : Fetch) (o : SecOp) : Bool :=
  o.got.isNone && (s.needs o).any (fun e => e.1 == f.island && e.2 == f.key)

/-- The writes of tree maintenance and of teardowns that a stack has not accepted (R423). -/
def State.writesOn (s : State) (n : Nat) : List Waiter :=
  let node (key : LineKey) : Nat := s.lineAddress key (s.lineStack key false != some n)
  let own (name : Nat × Nat) (address length since : Nat) : Waiter :=
    { since := since, name := name, suspect := s.ownSuspect 9 3 0 address length since 0 n }
  let onStack (key : LineKey) : Bool := match key with
    | .node _ _ _ => s.lineStack key false == some n || s.lineStack key true == some n
    | _ => false
  (s.mem.lines.filter (fun l => onStack l.key && l.writing != 0)).map (fun l => own (4, l.wid) (node l.key) 64 l.wroteAt)
    ++ (s.mem.subtrees.filter (fun r => r.writes != 0 && onStack (.node r.tree r.level r.index))).map (fun r =>
      own (5, r.id) (node (.node r.tree r.level r.index)) 64 r.since)
    ++ (s.mem.upkeep.filter (fun u => u.island == n)).map (fun u => own (6, u.address) u.address 64 u.since)
    ++ (s.mem.wipes.filter (fun w => w.stack == n)).map (fun w => own (7, w.id) w.address (w.length % 65536) w.since)

/-- What waits in an island for bytes: operations for their own, since they were issued, or for a metadata line that is fetched for them,
since that was; such a fetch is the operation's, and only a fetch that no operation wants is the island's own. -/
def State.waitersIn (s : State) (island kind unit : Nat) (p : Fetch → Bool) : List Waiter :=
  let l := s.mem.fetches.filter (fun f => p f && f.got.isNone)
  (s.mem.ops.filter (fun o => o.island == island && o.issuedNow)).map (fun o => s.opWaiter o o.since kind unit)
    ++ l.flatMap (fun f => (s.mem.ops.filter (s.wants f)).map (fun o => s.opWaiter o f.since kind unit))
    ++ (l.filter (fun f => !s.mem.ops.any (s.wants f))).map (fun f => s.fetchWaiter f kind unit)

/-- Since when a remote request waits on its port's logic: since its oldest item was held there, else since it was accepted. -/
def State.portSince (s : State) (port : Nat) (q : RemReq) : Nat :=
  match s.boot.heldItems.find? (fun x => x.port == port && x.stamp.req == q.req) with
  | some x => x.since
  | none => q.accepted

/-- The requests that wait on a unit (R423), by unit kind of R441, the one that has waited longest on it first (R426).  Of a crossbar and
of a host link the model holds no wait of a single response or read, so that their requests stand in the order of acceptance (DESIGN
CHOICE, log 78). -/
def State.waitingOn (s : State) (kind unit : Nat) : List Suspect :=
  suspectsOf (match kind with
    | 0 => s.waitersIn unit kind unit (fun f => s.lineStack f.key f.copyB == some unit) ++ s.writesOn unit
    | 1 => (s.remote.reqs.filter (fun (q : RemReq) => q.sent && s.routePort q.node == some unit)).map (fun (q : RemReq) =>
               { since := s.portSince unit q, name := (3, q.id), suspect := q.suspect unit })
             ++ s.waitersIn (islandP unit) kind unit (fun f => f.island == islandP unit && (s.lineStack f.key f.copyB).isNone)
    | _ => (s.mem.reqs.filter (fun (q : Req) => match q.origin with
        | .tile t _ => kind == 2 && t == unit
        | .env l _ _ => kind != 2 && l == unit
        | _ => false)).map (fun (q : Req) => { since := q.accepted, name := (0, q.id), suspect := s.suspectOf q kind unit }))

/-- The partition that a suspect is kept for: its context's job's, or the stack's (R426). -/
def State.suspectPart (s : State) (x : Suspect) : Option Nat :=
  if x.ctx = 0xFFFF then (if x.unitKind = 0 then s.partOfTile x.unit else none)
  else (s.jobOfCtx x.ctx).bind (fun h => (s.job h).map (·.partition))

/-- Appends a suspect to its partition's list: whether it is kept. -/
def State.keepSuspect (s : State) (x : Suspect) : Bool × State :=
  match s.suspectPart x with
  | none => (false, s)
  | some p =>
    let l := tgetD s.fault.suspects p []
    if l.length < 64 then (true, s.modFault (fun f => { f with suspects := tput f.suspects p (l ++ [x]) }))
    else (false, s.modFault (fun f => { f with dropped := tput f.dropped p (satAdd 16 (tgetD f.dropped p 0) 1) }))

/-- A unit hangs: the faulting context, the suspects, UNIT_HUNG (R426). -/
def State.unitHung (s : State) (kind unit : Nat) (directed : List Nat) (waiting : List Suspect) : State :=
  let ctx := match waiting with | x :: _ => x.ctx | [] => 0xFFFF
  let (kept, s) := (waiting.take 64).foldl (fun (e : Nat × State) x =>
    let (k, s) := e.2.keepSuspect x
    (e.1 + flag k, s)) (0, s)
  let job := if ctx = 0xFFFF then none else s.jobOfCtx ctx
  let number := match job.bind s.job with | some j => j.number | none => 0xFFFFFFFF
  let box := match job.bind s.job with | some j => j.letterbox.toList | none => []
  let island := match kind with | 0 => unit | 1 => islandP unit | 2 => islandXB | _ => islandH unit
  let s := s.traceRec island 0x3C job (if ctx = 0xFFFF then none else some ctx)
    [(2, 0x0C02), (1, 0), (1, 0), (2, ctx), (2, 0), (8, pack [(1, kind), (1, unit), (2, ctx), (4, number)]), (4, 0)]
  s.postLimited (10 * Config.ms) 0x0C02 (kind * 256 + unit) .timeout [(1, kind), (1, unit), (2, ctx), (4, number)]
    [(4, kept)] job.toList (directed ++ box)

/-! ### Watchdogs (R423 to R425) -/

/-- An expiry of a watchdog of R423 is counted (R450). -/
def State.hangCounted (s : State) : State := s.modFault (fun f => { f with unitHangs := sat64 f.unitHangs })

/-- A copy of a node lies on a stack. -/
def State.copyOn (s : State) (n : Nat) (key : LineKey) : Bool :=
  match key with
  | .node _ _ _ => s.lineStack key false == some n || s.lineStack key true == some n
  | _ => false

/-- What a stack's memory controller owes to the internal master of tree maintenance is outstanding no more: of a write-back, both copies
while neither is accepted. -/
def State.upkeepGone (s : State) (n : Nat) : State :=
  let gone (s : State) (e : Nat × Nat) : State := s.maintained e.1 e.2 0
  let lines := (s.mem.lines.filter (fun l => s.copyOn n l.key && l.writing != 0)).flatMap (fun l =>
    if l.writing = 1 then [(n, l.wroteAt)]
    else [false, true].filterMap (fun b => (s.lineStack l.key b).map (fun i => (i, l.wroteAt))))
  let runs := (s.mem.subtrees.filter (fun r => s.copyOn n (.node r.tree r.level r.index))).flatMap (fun r =>
    List.replicate r.writes (n, r.since))
  let mine := s.mem.upkeep.filter (fun u => u.island == n)
  let io := (mine.filter (·.charged)).map (fun u => (n, u.since))
  (lines ++ runs ++ io).foldl gone { s with mem := { s.mem with
    upkeep := s.mem.upkeep.filter (fun (u : Upkeep) => u.island != n), wipes := s.mem.wipes.filter (fun (w : Wipe) => w.stack != n) } }

/-- Fences a stack (R424): what waits on it is answered, what its memory controller owes is forgotten. -/
def State.fenceStack (s : State) (n : Nat) : State :=
  let s := s.modFault (fun f => { f with stacksFenced := if n ∈ f.stacksFenced then f.stacksFenced else n :: f.stacksFenced })
  let s := s.endFetches (fun f => s.lineStack f.key f.copyB == some n)
  let s := s.upkeepGone n
  let s : State := { s with mem := { s.mem with
    lines := s.mem.lines.map (fun (l : Line) =>
      if s.copyOn n l.key = true ∧ l.writing ≠ 0 then { l with writing := 0, dirty := true } else l) } }
  let on (r : SubtreeRun) : Bool := s.copyOn n (.node r.tree r.level r.index)
  let runs := s.mem.subtrees.filter on
  let s : State := { s with mem := { s.mem with subtrees := s.mem.subtrees.filter (fun (r : SubtreeRun) => !on r) } }
  let s := runs.foldl (fun s r => s.complete r.op .integrityLost []) s
  (s.mem.ops.filter s.deadStack).foldl (fun s o => s.failOp o 0x0501 2) s

/-- When what a memory controller still owes was issued to it (R423). -/
def State.issuedAt (s : State) (n : Nat) : List Nat :=
  (s.mem.ops.filter (fun o => o.island == n && o.issuedNow)).map (·.since)
    ++ (s.mem.fetches.filter (fun f => s.lineStack f.key f.copyB == some n && f.got.isNone)).map (·.since)
    ++ (s.writesOn n).map (·.since)

/-- MEMORY_CHANNEL_WATCHDOG (R423): something issued to the controller has waited 50 µs. -/
def State.memoryWatchdog (s : State) (n : Nat) : State :=
  let l := s.waitingOn 0 n
  if s.live = false ∨ 16 ≤ n ∨ (s.issuedAt n).any (fun t => decide (t + 50 * Config.us ≤ s.now)) = false then s
  else ((s.hangCounted.unitHung 0 n [0, 1] l).fenceStack n).turn

/-- PORT_LOGIC_WATCHDOG (R423): with its link up, the logic has withheld credit for 100 µs. -/
def State.portWatchdog (s : State) (p : Nat) : State :=
  if s.live = false ∨ p ∉ s.boot.fabricUp ∨ p ∈ s.fault.portsHung then s
  else (s.hangCounted.modFault (fun f => { f with portsHung := p :: f.portsHung })).unitHung 1 p [0, 1] (s.waitingOn 1 p)

/-- TILE_CROSSBAR_WATCHDOG (R423). -/
def State.tileWatchdog (s : State) (t : Nat) : State :=
  if s.live = false ∨ 16 ≤ t ∨ t ∈ s.fault.tilesHung then s
  else (s.hangCounted.modFault (fun f => { f with tilesHung := t :: f.tilesHung })).unitHung 2 t [0, 1] (s.waitingOn 2 t)

/-- MAILBAG_DISCARDED for every mailbag being built: its link is gone (R443). -/
def State.dropMailbags (s : State) : State :=
  let lost := s.fault.runs.filter (fun r => r.mailbag)
  let s := s.modFault (fun f => { f with runs := f.runs.map (fun (r : ResetRun) => { r with mailbag := false }) })
  lost.foldl (fun s r => s.post 0x0C06 .noFit [(1, r.part)] [] []) s

/-- The link that the mailbag goes to: letterbox 0's (R443). -/
def State.mailLink (s : State) : Nat := ((s.box 0).binding.link).getD 0

/-- What a host island does when its link goes down or its watchdog expires (R497, R471).  The firmware image comes over link 0: its fetch
is abandoned with the link's other DMA, and the boot ROM waits for a write of go again (DEDUCED, log 73). -/
def State.linkAway (s : State) (l : Nat) : State :=
  let s : State := { s with boot := { s.boot with dmaAbandoned := if l ∈ s.boot.dmaAbandoned then s.boot.dmaAbandoned
                                                                  else l :: s.boot.dmaAbandoned } }
  let s := if s.trace.session.state ≠ .idle ∧ s.trace.session.link = l then s.endSession .timeout false else s
  let s : State := { s with
    sniby := { s.sniby with boxes := tmap s.sniby.boxes (fun _ (b : Lbx) =>
      if b.binding.link = some l then
        { b with enable := false, state := match b.state with
            | .opened | .throttled | .closing => .idle
            | st => st }
      else b) },
    env := tmap s.env (fun k e => if k / 256 = l then disableRing e else e) }
  let s := if l = 0 ∧ s.boot.bootCode = 0xFE then s.setBootCode 0xFF else s
  if s.mailLink = l then s.dropMailbags else s

/-- HOST_LINK_WATCHDOG (R423): the link's DMA is abandoned until it trains again. -/
def State.hostWatchdog (s : State) (l : Nat) : State :=
  if s.live = false ∨ l ∉ s.boot.hostUp ∨ l ∈ s.boot.dmaAbandoned then s
  else
    let waiting := s.waitingOn 3 l
    let s := (s.hangCounted.modFault (fun f => { f with linksHung := l :: f.linksHung })).linkAway l
    let others := (s.sniby.boxes.filter (fun e => match e.2.binding.link with | some k => k != l | none => false)).map (·.1)
    s.unitHung 3 l (1 :: others) waiting

/-- CP_WATCHDOG (R425). -/
def State.cpWatchdog (s : State) : State :=
  if s.live = false ∨ s.boot.fwRunning = false ∨ s.boot.blockState = .cpHung then s
  else
    let s := s.hangCounted.setBlock .cpHung
    s.isolate 1

/-! ### Health (R427, R428) -/

/-- A margin over its reference as a clamped fraction in 1/1023, and its member. -/
def fraction (member : Nat) (margin : Int) (ref : Nat) : Nat × Nat × Nat :=
  if ref = 0 then (Config.zeroReference margin % 1024, 1023, member) else (min margin.toNat ref, ref, member)

/-- The least of some fractions, as floor(1023 × f) and its member. -/
def leastOf : List (Nat × Nat × Nat) → Option (Nat × Nat)
  | [] => none
  | x :: l =>
    let m := l.foldl (fun a b => if b.1 * a.2.1 < a.1 * b.2.1 then b else a) x
    some (1023 * m.1 / m.2.1, m.2.2)

/-- The three components, where they have members (R427). -/
def State.components (s : State) : Option (Nat × Nat) × Option (Nat × Nat) × Option (Nat × Nat) :=
  let c := s.fuses.calibration
  let running := (List.range 16).filter (fun t => (s.clk t).mhz != 0)
  (leastOf (running.map (fun t => fraction t (s.clk t).voltMargin (c.tileMargins.getD t 0))),
   leastOf ((List.range 64).map (fun d => fraction d (s.power.headrooms.getD d 0) (c.headrooms.getD d 0))),
   leastOf (s.boot.fabricUp.map (fun p => fraction p ((tgetD s.fault.linkMargin p 0 : Nat) : Int) 255)))

/-- The band that a score leads to (R428). -/
def bandOf (old : Band) (score : Nat) : Band :=
  let down : Band := if score < 256 then .failing else if score < 512 then .poor else if score < 768 then .fair else .good
  let up : Band := if score < 320 then .failing else if score < 576 then .poor else if score < 832 then .fair else .good
  if old.code < down.code then down else if up.code < old.code then up else old

/-- The next score (R428). -/
def nextScore (old : Option Nat) (raw : Nat) : Nat :=
  match old with
  | none => raw
  | some n => if raw < n then n - min 16 (n - raw) else n + min 2 (raw - n)

/-- HEALTH_UPDATE (R427, R428). -/
def State.healthUpdate (s : State) : State :=
  if s.pwRuns = false ∨ s.now < s.fault.healthAt + Config.ms then s
  else
    let (v, t, o) := s.components
    let raw := ([v, t, o].filterMap (fun x => x.map (·.1))).foldl min 1023
    let score := nextScore s.fault.score raw
    let old := s.fault.band
    let band := bandOf old score
    let s := s.modFault (fun f => { f with
      healthAt := s.now, raw := raw, score := some score, band := band, vComp := v, tComp := t, oComp := o })
    if band = old then s
    else s.postLimited (100 * Config.ms) 0x0C03 0 .done [(1, band.code), (1, old.code)] [(2, score)] [] []

/-- LINK_MARGIN_REPORT (R427, R491). -/
def State.marginReport (s : State) (port margin : Nat) : State :=
  if s.live = false ∨ 32 ≤ port ∨ 255 < margin then s
  else s.modFault (fun f => { f with linkMargin := tput f.linkMargin port margin })

/-! ### Postcards (R430 to R433) -/

/-- Bytes 0 to 47 of a postcard or of its acknowledgement (R430). -/
def cardBytes (kind node seq postmark health block flags verdict : Nat) : Bytes :=
  enc [(1, kind), (1, 0x32), (2, node), (4, seq), (8, postmark), (2, health), (1, block), (1, flags), (1, verdict), (27, 0)]

/-- The node that postcards go to. -/
def State.cardNode (s : State) : Option Nat :=
  if s.fault.manager = 0xFFFF then (s.box 1).lastNode.map (·.2) else some s.fault.manager

/-- The firmware sends and checks postcards: it runs, with a digest pair and letterbox 1's key. -/
def State.cards (s : State) : Bool :=
  s.live && s.boot.fwRunning && decide (s.boot.blockState ≠ .cpHung) && decide (s.boot.blockState ≠ .starting)
    && !s.dg.pairs.isEmpty

/-- The health score as reported (R428). -/
def State.healthScore (s : State) : Nat := s.fault.score.getD 1023

/-- POSTCARD_TIMER (R431): the node isolates at the fifth postcard that would go unacknowledged. -/
def State.postcardTimer (s : State) : State :=
  match s.lbxKey 1 with
  | none => s
  | some key =>
    if s.cards = false ∨ s.fault.postcards = false ∨ s.now < s.fault.nextPostcard then s
    else
      let n := s.fault.postcardSeq + 1
      let s := if 5 ≤ n - s.fault.highestAcked then s.isolate 1 else s
      let s := s.modFault (fun f => { f with postcardSeq := n, nextPostcard := f.nextPostcard + f.period * Config.us })
      let b := cardBytes 0x40 s.boot.nodeNumber n s.now s.healthScore s.boot.blockState.code (flag s.fault.isolated) 0
      let card : Postcard := { node := s.boot.nodeNumber, seq := n, postmark := s.now, health := s.healthScore,
                               blockSt := s.boot.blockState.code, isolated := s.fault.isolated,
                               check := checkValue key 4 (s.box 1).session b }
      match s.cardNode with
      | none => s
      | some node => match s.portTo node with
        | some p => (s.calls (kmacCalls 57 128 false) false).emitPort p (.postcard p node card)
        | none => s

/-- POSTCARD_ACK_RECEIVED (R431, R433). -/
def State.postcardAck (s : State) (a : PostcardAck) : State :=
  if a.subtype ≠ 2 then s.wrongSubtype
  else match s.lbxKey 1 with
  | none => s
  | some key =>
    let b := cardBytes a.kind.toNat a.node.toNat a.seq.toNat a.postmark.toNat a.health.toNat a.blockSt.toNat a.flags.toNat
      a.verdict.toNat
    let clean := a.kind == 0x41 && a.revision == 0x32 && a.health == 0 && a.blockSt == 0 && a.flags == 0
      && decide (a.verdict.toNat ≤ 1) && a.reserved == 0
    if s.cards = false ∨ clean = false ∨ a.check ≠ checkValue key 5 (s.box 1).session b ∨ a.node.toNat ≠ s.boot.nodeNumber
        ∨ s.fault.postcardSeq < a.seq.toNat then s
    else
      let s := (s.calls (kmacCalls 57 128 false) false).modFault (fun f => { f with highestAcked := max f.highestAcked a.seq.toNat })
      if a.verdict = 1 then s.isolate 2
      else if s.fault.isolated = true ∧ s.fault.isolatedSeq ≤ a.seq.toNat then
        (s.modFault (fun f => { f with isolated := false })).post 0x0C05 .done [] [(4, a.seq.toNat)] []
      else s

/-! ### Runs of a reset or a replay -/

def State.modRun (s : State) (p : Nat) (f : ResetRun → ResetRun) : State :=
  s.modFault (fun x => { x with runs := x.runs.map (fun (r : ResetRun) => if r.part = p then f r else r) })
def State.runOf (s : State) (p : Nat) : Option ResetRun := s.fault.runs.find? (fun r => r.part == p)

/-! ### The wait-for graph (R436, R437) -/

/-- The unit behind an island, a memory controller or a port's logic, as kind 11 of R437 names it. -/
def unitOf (island : Nat) : Nat := if island < 16 then island else 256 + (island - 16)

/-- What an operation that has not begun waits for: a key of KV, or a resume record of its port island. -/
def State.opHolder (s : State) (o : SecOp) : Option (Nat × Nat) :=
  let r := s.regionX o.region
  let key (k : KeyReq) : Bool := k.island == o.island && k.handle == r.handle && (match k.kind with
    | .data i _ => i == 0 || i == o.keyIndex
    | _ => false)
  if o.stage ≠ .waiting then none
  else if s.kv.requests.any key then some (6, islandKV)
  else if o.seals = true ∧ r.pooled = true ∧ r.cls = .fresh ∧ s.resumeRoom o.island = false then some (7, o.island * 256 + 2)
  else none

/-- What a descriptor waits for: KV for its key, its port's logic, masks of its port island, a staging slot. -/
def State.descWaits (s : State) (x : Descriptor) : List ((Nat × Nat) × Nat) :=
  let since := (x.waiting.head?.map (·.accepted)).getD s.now
  if x.state ≠ .active ∨ x.ending.isSome = true then []
  else
    (if x.keys.isNone then [((6, islandKV), x.activated)]
     else if x.waiting.isEmpty then []
     else if s.portTakes x.port = false then [((11, 256 + x.port), since)]
     else [((6, islandP x.port), since)])
    ++ (if x.held.isEmpty then [] else [((7, islandXB * 256 + 3), x.heldAt)])

/-- What the commands on a job wait for: ADMIT_JOB and RESIZE_JOB for its partition, TEARDOWN_JOB for its contexts, fences and
descriptors, REDIRECT for the peers that have not acknowledged. -/
def State.jobWaits (s : State) : List (Nat × (Nat × Nat)) :=
  s.jobs.flatMap (fun e =>
    let closing := (e.2.ctxs.filter (fun c => (s.ctx c).state == .closing)).map (fun c => ((1, c) : Nat × Nat))
      ++ (s.remote.fences.filter (fun f => f.2.handle == e.1 && f.2.state != .free)).map (fun f => ((3, f.1) : Nat × Nat))
      ++ (s.red.descs.filter (fun d => d.2.handle == e.1 && d.2.state != .free)).map (fun d => ((8, d.1) : Nat × Nat))
    (e.2.op.toList.flatMap (fun id => if e.2.state = .closing then closing.map (fun w => (id, w)) else [(id, (10, e.2.partition))]))
      ++ e.2.resizeOp.toList.map (fun id => (id, (10, e.2.partition)))
      ++ (match e.2.redirect with
          | some r => r.peers.map (fun p => (r.op, (4, p.1)))
          | none => []))

/-- What the commands on associations and windows wait for: their nodes. -/
def State.peerWaits (s : State) : List (Nat × (Nat × Nat)) :=
  s.assocs.entries.flatMap (fun a => (a.closeOp.toList ++ a.ratchetOps).map (fun id => (id, (4, a.peer))))
    ++ s.assocs.revokeOps.map (fun r => (r.1, (4, r.2)))
    ++ s.remote.windows.flatMap (fun e => e.2.closeOp.toList.flatMap (fun id =>
      ((s.mem.reqs.filter (fun q => q.window == some e.1)).filterMap (fun q => match q.origin with
        | .stream i => some (id, ((4, i.peer) : Nat × Nat))
        | _ => none)).eraseDups))

/-- What the commands on regions, trees and key indices wait for: the region, the memory or the port of the tree, the armed queue, the
contexts whose requests a retirement lets end. -/
def State.keyWaits (s : State) : List (Nat × (Nat × Nat)) :=
  s.regions.flatMap (fun e => (e.2.sealOp.toList ++ e.2.resumeOp.toList).map (fun id => (id, (9, e.1))))
    ++ s.mem.subtrees.map (fun r => (r.op, (11, unitOf r.island)))
    ++ s.courier.armed.flatMap (fun a => a.2.2.map (fun id => (id, (7, islandCP * 256 + 6))))
    ++ s.courier.passes.flatMap (fun p => p.ops.flatMap (fun id => p.regions.map (fun n => (id, (9, n)))))
    ++ s.courier.retirements.flatMap (fun r => r.op.toList.flatMap (fun id =>
      (((s.mem.reqs.filter (fun q => decide (q.id ∈ r.waits))).filterMap (·.ctx)
        ++ (s.remote.reqs.filter (fun q => decide (q.req ∈ r.waits))).map (·.ctx)).eraseDups).map (fun c => (id, (1, c)))))

/-- The operations of commands, with the objects that they wait for. -/
def State.opWaits (s : State) : List (Nat × (Nat × Nat)) :=
  (s.ctxs.flatMap (fun e => if e.2.state = .closing then (e.2.op.toList.map (fun id => (id, (1, e.1)))) else []))
    ++ s.red.descs.flatMap (fun e => (e.2.op.toList ++ e.2.cancelOp.toList).map (fun id => (id, (8, e.1))))
    ++ s.remote.fences.flatMap (fun e => (e.2.op.toList ++ e.2.closeOp.toList).map (fun id => (id, (3, e.1))))
    ++ s.remote.markers.flatMap (fun m => m.op.toList.map (fun id => (id, (4, m.node))))
    ++ s.mem.zeroRuns.map (fun z => (z.op, (9, z.region)))
    ++ s.parts.flatMap (fun e => e.2.op.toList.map (fun id => (id, (10, e.1))))
    ++ (s.power.sweep.toList.map (·.op) ++ s.power.lowering.map (·.1)).map (fun id => (id, (6, islandPW)))
    ++ s.life.op.toList.map (fun id => (id, (6, islandLC)))
    ++ s.jobWaits ++ s.peerWaits ++ s.keyWaits

/-- The resets that wait for a reserved fence object: they come before a waiting close (R152, R440). -/
def State.resetsAtFence (s : State) : List ResetRun := s.fault.runs.filter (fun r => r.reset && r.step == 3 && r.asksFence)

/-- Who waits for a fence object of the reserved pool, and since when: closes at step 6 (R152), then resets at step 3. -/
def State.poolWaits (s : State) : List ((Nat × Nat) × Nat) :=
  s.ctxs.filterMap (fun e =>
    if e.2.state = .closing ∧ e.2.step = 6 ∧ e.2.fence.isNone = true then
      (e.2.op.bind s.opOf).map (fun (o : PendingOp) => ((1, e.1), o.accepted))
    else none)
  ++ s.resetsAtFence.map (fun r => ((10, r.part), r.started))

/-- What waits for an armed fence: the context of its tile, a closing context, a partition in reset (R152, R322, R440). -/
def State.fenceWaits (s : State) : List ((Nat × Nat) × (Nat × Nat) × Nat) :=
  let armed (n : Nat) : Option Fence := (tget s.remote.fences n).bind (fun f => if f.state = .armed then some f else none)
  s.remote.fences.filterMap (fun e =>
    if e.2.state = .armed ∧ e.2.tileReq.isSome = true then some (((1, e.2.tileCtx) : Nat × Nat), ((3, e.1) : Nat × Nat), e.2.armedAt)
    else none)
  ++ s.ctxs.filterMap (fun e => if e.2.state = .closing then
      e.2.fence.bind (fun n => (armed n).map (fun f => (((1, e.1) : Nat × Nat), ((3, n) : Nat × Nat), f.armedAt))) else none)
  ++ s.fault.runs.filterMap (fun r =>
      r.fence.bind (fun n => (armed n).map (fun f => (((10, r.part) : Nat × Nat), ((3, n) : Nat × Nat), f.armedAt))))

/-- Every wait that State holds: waiter's kind and identity, holder's kind and identity, since when. -/
def State.waits (s : State) : List ((Nat × Nat) × (Nat × Nat) × Nat) :=
  let command (lb : Nat) (q : BitVec 32) : Nat × Nat := (2, lb * 2 ^ 24 + q.toNat % 2 ^ 24)
  let slot (o : SecOp) : Nat × Nat := (5, o.region % 2 ^ 14 * 2 ^ 18 + o.sector % 2 ^ 18)
  let atSlots := s.mem.ops.filterMap (fun o => (o.ctx).map (fun c => ((1, c), slot o, o.since)))
  let atUnits := (s.mem.ops.filter (fun o => o.issuedNow)).map (fun o =>
    (slot o, (11, unitOf o.island), o.since))
  let atLines := (s.mem.fetches.filter (fun f => f.got.isNone)).flatMap (fun f =>
    (s.mem.ops.filter (s.wants f)).map (fun o =>
      (slot o, (11, unitOf ((s.lineStack f.key f.copyB).getD f.island)), f.since)))
  let atNodes := s.remote.reqs.map (fun q =>
    ((1, q.ctx), if q.parked then (7, islandP (s.homeOf q.handle q.node) * 256 + 5) else (4, q.node), q.accepted))
  let fences := s.remote.fences.flatMap (fun e =>
    if e.2.state = .armed then (e.2.nodes.filter (fun n => !n.satisfied)).map (fun n => ((3, e.1), (4, n.node), e.2.armedAt))
    else [])
  let ops := s.opWaits.filterMap (fun e => (s.opOf e.1).map (fun o => (command o.lb o.sequence, e.2, o.accepted)))
  let begin_ := s.mem.ops.filterMap (fun o => (s.opHolder o).map (fun h => (slot o, h, o.since)))
  let suspended := (s.mem.resume.filter (·.suspended)).filterMap (fun x =>
    (s.secOp x.op).bind (fun o => o.ctx.map (fun c => ((1, c), (9, x.region), x.since))))
  let descs := s.red.descs.flatMap (fun e => (s.descWaits e.2).map (fun w => ((8, e.1), w.1, w.2)))
  let atPool := if s.freeFences.isEmpty then s.poolWaits.map (fun w => (w.1, ((7, islandXB * 256 + 4) : Nat × Nat), w.2)) else []
  let atCp := (s.sniby.atCp ++ s.sniby.places.filterMap (fun p => match p with | .command k => some k | _ => none)).map
    (fun k => (command k.lb k.packet.sequence, ((6, islandCP) : Nat × Nat), k.since))
  let behind := s.sniby.heldBehind.filterMap (fun e => match e.1 with
    | .ctx n => some (command e.2.lb e.2.packet.sequence, (1, n), e.2.since)
    | .fence n => some (command e.2.lb e.2.packet.sequence, (3, n), e.2.since)
    | .descriptor n => some (command e.2.lb e.2.packet.sequence, (8, n), e.2.since)
    | _ => none)
  let sums := s.red.descs.flatMap (fun e => e.2.waiting.map (fun w => ((1, e.2.ctx), (8, e.1), w.accepted)))
  atSlots ++ atUnits ++ atLines ++ atNodes ++ fences ++ s.fenceWaits ++ ops ++ begin_ ++ suspended ++ descs ++ atPool ++ atCp ++ behind ++ sums

/-- One more round of what can be reached along the edges. -/
def reachStep (edges : List Edge) (from_ : List (Nat × Nat)) : List (Nat × Nat) :=
  edges.foldl (fun a e => if (e.waiterKind, e.waiter) ∈ a ∧ (e.holderKind, e.holder) ∉ a then a ++ [(e.holderKind, e.holder)] else a)
    from_

def reach (edges : List Edge) : Nat → List (Nat × Nat) → List (Nat × Nat)
  | 0, l => l
  | n + 1, l => if reachStep edges l = l then l else reach edges n (reachStep edges l)

/-- The first edge whose holder leads back to its waiter. -/
def cycleEdge (edges : List Edge) : Option Nat :=
  (edges.zipIdx.find? (fun e =>
    decide ((e.1.waiterKind, e.1.waiter) ∈ reach edges edges.length [(e.1.holderKind, e.1.holder)]))).map (·.2)

/-- WAIT_FOR_GRAPH operation 0: a new snapshot. -/
def State.takeSnapshot (s : State) : State :=
  let all := (s.waits.filter (fun w => decide (w.2.2 + Config.us ≤ s.now))).map (fun w =>
    { waiterKind := w.1.1, waiter := w.1.2, holderKind := w.2.1.1, holder := w.2.1.2,
      waitedUs := min 0xFFFFFFFF ((s.now - w.2.2) / Config.us) : Edge })
  let kept := all.take 16384
  s.modFault (fun f => { f with snapshot := {
    gen := (f.snapshot.gen + 1) % 2 ^ 32, edges := kept, dropped := all.length - 16384, cycle := cycleEdge kept,
    postmark := s.now } })

def Edge.bytes (e : Edge) : Bytes :=
  enc [(1, e.waiterKind), (1, e.holderKind), (2, 0), (4, e.waiter), (4, e.holder), (4, e.waitedUs)]

/-- The reply of WAIT_FOR_GRAPH (R449): the head, and up to 250 edges. -/
def State.graphBody (s : State) (first : Nat) : Bytes :=
  let g := s.fault.snapshot
  let l := (g.edges.drop first).take 250
  enc [(4, g.gen), (4, g.edges.length), (4, first), (2, l.length), (1, flag (g.dropped != 0) + 2 * flag g.cycle.isSome), (1, 0),
       (4, g.cycle.getD 0xFFFFFFFF), (4, 0), (8, g.postmark)] ++ l.flatMap Edge.bytes

/-- WAIT_FOR_GRAPH, both operations. -/
def hWaitForGraph : Handler where
  job := false
  length := exactly 16
  params _ c := [(64, decide (c.arg 0 1 ≤ 1)), zeroAt c 1 3, zeroAt c 12 4]
  run s c :=
    if c.arg 0 1 = 0 then
      let s := s.takeSnapshot
      answerWith s (s.graphBody (c.arg 8 4))
    else if c.arg 4 4 = s.fault.snapshot.gen then answerWith s (s.graphBody (c.arg 8 4))
    else refuse .badState

/-! ### The mailbag (R443 to R448) -/

/-- Unit records of a mailbag (R444): 256 for each tile; none for kind 1. -/
def State.unitCount (s : State) (r : ResetRun) : Nat := if r.reset then 256 * (s.part r.part).tiles.length else 0

/-- sample_bytes: what was asked, or the largest multiple of 256 that the 16 MiB hold (R446). -/
def sampleBytes (asked count : Nat) : Nat :=
  if 2304 + count * (64 + asked) ≤ 16777216 then asked else ((16777216 - 2304) / count - 64) / 256 * 256

/-- Writes bytes of the mailbag at an offset, as far as its buffer reaches (R448); a tamper ends the mailbag (R440). -/
def State.mailWrite (s : State) (p off : Nat) (b : Bytes) : State :=
  match s.runOf p with
  | none => s
  | some r =>
    if r.mailbag = false ∨ s.boot.tamperHeld = true then s
    else
      let fits := b.take (s.fault.mailbagSize - off)
      let s := if fits.length < b.length then s.modRun p (fun r => { r with truncated := true }) else s
      if fits.isEmpty then s else (s.dma 6 2 s.mailLink fits.length).emit (.hostWrite s.mailLink (s.fault.mailbagAddr + off) fits)

/-- The place of a unit's record. -/
def unitOffset (sample k : Nat) : Nat := 2304 + k * (64 + sample)

/-- Sample bytes may be included (R447). -/
def State.contentOpen (s : State) (r : ResetRun) : Bool :=
  r.content && (s.jobsIn r.part).all (fun e => !e.2.confidential || s.right 3 (some e.2.number))

/-- Ends a unit's record with a status: the rest of its sample is zero.  RS goes on to the next unit, whose first read is its status
words' (R446). -/
def State.unitEnd (s : State) (p : Nat) (r : ResetRun) (status : Nat) : State :=
  let tile := (s.part p).tiles.getD (r.unit / 256) 0
  let head := enc [(1, tile), (1, r.unit % 256), (1, status), (1, 0), (4, r.unitBytes), (8, r.unitMark)]
    ++ slice (r.unitState.getD []) 0 48
  let off := unitOffset r.sample r.unit
  let s := s.mailWrite p off head
  let s := s.mailWrite p (off + 64 + r.unitBytes) (zeros (r.sample - r.unitBytes))
  s.modRun p (fun r => { r with unit := r.unit + 1, unitBytes := 0, unitMark := s.now, unitState := none, unitAt := s.now,
                                notSampled := r.notSampled + flag (status != 0) })

/-- RS is reading units (R440 step 6). -/
def State.unitsRead (s : State) (r : ResetRun) : Bool :=
  r.reset && r.mailbag && decide (3 ≤ r.step) && decide (r.step ≤ 6) && decide (r.unit < s.unitCount r)
    && !s.boot.tamperHeld

/-- Status words of the unit in turn came back; without content its record ends here. -/
def State.gotUnitState (s : State) (p : Nat) (r : ResetRun) (b : Bytes) : State :=
  if s.unitsRead r = false ∨ r.unitState.isSome then s
  else
    let r := { r with unitState := some b, unitAt := s.now }
    let s := s.modRun p (fun _ => r)
    if s.contentOpen r = false then s.unitEnd p r 2
    else if r.sample = 0 then s.unitEnd p r 0 else s

/-- 256 B of the unit in turn came back. -/
def State.gotUnitBytes (s : State) (p : Nat) (r : ResetRun) (b : Bytes) : State :=
  if s.unitsRead r = false ∨ r.unitState.isNone then s
  else if s.contentOpen r = false then s.unitEnd p r 2
  else
    let s := s.mailWrite p (unitOffset r.sample r.unit + 64 + r.unitBytes) (slice b 0 256)
    let r := { ((s.runOf p).getD r) with unitBytes := r.unitBytes + 256, unitAt := s.now, included := true }
    let s := s.modRun p (fun _ => r)
    if r.sample ≤ r.unitBytes then s.unitEnd p r 0 else s

/-- UNIT_READ_TIMEOUT (R448): a read of the unit has waited 4 µs. -/
def State.unitReadTimeout (s : State) (p : Nat) : State :=
  match s.runOf p with
  | none => s
  | some r => if s.unitsRead r = false ∨ s.now < r.unitAt + 4 * Config.us then s else s.unitEnd p r 1

/-- Ends the records of the units not yet read, at most `n` of them. -/
def State.unitsLeft (p : Nat) : Nat → State → State
  | 0, s => s
  | n + 1, s =>
    match s.runOf p with
    | none => s
    | some r =>
      if s.unitsRead r then State.unitsLeft p n ((s.unitEnd p r 3).modRun p (fun r => { r with unitMark := 0 })) else s

/-- MAILBAG_DEADLINE (R448): step 6 has reached its 30 ms. -/
def State.mailbagDeadline (s : State) (p : Nat) : State :=
  match s.runOf p with
  | none => s
  | some r =>
    if s.unitsRead r = false ∨ s.now < r.readFrom + 30 * Config.ms then s
    else State.unitsLeft p 4096 (s.modRun p (fun r => { r with deadline := true }))

/-- A suspect record (R445). -/
def Suspect.bytes (x : Suspect) : Bytes :=
  enc [(2, x.ctx), (1, x.op), (1, x.tc), (4, x.keyIndex), (8, x.address), (2, x.length), (1, x.unitKind), (1, x.unit),
       (1, x.outcome), (1, 0), (2, x.time), (8, x.accepted)]

/-- The mailbag header from its byte 8 on (R444). -/
def State.mailHeader (s : State) (r : ResetRun) : Bytes :=
  let jobs := s.jobsIn r.part
  enc ([(1, 0x32), (1, flag (!r.reset)), (1, r.part),
        (1, flag r.included + 2 * flag (r.replayed || !r.reset) + 4 * flag r.truncated + 8 * flag r.deadline),
        (2, s.unitCount r), (2, r.suspects.length), (4, r.sample), (2, r.cause), (2, r.notSampled), (8, r.started), (8, s.now),
        (16, s.fuses.serial.toNat), (2, jobs.length), (6, 0)]
    ++ (List.range 16).map (fun i => (4, match jobs[i]? with | some e => e.2.number | none => 0)) ++ [(128, 0)])

/-- Step 10 of R440 begins: RS resets the partition's tiles and zeroises their scratchpads; a replay resets none. -/
def State.tilesReset (s : State) (p : Nat) (r : ResetRun) : State :=
  if r.reset then ((s.part p).tiles).foldl (fun s t => s.emit (.tileReset t)) s else s

/-- The three writes that end a mailbag, each after the one before it: the suspects, the header, the magic. -/
def State.mailTail (s : State) (p : Nat) (r : ResetRun) (step : Nat) : State :=
  match step with
  | 10 => (s.tilesReset p r).mailWrite p 256 (slice (r.suspects.flatMap Suspect.bytes) 0 2048)
  | 11 => s.mailWrite p 8 (s.mailHeader r)
  | _ => s.mailWrite p 0 (ascii "AMAILBAG")

/-! ### Replay of suspects (R441, R442) -/

/-- The outcome that a suspect has without a probe: not replayable, or withheld; 0 where it is probed. -/
def State.noProbe (s : State) (r : ResetRun) (x : Suspect) : Nat :=
  let local_ := decide (x.address < 2 ^ 40) || x.address / 2 ^ 48 == s.boot.nodeNumber
  let onStacks := local_ && decide (stackOf x.address ∈ (s.part r.part).tiles)
  if x.unitKind = 1 ∨ x.unitKind = 3 ∨ (5 ≤ x.op ∧ x.op ≤ 7) ∨ (r.reset = false ∧ onStacks = false) then 4
  else if r.reset then
    match (s.jobOfCtx x.ctx).bind s.job with
    | some j => if x.ctx ≠ 0xFFFF ∧ j.confidential ∧ s.right 4 (some j.number) = false then 5 else 0
    | none => 0
  else 0

/-- Sets the outcome of a suspect. -/
def ResetRun.mark (r : ResetRun) (k outcome time : Nat) : ResetRun :=
  { r with suspects := r.suspects.zipIdx.map (fun (e : Suspect × Nat) =>
      if e.2 = k then { e.1 with outcome := outcome, time := time } else e.1) }

/-- The job under which a suspect is probed: none for a supplied list (R442), or for a master without a context. -/
def State.probeJob (s : State) (r : ResetRun) (x : Suspect) : Option Nat :=
  if r.reset = true ∧ x.ctx ≠ 0xFFFF then s.jobOfCtx x.ctx else none

/-- A suspect's address as its job's regions name it: global in the pooled space, else the local offset. -/
def State.probeAddress (s : State) (x : Suspect) : Nat := if s.isTray (x.address / 2 ^ 48) then x.address else x.address % 2 ^ 48

/-- A probe under a job, in the region that holds its bytes: a read of them under the suspect's key index, which R192 does not stop and
whose data is discarded (R441).  RS is charged as a master without a context (DEDUCED, log 68). -/
def State.probeUnder (s : State) (p : Nat) (e : Nat × Region) (x : Suspect) : State :=
  s.submit { origin := .probe p, kind := .read, ctx := none, keyIndex := if e.2.cls = .opened then 0 else x.keyIndex,
             region := e.1, address := s.probeAddress x, length := x.length, tc := 2, master := some 260 }

/-- Reads a suspect's raw bytes: from its stack, or through its route from the tray that holds them. -/
def State.probeRead (s : State) (x : Suspect) : State :=
  let node := x.address / 2 ^ 48
  match (if s.isTray node then s.routePort node else none) with
  | some port => s.emitPort port (.trayRead port s.mem.nextId node (x.address % 2 ^ 48) x.length)
  | none => s.emit (.memRead (stackOf x.address) s.mem.nextId (x.address % 2 ^ 36) x.length)

/-- The raw bytes of a suspect lie on a fenced stack: the probe has an error response (R424). -/
def State.probeFenced (s : State) (x : Suspect) : Bool :=
  !s.isTray (x.address / 2 ^ 48) && decide (stackOf x.address ∈ s.fault.stacksFenced)

/-- The suspect that comes next: none once the list is done, the permit of the replay closed, or, in a reset, quarantine begun. -/
def State.nextSuspect (s : State) (r : ResetRun) : Option Suspect :=
  if r.squash = true ∨ (r.reset = true ∧ s.quarantined = true) then none else r.suspects[r.probe]?

/-- Goes on to the next suspect that is probed, at most `n`; the last leads to step 10.  One whose bytes lie in no region of its job has an
error response (R163, R441). -/
def State.nextProbe (p : Nat) : Nat → State → State
  | 0, s => s
  | n + 1, s =>
    match s.runOf p with
    | none => s
    | some r =>
      match s.nextSuspect r with
      | none => (s.modRun p (fun r => { r with step := 10, probeAt := none })).mailTail p r 10
      | some x =>
        match s.noProbe r x with
        | 0 =>
          let u := s.modRun p (fun r => { r with probeAt := some s.now })
          match s.probeJob r x with
          | none =>
            if s.probeFenced x then State.nextProbe p n (s.modRun p (fun r => { r.mark r.probe 3 0 with probe := r.probe + 1 }))
            else u.probeRead x
          | some h => match s.regionAt h (s.isTray (x.address / 2 ^ 48)) (s.probeAddress x) x.length with
            | some e => u.probeUnder p e x
            | none => State.nextProbe p n (s.modRun p (fun r => { r.mark r.probe 3 0 with probe := r.probe + 1 }))
        | o => State.nextProbe p n (s.modRun p (fun r => { r.mark r.probe o 0 with probe := r.probe + 1 }))

/-- A probe came back, with or without an error response. -/
def State.probed (s : State) (p : Nat) (r : ResetRun) (time : Nat) (error : Bool) : State :=
  if r.step ≠ 9 ∨ r.probeAt.isNone then s
  else State.nextProbe p 66 (s.modRun p (fun r =>
    { r.mark r.probe (if error then 3 else 1) (min time 0xFFFF) with probe := r.probe + 1, probeAt := none }))

/-- A probe under a job has its response (R441). -/
def State.probeDone (s : State) (p : Nat) (q : Req) : State :=
  match s.runOf p with
  | some r => if r.reset then s.probed p r ((s.now - q.accepted) / 40) q.failure.isSome else s
  | none => s

/-- The raw read of a suspect has its answer. -/
def State.rawProbed (s : State) (p : Nat) (r : ResetRun) (time : Nat) (error : Bool) : State :=
  match r.suspects[r.probe]? with
  | some x => if (s.probeJob r x).isNone then s.probed p r time error else s
  | none => s

/-- The stack that a suspect whose probe timed out leaves fenced: the one that it waited on, else the one that holds its bytes; none for
bytes in a tray (R441). -/
def State.culpritStack (s : State) (x : Suspect) : Option Nat :=
  if x.unitKind = 0 then some x.unit else if s.isTray (x.address / 2 ^ 48) then none else some (stackOf x.address)

/-- SUSPECT_PROBE_TIMEOUT (R441): the probe's suspect is the culprit, and its stack stays fenced. -/
def State.probeTimeout (s : State) (p : Nat) : State :=
  match s.runOf p with
  | none => s
  | some r =>
    match r.probeAt, r.suspects[r.probe]? with
    | some t, some x =>
      if r.step ≠ 9 ∨ s.now < t + 100 * Config.us then s
      else
        let stack := s.culpritStack x
        let s := s.modRun p (fun r => { r.mark r.probe 2 10000 with step := 10, probeAt := none, culprit := stack })
        let s := if r.reset then (match stack with | some n => s.fenceStack n | none => s) else s
        match s.runOf p with
        | some r => s.mailTail p r 10
        | none => s
    | _, _ => s

/-- Self-quarantine skips the rest of step 9 (R440). -/
def State.probesEnd (s : State) : State :=
  if s.quarantined then
    (s.fault.runs.filter (fun r => r.reset && r.step == 9)).foldl (fun s r => State.nextProbe r.part 1 s) s
  else s

/-! ### Partition reset (R438 to R440) -/

/-- The contexts of a partition's jobs. -/
def State.partCtxs (s : State) (p : Nat) : List Nat := (s.jobsIn p).flatMap (fun e => e.2.ctxs)

/-- Frees a context; its counts stay until OPEN_CONTEXT clears them (R418). -/
def Ctx.freed (c : Ctx) : Ctx :=
  { incarnation := c.incarnation, faults := c.faults, lastType := c.lastType, lastReason := c.lastReason, lastMark := c.lastMark }

/-- Payload of PARTITION_RESET (R452). -/
def ResetRun.payload (r : ResetRun) : List (Nat × Nat) := [(4, r.missed), (4, r.notSampled), (4, r.discarded)]

/-- Step 1 of R440. -/
def State.resetStart (s : State) (id p flags sample cause : Nat) : State :=
  let jobs := s.jobsIn p
  let ctxs := s.partCtxs p
  let closings := ctxs.filter (fun c => (s.ctx c).state == .closing)
  let link := s.mailLink
  let mailbag := decide (s.fault.mailbagSize ≠ 0) && decide (link ∈ s.boot.hostUp) && decide (link ∉ s.boot.dmaAbandoned)
  let run : ResetRun := { part := p, reset := true, op := id, step := 2, replay := bit flags 0, content := bit flags 1,
                          sample := sampleBytes sample (256 * (s.part p).tiles.length), cause := cause, started := s.now,
                          mailbag := mailbag, suspects := tgetD s.fault.suspects p [], closings := closings }
  let s := s.modPart p (fun x => { x with state := .resetting, since := s.now, op := some id })
  let s := s.modFault (fun f => { f with runs := f.runs ++ [run] })
  let s := s.squashHeld (fun o _ => jobs.any (fun e => s.ownObject e.1 o || o == .job e.2.number))
  let passes := s.courier.passes.map (fun (q : Pass) =>
    if q.state = .running ∧ jobs.any (fun e => e.1 == q.handle) = true then { q with state := .paused } else q)
  let s : State := { s with courier := { s.courier with passes := passes } }
  let descs := (s.red.descs.filter (fun e => jobs.any (fun j => j.1 == e.2.handle))).map (·.1)
  let s := descs.foldl (fun s n => s.descCloses n none true) s
  if mailbag then s else s.post 0x0C06 .noFit [(1, p)] [] []

/-- Steps 2 and the beginning of 3: the tile clocks stop, the stacks' buffer entries are discarded and counted. -/
def State.resetStop (s : State) (p : Nat) : State :=
  let tiles := (s.part p).tiles
  let gone := s.mem.wc.filter (fun e => decide (e.island ∈ tiles))
  let s := gone.foldl (fun s e => s.modRegion e.region (fun r => { r with mergesLost := sat64 r.mergesLost })) s
  let s : State := { s with mem := { s.mem with
    wc := s.mem.wc.filter (fun (e : WcEntry) => decide (e.island ∉ tiles)),
    mergesLost := satAdd 64 s.mem.mergesLost gone.length,
    lostChunks := s.mem.lostChunks ++ gone.flatMap (fun (e : WcEntry) => e.chunks) } }
  let s := s.modRun p (fun r => { r with step := 3, discarded := gone.length, readFrom := s.now, unitAt := s.now, unitMark := s.now })
  s.lowerTiles

/-- A request of one of the contexts is on its way to a kind of target (R368: 0 a stack, 1 a port, 2 a host); what comes through a
window is none of theirs (R150). -/
def State.ctxBusy (s : State) (ctxs : List Nat) (kind : Nat) : Bool :=
  s.mem.reqs.any (fun q => q.tkind == kind && q.window.isNone && (match q.ctx with | some c => decide (c ∈ ctxs) | none => false))

/-- A host envelope of one of the contexts is in flight (R281). -/
def State.envBusy (s : State) (ctxs : List Nat) : Bool :=
  s.env.any (fun e => e.2.flights.any (fun f => decide (f.desc.context.toNat ∈ ctxs)))

/-- Where the partition's contexts stored to: job handle and node. -/
def State.partDests (s : State) (p : Nat) : List (Nat × Nat) :=
  (s.jobsIn p).flatMap (fun e => ((e.2.ctxs.flatMap (fun c => (s.ctx c).dests)).eraseDups).map (fun n => (e.1, n)))

/-- Dirty nodes that lie on the partition's stacks (R213): tree, level, index; being written ones apart. -/
def State.dirtyOn (s : State) (tiles : List Nat) : List (Nat × Nat × Nat) :=
  (s.mem.lines.filter (fun l => l.dirty && decide (l.island ∈ tiles))).filterMap (fun l => match l.key with
    | .node t v i => if s.backCopies t v i = [] then none else some (t, v, i)
    | _ => none)

/-- A write-back of the partition's stacks is asked for, or under way. -/
def State.backsOn (s : State) (tiles : List Nat) : Bool :=
  s.mem.lines.any (fun l => l.writing != 0 && decide (l.island ∈ tiles)) || !(s.dirtyOn tiles).isEmpty

/-- Asks for the write-backs of step 7. -/
def State.askBacks (s : State) (tiles : List Nat) : State :=
  (s.dirtyOn tiles).foldl (fun s e => s.askBack e.1 e.2.1 e.2.2) s

/-- Step 8: the channels are reset, and the stacks unfenced. -/
def State.channelReset (s : State) (p : Nat) : State :=
  let tiles := (s.part p).tiles
  let s := tiles.foldl (fun s t => s.emit (.mcReset t)) s
  (s.modFault (fun f => { f with stacksFenced := f.stacksFenced.filter (fun n => decide (n ∉ tiles)) })).modRun p
    (fun r => { r with step := 8 })

/-- Step 9, where it is asked for and may run, else step 10. -/
def State.replayStart (s : State) (p : Nat) (r : ResetRun) : State :=
  if r.replay = true ∧ s.quarantined = false then State.nextProbe p 66 (s.modRun p (fun r => { r with step := 9, probe := 0, replayed := true }))
  else (s.modRun p (fun r => { r with step := 10 })).mailTail p r 10

/-- Step 11: contexts FREE, schedules discarded, the list cleared, the partition ACTIVE, the notices. -/
def State.resetEnd (s : State) (p : Nat) (r : ResetRun) : State :=
  let jobs := s.jobsIn p
  let ctxs := s.partCtxs p
  let ops := r.closings.filterMap (fun c => (s.ctx c).op)
  let s := ctxs.foldl (fun s c => match (s.ctx c).fence with | some n => s.freeReserved n | none => s) s
  let s := ctxs.foldl (fun s c => if (tget s.ctxs c).isSome then s.modCtx c (fun x => { incarnation := x.incarnation }) else s) s
  let s : State := { s with kv := { s.kv with
    schedules := s.kv.schedules.filter (fun (k : Schedule) => !jobs.any (fun e => e.1 == k.handle)) } }
  let s := (s.modPart p (fun x => { x with state := .active, op := none, newTiles := [] })).unpause
  let tiles := (s.part p).tiles
  let s := s.modFault (fun f => { f with
    suspects := tdel f.suspects p, dropped := tdel f.dropped p, runs := f.runs.filter (fun (x : ResetRun) => x.part != p),
    tilesHung := f.tilesHung.filter (fun t => decide (t ∉ tiles)), resets := sat64 f.resets })
  let s := ops.foldl (fun s o => s.complete o .done []) s
  let s := r.closings.foldl (fun s c => s.closeEnded (.ctx c) true) s
  let s := s.complete r.op .done r.payload
  s.postAt s.now 0x0C07 .done (obj [(1, p)]) (pay r.payload) (jobs.map (·.1)) (jobs.filterMap (fun e => e.2.letterbox))

/-- REPLAY_SUSPECTS ends: the partition is ACTIVE again; one whose permit closed is SQUASHED (R130). -/
def State.replayEnd (s : State) (p : Nat) (r : ResetRun) : State :=
  let s := s.modPart p (fun x => { x with state := .active, op := none })
  let s := s.modFault (fun f => { f with runs := f.runs.filter (fun (x : ResetRun) => x.part != p) })
  s.complete r.op (if r.squash then .squashed else .done) []

/-- The wait of the step that runs has ended (R440): the next step begins, if what it waits for is so. -/
def State.resetDone (s : State) (p : Nat) (r : ResetRun) : State :=
  let ctxs := s.partCtxs p
  let tiles := (s.part p).tiles
  match r.step with
  | 2 => s.resetStop p
  | 3 =>
    if s.ctxBusy ctxs 0 then s
    else match s.armReserved (s.partDests p) with
      | none => s.modRun p (fun r => { r with asksFence := true })
      | some (n, s) => State.fencesSettle (s.modRun p (fun r => { r with step := 4, fence := some n }))
  | 4 =>
    match r.fence with
    | none => s
    | some n =>
      let f := tgetD s.remote.fences n {}
      if f.state = .armed ∨ s.ctxBusy ctxs 1 = true then s
      else (s.freeReserved n).modRun p (fun r => { r with step := 5, fence := none, missed := f.missed })
  | 5 => if s.envBusy ctxs = true ∨ s.ctxBusy ctxs 2 = true then s else s.modRun p (fun r => { r with step := 6 })
  | 6 =>
    if s.unitsRead r then s
    else if s.sealsHeldBack then s.channelReset p
    else (s.modRun p (fun r => { r with step := 7 })).askBacks tiles
  | 7 => if s.backsOn tiles = true ∧ s.sealsHeldBack = false then s.askBacks tiles else s.channelReset p
  | 8 => s.replayStart p r
  | 10 => (s.modRun p (fun r => { r with step := 11 })).mailTail p r 11
  | 11 => (s.modRun p (fun r => { r with step := 12 })).mailTail p r 12
  | 12 => if r.reset then s.resetEnd p r else s.replayEnd p r
  | _ => s

/-- PARTITION_RESET_PROGRESS. -/
def State.resetProgress (s : State) (p : Nat) (ev : ResetEvent) : State :=
  match s.runOf p with
  | none => s
  | some r =>
    if s.live = false then s
    else match ev with
    | .done => s.resetDone p r
    | .unitRead b => s.gotUnitBytes p r b
    | .unitState b => s.gotUnitState p r b
    | .probe time error => s.rawProbed p r time error

/-! ### Commands 0x0Cxx (R449) -/

/-- The body of FAULT_STATUS (R450). -/
def State.faultBody (s : State) : Bytes :=
  let f := s.fault
  enc [(1, s.boot.blockState.code), (1, f.cause), (1, f.causeIsland), (1, flag f.isolated), (4, f.postcardSeq - f.highestAcked),
       (8, f.quarantineAt), (2, maskOf f.stacksFenced 16), (2, maskOf f.tilesHung 16), (4, maskOf f.portsHung 32),
       (1, maskOf f.linksHung 2), (3, 0), (4, f.hardFaults), (8, f.unitHangs), (8, f.resets)]

def hFaultStatus : Handler where
  job := false
  length := exactly 0
  run s _ := answerWith s s.faultBody

/-- The body of HEALTH_STATUS (R451). -/
def State.healthBody (s : State) : Bytes :=
  let f := s.fault
  let v (c : Option (Nat × Nat)) : Nat := (c.map (·.1)).getD 1023
  let m (k : Nat) (c : Option (Nat × Nat)) : Nat := (c.map (·.2)).getD (Config.absentMember k).toNat
  enc [(2, s.healthScore), (2, f.raw), (1, f.band.code),
       (1, flag f.vComp.isSome + 2 * flag f.tComp.isSome + 4 * flag f.oComp.isSome), (2, 0), (2, v f.vComp), (2, v f.tComp),
       (2, v f.oComp), (1, m 0 f.vComp), (1, m 1 f.tComp), (1, m 2 f.oComp), (7, 0), (8, f.healthAt)]

def hHealthStatus : Handler where
  job := false
  length := exactly 0
  run s _ := answerWith s s.healthBody

/-- SET_POSTCARDS (R431). -/
def hSetPostcards : Handler where
  job := false
  length := exactly 8
  params s c := [(64, decide (c.arg 0 1 ≤ 1)), zeroAt c 1 1, (66, c.arg 2 2 == 0xFFFF || c.arg 2 2 != s.boot.nodeNumber),
    (68, decide (50 ≤ c.arg 4 4) && decide (c.arg 4 4 ≤ 10000))]
  run s c :=
    if c.arg 0 1 = 1 ∧ c.arg 2 2 = 0xFFFF ∧ (s.box 1).lastNode.isNone then refuse .badState
    else doneWith (s.modFault (fun f => { f with
      postcards := c.arg 0 1 == 1, manager := c.arg 2 2, period := c.arg 4 4, postcardSeq := 0, highestAcked := 0,
      isolatedSeq := 1, nextPostcard := s.now + c.arg 4 4 * Config.us }))

/-- SUSPECT_LIST: a job letterbox sees its own partition and its own contexts. -/
def hSuspectList : Handler where
  length := exactly 8
  allowed s c := match s.jobOfBox c.lb with
    | some e => e.2.partition == c.arg 0 1
    | none => decide (c.lb < 2)
  params _ c := [(64, decide (c.arg 0 1 < 16)), zeroAt c 1 7]
  run s c :=
    match s.partGate (c.arg 0 1) false false with
    | some v => v
    | none =>
      let all := tgetD s.fault.suspects (c.arg 0 1) []
      let own := match s.jobOfBox c.lb with
        | some e => all.filter (fun (x : Suspect) => decide (x.ctx ∈ e.2.ctxs))
        | none => all
      answerWith s (enc [(2, own.length), (2, tgetD s.fault.dropped (c.arg 0 1) 0), (4, 0)]
        ++ own.flatMap (fun (x : Suspect) => Suspect.bytes { x with outcome := 0, time := 0 }))

/-- SET_MAILBAG_BUFFER (R443). -/
def hSetMailbagBuffer : Handler where
  manager := false
  job := false
  length := exactly 16
  params _ c := [(64, c.arg 0 8 % 4096 == 0), (72, c.arg 0 8 == 0 || decide (4096 ≤ c.arg 8 8))]
  run s c := doneWith (s.modFault (fun f => { f with
    mailbagAddr := c.arg 0 8, mailbagSize := if c.arg 0 8 = 0 then 0 else c.arg 8 8 }))

/-- RESET_PARTITION (R439). -/
def hResetPartition : Handler where
  job := false
  service := true
  length := exactly 16
  params _ c := [(64, decide (c.arg 0 1 < 16)), (65, decide (c.arg 1 1 < 4)), zeroAt c 2 2,
    (68, decide (c.arg 4 4 ≤ 65536) && c.arg 4 4 % 256 == 0), zeroAt c 10 6]
  run s c :=
    let p := c.arg 0 1
    match s.partGate p false false with
    | some v => v
    | none =>
      match (s.jobsIn p).find? (fun e => e.2.state == .admitting) with
      | some e => busyFor (s.opLeft e.2.op)
      | none => .accept [] (some 50000) (fun id s => s.resetStart id p (c.arg 1 1) (c.arg 4 4) (c.arg 8 2))

/-- A suspect record of the command's body. -/
def suspectAt (c : Cmd) (i : Nat) : Suspect :=
  let o := 8 + 32 * i
  { ctx := c.arg o 2, op := c.arg (o + 2) 1, tc := c.arg (o + 3) 1 % 4, keyIndex := c.arg (o + 4) 4 % 2 ^ 20,
    address := c.arg (o + 8) 8, length := c.arg (o + 16) 2, unitKind := c.arg (o + 18) 1, unit := c.arg (o + 19) 1, outcome := 0,
    time := 0, accepted := c.arg (o + 24) 8 }

/-- REPLAY_SUSPECTS (R442). -/
def hReplaySuspects : Handler where
  manager := false
  job := false
  service := true
  length l := decide (8 ≤ l) && (l - 8) % 32 == 0
  params _ c :=
    let n := c.arg 2 2
    [(64, decide (c.arg 0 1 < 16)), zeroAt c 1 1, (66, decide (1 ≤ n) && decide (n ≤ 64) && c.p.bodyLength.toNat == 8 + 32 * n),
     zeroAt c 4 4]
      ++ (List.range (min n 64)).flatMap (fun i =>
        let o := 8 + 32 * i
        [(64 + o + 3, decide (c.arg (o + 3) 1 < 4)), (64 + o + 4, decide (c.arg (o + 4) 4 < 2 ^ 20)), zeroAt c (o + 21) 1])
  run s c :=
    let p := c.arg 0 1
    let link := s.mailLink
    match s.partGate p false false with
    | some v => v
    | none =>
      if s.fault.mailbagSize = 0 ∨ (s.jobsIn p).isEmpty = false then refuse .badState
      else .accept [] (some 10000) (fun id s =>
        let up := decide (link ∈ s.boot.hostUp) && decide (link ∉ s.boot.dmaAbandoned)
        let run : ResetRun := { part := p, reset := false, op := id, step := 9, started := s.now, mailbag := up,
                                suspects := (List.range (c.arg 2 2)).map (suspectAt c) }
        let s := s.modPart p (fun x => { x with state := .resetting, since := s.now, op := some id })
        let s := s.modFault (fun f => { f with runs := f.runs ++ [run] })
        let s := if up then s else s.post 0x0C06 .noFit [(1, p)] [] []
        State.nextProbe p 66 s)

/-- CONTEXT_FAULTS (R418, R449). -/
def hContextFaults : Handler where
  manager := false
  length := exactly 8
  allowed s c := s.ownCtx c (c.arg 0 2)
  params _ c := ctxParams c
  run s c :=
    match s.ctxGate (c.arg 0 2) false false with
    | .error v => v
    | .ok _ =>
      let x := s.ctx (c.arg 0 2)
      answerWith s (enc [(4, x.faults), (2, x.lastType), (1, x.lastReason), (1, 0), (8, x.lastMark)])

end Machine
end Sys2Proof
end

