-- ==== Sys2Proof/Machine/Observe.lean ====
section
/-!
DEFINITION. Machine/Observe.lean: the timebase, trace sessions, counters, and the commands 0x0Dxx (R453 to R484).
-/

namespace Sys2Proof
namespace Machine

def State.modTrace (s : State) (f : Trace → Trace) : State := { s with trace := f s.trace }

/-! ### Islands that stop when idle (R20, R456) -/

/-- The islands that may stop their clocks when idle (R20). -/
def sleepers : List Nat := [islandDG, islandTH, islandLC, islandRS, islandCP]

/-- Which of the idle islands stop and are woken again before the next command is theirs to settle: a free value (DESIGN CHOICE, log 34).  Each wake
is counted, and the next record that the island writes is flagged. -/
def State.wakes (s : State) : State :=
  if s.live = false then s
  else
    let (w, s) := s.free 5
    let l := (sleepers.zipIdx.filter (fun e => w.getLsbD e.2)).map (·.1)
    s.modTrace (fun t => { t with resyncs := satAdd 64 t.resyncs l.length, woken := (t.woken ++ l).eraseDups })

/-! ### Counters (R472 to R475) -/

/-- The 51 islands that hold counters. -/
def counterIslands : List Nat := List.range 50 ++ [59]

/-- The events of an island (R473). -/
def eventOk (island event : Nat) : Bool :=
  if island = 48 ∨ island = 49 then decide (event ≤ 6) else decide (event ≤ 10)

/-- Counting stops, with COUNTERS_HELD, and resumes, as disclosure allows (R475). -/
def State.countersSettle (s : State) : State :=
  if s.countersOpen = !s.trace.held then s
  else
    let s := s.cyclesSettle
    let s := s.modTrace (fun t => { t with held := !s.countersOpen })
    if s.trace.held then s.post 0x0D04 .notPermitted [(4, s.trace.session.number)] [] [] else s

/-- The value of a counter. -/
def State.counter (s : State) (island i : Nat) : Counter := tgetD s.trace.counters (island * 8 + i) {}

/-- COUNTER_SNAPSHOT_LATCH (R474): the snapshots whose postmark has come; the one whose postmark came last is held. -/
def State.snapshotLatch (s : State) : State :=
  let due := s.trace.snapAt.filter (fun e => decide (e.1 ≤ s.now))
  match due with
  | [] => s
  | e :: l =>
    let s := s.cyclesSettle
    let values := s.trace.counters.map (fun c => (c.1, c.2.value))
    let s := s.modTrace (fun t => { t with
      snapAt := t.snapAt.filter (fun e => decide (s.now < e.1)), latched := values,
      latchMark := some (l.foldl (fun x y => max x y.1) e.1) })
    due.foldl (fun s e => s.complete e.2 .done []) s

/-- The three COUNTERS records of an island (R474), written 2 ns apart (R463). -/
def State.counterRecords (s : State) (mark island : Nat) : State :=
  [(0, 0), (3, 8), (6, 16)].foldl (fun s (e : Nat × Nat) =>
    let values := (List.range 3).map (fun k => (6, if e.1 + k < 8 then (s.counter island (e.1 + k)).value else 0))
    let u := State.traceAt { s with now := s.now + e.2 } mark island 0x04 none none ([(1, e.1), (1, 0)] ++ values)
    { u with now := s.now }) s

/-- The session writes records. -/
def Session.writes (n : Session) : Bool := n.state == .running || n.state == .armed || n.state == .triggered

/-- COUNTER_PERIOD_LATCH (R474): a multiple of the session's period. -/
def State.periodLatch (s : State) : State :=
  let n := s.trace.session
  if n.writes = false ∨ n.period = 0 ∨ s.now < n.nextLatch then s
  else
    let s := s.cyclesSettle.modSession (fun n => { n with nextLatch := n.nextLatch + n.period * Config.us })
    (counterIslands.filter (fun i => n.islands.getLsbD i)).foldl (fun s i => s.counterRecords n.nextLatch i) s

/-! ### Draining (R467 to R469) -/

/-- The bytes of a record (R461). -/
def TraceRec.bytes (r : TraceRec) : Bytes :=
  enc [(8, r.postmark), (1, r.kind), (1, r.island), (1, r.flags), (1, r.handle), (20, r.payload.toNat)]

/-- Slots of the ring, and those that are free. -/
def Session.slots (n : Session) : Nat := (n.ringSize - 64) / 32
def Session.free (n : Session) : Nat := n.slots - (n.produced - n.consumed)

/-- TH writes one record into the ring, and then the count. -/
def State.ringWrite (s : State) (r : TraceRec) : State :=
  let n := s.trace.session
  let s := (s.dma 7 3 n.link 40).emit (.hostWrite n.link (n.ring + 64 + 32 * (n.produced % n.slots)) r.bytes)
  let s := s.modSession (fun n => { n with produced := n.produced + 1 })
  s.emit (.hostWrite n.link n.ring (le 8 (n.produced + 1)))

/-- The flags of a record with a postmark that TH stamps itself: post-trigger at and after the trigger postmark (R455, R456, R469). -/
def State.thFlags (s : State) (mark : Nat) : Nat :=
  flag (decide (islandTH ∈ s.trace.woken)) + 2 * flag (s.stretched islandTH)
    + 4 * flag (s.trace.session.triggered && decide (s.trace.session.trigMark ≤ mark))

/-- The DROP_MARKER of an island's tally (R468), which TH writes. -/
def Tally.marker (t : Tally) (island flags : Nat) : TraceRec :=
  { postmark := t.last, kind := 0x01, island := island, flags := flags, handle := 0xFF, secret := none,
    payload := BitVec.ofNat 160 (pack [(4, t.count), (8, t.first), (8, t.last)]) }

/-- The TRIGGER record (R462, R470). -/
def Session.triggerRec (n : Session) (flags : Nat) : TraceRec :=
  { postmark := n.trigMark, kind := 0x02, island := islandTH, flags := 8 + flags, handle := 0xFF, secret := none,
    payload := BitVec.ofNat 160 (pack [(1, n.trigKind), (3, 0), (8, n.trigValue.toNat), (8, 0)]) }

/-- A pre-trigger record. -/
def TraceRec.before (r : TraceRec) : Bool := !Nat.testBit r.flags 2

/-- The moment of the oldest record that an island still owes: PW's of a stretch that has not ended (R462, R467). -/
def State.owed (s : State) (island : Nat) : Option Nat :=
  if island = islandPW then soonest ((s.power.zones.filter (fun e => e.2.stretched)).map (fun e => e.2.since)) else none

/-- The next island in rotation that has a record to drain: none younger than one that it still owes, for they reach the ring in
postmark order (R467). -/
def State.nextBuffer (s : State) (pre : Bool) : Option Nat :=
  ((List.range 60).map (fun i => (s.trace.turn + i) % 60)).find? (fun i =>
    match (tgetD s.trace.buffers i {}).records with
    | r :: _ => (!pre || r.before) && (match s.owed i with | some t => decide (r.postmark ≤ t) | none => true)
    | [] => false)

/-- Drains an island's next record, its marker first. -/
def State.drainFrom (s : State) (i : Nat) : State :=
  let b := tgetD s.trace.buffers i {}
  match b.tally, b.records with
  | some t, _ => ((s.modBuf i (fun b => { b with tally := none })).stamped islandTH).ringWrite (t.marker i (s.thFlags t.last))
  | none, r :: rest => ((s.modBuf i (fun b => { b with records := rest, drained := max b.drained r.postmark })).modTrace (fun t => { t with turn := i + 1 })).ringWrite r
  | none, [] => s

/-- TH drains one record, where the session drains, its link takes DMA and the ring has room. -/
def State.drainStep (s : State) : State :=
  let n := s.trace.session
  let due := n.state == .running || n.state == .triggered || n.state == .draining
  if due = false ∨ n.link ∉ s.boot.hostUp ∨ n.link ∈ s.boot.dmaAbandoned then s
  else
    let pre := !n.trigWritten
    match s.nextBuffer pre, pre with
    | none, false => s
    | some i, _ =>
      if n.free = 0 then s.postLimited Config.ms 0x0D03 0 .busy [(4, n.number)] [] [] [] else s.drainFrom i
    | none, true =>
      if s.trace.buffers.any (fun e => e.2.records.any (·.before)) = true then s
      else if n.free = 0 then s.postLimited Config.ms 0x0D03 0 .busy [(4, n.number)] [] [] []
      else ((s.modSession (fun n => { n with trigWritten := true })).stamped islandTH).ringWrite
        (n.triggerRec (s.thFlags n.trigMark))

/-- TRACE_CONSUMED_POLL (R467): TH reads consumed each 10 µs while fewer than 128 slots are free. -/
def State.consumedPoll (s : State) (consumed : Nat) : State :=
  let n := s.trace.session
  if n.state = .idle ∨ n.state = .armed ∨ 128 ≤ n.free ∨ s.now < n.pollAt + 10 * Config.us ∨ n.link ∉ s.boot.hostUp
      ∨ n.link ∈ s.boot.dmaAbandoned then s
  else (s.dma 7 3 n.link 8).modSession (fun n => { n with consumed := min consumed n.produced, pollAt := s.now })

/-- TRACE_POSTMARK_TRIGGER (R470): every island's counter has reached the value. -/
def State.postmarkTrigger (s : State) : State :=
  let n := s.trace.session
  if n.trigKind ≠ 3 ∨ n.fired = true ∨ s.now < n.trigValue.toNat ∨ (n.state ≠ .armed ∧ n.state ≠ .triggered) then s
  else (s.modSession (fun n => { n with fired := true })).trigger n.trigValue.toNat

/-- TRACE_DRAIN_EMPTY (R464): draining has emptied every buffer, and the session ends. -/
def State.drainEmpty (s : State) : State :=
  let n := s.trace.session
  if n.state = .draining ∧ n.trigWritten = true ∧ s.trace.buffers.all (fun e => e.2.records.isEmpty) = true
  then s.endSession n.endStatus true else s

/-- TRACE_TRIGGERED of a trigger that TH has learned of (R471, R484). -/
def State.announceTrigger (s : State) : State :=
  match s.trace.session.announce with
  | none => s
  | some mark =>
    let s := s.modSession (fun n => { n with announce := none })
    s.postAt mark 0x0D01 .done (obj [(4, s.trace.session.number)]) (pay [(8, s.trace.session.trigMark)]) [] []

/-! ### Commands 0x0Dxx (R478) -/

/-- TIMEBASE_STATUS (R479); what TB measures is a free value (DESIGN CHOICE, log 12). -/
def hTimebaseStatus : Handler where
  job := false
  length := exactly 0
  run s _ :=
    let (khz, s) := s.free 32
    answerWith s (enc [(8, s.now), (4, khz.toNat), (1, flag s.boot.locked), (3, 0), (8, s.trace.resyncs), (8, 0)])

/-- Fields of TRACE_START (R465). -/
def traceParams (c : Cmd) : List (Nat × Bool) :=
  let mode := c.arg 0 1
  let kind := c.arg 2 1
  let size := c.arg 32 8
  let quota := c.arg 40 2
  let period := c.arg 42 2
  let limit := c.arg 44 4
  [(64, decide (mode ≤ 1)), (65, decide (c.arg 1 1 ≤ 1)), (66, decide (kind ≤ 3) && (mode == 1 || kind == 0)), zeroAt c 3 1,
   (72, decide (c.arg 8 8 < 2 ^ 60)), (88, c.arg 24 8 % 4096 == 0),
   (96, decide (65536 ≤ size) && decide (size ≤ 2 ^ 40) && size % 4096 == 0),
   (104, if mode = 1 then decide (1 ≤ quota) && decide (quota ≤ 2048) else quota == 0),
   (106, period == 0 || (decide (10 ≤ period) && decide (period ≤ 10000))),
   (108, if mode = 1 then decide (1 ≤ limit) else limit == 0), (112, kind != 0 || c.arg 48 8 == 0),
   (120, decide (c.arg 56 2 < 4096) || c.arg 56 2 == 0xFFFF), zeroAt c 58 6]

/-- The session's job_scope names a job whose records may not be disclosed (R466). -/
def State.scopeOpen (s : State) (scope : Nat) : Bool :=
  match s.named scope with
  | some (h, _) => scope == 0xFFFFFFFF || s.disclose h
  | none => true

/-- The job that a scope names takes commands, and so does its partition (R135, R146). -/
def State.scopeGate (s : State) (scope : Nat) : Option Verdict :=
  if scope = 0xFFFFFFFF then none
  else match s.jobGate scope with
    | .error v => some v
    | .ok _ => none

/-- TRACE_START (R464, R465): its scope names a job, and so the command is one of that job and of its partition. -/
def hTraceStart : Handler where
  job := false
  service := true
  length := exactly 64
  allowed s c := s.scopeOpen (c.arg 4 4)
  params _ c := traceParams c
  run s c :=
    match s.trace.session.state with
    | .draining => busyFor 100
    | .idle =>
      match s.scopeGate (c.arg 4 4) with
      | some v => v
      | none => .accept [] none (fun id s =>
        let n : Session := {
          state := if c.arg 0 1 = 0 then .running else .armed, mode := c.arg 0 1, owner := c.lb,
          number := s.trace.session.number + 1, link := c.arg 1 1, trigKind := c.arg 2 1,
          trigValue := BitVec.ofNat 64 (c.arg 48 8), scope := c.arg 4 4, islands := BitVec.ofNat 64 (c.arg 8 8),
          kinds := BitVec.ofNat 64 (c.arg 16 8), ring := c.arg 24 8, ringSize := c.arg 32 8, postQuota := c.arg 40 2,
          postLimit := c.arg 44 4, period := c.arg 42 2, nextLatch := s.now + c.arg 42 2 * Config.us, ctx := c.arg 56 2,
          op := some id }
        let s := s.modTrace (fun t => { t with session := n, buffers := [], turn := 0 })
        if n.link ∉ s.boot.hostUp ∨ n.link ∈ s.boot.dmaAbandoned then s.endSession .timeout false else s.ringHead false)
    | _ => refuse .badState

/-- Letterbox 0 and the owner of a session may stop and trigger it (R464). -/
def State.ownSession (s : State) (c : Cmd) : Bool :=
  c.lb == 0 || c.lb == s.trace.session.owner || s.trace.session.state == .idle

def hTraceStop : Handler where
  job := false
  length := exactly 0
  allowed s c := s.ownSession c
  run s _ :=
    if s.trace.session.writes then doneWith (s.modSession (fun n => { n with state := .draining })) else refuse .badState

def hTraceTrigger : Handler where
  job := false
  length := exactly 0
  allowed s c := s.ownSession c
  run s _ :=
    match s.trace.session.state with
    | .armed => doneWith (s.trigger s.now)
    | .triggered => .reply { status := .badState } (s.trigger s.now)
    | _ => refuse .badState

/-- The body of TRACE_STATUS (R480). -/
def Session.body (n : Session) : Bytes :=
  enc [(1, n.state.code), (1, n.mode), (1, n.owner), (1, n.ignored), (4, n.number), (8, n.produced), (8, n.dropped),
       (8, n.trigMark), (8, maskOf n.atLimit 60), (8, 0)]

def hTraceStatus : Handler where
  job := false
  length := exactly 0
  run s _ := answerWith s s.trace.session.body

/-- TRACE_MARK (R478). -/
def hTraceMark : Handler where
  job := false
  length := exactly 16
  run s c :=
    if s.trace.session.writes = true ∧ s.trace.session.islands.getLsbD islandCP = true then
      doneWith (s.traceRec islandCP 0x03 none none [(1, c.lb), (3, 0), (16, c.arg 0 16)])
    else refuse .badState

/-- An island with counters. -/
def islandParam (c : Cmd) : Nat × Bool := (64, decide (c.arg 0 1 ∈ counterIslands))

/-- COUNTER_SELECT (R472, R473). -/
def hCounterSelect : Handler where
  job := false
  length := exactly 8
  params _ c :=
    let w := c.arg 2 2
    [islandParam c, (65, decide (c.arg 1 1 < 8)), (66, bits w 14 12 == 0 && eventOk (c.arg 0 1) (bits w 7 0)), zeroAt c 4 4]
  run s c :=
    let w := c.arg 2 2
    let x : Counter := { enable := bit w 15, mask := bits w 11 8, event := bits w 7 0, value := 0, since := s.now }
    doneWith (s.modTrace (fun t => { t with counters := tput t.counters (c.arg 0 1 * 8 + c.arg 1 1) x }))

/-- COUNTER_SNAPSHOT (R474, R475). -/
def hCounterSnapshot : Handler where
  job := false
  length := exactly 8
  allowed s _ := s.countersOpen
  params s c := [(64, c.arg 0 8 == 0 || decide (s.now + 10 * Config.us ≤ c.arg 0 8))]
  run s c :=
    let t := if c.arg 0 8 = 0 then s.now + 10 * Config.us else c.arg 0 8
    .accept [] (some ((t - s.now) / Config.us + 20)) (fun id s =>
      s.modTrace (fun x => { x with snapAt := x.snapAt ++ [(t, id)] }))

/-- The control word of a counter (R472). -/
def Counter.control (c : Counter) : Nat := 32768 * flag c.enable + 256 * c.mask + c.event

/-- COUNTER_READ (R481). -/
def hCounterRead : Handler where
  job := false
  length := exactly 8
  allowed s _ := s.countersOpen
  params _ c := [islandParam c, zeroAt c 1 7]
  run s c :=
    match s.trace.latchMark with
    | none => refuse .badState
    | some mark =>
      let i := c.arg 0 1
      answerWith s (enc ([(1, i), (7, 0), (8, mark)] ++ (List.range 8).flatMap (fun k =>
        [(2, (s.counter i k).control), (6, 0), (8, tgetD s.trace.latched (i * 8 + k) 0)])))

/-- The body of JOB_COUNTERS (R482). -/
def Job.counterBody (j : Job) : Bytes :=
  let k := j.counters
  enc ([(4, j.number), (4, 0), (8, j.admittedAt)]
    ++ (List.range 4).flatMap (fun c => [(8, k.requests.getD c 0), (8, k.bytes.getD c 0), (8, k.latency.getD c 0),
                                         (8, k.completions.getD c 0)])
    ++ [(8, k.partials), (8, k.merges), (8, k.remoteSent), (8, k.inbound), (8, k.atomics), (8, k.reductions), (8, k.faults),
        (8, k.deadLetters)])

/-- JOB_COUNTERS (R476): at any time from the job's admission to the end of its teardown, whatever its partition does. -/
def hJobCounters : Handler where
  length := exactly 8
  allowed s c := if c.lb < 2 then (match s.named (c.arg 0 4) with | some (h, _) => s.disclose h | none => true)
                 else s.ownJob c (c.arg 0 4)
  params _ c := [zeroAt c 4 4]
  run s c :=
    match s.named (c.arg 0 4) with
    | some (_, j) => if j.state = .admitting then refuse .badState else answerWith s j.counterBody
    | none => refuse .badState

/-- DEAD_LETTER_COUNTS (R483). -/
def hDeadLetterCounts : Handler where
  job := false
  length := exactly 0
  run s _ :=
    let d := s.trace.dead
    answerWith s (enc [(8, d.tileRequests), (8, d.fabricResponses), (8, d.inbound), (8, d.quarantine), (8, d.doorbells),
                       (8, d.orphanFaults), (8, d.letterboxPackets), (8, 0)])

end Machine
end Sys2Proof
end

