-- ==== Sys2Proof/Machine/Closing.lean ====
section
/-!
DEFINITION. Machine/Closing.lean: the close of a context (R151), the teardown of a job (R153) and its resize (R155).

A step's number in State is that of the step that runs; a progress event runs it, or finds what it waits for not done.
-/

namespace Sys2Proof
namespace Machine

/-! ### CLOSE_CONTEXT (R151) -/

/-- The longest write-combining window of a job's regions, in ns. -/
def State.longestWindow (s : State) (h : Nat) : Nat :=
  ((s.regions.filter (fun e => e.2.state != .free && e.2.handle == h)).map (fun e => e.2.wcWindow)).foldl max 0

/-- The µs that a context's close may take: the sum of the bounds of R151. -/
def State.closeBound (s : State) (h : Nat) : Nat :=
  let T := match s.job h with | some j => j.timeout | none => 20
  2 + 1 + (s.longestWindow h / 1000 + 2) + 20 + 2 + (T + 5) + (T + 5) + 50 + 1 + 2

/-- Steps 1 and 2 for a context of a job: the context is CLOSING, and XB refuses its requests. -/
def State.closeStart (s : State) (h ctx : Nat) (op : Option Nat) : State :=
  s.modCtx ctx (fun c => { c with state := .closing, step := 3, op := op, fence := none, fenceMissed := 0, remoteMissed := 0,
                                  closeBy := s.now + s.closeBound h * Config.us })

/-- CLOSE_CONTEXT. -/
def hCloseContext : Handler where
  manager := false
  service := true
  length := exactly 8
  allowed s c := s.ownCtx c (c.arg 0 2)
  params _ c := ctxParams c
  run s c :=
    let ctx := c.arg 0 2
    match s.ctxGate ctx true false with
    | .error v => v
    | .ok h =>
      if (s.ctx ctx).state = .opened ∧ (match s.job h with | some j => j.takesCtx | none => false) = true then
        .accept [] (some (s.closeBound h)) (fun id s => s.closeStart h ctx (some id))
      else refuse .badState

/-- A local request of a context, or a merge, is not done (step 4); inbound requests through a window are not its own (R150). -/
def State.localBusy (s : State) (ctx : Nat) : Bool :=
  s.mem.reqs.any (fun q => q.ctx == some ctx && q.tkind == 0 && q.window.isNone)
    || s.mem.ops.any (fun o => o.ctx == some ctx && decide (o.island < 16) && o.req == 0)

/-- A remote load or atomic of a context is unanswered (step 7). -/
def State.remoteBusy (s : State) (ctx : Nat) : Bool :=
  s.remote.reqs.any (fun q => q.ctx == ctx && q.op != 2)
    || s.mem.reqs.any (fun q => q.ctx == some ctx && q.tkind == 1 && q.kind != .write && q.window.isNone)

/-- Step 6: the reserved fence is armed when one is free that no reset waits for (R152); once it has ended, step 7 begins. -/
def State.closeFence (s : State) (ctx h : Nat) : State :=
  let c := s.ctx ctx
  match c.fence with
  | none =>
    if s.freeFences.length ≤ s.resetsAtFence.length then s
    else match s.armReserved (c.dests.map (fun n => (h, n))) with
      | none => s
      | some (n, s) => s.modCtx ctx (fun c => { c with fence := some n })
  | some n =>
    let f := s.fenceObj n
    if f.state = .armed then s
    else (s.freeReserved n).modCtx ctx (fun c => { c with step := 7, fence := none, fenceMissed := f.missed })

/-- Step 10: FREE, the completion notice, and the held command (R59). -/
def State.closeEnd (s : State) (ctx : Nat) : State :=
  let c := s.ctx ctx
  let s := s.modCtx ctx Ctx.freed
  (s.completeOpt c.op .done [(4, c.fenceMissed), (4, c.remoteMissed)]).closeEnded (.ctx ctx) true

/-- CONTEXT_CLOSE_PROGRESS: the step that runs ends, where it may. -/
def State.closeProgress (s : State) (ctx : Nat) : State :=
  let c := s.ctx ctx
  match s.jobOfCtx ctx with
  | none => s
  | some h =>
    let resetting := match s.job h with | some j => (s.part j.partition).state == .resetting | none => false
    if c.state ≠ .closing ∨ resetting = true ∨ s.live = false then s
    else
      let next (n : Nat) (s : State) : State := s.modCtx ctx (fun c => { c with step := n })
      match c.step with
      | 3 => next 4 (s.flushWhere (fun e => e.ctx == some ctx))
      | 4 => if s.localBusy ctx then s else next 5 s
      | 5 =>
        let descs := s.red.descs.filter (fun e => e.2.handle == h && e.2.ctx == ctx && e.2.state != .free)
        if descs.isEmpty then next 6 s else descs.foldl (fun s e => s.descCloses e.1 none c.op.isNone) s
      | 6 => s.closeFence ctx h
      | 7 => if s.remoteBusy ctx then s else next 8 s
      | 8 => if s.envBusy [ctx] then s else next 9 s
      | 9 =>
        if s.inFlight ctx ≠ 0 then s
        else next 10 { s with kv := { s.kv with
          schedules := s.kv.schedules.filter (fun (k : Schedule) => k.handle != h) } }
      | _ => s.closeEnd ctx

/-! ### TEARDOWN_JOB (R153) -/

/-- TEARDOWN_JOB (R147, R153). -/
def hTeardownJob : Handler where
  manager := false
  job := false
  service := true
  length := exactly 8
  params _ c := [zeroAt c 4 4]
  run s c :=
    match s.named (c.arg 0 4) with
    | none => refuse .badState
    | some (h, j) =>
      if j.state = .closing then refuse .badState
      else .accept [] (some (s.teardownBound h)) (fun id s => s.teardownStart h (some id))

/-- A request or a sector operation of a job is not done (step 10). -/
def State.jobBusy (s : State) (h : Nat) : Bool :=
  (s.mem.reqs ++ s.mem.finished).any (fun q => q.handle == h || q.master == h)
    || s.mem.ops.any (fun o => (s.regionX o.region).handle == h)
    || s.remote.reqs.any (fun q => q.handle == h)

/-- Step 6: the courier and the other walkers over the job's regions stop; what they would complete is squashed. -/
def State.stopWalkers (s : State) (h : Nat) : State :=
  let armed := (s.courier.armed.filter (fun a => a.1 == h)).map (·.2.1)
  let s := (armed ++ (s.courier.passes.filter (fun p => p.handle == h)).map (·.index)).foldl (fun s i => s.abandon h i) s
  let mine (n : Nat) : Bool := (s.region n).handle == h
  let rets := s.courier.retirements.filter (fun r => r.handle == h)
  let runs := s.mem.zeroRuns.filter (fun z => mine z.region)
  let subs := s.mem.subtrees.filter (fun x => s.treeHandle x.tree == h)
  let seals := (s.regions.filter (fun e => e.2.handle == h)).flatMap (fun e => e.2.sealOp.toList ++ e.2.resumeOp.toList)
  let s := (s.regions.filter (fun e => e.2.handle == h && e.2.resumeOp.isSome)).foldl (fun s e => s.resumeStops e.1) s
  let s : State := { s with
    courier := { s.courier with
      retirements := s.courier.retirements.filter (fun (r : Retirement) => r.handle != h),
      limitPosted := s.courier.limitPosted.filter (fun x => x.1 != h) },
    mem := { s.mem with
      wc := s.mem.wc.filter (fun (w : WcEntry) => !mine w.region),
      zeroRuns := s.mem.zeroRuns.filter (fun (z : ZeroRun) => !mine z.region),
      subtrees := s.mem.subtrees.filter (fun (x : SubtreeRun) => s.treeHandle x.tree != h) },
    regions := tmap s.regions (fun _ r => if r.handle = h then { r with sealOp := none, resumeOp := none } else r) }
  let s := runs.foldl (fun s z => s.complete z.op .squashed [(8, z.written)]) s
  (rets.filterMap (·.op) ++ subs.map (·.op) ++ seals).foldl (fun s id => s.complete id .squashed []) s

/-- Step 7: zeros over every OPEN region. -/
def State.zeroOpen (s : State) (h : Nat) : State :=
  (s.openRegions h).foldl (fun s r =>
    if r.pooled then
      let node := r.base / 2 ^ 48
      match s.routePort node with
      | some p => s.emitPort p (.trayZero p node r.base r.size)
      | none => s
    else s.wipe h (stackOf r.base) r.base r.size) s

/-- Step 8: associations evicted, rings DISABLED. -/
def State.dropPeers (s : State) (h : Nat) : State :=
  let peers := (s.assocs.entries.filter (fun a => a.handle == h)).map (·.peer)
  let s := peers.foldl (fun s p => s.closeAssoc h p) s
  let s := s.modAssocs (fun x => { x with recalls := x.recalls.filter (fun r => r.1 != h) })
  { s with env := tmap s.env (fun k e => if k % 256 = h then disableRing e else e) }

/-- A line of a metadata cache is a job's: its regions' and its key-index table's. -/
def State.jobLine (s : State) (h : Nat) (k : LineKey) : Bool :=
  match k with
  | .frank n _ => (s.region n).handle == h && (s.region n).state != .free
  | .node t _ _ => t == 65536 + h || (decide (t < 65536) && (s.region t).handle == h && (s.region t).state != .free)
  | .keySector x _ => x == h

/-- Step 9: the table entries of the job's regions, windows, fence objects and reduction staging, and the metadata and
other records of its regions that the islands hold. -/
def State.dropTables (s : State) (h : Nat) : State :=
  let fences := (s.remote.fences.filter (fun e => e.2.handle == h)).map (·.1)
  let ops := (s.remote.windows.filter (fun e => e.2.handle == h)).filterMap (fun e => e.2.closeOp)
    ++ (s.remote.fences.filter (fun e => e.2.handle == h)).filterMap (fun e => e.2.closeOp)
  let s := fences.foldl (fun s n => s.disarm n .squashed (fun x => x)) s
  let s := s.endFetches (fun f => s.jobLine h f.key)
  let keys := s.mem.lines.filter (fun l => s.jobLine h l.key)
  let mine (n : Nat) : Bool := (s.region n).handle == h && (s.region n).state != .free
  let s : State := { s with
    mem := { s.mem with
      lines := s.mem.lines.filter (fun (l : Line) => !keys.any (fun k => k.key == l.key)),
      trackers := s.mem.trackers.filter (fun (t : Tracker) => !mine t.region),
      seen := s.mem.seen.filter (fun (t : Seen) => !mine t.region),
      lost := s.mem.lost.filter (fun (e : Nat × LineKey) => !s.jobLine h e.2),
      unlisted := s.mem.unlisted.filter (fun (e : Nat × LineKey) => !s.jobLine h e.2),
      repaired := s.mem.repaired.filter (fun (e : LineKey × Bool × Nat) => !s.jobLine h e.1),
      bFirst := s.mem.bFirst.filter (fun (e : Nat × LineKey) => !s.jobLine h e.2),
      resume := s.mem.resume.filter (fun (x : ResumeRec) => !mine x.region),
      backs := s.mem.backs.filter (fun (b : Nat × Nat × Nat) => s.treeHandle b.1 != h) },
    remote := { s.remote with
      windows := s.remote.windows.filter (fun e => e.2.handle != h),
      fences := s.remote.fences.filter (fun e => e.2.handle != h) },
    red := { s.red with descs := s.red.descs.filter (fun e => e.2.handle != h) },
    reg := { s.reg with masters := s.reg.masters.filter (fun (m : Master) => m.handle != h) },
    regions := s.regions.filter (fun e => e.2.handle != h) }
  ops.foldl (fun s id => s.complete id .squashed []) s

/-- Step 12: the letterbox's operations complete, its key is zeroised, and it becomes CLOSED. -/
def State.closeBox (s : State) (h : Nat) : State :=
  match s.job h with
  | none => s
  | some j =>
    match j.letterbox with
    | none => s
    | some lb =>
      if (s.box lb).state = .unbound then s.modJob h (fun j => { j with letterbox := none })
      else
        let ops := (s.sniby.pendingOps.filter (fun o => o.lb == lb)).map (·.id)
        let s := ops.foldl (fun s id => s.complete id .squashed []) s
        let s := s.modBox lb (fun b => { b with state := .closed, waiting := [] })
        let s : State := { s with kv := { s.kv with lbxKeys := tdel s.kv.lbxKeys lb } }
        s.modJob h (fun j => { j with letterbox := none })

/-- JOB_TEARDOWN_PROGRESS: the step that runs ends, where it may; during a reset of the partition step 3 waits (R440). -/
def State.teardownProgress (s : State) (h : Nat) : State :=
  match s.job h with
  | none => s
  | some j =>
    if j.state ≠ .closing ∨ s.live = false ∨ (3 ≤ j.step ∧ (s.part j.partition).state = .resetting) then s
    else
      let next (s : State) : State := s.modJob h (fun j => { j with step := j.step + 1 })
      match j.step with
      | 2 => next s
      | 3 =>
        let open_ := j.ctxs.filter (fun c => (s.ctx c).state == .opened)
        if open_.isEmpty = false then open_.foldl (fun s c => s.closeStart h c none) s
        else if j.ctxs.any (fun c => (s.ctx c).state != .free) then s
        else next s
      | 4 =>
        let descs := (s.red.descs.filter (fun e => e.2.handle == h)).map (·.1)
        next (descs.foldl (fun s n => s.descCloses n none true) s)
      | 5 =>
        if s.mem.reqs.any (fun q => q.handle == h && q.window.isSome) ∨ s.red.descs.any (fun e => e.2.handle == h) then s
        else next (s.modRemote (fun r => { r with rows := r.rows.filter (fun (x : Row) => x.handle != h) }))
      | 6 => next (s.stopWalkers h)
      | 7 => next (s.zeroOpen h)
      | 8 => if s.mem.wipes.any (fun w => w.handle == h) then s else next (s.dropPeers h)
      | 9 => if s.jobBusy h then s else next (s.dropTables h)
      | 10 =>
        if s.jobBusy h then s
        else next (State.keysReported { s with kv := { s.kv with
          schedules := s.kv.schedules.filter (fun (k : Schedule) => k.handle != h),
          requests := s.kv.requests.filter (fun (r : KeyReq) => r.handle != h) } } h)
      | 11 => next ((s.zeroiseSlot h).purgeJob h)
      | 12 => next (s.closeBox h)
      | _ =>
        let s := s.dropJob h
        let s : State := { s with env := s.env.filter (fun e => e.1 % 256 != h) }
        (s.completeOpt j.op .done []).closeEnded (.job j.number) true

/-! ### RESIZE_JOB (R155) -/

/-- The record list of a RESIZE_JOB: the packet offset of its first fault, or its records. -/
def resizeRecords (b : Bytes) : Except Nat (List (Nat × Rec)) :=
  let w : WalkEnv := { base := 64, confidential := false, stackList := none, keyRanges := 0, regionOk := false }
  match walk w b (b.length / 4) 8 0 [] with
  | .error d => .error d
  | .ok l =>
    match multiplicity l false with
    | some d => .error d
    | none => .ok l

/-- A range without another. -/
def KeyRange.minus (k r : KeyRange) : List KeyRange :=
  let last := k.base + k.count
  [{ base := k.base, count := min last r.base - k.base },
   { base := max k.base (r.base + r.count), count := last - max k.base (r.base + r.count) }].filter
    (fun (x : KeyRange) => x.count != 0)

/-- The indices of some ranges that other ranges do not hold. -/
def rangesMinus (old new : List KeyRange) : List KeyRange :=
  new.foldl (fun l r => l.flatMap (·.minus r)) old

/-- The contract that a resize asks for: what its records replace, and what stays. -/
structure Resize where
  ranges    : List KeyRange
  windows   : Option Nat
  groups    : List RedGroup
  bandwidth : List Bandwidth
  power     : Nat

/-- The contract of the records and the power share of a RESIZE_JOB, for a job; a group that stays, or that an earlier resize of this
admission removed, keeps its last_round (R332). -/
def Job.resize (j : Job) (l : List (Nat × Rec)) (power : Nat) : Resize :=
  let groups := (groupsOf l).map (fun g => match j.groups.find? (fun o => o.group == g.group) with
    | some o => { g with lastRound := o.lastRound }
    | none => { g with lastRound := tgetD j.pastRounds g.group 0 })
  { ranges := if (rangesOf l).isEmpty then j.keyRanges else rangesOf l,
    windows := match windowsOf l with | some q => some q | none => j.windows,
    groups := if groups.isEmpty then j.groups else groups,
    bandwidth := if (bandwidthOf l).isEmpty then j.bandwidth else bandwidthOf l,
    power := if power = 0xFFFFFFFF then j.powerShare else power }

/-- What a resize may not take away while it is used. -/
def State.resizeHeld (s : State) (h : Nat) (r : Resize) : Bool :=
  let descs := s.red.descs.filter (fun e => e.2.handle == h && e.2.state == .active)
  let active (g : Nat) : Nat := (descs.filter (fun e => e.2.group == g)).length
  (match r.windows with
    | some q => decide (q < (s.remote.windows.filter (fun e => e.2.handle == h && e.2.state == .opened)).length)
    | none => false)
    || r.groups.any (fun g => decide (g.descriptors < active g.group))
    || descs.any (fun e => !r.groups.any (fun g => g.group == e.2.group))

/-- The fit rules of a resize (R141), with the packet offsets that name their failures. -/
def State.resizeFit (s : State) (h : Nat) (j : Job) (l : List (Nat × Rec)) (r : Resize) : Except Nat (Nat × Nat × Nat) :=
  let others := s.jobs.filter (fun e => e.1 != h)
  let at_ (p : Rec → Bool) : Nat := firstAt l p
  let keys := if j.keyRanges.isEmpty = true ∧ r.ranges.isEmpty = false
    then placeKeyTable s.extents (s.part j.partition).tiles else some (j.keyBase, j.keyTree.copyA, j.keyTree.copyB)
  match keys with
  | none => .error (at_ (fun x => match x with | .key _ => true | _ => false))
  | some k =>
    match fitQuotas s others j.partition r.windows j.fenceQuota r.power r.groups r.bandwidth
        (at_ (fun x => match x with | .windows _ => true | _ => false))
        (at_ (fun x => match x with | .reduction _ => true | _ => false))
        (at_ (fun x => match x with | .bandwidth _ => true | _ => false)) 68 with
    | some d => .error d
    | none => .ok k

/-- The job's record takes the changes; a resize that removes no index completes at once. -/
def State.resizeRecord (s : State) (h id : Nat) (r : Resize) (keys : Nat × Nat × Nat) : State :=
  s.modJob h (fun j =>
    let gone := rangesMinus j.keyRanges r.ranges
    let fresh := j.keyRanges.isEmpty && !r.ranges.isEmpty
    let inNew (i : Nat) : Bool := r.ranges.any (fun k => decide (k.base ≤ i) && decide (i < k.base + k.count))
    { j with keyRanges := r.ranges, windows := r.windows, groups := r.groups, bandwidth := r.bandwidth,
             powerShare := r.power, removing := gone, keyBase := keys.1,
             pastRounds := (j.groups.filter (fun g => !r.groups.any (fun x => x.group == g.group))).foldl
               (fun t g => tput t g.group g.lastRound) j.pastRounds,
             keyTree := if fresh then { sectors := keyTableSectors, copyA := keys.2.1,
                                        copyB := keys.2.2 } else j.keyTree,
             keyTable := tmap j.keyTable (fun i e => if inNew i = true ∧ e.state = .outside
               then { e with state := if e.spent then .exhausted else .live, spent := false } else e),
             state := if gone.isEmpty then j.state else .resizing,
             resizeOp := if gone.isEmpty then none else some id })

/-- The changes take effect, and the entries of added indices are written LIVE (R155, R171). -/
def State.resizeStart (s : State) (h id : Nat) (r : Resize) (keys : Nat × Nat × Nat) : State :=
  let old := match s.job h with | some j => j.keyRanges | none => []
  let s := s.resizeRecord h id r keys
  if r.ranges.isEmpty then s
  else (rangesMinus r.ranges old).foldl (fun s k =>
    ((List.range ((k.base + k.count - 1) / 8 - k.base / 8 + 1)).map (k.base / 8 + ·)).foldl (fun s sec =>
      s.tableTouch h sec) s) s

/-- RESIZE_JOB. -/
def hResizeJob : Handler where
  manager := false
  job := false
  service := true
  length := fun n => decide (8 ≤ n)
  params _ c := match resizeRecords c.p.body with
    | .error d => [(d, false)]
    | .ok _ => []
  run s c :=
    match s.jobGate (c.arg 0 4), resizeRecords c.p.body with
    | .error v, _ => v
    | .ok _, .error d => badField d
    | .ok (h, j), .ok l =>
      let r := j.resize l (c.arg 4 4)
      if s.resizeHeld h r then refuse .badState
      else match s.resizeFit h j l r with
        | .error d => refuseDetail .noFit d
        | .ok keys =>
          .accept [] (some 100) (fun id s =>
            let s := s.resizeStart h id r keys
            if (rangesMinus j.keyRanges r.ranges).isEmpty then s.complete id .done [] else s)

end Machine
end Sys2Proof
end

