-- ==== Sys2Proof/Machine/Hss.lean ====
section
/-!
DEFINITION. Machine/Hss.lean: HSS signatures of NIST SP 800-208 with the parameter sets of R114 (R113): what their parameter sets
are, the length they give, and verification.  The manual names the standard and gives no algorithm (PRESUMED, log 5).
-/

namespace Sys2Proof
namespace Machine

/-- SHAKE256 with 192 bits of output: the hash of every parameter set of R114. -/
def hash24 (b : Bytes) : Bytes := bytesOf (shake256 b 192)

/-- The height of an LMS parameter set of R114, by its type code. -/
def lmsHeight (type : Nat) : Option Nat :=
  if type = 0x15 then some 10 else if type = 0x16 then some 15 else if type = 0x17 then some 20 else none

/-- Width w and number of chains p of an LM-OTS parameter set of R114, by its type code. -/
def otsShape (type : Nat) : Option (Nat × Nat) :=
  if type = 0xF then some (4, 51) else if type = 0x10 then some (8, 26) else none

/-- The fields of an LMS signature. -/
structure LmsSig where
  q       : Nat
  otsType : Nat
  nonce   : Bytes
  chains  : List Bytes
  type    : Nat
  path    : List Bytes

/-- `n` pieces of 24 bytes. -/
def nodes24 (b : Bytes) (n : Nat) : List Bytes := (List.range n).map (fun i => slice b (24 * i) 24)

/-- Reads an LMS signature: its fields and its length, if its parameter sets are of R114. -/
def parseLms (b : Bytes) : Option (LmsSig × Nat) :=
  match otsShape (beNat (slice b 4 4)) with
  | none => none
  | some (_, p) =>
    let at_ := 4 + 4 + 24 + 24 * p
    match lmsHeight (beNat (slice b at_ 4)) with
    | none => none
    | some h =>
      some ({ q := beNat (slice b 0 4), otsType := beNat (slice b 4 4), nonce := slice b 8 24, chains := nodes24 (b.drop 32) p,
              type := beNat (slice b at_ 4), path := nodes24 (b.drop (at_ + 4)) h }, at_ + 4 + 24 * h)

/-- The fields of an LMS public key, of 48 bytes. -/
structure LmsKey where
  type    : Nat
  otsType : Nat
  id      : Bytes
  root    : Bytes

def parseLmsKey (b : Bytes) : LmsKey :=
  { type := beNat (slice b 0 4), otsType := beNat (slice b 4 4), id := slice b 8 16, root := slice b 24 24 }

/-- Coefficient `i` of width `w` of a string. -/
def coef (b : Bytes) (i w : Nat) : Nat := (b.getD (i * w / 8) 0).toNat / 2 ^ (8 - w * (i % (8 / w) + 1)) % 2 ^ w

/-- A string with its checksum: 16 bits, shifted by 4 for width 4. -/
def withChecksum (b : Bytes) (w : Nat) : Bytes :=
  let sum := ((List.range (8 * b.length / w)).map (fun i => 2 ^ w - 1 - coef b i w)).sum
  b ++ be 2 (sum * (if w = 4 then 16 else 1))

/-- `n` steps of a chain from step `j`. -/
def chainSteps (start : Bytes) : Nat → Nat → Bytes → Bytes
  | 0, _, v => v
  | n + 1, j, v => chainSteps start n (j + 1) (hash24 (start ++ [BitVec.ofNat 8 j] ++ v))

/-- The LM-OTS public key candidate of a signature, and the permutation calls that it takes. -/
def otsCandidate (id : Bytes) (g : LmsSig) (w p : Nat) (message : Bytes) : Bytes × Nat :=
  let head := id ++ be 4 g.q
  let s := withChecksum (hash24 (head ++ be 2 0x8181 ++ g.nonce ++ message)) w
  let ends := g.chains.zipIdx.map (fun e =>
    chainSteps (head ++ be 2 e.2) (2 ^ w - 1 - coef s e.2 w) (coef s e.2 w) e.1)
  let steps := ((List.range p).map (fun i => 2 ^ w - 1 - coef s i w)).sum
  (hash24 (head ++ be 2 0x8080 ++ ends.flatten), shakeCalls (22 + 24 + message.length) + steps + shakeCalls (22 + 24 * p))

/-- The root above a node, up its path. -/
def climb (id : Bytes) : List Bytes → Nat → Bytes → Bytes
  | [], _, v => v
  | x :: r, n, v =>
    climb id r (n / 2) (hash24 (id ++ be 4 (n / 2) ++ be 2 0x8383 ++ (if n % 2 = 1 then x ++ v else v ++ x)))

/-- Verification of an LMS signature: whether it verifies, and the permutation calls. -/
def lmsVerify (key : LmsKey) (g : LmsSig) (message : Bytes) : Bool × Nat :=
  match otsShape g.otsType, lmsHeight g.type with
  | some (w, p), some h =>
    if g.type ≠ key.type ∨ g.otsType ≠ key.otsType ∨ 2 ^ h ≤ g.q then (false, 0)
    else
      let (kc, calls) := otsCandidate key.id g w p message
      let leaf := hash24 (key.id ++ be 4 (2 ^ h + g.q) ++ be 2 0x8282 ++ kc)
      (climb key.id g.path (2 ^ h + g.q) leaf == key.root, calls + 1 + h)
  | _, _ => (false, 0)

/-- An HSS signature of one or two levels: the LMS signatures, the key that the first signs, and the length. -/
structure HssSig where
  first  : LmsSig
  second : Option (LmsKey × Bytes × LmsSig)
  length : Nat

def parseHss (b : Bytes) : Option HssSig :=
  let levels := beNat (slice b 0 4)
  match parseLms (b.drop 4) with
  | none => none
  | some (g, n) =>
    if levels = 0 then some { first := g, second := none, length := 4 + n }
    else if levels = 1 then
      let text := slice b (4 + n) 48
      let key := parseLmsKey text
      match lmsHeight key.type, otsShape key.otsType, parseLms (b.drop (4 + n + 48)) with
      | some _, some _, some (g2, n2) => some { first := g, second := some (key, text, g2), length := 4 + n + 48 + n2 }
      | _, _, _ => none
    else none

/-- What the signature's parameter sets say: the length they give, if each is one of R114, with one or two levels. -/
@[irreducible] def hssLength (signature : Bytes) : Option Nat := (parseHss signature).map (·.length)

/-- HSS verification (R113 check 6) under a public key of one LMS tree, whose 48 bytes are the key's last: whether it verifies, and
the permutation calls. -/
@[irreducible] def hssVerify (key message signature : Bytes) : Bool × Nat :=
  match parseHss signature with
  | none => (false, 0)
  | some g =>
    let top := parseLmsKey (key.drop (key.length - 48))
    match g.second with
    | none => lmsVerify top g.first message
    | some (k, text, g2) =>
      let a := lmsVerify top g.first text
      let b := lmsVerify k g2 message
      (a.1 && b.1, a.2 + b.2)

end Machine
end Sys2Proof
end

