-- ==== Sys2Proof/Machine/LifeCycle.lean ====
section
/-!
DEFINITION. Machine/LifeCycle.lean: fuses, roots, life-cycle transitions, the keys of the device slots, tamper, and the
commands 0x02xx (R72 to R104, R509, R510).
-/

namespace Sys2Proof
namespace Machine

/-! ### Fuses -/

/-- Blows the bits of `l` in a word, but for those that cannot be blown (R80). -/
def blow (word fails : BitVec 64) (l : List Nat) : BitVec 64 :=
  l.foldl (fun w i => if fails.getLsbD i then w else w ||| BitVec.twoPow 64 i) word

/-- Blows both bits of a progress mark (R78). -/
def Fuses.blowMark (f : Fuses) (m : Nat) (fails : BitVec 64) : Fuses :=
  { f with progressWord := blow f.progressWord fails [m, m + 1] }

/-- Blows the 16 bits of a state group (R77). -/
def Fuses.blowGroup (f : Fuses) (lo : Nat) (fails : BitVec 64) : Fuses :=
  { f with lifecycleWord := blow f.lifecycleWord fails ((List.range 16).map (lo + ·)) }

/-- The root check of R76. -/
def rootCheck (root : Key) : BitVec 64 :=
  BitVec.ofNat 64 (shake256 (ascii "ROOT-CHECK" ++ bytesOf root) 256).toNat

/-- The SEC-DED code of a slot: one check byte for each 8 bytes (R76). -/
def slotSecDed (bytes : Bytes) (n : Nat) : BitVec 64 :=
  BitVec.ofNat 64 (ofLe ((List.range n).map (fun i => Config.secDed (BitVec.ofNat 64 (field bytes (8 * i) 8)))))

/-- The slot of root `r` (0 TEST, 1 PROD, 2 EOL) that is committed: A, else B. -/
def Fuses.rootSlot (f : Fuses) (r : Nat) : Option RootSlot :=
  if markSet f.progressWord (4 * r) then f.rootSlots[2 * r]?
  else if markSet f.progressWord (4 * r + 2) then f.rootSlots[2 * r + 1]?
  else none

/-- A root as KV reads it: its committed slot, if root_check holds and the fuses leave it readable (R83, R89). -/
def Fuses.readRoot (f : Fuses) (r : Nat) : Option Key :=
  if r = 1 ∧ (markSet f.progressWord mkEolBegun ∨ f.disableWord.toNat % 256 ≠ 0) then none
  else match f.rootSlot r with
    | some s => if s.check = rootCheck s.root then some s.root else none
    | none => none

/-- The pad and the tag of the sealed enrolment record (R86). -/
def fusePad (root : Key) (serial : BitVec 128) : BitVec 320 :=
  kmac256 (bytesOf root) (ascii "FUSE-PAD" ++ bytesOf serial) 320
def fuseTag (root : Key) (serial : BitVec 128) (sealed : BitVec 320) : BitVec 128 :=
  kmac256 (bytesOf root) (ascii "FUSE-TAG" ++ bytesOf serial ++ bytesOf sealed) 128

/-- The enrolment record in its committed slot, opened: OES and policy word (R86). -/
def Fuses.readRecord (f : Fuses) : Option (Key × BitVec 64) :=
  if f.disableWord.toNat / 256 % 256 ≠ 0 then none
  else
    let slot := if markSet f.progressWord mkRecordA then f.enrolSlots[0]?
                else if markSet f.progressWord mkRecordB then f.enrolSlots[1]? else none
    match slot, f.readRoot 1 with
    | some e, some root =>
      if e.tag = fuseTag root f.serial e.sealed then
        let plain := (e.sealed ^^^ fusePad root f.serial).toNat
        some (BitVec.ofNat 256 plain, BitVec.ofNat 64 (plain / 2 ^ 256))
      else none
    | _, _ => none

/-- The enrolment slot of an OES and a policy (R86). -/
def sealRecord (root : Key) (serial : BitVec 128) (oes : Key) (policy : BitVec 64) : EnrolSlot :=
  let sealed := BitVec.ofNat 320 (oes.toNat + 2 ^ 256 * policy.toNat) ^^^ fusePad root serial
  let tag := fuseTag root serial sealed
  { sealed := sealed, tag := tag, secDed := slotSecDed (bytesOf sealed ++ bytesOf tag) 7, blown := true }

/-! ### Root generation (R81, R82) -/

/-- Programs a root into the slots that are free, A then B, until one is committed; `fails` names the slots whose
programming fails, `marks` the progress bits that cannot be blown. -/
def generateRoot (r : Nat) (root : Key) (slotFail : List Bool) (marks : BitVec 64) : List Nat → Fuses → Fuses
  | [], f => f
  | i :: rest, f =>
    let n := 2 * r + i
    let free := !(f.rootSlots.getD n {}).blown && !markSet f.progressWord (4 * r + 2 * i)
    if free then
      let bytes := bytesOf root ++ bytesOf (rootCheck root)
      let slot : RootSlot := { root := root, check := rootCheck root, secDed := slotSecDed bytes 5, blown := true }
      let f := { f with rootSlots := f.rootSlots.set n slot }
      let f := if slotFail.getD n false then f else f.blowMark (4 * r + 2 * i) marks
      if markSet f.progressWord (4 * r + 2 * i) then f else generateRoot r root slotFail marks rest f
    else generateRoot r root slotFail marks rest f

/-- How the generation of the roots ends (R80, R82). -/
inductive RootRun where
  | complete
  | failed
  | cut
deriving DecidableEq, Repr

/-- Root slot `n` is the one that the programming of root `r` reaches: free, with A before B. -/
def Fuses.programs (f : Fuses) (r n : Nat) (slotFail : List Bool) (marks : BitVec 64) (root : Key) : Bool :=
  let free (i : Nat) : Bool := !(f.rootSlots.getD (2 * r + i) {}).blown && !markSet f.progressWord (4 * r + 2 * i)
  (n == 2 * r && free 0)
    || (n == 2 * r + 1 && free 1 && ((generateRoot r root slotFail marks [0] f).rootSlot r).isNone)

/-- Generates the roots that have no committed slot, in order, until one has no slot left or no entropy (R81, R82).  Where
RST_N or the power cuts the programming of a slot short, an unspecified part of its bits is blown, and the slot is abandoned
(R79, R80). -/
def State.generateRoots (slotFail : List Bool) (marks : BitVec 64) (entropyFail : List Nat) (cut : Option Nat) :
    List Nat → State → RootRun × State
  | [], s => (.complete, s)
  | r :: rest, s =>
    if (s.fuses.rootSlot r).isSome then State.generateRoots slotFail marks entropyFail cut rest s
    else if 4 ≤ entropyFail.getD r 0 then (.failed, s)
    else
      let (root, s) := (s.calls (shakeCalls 42) false).draw 256
      match cut.filter (fun n => s.fuses.programs r n slotFail marks root) with
      | some n =>
        let (part, s) := s.free 384
        let f := generateRoot r root slotFail marks ((List.range 2).filter (fun i => decide (2 * r + i < n))) s.fuses
        let slot : RootSlot := { root := part.extractLsb' 0 256, check := part.extractLsb' 256 64,
                                 secDed := part.extractLsb' 320 64, blown := true }
        (.cut, { s with fuses := { f with rootSlots := f.rootSlots.set n slot } })
      | none =>
        let s : State := { s with fuses := generateRoot r root slotFail marks [0, 1] s.fuses }
        if (s.fuses.rootSlot r).isSome then State.generateRoots slotFail marks entropyFail cut rest s else (.failed, s)

/-! ### Steps of the transitions (R88) -/

/-- What a fuse step did: complete, or stopped at a mark or group that still reads unset (R509). -/
inductive FuseStep where
  | finished
  | stalled
deriving DecidableEq, Repr

/-- The fuses have changed; a change of the recorded state changes BLOCK_STATUS (R77, R494, R496). -/
def State.fused (s : State) (f : Fuses) : State :=
  let t : State := { s with fuses := f }
  if f.recorded = s.fuses.recorded then t else t.statusChanged

/-- Blows a mark and says whether it reads set. -/
def State.fuseMark (s : State) (m : Nat) (fails : BitVec 64) : FuseStep × State :=
  let f := s.fuses.blowMark m fails
  (if markSet f.progressWord m then .finished else .stalled, s.fused f)

/-- Blows a group and says whether it reads set. -/
def State.fuseGroup (s : State) (lo : Nat) (fails : BitVec 64) : FuseStep × State :=
  let f := s.fuses.blowGroup lo fails
  (if groupSet f.lifecycleWord lo then .finished else .stalled, s.fused f)

/-- The plain policy word of a policy: each field four bits (R85). -/
def blowPolicy (word fails policy : BitVec 64) : BitVec 64 :=
  blow word fails ((if policy.getLsbD 0 then [0, 1, 2, 3] else []) ++ (if policy.getLsbD 1 then [4, 5, 6, 7] else []))

/-- Steps 1 to 3 of the transition to TEST. -/
def State.testStep (s : State) (n : Nat) (fails : BitVec 64) : FuseStep × State :=
  match n with
  | 1 => s.fuseMark mkTestBegun fails
  | 2 => s.fuseGroup 0 fails
  | _ => s.fuseMark mkTestDone fails

/-- Steps 6 to 8 of the transition to PRODUCTION, as 6: policy word, 7: policy_written, 8: group, 9: prod_done. -/
def State.prodStep (s : State) (n : Nat) (policy fails : BitVec 64) : FuseStep × State :=
  match n with
  | 6 => (.finished, { s with fuses := { s.fuses with policyWord := blowPolicy s.fuses.policyWord fails policy } })
  | 7 => s.fuseMark mkPolicyWritten fails
  | 8 => s.fuseGroup 16 fails
  | _ => s.fuseMark mkProdDone fails

/-- Steps 2 to 5 of the transition to END_OF_LIFE, as 2: eol_begun, 3: disable word, 4: prod_root_disabled, 5: group,
6: eol_done. -/
def State.eolStep (s : State) (n : Nat) (fails : BitVec 64) : FuseStep × State :=
  match n with
  | 2 => s.fuseMark mkEolBegun fails
  | 3 => (.finished, { s with fuses := { s.fuses with disableWord := blow s.fuses.disableWord fails (List.range 16) } })
  | 4 => s.fuseMark mkProdRootDisabled fails
  | 5 => s.fuseGroup 32 fails
  | _ => s.fuseMark mkEolDone fails

/-- A transition ends: its operation completes, and the state waits for the next start or is stalled (R74, R509); KV zeroises
the OES and the PROD_ROOT that it used (R88 step 8, R92). -/
def State.endTransition (s : State) (t : Transition) (st : Status) : State :=
  let op := s.life.op
  let s := s.completeOpt op st []
  { s with life := { s.life with transition := t, step := 0, op := none }, kv := { s.kv with roots := [], enrolling := none } }

/-- Goes on after a fuse step: to the next one, to the end, or to a stall. -/
def State.afterStep (r : FuseStep × State) (last : Bool) : State :=
  match r.1 with
  | .stalled => r.2.endTransition .stalled .integrityLost
  | .finished =>
    if last then r.2.endTransition .complete .done
    else { r.2 with life := { r.2.life with step := r.2.life.step + 1 } }

/-- Enrolment steps 3 and 4: an abandoned slot gives way to the next free one, and none left ends the command (R510). -/
def State.nextSlot (s : State) : State :=
  match s.fuses.enrolFree with
  | [] => s.endTransition .awaitingResend .integrityLost
  | _ :: _ => { s with life := { s.life with step := 3 } }

/-- LIFECYCLE_TRANSITION_PROGRESS (R88): LC carries out the step that is due.  `fails` names the bits of the word it
programs that cannot be blown; `slotOk` says that the enrolment slot programs, and that it reads back.  Where a request
waits for a key that step 1 to END_OF_LIFE clears, every data request in flight is answered as one of an aborted derivation is, with
FAULTED, and what goes with them ends (R110; DESIGN CHOICE, log 47).  After a
tamper LC carries out only the steps that R104 owes (DESIGN CHOICE for a transition that the tamper met, log 49).  A PROD_ROOT that
fails its check stops the transition as a mark does, with FAULTED (DESIGN CHOICE, log 26). -/
def State.transitionProgress (s : State) (fails : BitVec 64) (slotOk : Bool) : State :=
  let l := s.life
  if s.boot.vddAuxOk = false ∨ s.boot.inReset ∨ s.boot.powered = false
      ∨ (s.boot.tamperHeld = true ∧ (l.killOwed = false ∨ l.transition ≠ .toEndOfLife)) then s
  else match l.transition with
  | .toTest => State.afterStep (s.testStep l.step fails) (decide (3 ≤ l.step))
  | .toEndOfLife =>
    if l.step = 1 then
      let s := if s.kv.requests.isEmpty then s else s.failAll .faulted
      let s := s.clearJobKeys
      { s with kv := { s.kv with roots := [], enrolling := none, personal := 0, enrolSecret := none, attest := none,
                                 transport := none, permit := none },
               life := { s.life with step := 2 } }
    else State.afterStep (s.eolStep l.step fails) (decide (6 ≤ l.step))
  | .toProduction =>
    match l.step with
    | 2 => State.afterStep (s.fuseMark mkProdBegun fails) false
    | 3 =>
      match s.fuses.enrolFree, s.fuses.readRoot 1 with
      | i :: _, some root =>
        let slot := sealRecord root s.fuses.serial (s.kv.enrolling.getD 0) l.policy
        let s : State := { s with fuses := { s.fuses with enrolSlots := s.fuses.enrolSlots.set i slot },
                                  kv := { s.kv with roots := [(1, root)] } }
        let s := s.calls (shakeCalls 42 + kmacCalls 24 320 false + kmacCalls 64 128 false) false
        if slotOk then { s with life := { s.life with step := 4, slot := i } } else s.nextSlot
      | _, none => (s.endTransition .stalled .faulted).hardFault 1 islandKV
      | [], _ => s.nextSlot
    | 4 =>
      let s := s.calls (kmacCalls 64 128 false) false
      if slotOk then { s with life := { s.life with step := 5 } } else s.nextSlot
    | 5 => State.afterStep (s.fuseMark (mkRecordA + 2 * l.slot) fails) false
    | n => State.afterStep (s.prodStep n l.policy fails) (decide (9 ≤ n))
  | _ => s

/-! ### Resuming at a start (R89, R104) -/

/-- Runs fuse steps `l` one after the other until one stalls. -/
def runSteps (f : Nat → State → FuseStep × State) : List Nat → State → FuseStep × State
  | [], s => (.finished, s)
  | n :: r, s =>
    match f n s with
    | (.finished, s') => runSteps f r s'
    | (.stalled, s') => (.stalled, s')

/-- The committed slot of PROD_ROOT is one that KV may read, and fails root_check (R83, R89). -/
def Fuses.prodBroken (f : Fuses) : Bool :=
  !markSet f.progressWord mkEolBegun && f.disableWord.toNat % 256 == 0 && (f.rootSlot 1).isSome && (f.readRoot 1).isNone

/-- What LC finds and finishes before KV reads any root; `held`: the start is held by a tamper, which owes the END_OF_LIFE
steps or only clears and holds (R104).  With VDD_AUX out of its range LC programs nothing, and the transition waits for the next start
(R502).  A committed record whose tag fails before the PRODUCTION group reads set stops the
transition, and the part starts in TEST (DESIGN CHOICE, log 46: R86 speaks of starts in PRODUCTION); a PROD_ROOT that fails its
check there is a key-vault check failure (R83). -/
def State.resume (s : State) (held : Bool) (marks groups plain : BitVec 64) : State :=
  let f := s.fuses
  let run (steps : Nat → State → FuseStep × State) (l : List Nat) (s : State) : State :=
    if s.boot.vddAuxOk = false then s
    else match runSteps steps l s with
      | (.finished, s) => s
      | (.stalled, s) => { s with life := { s.life with transition := .stalled } }
  let pick (group word n : Nat) : BitVec 64 := if n = group then groups else if n = word then plain else marks
  if markSet f.progressWord mkEolBegun ∨ (held = true ∧ f.recorded = .production ∧ bit f.policy 0) then
    if markSet f.progressWord mkEolDone then s
    else run (fun n s => s.eolStep n (pick 5 3 n))
      ((if markSet f.progressWord mkEolBegun then [] else [2])
        ++ (if markSet f.progressWord mkProdRootDisabled then [] else [3, 4])
        ++ (if groupSet f.lifecycleWord 32 then [] else [5]) ++ [6]) s
  else if held then s
  else if markSet f.progressWord mkProdBegun ∧ ¬ markSet f.progressWord mkProdDone then
    if markSet f.progressWord mkRecordA ∨ markSet f.progressWord mkRecordB then
      let s := s.calls (shakeCalls 42 + kmacCalls 24 320 false + kmacCalls 64 128 false) false
      match f.readRecord with
      | some (_, policy) =>
        run (fun n s => s.prodStep n policy (pick 8 6 n))
          ((if markSet f.progressWord mkPolicyWritten then [] else [6, 7])
            ++ (if groupSet f.lifecycleWord 16 then [] else [8]) ++ [9]) s
      | none =>
        let s : State := { s with life := { s.life with transition := .stalled } }
        if f.prodBroken = true ∧ f.recorded ≠ .production then s.hardFault 1 islandKV else s
    else { s with life := { s.life with transition := .awaitingResend } }
  else if markSet f.progressWord mkTestBegun ∧ ¬ markSet f.progressWord mkTestDone then
    run (fun n s => s.testStep n (pick 2 0 n)) ((if groupSet f.lifecycleWord 0 then [] else [2]) ++ [3]) s
  else s

/-- Step 3 of R506: resume, generate the roots of a blank part that is not held, and fix the state in force (R74); the first
component says that the generation was cut short (R80). -/
def State.lifecycleStart (s : State) (held : Bool) (i : StartInput) : Bool × State :=
  let s := s.resume held i.markFail i.groupFail i.plainFail
  let r : RootRun × State :=
    if held = false ∧ s.boot.vddAuxOk = true ∧ s.fuses.recorded = .blank ∧ ¬ markSet s.fuses.progressWord mkRootsComplete then
      match State.generateRoots i.slotFail i.markFail i.entropyFail i.cut [0, 1, 2] s with
      | (.complete, s) => (.complete, { s with fuses := s.fuses.blowMark mkRootsComplete i.markFail })
      | (.failed, s) => (.failed, { s with life := { s.life with rootFailed := true } })
      | (.cut, s) => (.cut, s)
    else (.complete, s)
  (r.1 == .cut, { r.2 with life := { r.2.life with inForce := r.2.fuses.recorded } })

/-! ### Device slots (R95, R96) -/

/-- A key derived under the enrolment secret in force, or under the OES: label and the device serial (R96). -/
def deviceKey (secret : Key) (label : String) (serial : BitVec 128) : Key :=
  kmac256 (bytesOf secret) (ascii label ++ bytesOf serial) 256

/-- The personalisation string of the DRBG, under the device root (R84, R96). -/
def personalisation (root : Key) (serial : BitVec 128) : BitVec 384 :=
  kmac256 (bytesOf root) (ascii "DRBG-PERS" ++ bytesOf serial) 384

/-- KV seeds the DRBG with the device root, if the part has one. -/
def State.seedDrbg (s : State) (root : Option Key) : State :=
  match root with
  | some r => ({ s with kv := { s.kv with personal := personalisation r s.fuses.serial,
                                          derivations := sat64 s.kv.derivations } }).calls (kmacCalls 25 384 false) true
  | none => s

/-- KV fills the device slots, in the states of R72, from the enrolment secret `es`. -/
def State.fillDeviceSlots (s : State) (es : Key) : State :=
  let d (l : String) : Key := deviceKey es l s.fuses.serial
  let prod := s.life.inForce == LifeState.production
  let n := 2 + (if s.life.inForce = LifeState.test then 1 else if prod then 3 else 0)
  ({ s with kv := { s.kv with
      enrolSecret := some es, lbx0 := some (d "LBX-ROOT"), lbx1 := some (d "LBX-MANAGER"),
      attest := if prod then some (d "ATTEST") else none,
      transport := if prod || s.life.inForce == LifeState.test then some (d "TRANSPORT") else none,
      permit := if prod then some (d "PERMIT") else none,
      derivations := satAdd 64 s.kv.derivations n } }).calls (n * kmacCalls 24 256 false) true

/-- Step 5 of R506: KV reads the roots that R83 names and fills the device slots; a root or a record that fails its
check ends the start in self-quarantine. -/
def State.readSecrets (s : State) : State :=
  let record := if s.life.inForce = .production then kmacCalls 24 320 false + kmacCalls 64 128 false else 0
  let s := s.calls (shakeCalls 42 + record) false
  match s.life.inForce with
  | .production =>
    match s.fuses.readRoot 1, s.fuses.readRecord with
    | some root, some (oes, _) => (s.seedDrbg (some root)).fillDeviceSlots oes
    | _, _ => State.hardFault { s with kv := { s.kv with unreadable := true } } 1 islandKV
  | .endOfLife =>
    let s := (s.seedDrbg (s.fuses.readRoot 2)).fillDeviceSlots 0
    if (s.fuses.readRoot 2).isSome then s else s.hardFault 1 islandKV
  | _ =>
    let s := (s.seedDrbg (s.fuses.readRoot 0)).fillDeviceSlots 0
    if (s.fuses.rootSlot 0).isNone ∨ (s.fuses.readRoot 0).isSome then s else s.hardFault 1 islandKV

/-! ### Tamper (R102 to R104) -/

/-- TAMPER: every store of R95 is cleared, and the block is held until power-on reset. -/
def State.tamper (s : State) : State :=
  if s.boot.powered = false ∨ s.boot.tamperHeld then s
  else
    let s : State := { s with boot := { s.boot with tamperHeld := true } }
    let s := s.tamperClear.answerWaiting
    let s := s.failAll .tamperHeld
    let s := s.endSession .squashed false
    let s : State := { s with sniby := { s.sniby with places := [], heldBehind := [], ready := [] } }
    let s := s.setBlock .tamperHeld
    if s.life.inForce = .production ∧ bit s.fuses.policy 0 then
      if s.life.transition = .toEndOfLife then { s with life := { s.life with step := max s.life.step 2, op := none, killOwed := true } }
      else if s.fuses.recorded = .endOfLife then s
      else { s with life := { s.life with transition := .toEndOfLife, step := 2, op := none, killOwed := true } }
    else if s.life.transition = .toTest ∨ s.life.transition = .toProduction ∨ s.life.transition = .toEndOfLife then
      { s with life := { s.life with transition := .none, step := 0, op := none } }
    else s

/-! ### Commands 0x02xx (R91 to R94) -/

/-- The body of LIFECYCLE_STATUS (R93). -/
def lifecycleBody (s : State) : Bytes :=
  let f := s.fuses
  let inB (r : Nat) : Nat := flag (!markSet f.progressWord (4 * r) && markSet f.progressWord (4 * r + 2))
  enc [(1, f.recorded.code), (1, s.life.transition.code),
       (1, inB 0 + 2 * inB 1 + 4 * inB 2 + 8 * flag s.life.rootFailed), (1, f.enrolFree.length),
       (1, s.life.inForce.code), (3, 0), (8, f.progressWord.toNat), (8, f.policy), (8, f.disableWord.toNat)]

def hLifecycleStatus : Handler where
  manager := false
  job := false
  length := exactly 0
  run s _ := answerWith s (lifecycleBody s)

/-- A transition may start: none runs, none is complete or stalled (R90, R509). -/
def State.canTransit (s : State) : Bool :=
  s.life.transition == .none || s.life.transition == .awaitingResend

/-- A transition begins: its first step, its operation. -/
def State.beginTransition (s : State) (t : Transition) (step id : Nat) : State :=
  { s with life := { s.life with transition := t, step := step, op := some id } }

/-- ENTER_TEST (R87, R92). -/
def hEnterTest : Handler where
  manager := false
  job := false
  states l := l == .blank
  length := exactly 16
  params s c := [(64, c.arg 0 16 == s.fuses.serial.toNat)]
  run s _ :=
    if s.canTransit && markSet s.fuses.progressWord mkRootsComplete then
      .accept [] (some 1000) (fun id s => s.beginTransition .toTest 1 id)
    else refuse .badState

/-- oes_check (R92). -/
def oesCheck (oes : Key) (serial : BitVec 128) : BitVec 128 :=
  kmac256 (bytesOf oes) (ascii "OES-CHECK" ++ bytesOf serial) 128

/-- ENROL_PRODUCTION (R87, R88 step 1, R92).  The check of oes_check is a computation of the digest engine whatever comes of it, and
the field behind it is judged after it (R46 step 11, R132). -/
def hEnrolProduction : Handler where
  manager := false
  job := false
  states l := l == .test
  length := exactly 64
  params _ c := [(96, c.arg 32 8 / 4 == 0)]
  run s c :=
    let counted (s : State) : State := s.calls (kmacCalls 25 128 false) false
    if BitVec.ofNat 128 (c.arg 40 16) ≠ oesCheck (BitVec.ofNat 256 (c.arg 0 32)) s.fuses.serial then
      .reply { status := .badParam, detail := 104 } (counted s)
    else if c.arg 56 8 ≠ 0 then .reply { status := .badParam, detail := 120 } (counted s)
    else if s.canTransit && s.jobs.isEmpty && !s.fuses.enrolFree.isEmpty then
      .accept [] (some 20000) (fun id s =>
        let step := if markSet s.fuses.progressWord mkProdBegun then 3 else 2
        { s with life := { s.life with transition := .toProduction, step := step, op := some id,
                                       policy := BitVec.ofNat 64 (c.arg 32 8) },
                 kv := { s.kv with enrolling := some (BitVec.ofNat 256 (c.arg 0 32)) } })
        counted
    else .reply { status := .badState } (counted s)

/-- ENTER_END_OF_LIFE (R87, R92). -/
def hEnterEndOfLife : Handler where
  manager := false
  job := false
  states l := l == .test || l == .production
  length := exactly 24
  params s c := [(64, c.arg 0 16 == s.fuses.serial.toNat), (80, c.bytes 16 8 == ascii "ENDOFLIF")]
  run s _ :=
    if s.canTransit then .accept [] (some 2000) (fun id s => s.beginTransition .toEndOfLife 1 id)
    else refuse .badState

/-- The body of KEY_VAULT_STATUS (R94). -/
def vaultBody (s : State) : Bytes :=
  enc [(2, (s.kv.jobRoots.filter (fun e => e.2.state != .empty)).length), (2, s.kv.lbxKeys.length),
       (4, s.kv.cache.length), (8, s.kv.hits), (8, s.kv.misses), (8, s.kv.derivations)]

def hKeyVaultStatus : Handler where
  manager := false
  job := false
  length := exactly 0
  run s _ := answerWith s (vaultBody s)

end Machine
end Sys2Proof
end

