-- ==== Sys2Proof/Machine/Boundary.lean ====
section
/-!
DEFINITION. Machine/Boundary.lean: the block's boundary and its start (chapter 15): BAR0 and BAR2, the firmware image
(R112 to R117), links, pins, the test port, reset and start.

START stands for steps 1 to 6 of R506 together, and FIRMWARE_IMAGE_FETCHED for steps 8 and 9 (DESIGN CHOICE, log 16).
-/

namespace Sys2Proof
namespace Machine

/-! ### Firmware (R112 to R117, R495) -/

/-- An image is refused: counted, with its code. -/
def State.imageRefused (s : State) (code : Nat) : State :=
  State.statusChanged { s with boot := { s.boot with bootCode := code, attempts := min 255 (s.boot.attempts + 1) } }

/-- The boot ROM acts on a write of go (R495). -/
def State.fetchImage (s : State) : State :=
  let s : State := { s with boot := { s.boot with goLatched := false } }
  if s.boot.fwLength < 4160 ∨ 4259840 < s.boot.fwLength then s.imageRefused 2
  else
    let s : State := { s with boot := { s.boot with fetchLength := s.boot.fwLength } }
    (s.setBootCode 0xFE).emit (.hostRead 0 (s.boot.fwBase * 4096) s.boot.fetchLength)

/-- The boot ROM would act on a write of go: it waits for an image. -/
def State.wantsImage (s : State) : Bool :=
  s.boot.bootCode == 0xFF || (decide (1 ≤ s.boot.bootCode) && decide (s.boot.bootCode ≤ 5))

/-- A write of FW_LOAD_CONTROL (R495); before the end of step 6 a go is latched. -/
def State.fwControl (s : State) (link v : Nat) : State :=
  if s.boot.powered = false ∨ link ≠ 0 ∨ link ∉ s.boot.hostUp then s
  else
    let s : State := { s with boot := { s.boot with fwLength := v % 2 ^ 32 } }
    if bit v 63 = false ∨ s.wantsImage = false then s
    else if s.boot.inReset then { s with boot := { s.boot with goLatched := true } }
    else s.fetchImage

/-- The header of an image (R112). -/
def fwHeader (i : FwImage) : Bytes :=
  bytesOf i.magic ++ [i.revision, i.signing, i.keyId, i.reserved1] ++ bytesOf i.version ++ bytesOf i.bodyLength
    ++ bytesOf i.signatureLength ++ bytesOf i.reserved2

/-- The measurement of an image (R113). -/
def fwMeasure (i : FwImage) : Key := labelled "FW-IMAGE" (fwHeader i ++ i.body)

/-- The lengths of an image agree (check 2 of R113). -/
def fwLengths (i : FwImage) (length : Nat) : Bool :=
  let b := i.bodyLength.toNat
  let g := i.signatureLength.toNat
  decide (4096 ≤ b) && decide (b ≤ 4194304) && b % 4096 == 0 && decide (g = 0 ↔ i.signing = 0)
    && decide (64 + b + g ≤ 4259840) && length == 64 + b + g && i.body.length == b && i.signature.length == g

/-- The checks of R113 in order: the code of the first that fails, 0 with none. -/
def State.fwCheck (s : State) (i : FwImage) : Nat :=
  if i.magic.toNat ≠ ofLe (ascii "AETHOKFW") ∨ i.revision ≠ Config.revisionByte ∨ i.reserved1 ≠ 0 ∨ i.reserved2 ≠ 0
      ∨ 1 < i.signing.toNat ∨ (i.signing = 0 ∧ i.keyId ≠ 0) then 1
  else if fwLengths i s.boot.fetchLength = false then 2
  else if i.signing = 0 then
    if s.life.inForce = .blank ∨ s.life.inForce = .test then 0 else 3
  else match (if i.keyId.toNat ≤ 3 then Config.bootRomKey i.keyId.toNat else none), hssLength i.signature with
    | some key, some n =>
      if n ≠ i.signatureLength.toNat then 2
      else if (hssVerify key (ascii "FW-SIGN" ++ bytesOf (fwMeasure i)) i.signature).1 then 0 else 5
    | _, _ => 4

/-- The permutation calls of the checks that an image reaches, and of the digest of its key (R113, R117, R132). -/
def State.fwDigests (s : State) (i : FwImage) : State :=
  let code := s.fwCheck i
  if code = 0 ∨ code = 5 then
    let sig := match Config.bootRomKey i.keyId.toNat with
      | some key =>
        if i.signing = 0 then 0
        else (hssVerify key (ascii "FW-SIGN" ++ bytesOf (fwMeasure i)) i.signature).2
               + (if code = 0 then shakeCalls (7 + key.length) else 0)
      | none => 0
    s.calls (shakeCalls (8 + 64 + i.body.length) + sig) false
  else s

/-- Step 11 of R506: the services of R507 run; the poste restante starts what it holds, place by place (R508). -/
def State.fullService (s : State) : State :=
  if s.boot.blockState = .handshakeReady ∧ (List.range 16).all (fun n => decide (n ∈ s.boot.mcReady)) = true
  then s.setBlock .fullService else s

/-- Step 9 of R506: letterbox 1 opens, the port islands are enabled, and the block is ready for handshakes; a calibration
fault is posted now that notices can be (R392). -/
def State.handshakeReady (s : State) : State :=
  let s := s.modBox 1 (fun b => { b with state := .opened })
  let s := if s.boot.blockState = .starting then s.setBlock .handshakeReady else s
  let s := if s.power.calFault then s.powerNotice 0x0B08 .integrityLost [] else s
  s.fullService

/-- FIRMWARE_IMAGE_FETCHED (R113, R115, R117). -/
def State.imageFetched (s : State) (i : FwImage) : State :=
  if s.live = false ∨ s.boot.bootCode ≠ 0xFE then s
  else
    let code := s.fwCheck i
    let s := s.fwDigests i
    if code ≠ 0 then s.imageRefused code
    else
      let m := fwMeasure i
      let key := match Config.bootRomKey i.keyId.toNat with
        | some k => if i.signing = 0 then 0 else labelled "FW-KEY" (i.keyId :: k)
        | none => 0
      let s := (s.extend 3 m).extend 4 key
      let s : State := { s with boot := { s.boot with
        fwMeasurement := m, fwSigned := decide (i.signing ≠ 0), fwKeyId := i.keyId.toNat, fwVersion := i.version.toNat,
        fwRunning := true } }
      (s.setBootCode 0).handshakeReady

/-! ### BAR0 (R493) -/

/-- A write to a register of BAR0. -/
def State.registerWrite (s : State) (link off v : Nat) : State :=
  if 2 ≤ link ∨ link ∉ s.boot.hostUp then s
  else if off = 16 then
    if link = 0 then { s with boot := { s.boot with fwBase := v / 4096 } } else s
  else if off = 24 then s.fwControl link v
  else if 1048576 ≤ off ∧ off < 1048576 + 262144 then s.lbxRegister link ((off - 1048576) / 4096) (off % 4096) v
  else if 2097152 ≤ off ∧ off < 2097152 + 1048576 then s.envRegister link ((off - 2097152) / 4096) (off % 4096) v
  else if 4194304 ≤ off ∧ off < 4194304 + 5136 then
    { s with boot := { s.boot with msixTable := tput s.boot.msixTable (link * 2 ^ 32 + off) (BitVec.ofNat 64 v) } }
  else s

/-- The MSI-X pending-bit array from a byte on (R493): a vector that waits for the end of its quiet interval is pending (DESIGN
CHOICE, log 61). -/
def State.pendingBits (s : State) (link byte : Nat) : Nat :=
  pack ((List.range 8).map (fun k => (1, maskOf ((List.range 8).filter (fun b =>
    decide (link * 512 + (8 * (byte + k) + b) ∈ s.boot.msixDeferred))) 8)))

/-- What a read of BAR0 returns (R493): the top registers (R494, R495), the pages of the letterboxes (R34) and of the
envelope rings (R273), which are served from the first block state on (R505), and the MSI-X table. -/
def State.barRead (s : State) (link off : Nat) : Nat :=
  if off = 0 then
    s.boot.blockState.code + 16 * flag s.boot.refclkLost
      + 256 * (if s.boot.lifecycleRead then s.fuses.recorded.code else 0xF) + 2 ^ 32 * s.boot.nodeNumber
  else if off < 32 then
    if link ≠ 0 then 0
    else if off = 8 then s.boot.bootCode + 256 * s.boot.attempts + 2 ^ 32 * s.boot.fwVersion
    else if off = 16 then s.boot.fwBase * 4096
    else if off = 24 then s.boot.fwLength
    else 0
  else if 4194304 ≤ off ∧ off < 4194304 + 5136 then (tgetD s.boot.msixTable (link * 2 ^ 32 + off) 0).toNat
  else if 4259840 ≤ off ∧ off < 4259840 + 48 then s.pendingBits link (off - 4259840)
  else if s.pagesLive = false then 0
  else if 1048576 ≤ off ∧ off < 1048576 + 262144 then s.lbxRead ((off - 1048576) / 4096) (off % 4096)
  else if 2097152 ≤ off ∧ off < 2097152 + 1048576 then s.envRead link ((off - 2097152) / 4096) (off % 4096)
  else 0

/-! ### BAR2 (R192, R493) -/

/-- The protected ranges of R192: base and length of each. -/
def State.protectedExtents (s : State) : List (Nat × Nat) :=
  s.jobs.flatMap (fun e => Job.extents { e.2 with
    placed := e.2.placed.filter (fun (p : Placed) => p.record.cls != .opened || p.record.pooled) })

/-- XB refuses the bytes from `off` on. -/
def State.barRefused (s : State) (off len : Nat) : Bool :=
  decide (2 ^ 40 ≤ off) || decide (0xC00000000 < off % 2 ^ 36 + len)
    || s.protectedExtents.any (fun e => decide (e.1 < off + len) && decide (off < e.1 + e.2))

/-- The OPEN region that holds the bytes, or no region. -/
def State.barRegion (s : State) (off len : Nat) : Nat :=
  match s.regions.find? (fun e => e.2.state != .free && !e.2.pooled && e.2.cls == .opened && decide (e.2.base ≤ off)
      && decide (off + len ≤ e.2.base + e.2.size)) with
  | some e => e.1
  | none => noRegion

/-- Memory requests through BAR2 are served: full service, and neither quarantined nor held (R505, R421, R102). -/
def State.barServes (s : State) (link : Nat) : Bool :=
  s.live && decide (link ∈ s.boot.hostUp) && decide (s.boot.blockState = .fullService ∨ s.boot.blockState = .cpHung)
    && !s.quarantined && !s.boot.tamperHeld

/-- A request of a master without a context: row 5 of R369, TC2. -/
def State.barAccess (s : State) (o : Origin) (k : ReqKind) (off len : Nat) (bytes : List (Option Byte)) : State :=
  s.submit { origin := o, kind := k, ctx := none, keyIndex := 0, region := s.barRegion off len, address := off, length := len,
             tc := 2, master := some (256 + 4), bytes := bytes }

/-- One more refusal under R192. -/
def State.barCounted (s : State) : State :=
  { s with mem := { s.mem with protectedRefusals := sat64 s.mem.protectedRefusals } }

/-- BAR2_READ: refused, its data is zero. -/
def State.barReadMem (s : State) (link off len tag : Nat) : State :=
  if s.live = false ∨ link ∉ s.boot.hostUp ∨ len = 0 ∨ 4096 < len then s
  else if s.barServes link = false then s.emit (.barData link tag (zeros len))
  else if s.barRefused off len then s.barCounted.emit (.barData link tag (zeros len))
  else s.barAccess (.bar link tag) .read off len []

/-- BAR2_WRITE: refused, it is discarded. -/
def State.barWriteMem (s : State) (link off : Nat) (data : Bytes) : State :=
  if s.barServes link = false ∨ data = [] ∨ 4096 < data.length then s
  else if s.barRefused off data.length then s.barCounted
  else s.barAccess (.bar link 0) .write off data.length (data.map some)

/-! ### Links (R491, R497) -/

/-- Hands over what a port's island holds, oldest first, and the contributions that wait for it. -/
def State.flushPort (s : State) (port : Nat) : State := s.portServe port

/-- An item from a port shows that its logic is not hung any more (R423). -/
def State.portAlive (s : State) (port : Nat) : State :=
  if port ∈ s.fault.portsHung then
    (s.modFault (fun f => { f with portsHung := f.portsHung.filter (fun p => p != port) })).flushPort port
  else s

/-- Fabric items are taken: the port islands are enabled (R505, R506 step 9), so that the port's logic may hand them over. -/
def State.fabricTakes (s : State) (port : Nat) : Bool :=
  s.live && decide (port < 32) && s.boot.fwRunning && decide (s.boot.blockState ≠ .starting)

/-- FABRIC_LINK_DOWN. -/
def State.fabricDown (s : State) (port : Nat) : State :=
  { s with boot := { s.boot with fabricUp := s.boot.fabricUp.filter (fun p => p != port) } }

/-- FABRIC_LINK_UP: what was held goes on. -/
def State.fabricUp (s : State) (port : Nat) : State :=
  if s.boot.powered = false ∨ 32 ≤ port ∨ port ∈ s.boot.fabricUp then s
  else
    let s : State := { s with boot := { s.boot with fabricUp := port :: s.boot.fabricUp } }
    (s.modFault (fun f => { f with portsHung := f.portsHung.filter (fun p => p != port) })).flushPort port

/-- HOST_LINK_DOWN (R497). -/
def State.hostDown (s : State) (link : Nat) : State :=
  if link ∉ s.boot.hostUp then s
  else
    let s := s.linkAway link
    { s with boot := { s.boot with hostUp := s.boot.hostUp.filter (fun l => l != link) } }

/-- HOST_LINK_TRAINED. -/
def State.hostTrained (s : State) (link : Nat) : State :=
  if s.boot.powered = false ∨ 2 ≤ link then s
  else
    let up := if link ∈ s.boot.hostUp then s.boot.hostUp else link :: s.boot.hostUp
    let s : State := { s with boot := { s.boot with
      hostUp := up, dmaAbandoned := s.boot.dmaAbandoned.filter (fun l => l != link) } }
    s.modFault (fun f => { f with linksHung := f.linksHung.filter (fun l => l != link) })

/-! ### Memory controllers (R490, R506 step 10, R507) -/

/-- MC_READY. -/
def State.mcReady (s : State) (n : Nat) : State :=
  if s.boot.powered = false ∨ 16 ≤ n ∨ n ∈ s.boot.mcReady then s
  else State.fullService { s with boot := { s.boot with mcReady := n :: s.boot.mcReady } }

/-- MC_READY_DEADLINE: at 1 s the stack is fenced, and full service entered without it. -/
def State.mcDeadline (s : State) (n : Nat) : State :=
  if s.live = false ∨ 16 ≤ n ∨ n ∈ s.boot.mcReady ∨ s.now < s.boot.startedAt + 1000 * Config.ms then s
  else
    let s := (s.unitHung 0 n [0, 1] []).fenceStack n
    State.fullService { s with boot := { s.boot with mcReady := n :: s.boot.mcReady } }

/-! ### Clock, fuse supply, test port (R500 to R502) -/

/-- REFCLK_LOST. -/
def State.clockLost (s : State) : State :=
  if s.live = false ∨ s.boot.refclkLost then s
  else State.statusChanged { s with boot := { s.boot with refclkLost := true, locked := false } }

/-- FUSE_SUPPLY_OUT_OF_RANGE: no further step programs a fuse until the next start. -/
def State.fuseSupplyLost (s : State) : State :=
  if s.live then { s with boot := { s.boot with vddAuxOk := false } } else s

/-- A right of the test port is open: in TEST and PRODUCTION only with no job admitted (R127, R128). -/
def State.tapOpen (s : State) (right : Nat) : Bool :=
  s.live && s.right right none && (s.jobs.isEmpty || (s.life.inForce != .test && s.life.inForce != .production))

/-- The factory rows are programmed, before the part first starts (R76, R501).  A row is programmed whole (DESIGN CHOICE, log 2). -/
def State.programRows (s : State) (rows : FactoryRows) : State :=
  if s.boot.powered = false ∨ s.boot.hasStarted = true then s
  else { s with fuses := { s.fuses with serial := rows.serial, calibration := rows.calibration, rowRepair := rows.rowRepair } }

/-- TAP_INSTRUCTION: CP debug halts the processor, and any other instruction lets it go on (DEDUCED, log 30).  The programming of factory
rows selects BYPASS when it is done. -/
def State.tapInstruction (s : State) (i : TapInstr) : State :=
  let s := match i with
    | .program rows => s.programRows rows
    | _ => s
  let pick : TapInstr := match i with
    | .scan => if s.tapOpen 0 then .scan else .bypass
    | .cpDebug => if s.tapOpen 1 then .cpDebug else .bypass
    | _ => .bypass
  { s with boot := { s.boot with tap := pick, cpHalted := pick == .cpDebug } }

/-! ### Reset and start (R21, R103, R504 to R506) -/

/-- The block cleared: what is left are the fuses, the queue, and the model's own counters and record. -/
def State.cleared (s : State) (boot : Boot) (power : Power) : State :=
  { fuses := s.fuses, kv := { draws := s.kv.draws }, boot := boot, power := power, freeCtr := s.freeCtr, out := s.out,
    pending := s.pending }

/-- RST_N_ASSERTED: everything volatile is cleared but the TAMPER_HELD latch; the levels of the two power inputs stay. -/
def State.rstAsserted (s : State) : State :=
  if s.boot.powered = false then s
  else s.cleared { tamperHeld := s.boot.tamperHeld, hasStarted := s.boot.hasStarted,
                   blockState := if s.boot.tamperHeld then .tamperHeld else .starting }
    { thermTrip := s.power.thermTrip && !s.power.tripCleared, alertOn := s.power.alertOn && !s.power.alertCleared,
      railAlert := s.power.railAlert }

/-- POWER_LOSS (R21). -/
def State.powerLost (s : State) : State := s.cleared { powered := false, hasStarted := s.boot.hasStarted } {}

/-- The bytes that the factory calibration's check covers (R391). -/
def calBytes (c : Calibration) : Bytes :=
  (List.range 4096).flatMap (fun i => le 2 (c.weights.getD i 0))
    ++ (List.range 17).flatMap (fun d => let e := c.leakage.getD d (0, 0, 0); le 4 e.1 ++ le 2 e.2.1 ++ le 2 e.2.2)
    ++ (List.range 96).flatMap (fun i => le 2 (twos 2 (c.thermal.getD i 0)))
    ++ (List.range 64).flatMap (fun i => le 2 (c.droop.getD i 0))
    ++ (List.range 400).flatMap (fun i => le 2 (c.vf.getD i 0))
    ++ (List.range 16).flatMap (fun i => le 2 (c.tileMargins.getD i 0))
    ++ (List.range 64).flatMap (fun i => le 1 (c.headrooms.getD i 0)) ++ zeros 48 ++ zeros 5224

/-- A fresh session nonce for every letterbox (R44). -/
def State.drawSessions (s : State) : State :=
  (List.range 64).foldl (fun s lb =>
    let (n, s) := s.draw 64
    s.modBox lb (fun b => { b with session := n, nextSeq := 1 })) s

/-- Step 6 of R506: VDD_AETHOK is set, and over PMBus the rails of R388, and the inputs latched before are acted on (R504). -/
def State.powerStart (s : State) : State :=
  let trip := s.power.thermTrip
  let alert := s.power.alertOn
  let rails := s.power.railAlert
  let cleared := s.power.tripCleared
  let lifted := s.power.alertCleared
  let s := [(2, 750), (3, 800), (4, 1100), (5, 900), (6, 900), (7, 1800)].foldl (fun s v => s.emit (.voltage v.1 v.2))
    (s.modPower (fun p => { p with running := true, thermTrip := false }))
  let s := if trip then s.tripOn.modPower (fun p => { p with tripCleared := cleared }) else s
  if alert then (s.alertAsserted rails).modPower (fun p => { p with alertOn := !lifted }) else s

/-- Drives MC_SCRUB_EN of every memory controller active, where it stays (R490). -/
def State.scrubOn (s : State) : State := (List.range 16).foldl (fun s n => s.emit (.mcScrubEn n true)) s

/-- START: steps 1 to 6 of R506; a start whose root generation is cut short ends in reset (R80). -/
def State.startUp (s : State) (i : StartInput) : State :=
  if s.boot.inReset = false then s
  else
    let held := s.boot.tamperHeld || i.tamper
    let s : State := { s with
      now := 0,
      boot := { s.boot with powered := true, inReset := false, hasStarted := true, locked := true, tamperHeld := held,
                            vddAuxOk := i.auxInRange, startedAt := 0, lifecycleRead := true, blockState := if held then .tamperHeld else .starting } }
    let r := s.scrubOn.statusChanged.lifecycleStart held i
    let s := r.2.selfTest i.kat
    if r.1 then r.2.rstAsserted
    else if s.dg.pairs.isEmpty then s.setBootCode 6
    else
      let s := s.calls (Config.bootRomCalls + shakeCalls 30) false
      let s := (s.extend 1 Config.bootRomDigest).extend 2
        (labelled "STATE" (enc [(1, s.life.inForce.code)] ++ le 8 s.fuses.policy ++ bytesOf s.fuses.serial))
      let s := if held then s else s.readSecrets
      let s := s.drawSessions
      let s := (s.calls (shakeCalls 14822) false).modPower (fun p => { p with
        calFault := decide (s.fuses.calibration.check ≠ labelled "PW-CAL" (calBytes s.fuses.calibration)) })
      let s := s.powerStart
      if s.boot.goLatched then s.fetchImage else s

end Machine
end Sys2Proof
end

