-- ==== Sys2Proof/Machine/Clock.lean ====
section
/-!
DEFINITION. Machine/Clock.lean: the moments at which the events that a clock brings are due, what an idle block does, and
what follows every command.

A timer's event says by its arrival that its moment has come: the postmark counter advances to it, and then the event acts
(DESIGN CHOICE, log 4).
-/

namespace Sys2Proof
namespace Machine

/-- The counter advances to a moment, if it has not passed it. -/
def State.reach (s : State) (t : Nat) : State := if s.live then { s with now := max s.now t } else s

/-- The counter advances to a moment that there may not be. -/
def State.reachOpt (s : State) (t : Option Nat) : State := match t with | some t => s.reach t | none => s

/-! ### When each timer is due -/

def State.permitDue (s : State) : Option Nat := s.att.permit.map (fun p => p.opened + p.lifetime * Config.ms)

def State.throttleDue (s : State) (lb : Nat) : Option Nat :=
  if (s.box lb).state = .throttled then some (s.box lb).throttledUntil else none

def State.gapDue (s : State) (lb : Nat) (q : BitVec 32) : Option Nat :=
  ((s.box lb).waiting.find? (fun k => k.packet.sequence == q)).map (fun k => k.since + Config.ms)

def State.quietDue (s : State) (link vector : Nat) : Option Nat :=
  if link * 512 + vector ∈ s.boot.msixDeferred then tget s.boot.msixQuiet (link * 512 + vector) else none

def State.placeDueAt (s : State) : Nat := s.sniby.lastDue + 25 * Config.us

def State.resendDue (s : State) (h peer : Nat) : Option Nat :=
  (s.assoc h peer).map (fun a => max a.dueAt (s.helloBar peer))

def State.handshakeDue (s : State) (h peer : Nat) : Option Nat :=
  match s.assoc h peer with
  | some a =>
    if a.state = .calling ∧ a.sends ≠ 0 ∧ a.deferred ≤ 1000 * Config.ms
    then some (if 8 ≤ a.sends then min a.dueAt (a.calledAt + 2 * Config.ms + a.deferred)
               else a.calledAt + 2 * Config.ms + a.deferred)
    else none
  | none => none

def State.attemptDue (s : State) (h peer : Nat) : Option Nat :=
  (s.assoc h peer).bind (fun a => a.answer.map (fun x => x.2.2.2.2 + 200 * Config.us))

def State.epochDue (s : State) (h peer : Nat) : Option Nat :=
  (s.assoc h peer).map (fun a => a.enteredAt + 60000 * Config.ms)

def State.drainDue (s : State) (h peer : Nat) : Option Nat :=
  (s.assoc h peer).bind (fun a => a.learnedAt.map (fun t => t + 200 * Config.us))

def State.spacingDue (s : State) (h peer : Nat) : Option Nat :=
  (s.assoc h peer).bind (fun a => a.lastStep.map (fun t => t + Config.ms))

def State.ratchetDue (s : State) (h peer : Nat) : Option Nat :=
  (s.assoc h peer).map (fun a => a.resendAt)

def State.ackDue (s : State) (h peer tc : Nat) : Option Nat :=
  let t := s.stream h peer tc
  if t.appliedRx ≠ t.acked ∧ 0 < t.stores then some (t.firstAt + 1000) else none

def State.retransmitDue (s : State) (id : Nat) : Option Nat :=
  (s.remote.reqs.find? (fun q => q.id == id)).map (fun q => q.accepted + (q.retries + 1) * q.timeout / 4)

/-- The moment at which a request, an operation on a tray, or a re-issued write reaches its T. -/
def State.deadDue (s : State) (id : Nat) : Option Nat :=
  let T (h : Nat) : Nat := (match s.job h with | some j => j.timeout | none => 20) * Config.us
  match s.remote.reqs.find? (fun q => q.id == id) with
  | some q => some (q.accepted + q.timeout)
  | none =>
    match s.mem.ops.find? (fun o => o.id == id) with
    | some o =>
      if (s.regionX o.region).pooled then
        some (match s.reqOf o.req with | some q => q.accepted + q.timeout | none => o.since + T (s.regionX o.region).handle)
      else none
    | none =>
      match s.mem.resume.find? (fun x => x.op == id) with
      | some x =>
        if x.suspended = true ∧ (s.region x.region).resumeOp.isNone then none
        else some (x.since + T (s.region x.region).handle)
      | none => none

def State.markerDue (s : State) (node id : Nat) : Option Nat :=
  (s.remote.markers.find? (fun m => m.id == id && m.node == node)).map (fun m => m.sentAt + 20 * Config.us)

def State.redirectDue (s : State) (h peer : Nat) : Option Nat :=
  (s.job h).bind (fun j => j.redirect.bind (fun r =>
    (r.peers.find? (fun p => p.1 == peer && p.2.1 != 15)).map (fun p => p.2.2)))

def State.deadlineDue (s : State) (n : Nat) : Option Nat :=
  if (s.desc n).state = .active then some ((s.desc n).activated + (s.desc n).deadline * Config.us) else none

def State.ageingDue (s : State) (id : Nat) : Option Nat :=
  (s.waitsSince id).map (fun t => t + 2 * Config.us)

def State.trackerDue (s : State) (island k : Nat) : Option Nat :=
  ((s.mem.trackers.filter (fun t => t.island == island))[k]?).map (fun t => t.at_ + 10 * Config.us)

def State.windowDue (s : State) (region sector : Nat) : Option Nat :=
  (s.wcEntry region sector).map (fun e => e.first + (s.region region).wcWindow * 4)

def State.releaseDue (s : State) (z : Nat) : Option Nat := (tget s.power.zones z).map (fun x => x.newest + 128)

def State.persistDue (s : State) (z : Nat) : Option Nat :=
  ((tget s.power.zones z).bind Zone.oldest).map (fun a => a.since + 10 * Config.us)

def State.sweepDue (s : State) : Option Nat := s.power.sweep.map (fun w => w.nextAt)

def State.leaseDue (s : State) : Option Nat := s.power.lease.map (fun l => l.ends)

def State.channelDue (s : State) (n : Nat) : Option Nat :=
  (soonest (s.issuedAt n)).map (fun t => t + 50 * Config.us)

def State.unitDue (s : State) (p : Nat) : Option Nat :=
  (s.runOf p).bind (fun r => if s.unitsRead r then some (r.unitAt + 4 * Config.us) else none)

def State.mailbagDue (s : State) (p : Nat) : Option Nat :=
  (s.runOf p).bind (fun r => if s.unitsRead r then some (r.readFrom + 30 * Config.ms) else none)

def State.probeDue (s : State) (p : Nat) : Option Nat :=
  (s.runOf p).bind (fun r => r.probeAt.map (fun t => t + 100 * Config.us))

def State.latchDue (s : State) : Option Nat := soonest (s.trace.snapAt.map (fun e => e.1))

def State.periodDue (s : State) : Option Nat :=
  let n := s.trace.session
  if n.writes = true ∧ n.period ≠ 0 then some n.nextLatch else none

def State.postmarkDue (s : State) : Option Nat :=
  let n := s.trace.session
  if n.trigKind = 3 ∧ n.fired = false ∧ (n.state = .armed ∨ n.state = .triggered) then some n.trigValue.toNat else none

def State.cardDue (s : State) : Option Nat := if s.fault.postcards then some s.fault.nextPostcard else none

/-! ### What follows every command -/

/-- Hands the requests that have finished over to the unit that asked for them, at most `n`. -/
def State.handOverAll : Nat → State → State
  | 0, s => s
  | n + 1, s =>
    match s.mem.finished with
    | [] => s
    | q :: rest =>
      let s : State := { s with mem := { s.mem with finished := rest } }
      State.handOverAll n (match q.origin with
        | .stream i => s.inboundDone i q
        | .env link h slot => s.envDone link h slot q
        | .zero op => s.zeroDone op q.failure
        | .chunk d c => s.chunkWritten d c q.failure.isSome
        | .probe p => s.probeDone p q
        | _ => s)

/-- What the block does of itself once a command has had its effect. -/
def State.settled (s : State) : State :=
  if s.live then
    ((((((((((s.handOverAll 256).probesEnd).parkedSettle.sealsEnd).walksEnd).passesRun).fencesSettle).redSettle).limitSettle).cyclesSettle).countersSettle).announceTrigger
  else s

/-- One unit of time on an idle block: closes that have drained end, moves and creations that waited for an entry go on, and TH
drains a record (DESIGN CHOICE, log 3). -/
def State.tick (s : State) : State :=
  if s.live then
    ((((((State.closesSettle { s with now := s.now + 1 }).moveHomes).callsSettle).windowsSettle).redirectsSettle).fenceCloses).drainStep.settled
  else s

end Machine
end Sys2Proof
end

