-- ==== Sys2Proof/Machine/Table.lean ====
section
/-!
DEFINITION. Machine/Table.lean: the opcodes of the letterbox commands (R61, R66 and the opcode tables of the chapters), and
how a command and an event are carried out.
-/

namespace Sys2Proof
namespace Machine

/-- Opcodes 0x01xx. -/
def handlers01 (low : Nat) : Option Handler :=
  match low with
  | 0 => some hNop
  | 1 => some hIdentify
  | 2 => some hRenewSession
  | 3 => some hSubscribe
  | 4 => some hReadDropCounts
  | 5 => some hCancelQueued
  | 6 => some hSetRootLink
  | _ => none

/-- Opcodes 0x02xx. -/
def handlers02 (low : Nat) : Option Handler :=
  match low with
  | 0 => some hLifecycleStatus
  | 1 => some hEnterTest
  | 2 => some hEnrolProduction
  | 3 => some hEnterEndOfLife
  | 4 => some hKeyVaultStatus
  | _ => none

/-- Opcodes 0x03xx. -/
def handlers03 (low : Nat) : Option Handler :=
  match low with
  | 0 => some hDigestStatus
  | 1 => some hAttest
  | 2 => some hReadMeasurements
  | 3 => some hNonce
  | 4 => some hPresentPermit
  | 5 => some hClosePermit
  | 6 => some hPermitStatus
  | _ => none

/-- Opcodes 0x04xx. -/
def handlers04 (low : Nat) : Option Handler :=
  match low with
  | 0 => some hAdmitJob
  | 1 => some hTeardownJob
  | 2 => some hResizeJob
  | 3 => some hJobStatus
  | 4 => some hCreatePartition
  | 5 => some hResizePartition
  | 6 => some hDestroyPartition
  | 7 => some hPartitionStatus
  | 8 => some hOpenContext
  | 9 => some hCloseContext
  | 10 => some hContextStatus
  | _ => none

/-- Opcodes 0x05xx. -/
def handlers05 (low : Nat) : Option Handler :=
  match low with
  | 0 => some hRegionStatus
  | 1 => some hSealRegion
  | 2 => some hSetWcWindow
  | 3 => some hZeroSectors
  | 4 => some hRetireKeyIndex
  | 5 => some hKeyIndexStatus
  | 6 => some hSectorCounts
  | _ => none

/-- Opcodes 0x06xx. -/
def handlers06 (low : Nat) : Option Handler :=
  match low with
  | 0 => some hTreeStatus
  | 1 => some hResetSubtree
  | 2 => some hStartCourier
  | 3 => some hCourierStatus
  | 4 => some hResumeRegion
  | 5 => some hTreeCounts
  | _ => none

/-- Opcodes 0x07xx. -/
def handlers07 (low : Nat) : Option Handler :=
  match low with
  | 0 => some hAssocStatus
  | 1 => some hEvictAssoc
  | 2 => some hRatchetNow
  | 3 => some hRevokePeer
  | 4 => some hRestorePeer
  | 5 => some hAssocCounts
  | 6 => some hEnvelopeStatus
  | _ => none

/-- Opcodes 0x08xx. -/
def handlers08 (low : Nat) : Option Handler :=
  match low with
  | 0 => some hSetNodeNumber
  | 1 => some hSetRoute
  | 2 => some hRouteStatus
  | 3 => some hOpenWindow
  | 4 => some hCloseWindow
  | 5 => some hWindowStatus
  | 6 => some hSetWindowOwner
  | 7 => some hRedirect
  | 8 => some hMapStatus
  | 9 => some hSetDeadTargetTimeout
  | 10 => some hOpenFence
  | 11 => some hCloseFence
  | 12 => some hArmFence
  | 13 => some hFenceStatus
  | 14 => some hRemoteCounts
  | _ => none

/-- Opcodes 0x09xx. -/
def handlers09 (low : Nat) : Option Handler :=
  match low with
  | 0 => some hActivateReduction
  | 1 => some hCancelReduction
  | 2 => some hReductionStatus
  | 3 => some hGroupStatus
  | 4 => some hReductionCounts
  | _ => none

/-- Opcodes 0x0Axx. -/
def handlers0A (low : Nat) : Option Handler :=
  match low with
  | 0 => some hMasterStatus
  | 1 => some hInternalStatus
  | 2 => some hRegulationCounts
  | _ => none

/-- Opcodes 0x0Bxx. -/
def handlers0B (low : Nat) : Option Handler :=
  match low with
  | 0 => some hPowerStatus
  | 1 => some hSetPowerLimits
  | 2 => some hSetRailLimits
  | 3 => some hGrantLease
  | 4 => some hReleaseLease
  | 5 => some hLoadUserCalibration
  | 6 => some hCalibrationStatus
  | 7 => some hSetFrequencyMode
  | 8 => some hSetThermalLimit
  | 9 => some hThrottleStatus
  | 10 => some hPowerSample
  | 11 => some hMarginSweep
  | 12 => some hMarginStatus
  | _ => none

/-- Opcodes 0x0Cxx. -/
def handlers0C (low : Nat) : Option Handler :=
  match low with
  | 0 => some hFaultStatus
  | 1 => some hHealthStatus
  | 2 => some hSetPostcards
  | 3 => some hSuspectList
  | 4 => some hWaitForGraph
  | 5 => some hSetMailbagBuffer
  | 6 => some hResetPartition
  | 7 => some hReplaySuspects
  | 8 => some hContextFaults
  | _ => none

/-- Opcodes 0x0Dxx. -/
def handlers0D (low : Nat) : Option Handler :=
  match low with
  | 0 => some hTimebaseStatus
  | 1 => some hTraceStart
  | 2 => some hTraceStop
  | 3 => some hTraceTrigger
  | 4 => some hTraceStatus
  | 5 => some hTraceMark
  | 6 => some hCounterSelect
  | 7 => some hCounterSnapshot
  | 8 => some hCounterRead
  | 9 => some hJobCounters
  | 10 => some hDeadLetterCounts
  | _ => none

/-- What serves an opcode; none is UNKNOWN_OPCODE (R13). -/
def handlerFor (op : Nat) : Option Handler :=
  match op / 256 with
  | 1 => handlers01 (op % 256)
  | 2 => handlers02 (op % 256)
  | 3 => handlers03 (op % 256)
  | 4 => handlers04 (op % 256)
  | 5 => handlers05 (op % 256)
  | 6 => handlers06 (op % 256)
  | 7 => handlers07 (op % 256)
  | 8 => handlers08 (op % 256)
  | 9 => handlers09 (op % 256)
  | 10 => handlers0A (op % 256)
  | 11 => handlers0B (op % 256)
  | 12 => handlers0C (op % 256)
  | 13 => handlers0D (op % 256)
  | _ => none

/-- A place of the poste restante is due now: the CP takes it ahead of letterbox 0 and the job letterboxes (R52, R508). -/
def State.takeDue (s : State) : State :=
  if s.placeWaits = true ∧ s.placeDueAt ≤ s.now then s.placeDue handlerFor else s

/-- The effect of a command or an event is complete: what the block does of itself follows, the held commands that it released
start (R59), a CP that runs again takes what waited for it (R52), and idle islands stop and wake (R456). -/
def State.ended (s : State) : State := ((State.finish handlerFor State.takeDue s.settled).wakes).waitMarks

/-- What the CP takes before a command of a letterbox: a due place, unless the letterbox is number 1 (R52). -/
def State.ahead (s : State) (lb : Nat) : State := if lb = 1 then s else s.takeDue

/-- What comes from a port: nothing while the port islands are not enabled (R505); else its logic is alive. -/
def State.atPort (s : State) (port : Nat) (f : State → State) : State :=
  if s.fabricTakes port then f (s.portAlive port) else s

/-- A Sniby packet arrives with an opcode in its header. -/
def State.packetArrives (s : State) (op lb : Nat) (via : Via) (p : Packet) : State :=
  match via with
  | .host _ => s.arrive handlerFor op lb via p
  | .fabric port _ => s.atPort port (fun s => s.arrive handlerFor op lb via p)

/-- A letterbox command. -/
def State.command (s : State) (op lb : Nat) (via : Via) (p : Packet) : Host.Outcome State Fault Refusal :=
  .next ((s.ahead lb).packetArrives op lb via p).ended

/-- KEY_DELIVERED (R99): the key of a request whose derivation has ended, or hit the cache.  An island whose cache has no place for the
schedule of a data key does not take it yet (R211; DESIGN CHOICE, log 54). -/
def State.keyDelivered (s : State) (id : Nat) : State :=
  match s.kv.requests.find? (fun r => r.id == id && r.ready) with
  | none => s
  | some r =>
    let taken : State := { s with kv := { s.kv with requests := s.kv.requests.filter (fun (x : KeyReq) => x.id != id) } }
    let taken := taken.keyHeldBy r.handle r.island
    match r.kind with
    | .data i g => if (s.scheduleRoom r.island).1 then (State.scheduleRoom taken r.island).2.dataKeyDelivered r i g
      else ((s.scheduleRoom r.island).2.runBacks).turn
    | .assoc peer _ => s.ratchetKeys r.handle peer
    | .reduce d => taken.reduceKeyDelivered r.handle d

end Machine
end Sys2Proof
end

