-- ==== Sys2Proof/Machine/Commands.lean ====
section
/-!
DEFINITION. Machine/Commands.lean: the letterbox commands, one meaning each: its packet arrives at its letterbox, and the
handler of its opcode in Machine/Table.lean serves it (R46).
-/

namespace Sys2Proof
namespace Machine

/-- NOP (R66). -/
def execNop (lb : Nat) (via : Via) (p : Packet) (s : State) : Host.Outcome State Fault Refusal :=
  s.command 0x0100 lb via p

/-- IDENTIFY (R67). -/
def execIdentify (lb : Nat) (via : Via) (p : Packet) (s : State) : Host.Outcome State Fault Refusal :=
  s.command 0x0101 lb via p

/-- RENEW_SESSION (R45). -/
def execRenewSession (lb : Nat) (via : Via) (p : Packet) (s : State) : Host.Outcome State Fault Refusal :=
  s.command 0x0102 lb via p

/-- SUBSCRIBE (R68). -/
def execSubscribe (lb : Nat) (via : Via) (p : Packet) (s : State) : Host.Outcome State Fault Refusal :=
  s.command 0x0103 lb via p

/-- READ_DROP_COUNTS (R69). -/
def execReadDropCounts (lb : Nat) (via : Via) (p : Packet) (s : State) : Host.Outcome State Fault Refusal :=
  s.command 0x0104 lb via p

/-- CANCEL_QUEUED (R70). -/
def execCancelQueued (lb : Nat) (via : Via) (p : Packet) (s : State) : Host.Outcome State Fault Refusal :=
  s.command 0x0105 lb via p

/-- SET_ROOT_LINK (R71). -/
def execSetRootLink (lb : Nat) (via : Via) (p : Packet) (s : State) : Host.Outcome State Fault Refusal :=
  s.command 0x0106 lb via p

/-- LIFECYCLE_STATUS (R93). -/
def execLifecycleStatus (lb : Nat) (via : Via) (p : Packet) (s : State) : Host.Outcome State Fault Refusal :=
  s.command 0x0200 lb via p

/-- ENTER_TEST (R88). -/
def execEnterTest (lb : Nat) (via : Via) (p : Packet) (s : State) : Host.Outcome State Fault Refusal :=
  s.command 0x0201 lb via p

/-- ENROL_PRODUCTION (R92). -/
def execEnrolProduction (lb : Nat) (via : Via) (p : Packet) (s : State) : Host.Outcome State Fault Refusal :=
  s.command 0x0202 lb via p

/-- ENTER_END_OF_LIFE (R88). -/
def execEnterEndOfLife (lb : Nat) (via : Via) (p : Packet) (s : State) : Host.Outcome State Fault Refusal :=
  s.command 0x0203 lb via p

/-- KEY_VAULT_STATUS (R94). -/
def execKeyVaultStatus (lb : Nat) (via : Via) (p : Packet) (s : State) : Host.Outcome State Fault Refusal :=
  s.command 0x0204 lb via p

/-- DIGEST_STATUS (R132). -/
def execDigestStatus (lb : Nat) (via : Via) (p : Packet) (s : State) : Host.Outcome State Fault Refusal :=
  s.command 0x0300 lb via p

/-- ATTEST (R124). -/
def execAttest (lb : Nat) (via : Via) (p : Packet) (s : State) : Host.Outcome State Fault Refusal :=
  s.command 0x0301 lb via p

/-- READ_MEASUREMENTS (R133). -/
def execReadMeasurements (lb : Nat) (via : Via) (p : Packet) (s : State) : Host.Outcome State Fault Refusal :=
  s.command 0x0302 lb via p

/-- NONCE (R119). -/
def execNonce (lb : Nat) (via : Via) (p : Packet) (s : State) : Host.Outcome State Fault Refusal :=
  s.command 0x0303 lb via p

/-- PRESENT_PERMIT (R129). -/
def execPresentPermit (lb : Nat) (via : Via) (p : Packet) (s : State) : Host.Outcome State Fault Refusal :=
  s.command 0x0304 lb via p

/-- CLOSE_PERMIT (R130). -/
def execClosePermit (lb : Nat) (via : Via) (p : Packet) (s : State) : Host.Outcome State Fault Refusal :=
  s.command 0x0305 lb via p

/-- PERMIT_STATUS (R131). -/
def execPermitStatus (lb : Nat) (via : Via) (p : Packet) (s : State) : Host.Outcome State Fault Refusal :=
  s.command 0x0306 lb via p

/-- ADMIT_JOB (R143). -/
def execAdmitJob (lb : Nat) (via : Via) (p : Packet) (s : State) : Host.Outcome State Fault Refusal :=
  s.command 0x0400 lb via p

/-- TEARDOWN_JOB (R153). -/
def execTeardownJob (lb : Nat) (via : Via) (p : Packet) (s : State) : Host.Outcome State Fault Refusal :=
  s.command 0x0401 lb via p

/-- RESIZE_JOB (R155). -/
def execResizeJob (lb : Nat) (via : Via) (p : Packet) (s : State) : Host.Outcome State Fault Refusal :=
  s.command 0x0402 lb via p

/-- JOB_STATUS (R157). -/
def execJobStatus (lb : Nat) (via : Via) (p : Packet) (s : State) : Host.Outcome State Fault Refusal :=
  s.command 0x0403 lb via p

/-- CREATE_PARTITION (R136). -/
def execCreatePartition (lb : Nat) (via : Via) (p : Packet) (s : State) : Host.Outcome State Fault Refusal :=
  s.command 0x0404 lb via p

/-- RESIZE_PARTITION (R137). -/
def execResizePartition (lb : Nat) (via : Via) (p : Packet) (s : State) : Host.Outcome State Fault Refusal :=
  s.command 0x0405 lb via p

/-- DESTROY_PARTITION (R136). -/
def execDestroyPartition (lb : Nat) (via : Via) (p : Packet) (s : State) : Host.Outcome State Fault Refusal :=
  s.command 0x0406 lb via p

/-- PARTITION_STATUS (R156). -/
def execPartitionStatus (lb : Nat) (via : Via) (p : Packet) (s : State) : Host.Outcome State Fault Refusal :=
  s.command 0x0407 lb via p

/-- OPEN_CONTEXT (R148). -/
def execOpenContext (lb : Nat) (via : Via) (p : Packet) (s : State) : Host.Outcome State Fault Refusal :=
  s.command 0x0408 lb via p

/-- CLOSE_CONTEXT (R151). -/
def execCloseContext (lb : Nat) (via : Via) (p : Packet) (s : State) : Host.Outcome State Fault Refusal :=
  s.command 0x0409 lb via p

/-- CONTEXT_STATUS (R156). -/
def execContextStatus (lb : Nat) (via : Via) (p : Packet) (s : State) : Host.Outcome State Fault Refusal :=
  s.command 0x040A lb via p

/-- REGION_STATUS (R195). -/
def execRegionStatus (lb : Nat) (via : Via) (p : Packet) (s : State) : Host.Outcome State Fault Refusal :=
  s.command 0x0500 lb via p

/-- SEAL_REGION (R196). -/
def execSealRegion (lb : Nat) (via : Via) (p : Packet) (s : State) : Host.Outcome State Fault Refusal :=
  s.command 0x0501 lb via p

/-- SET_WC_WINDOW (R194). -/
def execSetWcWindow (lb : Nat) (via : Via) (p : Packet) (s : State) : Host.Outcome State Fault Refusal :=
  s.command 0x0502 lb via p

/-- ZERO_SECTORS (R197). -/
def execZeroSectors (lb : Nat) (via : Via) (p : Packet) (s : State) : Host.Outcome State Fault Refusal :=
  s.command 0x0503 lb via p

/-- RETIRE_KEY_INDEX (R174). -/
def execRetireKeyIndex (lb : Nat) (via : Via) (p : Packet) (s : State) : Host.Outcome State Fault Refusal :=
  s.command 0x0504 lb via p

/-- KEY_INDEX_STATUS (R198). -/
def execKeyIndexStatus (lb : Nat) (via : Via) (p : Packet) (s : State) : Host.Outcome State Fault Refusal :=
  s.command 0x0505 lb via p

/-- SECTOR_COUNTS (R199). -/
def execSectorCounts (lb : Nat) (via : Via) (p : Packet) (s : State) : Host.Outcome State Fault Refusal :=
  s.command 0x0506 lb via p

/-- TREE_STATUS (R236). -/
def execTreeStatus (lb : Nat) (via : Via) (p : Packet) (s : State) : Host.Outcome State Fault Refusal :=
  s.command 0x0600 lb via p

/-- RESET_SUBTREE (R224). -/
def execResetSubtree (lb : Nat) (via : Via) (p : Packet) (s : State) : Host.Outcome State Fault Refusal :=
  s.command 0x0601 lb via p

/-- START_COURIER (R225). -/
def execStartCourier (lb : Nat) (via : Via) (p : Packet) (s : State) : Host.Outcome State Fault Refusal :=
  s.command 0x0602 lb via p

/-- COURIER_STATUS (R237). -/
def execCourierStatus (lb : Nat) (via : Via) (p : Packet) (s : State) : Host.Outcome State Fault Refusal :=
  s.command 0x0603 lb via p

/-- RESUME_REGION (R233). -/
def execResumeRegion (lb : Nat) (via : Via) (p : Packet) (s : State) : Host.Outcome State Fault Refusal :=
  s.command 0x0604 lb via p

/-- TREE_COUNTS (R238). -/
def execTreeCounts (lb : Nat) (via : Via) (p : Packet) (s : State) : Host.Outcome State Fault Refusal :=
  s.command 0x0605 lb via p

/-- ASSOC_STATUS (R283). -/
def execAssocStatus (lb : Nat) (via : Via) (p : Packet) (s : State) : Host.Outcome State Fault Refusal :=
  s.command 0x0700 lb via p

/-- EVICT_ASSOC (R267). -/
def execEvictAssoc (lb : Nat) (via : Via) (p : Packet) (s : State) : Host.Outcome State Fault Refusal :=
  s.command 0x0701 lb via p

/-- RATCHET_NOW (R259). -/
def execRatchetNow (lb : Nat) (via : Via) (p : Packet) (s : State) : Host.Outcome State Fault Refusal :=
  s.command 0x0702 lb via p

/-- REVOKE_PEER (R271). -/
def execRevokePeer (lb : Nat) (via : Via) (p : Packet) (s : State) : Host.Outcome State Fault Refusal :=
  s.command 0x0703 lb via p

/-- RESTORE_PEER (R271). -/
def execRestorePeer (lb : Nat) (via : Via) (p : Packet) (s : State) : Host.Outcome State Fault Refusal :=
  s.command 0x0704 lb via p

/-- ASSOC_COUNTS (R284). -/
def execAssocCounts (lb : Nat) (via : Via) (p : Packet) (s : State) : Host.Outcome State Fault Refusal :=
  s.command 0x0705 lb via p

/-- ENVELOPE_STATUS (R285). -/
def execEnvelopeStatus (lb : Nat) (via : Via) (p : Packet) (s : State) : Host.Outcome State Fault Refusal :=
  s.command 0x0706 lb via p

/-- SET_NODE_NUMBER (R288). -/
def execSetNodeNumber (lb : Nat) (via : Via) (p : Packet) (s : State) : Host.Outcome State Fault Refusal :=
  s.command 0x0800 lb via p

/-- SET_ROUTE (R290). -/
def execSetRoute (lb : Nat) (via : Via) (p : Packet) (s : State) : Host.Outcome State Fault Refusal :=
  s.command 0x0801 lb via p

/-- ROUTE_STATUS (R325). -/
def execRouteStatus (lb : Nat) (via : Via) (p : Packet) (s : State) : Host.Outcome State Fault Refusal :=
  s.command 0x0802 lb via p

/-- OPEN_WINDOW (R308). -/
def execOpenWindow (lb : Nat) (via : Via) (p : Packet) (s : State) : Host.Outcome State Fault Refusal :=
  s.command 0x0803 lb via p

/-- CLOSE_WINDOW (R320). -/
def execCloseWindow (lb : Nat) (via : Via) (p : Packet) (s : State) : Host.Outcome State Fault Refusal :=
  s.command 0x0804 lb via p

/-- WINDOW_STATUS (R325). -/
def execWindowStatus (lb : Nat) (via : Via) (p : Packet) (s : State) : Host.Outcome State Fault Refusal :=
  s.command 0x0805 lb via p

/-- SET_WINDOW_OWNER (R310). -/
def execSetWindowOwner (lb : Nat) (via : Via) (p : Packet) (s : State) : Host.Outcome State Fault Refusal :=
  s.command 0x0806 lb via p

/-- REDIRECT (R319). -/
def execRedirect (lb : Nat) (via : Via) (p : Packet) (s : State) : Host.Outcome State Fault Refusal :=
  s.command 0x0807 lb via p

/-- MAP_STATUS (R327). -/
def execMapStatus (lb : Nat) (via : Via) (p : Packet) (s : State) : Host.Outcome State Fault Refusal :=
  s.command 0x0808 lb via p

/-- SET_DEAD_TARGET_TIMEOUT (R306). -/
def execSetDeadTargetTimeout (lb : Nat) (via : Via) (p : Packet) (s : State) : Host.Outcome State Fault Refusal :=
  s.command 0x0809 lb via p

/-- OPEN_FENCE (R321). -/
def execOpenFence (lb : Nat) (via : Via) (p : Packet) (s : State) : Host.Outcome State Fault Refusal :=
  s.command 0x080A lb via p

/-- CLOSE_FENCE (R321). -/
def execCloseFence (lb : Nat) (via : Via) (p : Packet) (s : State) : Host.Outcome State Fault Refusal :=
  s.command 0x080B lb via p

/-- ARM_FENCE (R322). -/
def execArmFence (lb : Nat) (via : Via) (p : Packet) (s : State) : Host.Outcome State Fault Refusal :=
  s.command 0x080C lb via p

/-- FENCE_STATUS (R328). -/
def execFenceStatus (lb : Nat) (via : Via) (p : Packet) (s : State) : Host.Outcome State Fault Refusal :=
  s.command 0x080D lb via p

/-- REMOTE_COUNTS (R329). -/
def execRemoteCounts (lb : Nat) (via : Via) (p : Packet) (s : State) : Host.Outcome State Fault Refusal :=
  s.command 0x080E lb via p

/-- ACTIVATE_REDUCTION (R350). -/
def execActivateReduction (lb : Nat) (via : Via) (p : Packet) (s : State) : Host.Outcome State Fault Refusal :=
  s.command 0x0900 lb via p

/-- CANCEL_REDUCTION (R358). -/
def execCancelReduction (lb : Nat) (via : Via) (p : Packet) (s : State) : Host.Outcome State Fault Refusal :=
  s.command 0x0901 lb via p

/-- REDUCTION_STATUS (R363). -/
def execReductionStatus (lb : Nat) (via : Via) (p : Packet) (s : State) : Host.Outcome State Fault Refusal :=
  s.command 0x0902 lb via p

/-- GROUP_STATUS (R364). -/
def execGroupStatus (lb : Nat) (via : Via) (p : Packet) (s : State) : Host.Outcome State Fault Refusal :=
  s.command 0x0903 lb via p

/-- REDUCTION_COUNTS (R365). -/
def execReductionCounts (lb : Nat) (via : Via) (p : Packet) (s : State) : Host.Outcome State Fault Refusal :=
  s.command 0x0904 lb via p

/-- MASTER_STATUS (R382). -/
def execMasterStatus (lb : Nat) (via : Via) (p : Packet) (s : State) : Host.Outcome State Fault Refusal :=
  s.command 0x0A00 lb via p

/-- INTERNAL_STATUS (R381). -/
def execInternalStatus (lb : Nat) (via : Via) (p : Packet) (s : State) : Host.Outcome State Fault Refusal :=
  s.command 0x0A01 lb via p

/-- REGULATION_COUNTS (R383). -/
def execRegulationCounts (lb : Nat) (via : Via) (p : Packet) (s : State) : Host.Outcome State Fault Refusal :=
  s.command 0x0A02 lb via p

/-- POWER_STATUS (R413). -/
def execPowerStatus (lb : Nat) (via : Via) (p : Packet) (s : State) : Host.Outcome State Fault Refusal :=
  s.command 0x0B00 lb via p

/-- SET_POWER_LIMITS (R398). -/
def execSetPowerLimits (lb : Nat) (via : Via) (p : Packet) (s : State) : Host.Outcome State Fault Refusal :=
  s.command 0x0B01 lb via p

/-- SET_RAIL_LIMITS (R412). -/
def execSetRailLimits (lb : Nat) (via : Via) (p : Packet) (s : State) : Host.Outcome State Fault Refusal :=
  s.command 0x0B02 lb via p

/-- GRANT_LEASE (R399). -/
def execGrantLease (lb : Nat) (via : Via) (p : Packet) (s : State) : Host.Outcome State Fault Refusal :=
  s.command 0x0B03 lb via p

/-- RELEASE_LEASE (R400). -/
def execReleaseLease (lb : Nat) (via : Via) (p : Packet) (s : State) : Host.Outcome State Fault Refusal :=
  s.command 0x0B04 lb via p

/-- LOAD_USER_CALIBRATION (R393). -/
def execLoadUserCalibration (lb : Nat) (via : Via) (p : Packet) (s : State) : Host.Outcome State Fault Refusal :=
  s.command 0x0B05 lb via p

/-- CALIBRATION_STATUS (R412). -/
def execCalibrationStatus (lb : Nat) (via : Via) (p : Packet) (s : State) : Host.Outcome State Fault Refusal :=
  s.command 0x0B06 lb via p

/-- SET_FREQUENCY_MODE (R408). -/
def execSetFrequencyMode (lb : Nat) (via : Via) (p : Packet) (s : State) : Host.Outcome State Fault Refusal :=
  s.command 0x0B07 lb via p

/-- SET_THERMAL_LIMIT (R405). -/
def execSetThermalLimit (lb : Nat) (via : Via) (p : Packet) (s : State) : Host.Outcome State Fault Refusal :=
  s.command 0x0B08 lb via p

/-- THROTTLE_STATUS (R415). -/
def execThrottleStatus (lb : Nat) (via : Via) (p : Packet) (s : State) : Host.Outcome State Fault Refusal :=
  s.command 0x0B09 lb via p

/-- POWER_SAMPLE (R414). -/
def execPowerSample (lb : Nat) (via : Via) (p : Packet) (s : State) : Host.Outcome State Fault Refusal :=
  s.command 0x0B0A lb via p

/-- MARGIN_SWEEP (R411). -/
def execMarginSweep (lb : Nat) (via : Via) (p : Packet) (s : State) : Host.Outcome State Fault Refusal :=
  s.command 0x0B0B lb via p

/-- MARGIN_STATUS (R412). -/
def execMarginStatus (lb : Nat) (via : Via) (p : Packet) (s : State) : Host.Outcome State Fault Refusal :=
  s.command 0x0B0C lb via p

/-- FAULT_STATUS (R450). -/
def execFaultStatus (lb : Nat) (via : Via) (p : Packet) (s : State) : Host.Outcome State Fault Refusal :=
  s.command 0x0C00 lb via p

/-- HEALTH_STATUS (R451). -/
def execHealthStatus (lb : Nat) (via : Via) (p : Packet) (s : State) : Host.Outcome State Fault Refusal :=
  s.command 0x0C01 lb via p

/-- SET_POSTCARDS (R431). -/
def execSetPostcards (lb : Nat) (via : Via) (p : Packet) (s : State) : Host.Outcome State Fault Refusal :=
  s.command 0x0C02 lb via p

/-- SUSPECT_LIST (R449). -/
def execSuspectList (lb : Nat) (via : Via) (p : Packet) (s : State) : Host.Outcome State Fault Refusal :=
  s.command 0x0C03 lb via p

/-- WAIT_FOR_GRAPH_SNAPSHOT (R436). -/
def execWaitForGraphSnapshot (lb : Nat) (via : Via) (p : Packet) (s : State) : Host.Outcome State Fault Refusal :=
  s.command 0x0C04 lb via p

/-- WAIT_FOR_GRAPH_READ (R436). -/
def execWaitForGraphRead (lb : Nat) (via : Via) (p : Packet) (s : State) : Host.Outcome State Fault Refusal :=
  s.command 0x0C04 lb via p

/-- SET_MAILBAG_BUFFER (R443). -/
def execSetMailbagBuffer (lb : Nat) (via : Via) (p : Packet) (s : State) : Host.Outcome State Fault Refusal :=
  s.command 0x0C05 lb via p

/-- RESET_PARTITION (R440). -/
def execResetPartition (lb : Nat) (via : Via) (p : Packet) (s : State) : Host.Outcome State Fault Refusal :=
  s.command 0x0C06 lb via p

/-- REPLAY_SUSPECTS (R442). -/
def execReplaySuspects (lb : Nat) (via : Via) (p : Packet) (s : State) : Host.Outcome State Fault Refusal :=
  s.command 0x0C07 lb via p

/-- CONTEXT_FAULTS (R449). -/
def execContextFaults (lb : Nat) (via : Via) (p : Packet) (s : State) : Host.Outcome State Fault Refusal :=
  s.command 0x0C08 lb via p

/-- TIMEBASE_STATUS (R479). -/
def execTimebaseStatus (lb : Nat) (via : Via) (p : Packet) (s : State) : Host.Outcome State Fault Refusal :=
  s.command 0x0D00 lb via p

/-- TRACE_START (R465). -/
def execTraceStart (lb : Nat) (via : Via) (p : Packet) (s : State) : Host.Outcome State Fault Refusal :=
  s.command 0x0D01 lb via p

/-- TRACE_STOP (R464). -/
def execTraceStop (lb : Nat) (via : Via) (p : Packet) (s : State) : Host.Outcome State Fault Refusal :=
  s.command 0x0D02 lb via p

/-- TRACE_TRIGGER (R470). -/
def execTraceTrigger (lb : Nat) (via : Via) (p : Packet) (s : State) : Host.Outcome State Fault Refusal :=
  s.command 0x0D03 lb via p

/-- TRACE_STATUS (R480). -/
def execTraceStatus (lb : Nat) (via : Via) (p : Packet) (s : State) : Host.Outcome State Fault Refusal :=
  s.command 0x0D04 lb via p

/-- TRACE_MARK (R478). -/
def execTraceMark (lb : Nat) (via : Via) (p : Packet) (s : State) : Host.Outcome State Fault Refusal :=
  s.command 0x0D05 lb via p

/-- COUNTER_SELECT (R472). -/
def execCounterSelect (lb : Nat) (via : Via) (p : Packet) (s : State) : Host.Outcome State Fault Refusal :=
  s.command 0x0D06 lb via p

/-- COUNTER_SNAPSHOT (R474). -/
def execCounterSnapshot (lb : Nat) (via : Via) (p : Packet) (s : State) : Host.Outcome State Fault Refusal :=
  s.command 0x0D07 lb via p

/-- COUNTER_READ (R481). -/
def execCounterRead (lb : Nat) (via : Via) (p : Packet) (s : State) : Host.Outcome State Fault Refusal :=
  s.command 0x0D08 lb via p

/-- JOB_COUNTERS (R476). -/
def execJobCounters (lb : Nat) (via : Via) (p : Packet) (s : State) : Host.Outcome State Fault Refusal :=
  s.command 0x0D09 lb via p

/-- DEAD_LETTER_COUNTS (R483). -/
def execDeadLetterCounts (lb : Nat) (via : Via) (p : Packet) (s : State) : Host.Outcome State Fault Refusal :=
  s.command 0x0D0A lb via p

/-- UNDEFINED_OPCODE (R13): the opcode is an operand, and no table of a chapter lists it. -/
def execUndefinedOpcode (opcode : BitVec 16) (lb : Nat) (via : Via) (p : Packet) (s : State) :
    Host.Outcome State Fault Refusal :=
  s.command opcode.toNat lb via p

end Machine
end Sys2Proof
end

