-- ==== Sys2Proof/Machine/Events.lean ====
section
/-!
DEFINITION. Machine/Events.lean: what comes from the block's partners, its pins and its clocks, one meaning each.
-/

namespace Sys2Proof
namespace Machine

/-- LIFECYCLE_TRANSITION_PROGRESS (R88). -/
def execLifecycleTransitionProgress (fails : BitVec 64) (slotOk : Bool) (s : State) : Host.Outcome State Fault Refusal :=
  .next (s.transitionProgress fails slotOk).ended

/-- PERMIT_EXPIRED (R130). -/
def execPermitExpired (s : State) : Host.Outcome State Fault Refusal :=
  .next ((s.reachOpt s.permitDue).expirePermit).ended

/-- ADMISSION_PROGRESS (R144). -/
def execAdmissionProgress (handle : Nat) (ok : Bool) (s : State) : Host.Outcome State Fault Refusal :=
  .next (s.admissionProgress handle ok).ended

/-- JOB_TEARDOWN_PROGRESS (R153). -/
def execJobTeardownProgress (handle : Nat) (s : State) : Host.Outcome State Fault Refusal :=
  .next (s.teardownProgress handle).ended

/-- PARTITION_RESIZE_PROGRESS (R137). -/
def execPartitionResizeProgress (part : Nat) (s : State) : Host.Outcome State Fault Refusal :=
  .next (s.partitionResizeProgress part).ended

/-- CONTEXT_CLOSE_PROGRESS (R151). -/
def execContextCloseProgress (ctx : Nat) (s : State) : Host.Outcome State Fault Refusal :=
  .next (s.closeProgress ctx).ended

/-- RETIREMENT_PROGRESS (R174). -/
def execRetirementProgress (handle index : Nat) (s : State) : Host.Outcome State Fault Refusal :=
  .next (s.retirementProgress handle index).ended

/-- REDIRECT_WAIT_TIMEOUT (R319). -/
def execRedirectWaitTimeout (handle peer : Nat) (s : State) : Host.Outcome State Fault Refusal :=
  .next ((s.reachOpt (s.redirectDue handle peer)).redirectTimeout handle peer).ended

/-- MARGIN_SWEEP_STEP (R411). -/
def execMarginSweepStep (tile : Nat) (alarm : Bool) (s : State) : Host.Outcome State Fault Refusal :=
  .next ((s.reachOpt s.sweepDue).sweepStep tile alarm).ended

/-- PARTITION_RESET_PROGRESS (R440). -/
def execPartitionResetProgress (part : Nat) (ev : ResetEvent) (s : State) : Host.Outcome State Fault Refusal :=
  .next (s.resetProgress part ev).ended

/-- SUSPECT_PROBE_TIMEOUT (R441). -/
def execSuspectProbeTimeout (part : Nat) (s : State) : Host.Outcome State Fault Refusal :=
  .next ((s.reachOpt (s.probeDue part)).probeTimeout part).ended

/-- UNIT_READ_TIMEOUT (R448). -/
def execUnitReadTimeout (part : Nat) (s : State) : Host.Outcome State Fault Refusal :=
  .next ((s.reachOpt (s.unitDue part)).unitReadTimeout part).ended

/-- MAILBAG_DEADLINE (R448). -/
def execMailbagDeadline (part : Nat) (s : State) : Host.Outcome State Fault Refusal :=
  .next ((s.reachOpt (s.mailbagDue part)).mailbagDeadline part).ended

/-- THROTTLE_END (R38). -/
def execThrottleEnd (lb : Nat) (s : State) : Host.Outcome State Fault Refusal :=
  .next ((s.reachOpt (s.throttleDue lb)).throttleEnd lb).ended

/-- FABRIC_PACKET_GAP_TIMEOUT (R63). -/
def execFabricPacketGapTimeout (lb : Nat) (sequence : BitVec 32) (s : State) : Host.Outcome State Fault Refusal :=
  .next ((s.reachOpt (s.gapDue lb sequence)).gapTimeout lb sequence).ended

/-- MANAGEMENT_LINK_ACK (R63). -/
def execManagementLinkAck (lb noticeSeq : Nat) (s : State) : Host.Outcome State Fault Refusal :=
  .next (s.linkAck lb noticeSeq).ended

/-- POSTE_RESTANTE_PLACE_DUE (R508). -/
def execPosteRestantePlaceDue (s : State) : Host.Outcome State Fault Refusal :=
  .next ((s.reach s.placeDueAt).placeDue handlerFor).ended

/-- MSIX_QUIET_END (R64). -/
def execMsixQuietEnd (link vector : Nat) (s : State) : Host.Outcome State Fault Refusal :=
  .next ((s.reachOpt (s.quietDue link vector)).quietEnd link vector).ended

/-- LBX_CONTROL_WRITE (R35). -/
def execLbxControlWrite (link lb : Nat) (value : BitVec 64) (s : State) : Host.Outcome State Fault Refusal :=
  .next (if link ∈ s.boot.hostUp then s.lbxControl link lb value.toNat else s).ended

/-- ENV_CONTROL_WRITE (R274). -/
def execEnvControlWrite (link handle : Nat) (value : BitVec 64) (s : State) : Host.Outcome State Fault Refusal :=
  .next (if link ∈ s.boot.hostUp then s.envControl link handle value.toNat else s).ended

/-- REGISTER_WRITE (R34). -/
def execRegisterWrite (link offset : Nat) (value : BitVec 64) (s : State) : Host.Outcome State Fault Refusal :=
  .next (s.registerWrite link offset value.toNat).ended

/-- ENVELOPE_TO_DEVICE (R277). -/
def execEnvelopeToDevice (link handle : Nat) (d : EnvDesc) (page : Bytes) (s : State) : Host.Outcome State Fault Refusal :=
  .next (s.envelopeTo 1 link handle d page).ended

/-- ENVELOPE_TO_HOST (R277). -/
def execEnvelopeToHost (link handle : Nat) (d : EnvDesc) (s : State) : Host.Outcome State Fault Refusal :=
  .next (s.envelopeTo 2 link handle d []).ended

/-- FW_LOAD_GO (R495). -/
def execFwLoadGo (link : Nat) (value : BitVec 64) (s : State) : Host.Outcome State Fault Refusal :=
  .next (s.fwControl link value.toNat).ended

/-- FIRMWARE_IMAGE_FETCHED (R113). -/
def execFirmwareImageFetched (image : FwImage) (s : State) : Host.Outcome State Fault Refusal :=
  .next (s.imageFetched image).ended

/-- BAR2_READ (R493). -/
def execBar2Read (link : Nat) (offset : BitVec 64) (length tag : Nat) (s : State) : Host.Outcome State Fault Refusal :=
  .next (s.barReadMem link offset.toNat length tag).ended

/-- BAR2_WRITE (R493). -/
def execBar2Write (link : Nat) (offset : BitVec 64) (data : Bytes) (s : State) : Host.Outcome State Fault Refusal :=
  .next (s.barWriteMem link offset.toNat data).ended

/-- TILE_READ (R163). -/
def execTileRead (tile : Nat) (h : TileHead) (s : State) : Host.Outcome State Fault Refusal :=
  .next (s.tileAccess 1 tile h [] []).ended

/-- TILE_WRITE (R177). -/
def execTileWrite (tile : Nat) (h : TileHead) (data : Bytes) (mask : List Bool) (laneFault : Bool) (s : State) : Host.Outcome State Fault Refusal :=
  .next ((s.verifyLane laneFault).tileAccess 2 tile h data mask).ended

/-- TILE_ATOMIC (R311). -/
def execTileAtomic (tile : Nat) (h : TileHead) (s : State) : Host.Outcome State Fault Refusal :=
  .next (s.tileAccess 3 tile h [] []).ended

/-- TILE_FENCE (R322). -/
def execTileFence (tile : Nat) (h : TileHead) (s : State) : Host.Outcome State Fault Refusal :=
  .next (s.tileFenceAsk tile h).ended

/-- REDUCE_CONTRIBUTE (R351). -/
def execReduceContribute (tile : Nat) (h : TileHead) (image : Bytes) (s : State) : Host.Outcome State Fault Refusal :=
  .next (s.contributeAsk tile h image).ended

/-- KEY_DELIVERED (R99). -/
def execKeyDelivered (request : Nat) (laneFault : Bool) (s : State) : Host.Outcome State Fault Refusal :=
  .next ((s.verifyLane laneFault).keyDelivered request).ended

/-- MEMORY_READ_DATA (R164). -/
def execMemoryReadData (stack op : Nat) (d : SectorData) (laneFault : Bool) (s : State) : Host.Outcome State Fault Refusal :=
  .next ((s.verifyLane laneFault).memoryData stack op d).ended

/-- MEMORY_WRITE_ACCEPTED (R30). -/
def execMemoryWriteAccepted (stack op : Nat) (s : State) : Host.Outcome State Fault Refusal :=
  .next (s.memoryAccepted stack op).ended

/-- METADATA_FETCH_RETURN (R214). -/
def execMetadataFetchReturn (island fetch : Nat) (bytes : Bytes) (ue laneFault : Bool) (s : State) :
    Host.Outcome State Fault Refusal :=
  .next ((s.verifyLane laneFault).metaReturn (island % 64) fetch bytes ue (decide (64 ≤ island))).ended

/-- STREAM_TRACKER_EXPIRED (R218). -/
def execStreamTrackerExpired (island tracker : Nat) (s : State) : Host.Outcome State Fault Refusal :=
  .next ((s.reachOpt (s.trackerDue island tracker)).trackerExpired island tracker).ended

/-- WC_WINDOW_EXPIRED (R179). -/
def execWcWindowExpired (island region sector : Nat) (s : State) : Host.Outcome State Fault Refusal :=
  .next ((s.reachOpt (s.windowDue region sector)).windowExpired island region sector).ended

/-- LEAF_WRAP (R220). -/
def execLeafWrap (island region leaf : Nat) (sectors : List SectorData) (laneFault : Bool) (s : State) : Host.Outcome State Fault Refusal :=
  .next ((s.verifyLane laneFault).leafWrap island region leaf sectors).ended

/-- COURIER_PASS_START (R227). -/
def execCourierPassStart (s : State) : Host.Outcome State Fault Refusal :=
  .next s.passStart.ended

/-- COURIER_STEP (R229). -/
def execCourierStep (region : Nat) (d : SectorData) (laneFault : Bool) (s : State) : Host.Outcome State Fault Refusal :=
  .next ((s.verifyLane laneFault).courierStep region d).ended

/-- TRAY_READ_DATA (R189). -/
def execTrayReadData (port op : Nat) (d : SectorData) (laneFault : Bool) (s : State) : Host.Outcome State Fault Refusal :=
  .next ((s.verifyLane laneFault).atPort port (fun s => s.trayData port op d)).ended

/-- TRAY_WRITE_ACK (R189). -/
def execTrayWriteAck (port op : Nat) (s : State) : Host.Outcome State Fault Refusal :=
  .next (s.atPort (port % 32) (fun s => s.trayAck (port % 32) (port / 32) op)).ended

/-- HELLO_RECEIVED (R249). -/
def execHelloReceived (port : Nat) (p : MsgPacket) (s : State) : Host.Outcome State Fault Refusal :=
  .next (s.atPort port (fun s => s.message port p)).ended

/-- ACCEPT_RECEIVED (R248). -/
def execAcceptReceived (port : Nat) (p : MsgPacket) (s : State) : Host.Outcome State Fault Refusal :=
  .next (s.atPort port (fun s => s.message port p)).ended

/-- CONFIRM_RECEIVED (R249). -/
def execConfirmReceived (port : Nat) (p : MsgPacket) (s : State) : Host.Outcome State Fault Refusal :=
  .next (s.atPort port (fun s => s.message port p)).ended

/-- REFUSE_RECEIVED (R248). -/
def execRefuseReceived (port : Nat) (p : MsgPacket) (s : State) : Host.Outcome State Fault Refusal :=
  .next (s.atPort port (fun s => s.message port p)).ended

/-- HELLO_RESEND_TIMER (R248). -/
def execHelloResendTimer (job peer : Nat) (s : State) : Host.Outcome State Fault Refusal :=
  .next ((s.reachOpt (s.resendDue job peer)).helloResend job peer).ended

/-- HANDSHAKE_TIMEOUT (R248). -/
def execHandshakeTimeout (job peer : Nat) (s : State) : Host.Outcome State Fault Refusal :=
  .next ((s.reachOpt (s.handshakeDue job peer)).handshakeTimeout job peer).ended

/-- ANSWERED_ATTEMPT_EXPIRED (R249). -/
def execAnsweredAttemptExpired (job peer : Nat) (s : State) : Host.Outcome State Fault Refusal :=
  .next ((s.reachOpt (s.attemptDue job peer)).attemptExpired job peer).ended

/-- RATCHET_RECEIVED (R260). -/
def execRatchetReceived (port : Nat) (p : MsgPacket) (s : State) : Host.Outcome State Fault Refusal :=
  .next (s.atPort port (fun s => s.message port p)).ended

/-- RATCHET_EPOCH_TIMER (R259). -/
def execRatchetEpochTimer (job peer : Nat) (s : State) : Host.Outcome State Fault Refusal :=
  .next ((s.reachOpt (s.epochDue job peer)).epochTimer job peer).ended

/-- RATCHET_KEYS_READY (R260). -/
def execRatchetKeysReady (job peer : Nat) (laneFault : Bool) (s : State) : Host.Outcome State Fault Refusal :=
  .next ((s.verifyLane laneFault).ratchetKeys job peer).ended

/-- RATCHET_RESEND_TIMER (R260). -/
def execRatchetResendTimer (job peer : Nat) (s : State) : Host.Outcome State Fault Refusal :=
  .next ((s.reachOpt (s.ratchetDue job peer)).ratchetResend job peer).ended

/-- EPOCH_DRAIN_TIMER (R261). -/
def execEpochDrainTimer (job peer : Nat) (s : State) : Host.Outcome State Fault Refusal :=
  .next ((s.reachOpt (s.drainDue job peer)).drainTimer job peer).ended

/-- REMOTE_LOAD (R309). -/
def execRemoteLoad (port : Nat) (p : MsgPacket) (s : State) : Host.Outcome State Fault Refusal :=
  .next (s.atPort port (fun s => s.message port p)).ended

/-- REMOTE_STORE (R309). -/
def execRemoteStore (port : Nat) (p : MsgPacket) (laneFault : Bool) (s : State) : Host.Outcome State Fault Refusal :=
  .next ((s.verifyLane laneFault).atPort port (fun s => s.message port p)).ended

/-- REMOTE_ATOMIC (R315). -/
def execRemoteAtomic (port : Nat) (p : MsgPacket) (s : State) : Host.Outcome State Fault Refusal :=
  .next (s.atPort port (fun s => s.message port p)).ended

/-- DRAIN_MARKER (R292). -/
def execDrainMarker (port : Nat) (p : MsgPacket) (s : State) : Host.Outcome State Fault Refusal :=
  .next (s.atPort port (fun s => s.message port p)).ended

/-- REDIRECT_RECEIVED (R319). -/
def execRedirectReceived (port : Nat) (p : MsgPacket) (s : State) : Host.Outcome State Fault Refusal :=
  .next (s.atPort port (fun s => s.message port p)).ended

/-- REDIRECT_ACK (R319). -/
def execRedirectAck (port : Nat) (p : MsgPacket) (s : State) : Host.Outcome State Fault Refusal :=
  .next (s.atPort port (fun s => s.message port p)).ended

/-- LOAD_RESPONSE (R301). -/
def execLoadResponse (port : Nat) (p : MsgPacket) (s : State) : Host.Outcome State Fault Refusal :=
  .next (s.atPort port (fun s => s.message port p)).ended

/-- STORE_ACK (R301). -/
def execStoreAck (port : Nat) (p : MsgPacket) (s : State) : Host.Outcome State Fault Refusal :=
  .next (s.atPort port (fun s => s.message port p)).ended

/-- ATOMIC_RESPONSE (R315). -/
def execAtomicResponse (port : Nat) (p : MsgPacket) (s : State) : Host.Outcome State Fault Refusal :=
  .next (s.atPort port (fun s => s.message port p)).ended

/-- DRAIN_ACK (R290). -/
def execDrainAck (port : Nat) (p : MsgPacket) (s : State) : Host.Outcome State Fault Refusal :=
  .next (s.atPort port (fun s => s.message port p)).ended

/-- STORE_NAK (R301). -/
def execStoreNak (port : Nat) (p : MsgPacket) (s : State) : Host.Outcome State Fault Refusal :=
  .next (s.atPort port (fun s => s.message port p)).ended

/-- TRAY_DRAIN_ANSWER (R292). -/
def execTrayDrainAnswer (port : Nat) (m : TrayMarker) (s : State) : Host.Outcome State Fault Refusal :=
  .next (s.atPort port (fun s => s.trayDrainAnswer m)).ended

/-- DRAIN_MARKER_TIMEOUT (R290). -/
def execDrainMarkerTimeout (node marker : Nat) (s : State) : Host.Outcome State Fault Refusal :=
  .next ((s.reachOpt (s.markerDue node marker)).markerTimeout node marker).ended

/-- STORE_ACK_TIMER (R300). -/
def execStoreAckTimer (job peer tc : Nat) (s : State) : Host.Outcome State Fault Refusal :=
  .next ((s.reachOpt (s.ackDue job peer tc)).ackTimer job peer tc).ended

/-- RETRANSMIT_TIMER (R303). -/
def execRetransmitTimer (request : Nat) (s : State) : Host.Outcome State Fault Refusal :=
  .next ((s.reachOpt (s.retransmitDue request)).retransmit request).ended

/-- DEAD_TARGET_TIMEOUT (R304). -/
def execDeadTargetTimeout (request : Nat) (s : State) : Host.Outcome State Fault Refusal :=
  .next ((s.reachOpt (s.deadDue request)).deadTimeout request).ended

/-- REDUCTION_PACKET_RECEIVED (R352). -/
def execReductionPacketReceived (port : Nat) (p : RedPacket) (s : State) : Host.Outcome State Fault Refusal :=
  .next (s.atPort port (fun s => s.reductionPacket port p)).ended

/-- REDUCTION_DEADLINE (R355). -/
def execReductionDeadline (descriptor : Nat) (s : State) : Host.Outcome State Fault Refusal :=
  .next ((s.reachOpt (s.deadlineDue descriptor)).redDeadline descriptor).ended

/-- SLOT_BOUNDARY (R25). -/
def execSlotBoundary (port : Nat) (laneFault : Bool) (s : State) : Host.Outcome State Fault Refusal :=
  .next ((s.verifyLane laneFault).slotBoundary port).ended

/-- MASKING_SLOT_CUT (R377). -/
def execMaskingSlotCut (port : Nat) (s : State) : Host.Outcome State Fault Refusal :=
  .next (s.slotCut port).ended

/-- AGEING_TIMER (R371). -/
def execAgeingTimer (request : Nat) (s : State) : Host.Outcome State Fault Refusal :=
  .next ((s.reachOpt (s.ageingDue request)).ageing request).ended

/-- BOOST_UPDATE (R375). -/
def execBoostUpdate (s : State) : Host.Outcome State Fault Refusal :=
  .next ((s.reach (s.reg.boostAt + Config.us)).boostUpdate).ended

/-- GUARANTEE_WINDOW (R384). -/
def execGuaranteeWindow (s : State) : Host.Outcome State Fault Refusal :=
  .next ((s.reach (s.reg.windowAt + 10 * Config.us)).guaranteeWindow).ended

/-- POWER_INTERVAL (R389). -/
def execPowerInterval (counts : List (Nat × Nat)) (s : State) : Host.Outcome State Fault Refusal :=
  .next ((s.reach (s.power.intervalAt + 2 * Config.us)).powerInterval counts).ended

/-- VOLTAGE_REACHED (R386). -/
def execVoltageReached (rail : Nat) (s : State) : Host.Outcome State Fault Refusal :=
  .next (s.voltageReached rail).ended

/-- RAIL_POLL (R388). -/
def execRailPoll (rail : Nat) (answer : Option Telemetry) (s : State) : Host.Outcome State Fault Refusal :=
  .next ((s.reach ((s.rail rail).polledAt + 100 * Config.us)).railPoll rail answer).ended

/-- THERMAL_READ (R404). -/
def execThermalRead (readings : List (Option Int)) (s : State) : Host.Outcome State Fault Refusal :=
  .next ((s.reach (s.power.thermalAt + 20 * Config.us)).thermalRead readings).ended

/-- MARGIN_COMPUTE (R410). -/
def execMarginCompute (lowest : List Nat) (s : State) : Host.Outcome State Fault Refusal :=
  .next ((s.reach (s.power.marginAt + Config.ms)).marginCompute lowest).ended

/-- HEALTH_UPDATE (R428). -/
def execHealthUpdate (s : State) : Host.Outcome State Fault Refusal :=
  .next ((s.reach (s.fault.healthAt + Config.ms)).healthUpdate).ended

/-- LINK_MARGIN_REPORT (R427). -/
def execLinkMarginReport (port margin : Nat) (s : State) : Host.Outcome State Fault Refusal :=
  .next (s.marginReport port margin).ended

/-- DROOP_ALARM (R402). -/
def execDroopAlarm (detector : Nat) (s : State) : Host.Outcome State Fault Refusal :=
  .next (s.droopAlarm detector).ended

/-- STRETCH_RELEASE (R402). -/
def execStretchRelease (zone : Nat) (s : State) : Host.Outcome State Fault Refusal :=
  .next ((s.reachOpt (s.releaseDue zone)).stretchRelease zone).ended

/-- DROOP_PERSISTENT (R403). -/
def execDroopPersistent (zone : Nat) (s : State) : Host.Outcome State Fault Refusal :=
  .next ((s.reachOpt (s.persistDue zone)).droopPersistent zone).ended

/-- LEASE_LAPSED (R400). -/
def execLeaseLapsed (s : State) : Host.Outcome State Fault Refusal :=
  .next ((s.reachOpt s.leaseDue).leaseLapsed).ended

/-- THERM_TRIP_ASSERTED (R406). -/
def execThermTripAsserted (s : State) : Host.Outcome State Fault Refusal :=
  .next s.tripOn.ended

/-- THERM_TRIP_DEASSERTED (R406). -/
def execThermTripDeasserted (s : State) : Host.Outcome State Fault Refusal :=
  .next s.tripOff.ended

/-- PWR_ALERT_ASSERTED (R406). -/
def execPwrAlertAsserted (alerting : List Nat) (s : State) : Host.Outcome State Fault Refusal :=
  .next (s.alertAsserted alerting).ended

/-- PWR_ALERT_DEASSERTED (R406). -/
def execPwrAlertDeasserted (s : State) : Host.Outcome State Fault Refusal :=
  .next s.alertDeasserted.ended

/-- TAMPER (R102). -/
def execTamper (s : State) : Host.Outcome State Fault Refusal :=
  .next s.tamper.ended

/-- RST_N_ASSERTED (R505). -/
def execRstNAsserted (s : State) : Host.Outcome State Fault Refusal :=
  .next s.rstAsserted.ended

/-- START (R506). -/
def execStart (i : StartInput) (s : State) : Host.Outcome State Fault Refusal :=
  .next (s.startUp i).ended

/-- POWER_LOSS (R21). -/
def execPowerLoss (s : State) : Host.Outcome State Fault Refusal :=
  .next s.powerLost.ended

/-- FUSE_SUPPLY_OUT_OF_RANGE (R502). -/
def execFuseSupplyOutOfRange (s : State) : Host.Outcome State Fault Refusal :=
  .next s.fuseSupplyLost.ended

/-- REFCLK_LOST (R500). -/
def execRefclkLost (s : State) : Host.Outcome State Fault Refusal :=
  .next s.clockLost.ended

/-- MC_READY (R490). -/
def execMcReady (stack : Nat) (s : State) : Host.Outcome State Fault Refusal :=
  .next (s.mcReady stack).ended

/-- MC_READY_DEADLINE (R507). -/
def execMcReadyDeadline (stack : Nat) (s : State) : Host.Outcome State Fault Refusal :=
  .next ((s.reach (s.boot.startedAt + 1000 * Config.ms)).mcDeadline stack).ended

/-- FABRIC_LINK_DOWN (R491). -/
def execFabricLinkDown (port : Nat) (s : State) : Host.Outcome State Fault Refusal :=
  .next (s.fabricDown port).ended

/-- FABRIC_LINK_UP (R491). -/
def execFabricLinkUp (port : Nat) (s : State) : Host.Outcome State Fault Refusal :=
  .next (s.fabricUp port).ended

/-- HOST_LINK_DOWN (R497). -/
def execHostLinkDown (link : Nat) (s : State) : Host.Outcome State Fault Refusal :=
  .next (s.hostDown link).ended

/-- HOST_LINK_TRAINED (R497). -/
def execHostLinkTrained (link : Nat) (s : State) : Host.Outcome State Fault Refusal :=
  .next (s.hostTrained link).ended

/-- MEMORY_CHANNEL_WATCHDOG (R424). -/
def execMemoryChannelWatchdog (stack : Nat) (s : State) : Host.Outcome State Fault Refusal :=
  .next ((s.reachOpt (s.channelDue stack)).memoryWatchdog stack).ended

/-- PORT_LOGIC_WATCHDOG (R423). -/
def execPortLogicWatchdog (port : Nat) (s : State) : Host.Outcome State Fault Refusal :=
  .next (s.portWatchdog port).ended

/-- TILE_CROSSBAR_WATCHDOG (R423). -/
def execTileCrossbarWatchdog (tile : Nat) (s : State) : Host.Outcome State Fault Refusal :=
  .next (s.tileWatchdog tile).ended

/-- HOST_LINK_WATCHDOG (R423). -/
def execHostLinkWatchdog (link : Nat) (s : State) : Host.Outcome State Fault Refusal :=
  .next (s.hostWatchdog link).ended

/-- DIGEST_WATCHDOG (R423). -/
def execDigestWatchdog (pair : Nat) (kat : List Bool) (s : State) : Host.Outcome State Fault Refusal :=
  .next (s.digestWatchdog pair kat).ended

/-- CP_WATCHDOG (R425). -/
def execCpWatchdog (s : State) : Host.Outcome State Fault Refusal :=
  .next s.cpWatchdog.ended

/-- DIGEST_CALL_END (R107). -/
def execDigestCallEnd (pair : Nat) (equal : Bool) (kat : List Bool) (s : State) : Host.Outcome State Fault Refusal :=
  .next (s.callEnd pair equal kat).ended

/-- POSTCARD_TIMER (R431). -/
def execPostcardTimer (s : State) : Host.Outcome State Fault Refusal :=
  .next ((s.reachOpt s.cardDue).postcardTimer).ended

/-- POSTCARD_ACK_RECEIVED (R431). -/
def execPostcardAckReceived (a : PostcardAck) (s : State) : Host.Outcome State Fault Refusal :=
  .next (s.postcardAck a).ended

/-- TRACE_CONSUMED_POLL (R467). -/
def execTraceConsumedPoll (consumed : Nat) (s : State) : Host.Outcome State Fault Refusal :=
  .next ((s.reach (s.trace.session.pollAt + 10 * Config.us)).consumedPoll consumed).ended

/-- TRACE_POSTMARK_TRIGGER (R470). -/
def execTracePostmarkTrigger (s : State) : Host.Outcome State Fault Refusal :=
  .next ((s.reachOpt s.postmarkDue).postmarkTrigger).ended

/-- TRACE_DRAIN_EMPTY (R464). -/
def execTraceDrainEmpty (s : State) : Host.Outcome State Fault Refusal :=
  .next s.drainEmpty.ended

/-- COUNTER_SNAPSHOT_LATCH (R474). -/
def execCounterSnapshotLatch (s : State) : Host.Outcome State Fault Refusal :=
  .next ((s.reachOpt s.latchDue).snapshotLatch).ended

/-- COUNTER_PERIOD_LATCH (R474). -/
def execCounterPeriodLatch (s : State) : Host.Outcome State Fault Refusal :=
  .next ((s.reachOpt s.periodDue).periodLatch).ended

/-- TAP_INSTRUCTION (R501). -/
def execTapInstruction (i : TapInstr) (s : State) : Host.Outcome State Fault Refusal :=
  .next (s.tapInstruction i).ended

/-- LBX_DOORBELL_WRITE (R36). -/
def execLbxDoorbellWrite (link lb : Nat) (value : BitVec 64) (s : State) : Host.Outcome State Fault Refusal :=
  .next (if link ∈ s.boot.hostUp then s.lbxDoorbell link lb value.toNat else s).ended

/-- RATCHET_SPACING_ELAPSED (R259). -/
def execRatchetSpacingElapsed (job peer : Nat) (s : State) : Host.Outcome State Fault Refusal :=
  .next ((s.reachOpt (s.spacingDue job peer)).spacingElapsed job peer).ended

end Machine
end Sys2Proof
end

