-- ==== Sys2Proof/Machine/Dispatch.lean ====
section
/-!
DEFINITION. Machine/Dispatch.lean: which meaning each command has.
-/

namespace Sys2Proof
namespace Machine

def exec (i : Instr) (s : State) : Host.Outcome State Fault Refusal :=
  match i with
  | .nop lb via p => Sys2Proof.Machine.execNop lb via p s
  | .identify lb via p => Sys2Proof.Machine.execIdentify lb via p s
  | .renewSession lb via p => Sys2Proof.Machine.execRenewSession lb via p s
  | .subscribe lb via p => Sys2Proof.Machine.execSubscribe lb via p s
  | .readDropCounts lb via p => Sys2Proof.Machine.execReadDropCounts lb via p s
  | .cancelQueued lb via p => Sys2Proof.Machine.execCancelQueued lb via p s
  | .setRootLink lb via p => Sys2Proof.Machine.execSetRootLink lb via p s
  | .lifecycleStatus lb via p => Sys2Proof.Machine.execLifecycleStatus lb via p s
  | .enterTest lb via p => Sys2Proof.Machine.execEnterTest lb via p s
  | .enrolProduction lb via p => Sys2Proof.Machine.execEnrolProduction lb via p s
  | .enterEndOfLife lb via p => Sys2Proof.Machine.execEnterEndOfLife lb via p s
  | .keyVaultStatus lb via p => Sys2Proof.Machine.execKeyVaultStatus lb via p s
  | .lifecycleTransitionProgress fails slotOk => Sys2Proof.Machine.execLifecycleTransitionProgress fails slotOk s
  | .digestStatus lb via p => Sys2Proof.Machine.execDigestStatus lb via p s
  | .attest lb via p => Sys2Proof.Machine.execAttest lb via p s
  | .readMeasurements lb via p => Sys2Proof.Machine.execReadMeasurements lb via p s
  | .nonce lb via p => Sys2Proof.Machine.execNonce lb via p s
  | .presentPermit lb via p => Sys2Proof.Machine.execPresentPermit lb via p s
  | .closePermit lb via p => Sys2Proof.Machine.execClosePermit lb via p s
  | .permitStatus lb via p => Sys2Proof.Machine.execPermitStatus lb via p s
  | .permitExpired => Sys2Proof.Machine.execPermitExpired s
  | .admitJob lb via p => Sys2Proof.Machine.execAdmitJob lb via p s
  | .admissionProgress handle ok => Sys2Proof.Machine.execAdmissionProgress handle ok s
  | .teardownJob lb via p => Sys2Proof.Machine.execTeardownJob lb via p s
  | .jobTeardownProgress handle => Sys2Proof.Machine.execJobTeardownProgress handle s
  | .resizeJob lb via p => Sys2Proof.Machine.execResizeJob lb via p s
  | .jobStatus lb via p => Sys2Proof.Machine.execJobStatus lb via p s
  | .createPartition lb via p => Sys2Proof.Machine.execCreatePartition lb via p s
  | .resizePartition lb via p => Sys2Proof.Machine.execResizePartition lb via p s
  | .partitionResizeProgress part => Sys2Proof.Machine.execPartitionResizeProgress part s
  | .destroyPartition lb via p => Sys2Proof.Machine.execDestroyPartition lb via p s
  | .partitionStatus lb via p => Sys2Proof.Machine.execPartitionStatus lb via p s
  | .openContext lb via p => Sys2Proof.Machine.execOpenContext lb via p s
  | .closeContext lb via p => Sys2Proof.Machine.execCloseContext lb via p s
  | .contextCloseProgress ctx => Sys2Proof.Machine.execContextCloseProgress ctx s
  | .contextStatus lb via p => Sys2Proof.Machine.execContextStatus lb via p s
  | .regionStatus lb via p => Sys2Proof.Machine.execRegionStatus lb via p s
  | .sealRegion lb via p => Sys2Proof.Machine.execSealRegion lb via p s
  | .setWcWindow lb via p => Sys2Proof.Machine.execSetWcWindow lb via p s
  | .zeroSectors lb via p => Sys2Proof.Machine.execZeroSectors lb via p s
  | .retireKeyIndex lb via p => Sys2Proof.Machine.execRetireKeyIndex lb via p s
  | .retirementProgress handle index => Sys2Proof.Machine.execRetirementProgress handle index s
  | .keyIndexStatus lb via p => Sys2Proof.Machine.execKeyIndexStatus lb via p s
  | .sectorCounts lb via p => Sys2Proof.Machine.execSectorCounts lb via p s
  | .treeStatus lb via p => Sys2Proof.Machine.execTreeStatus lb via p s
  | .resetSubtree lb via p => Sys2Proof.Machine.execResetSubtree lb via p s
  | .startCourier lb via p => Sys2Proof.Machine.execStartCourier lb via p s
  | .courierStatus lb via p => Sys2Proof.Machine.execCourierStatus lb via p s
  | .resumeRegion lb via p => Sys2Proof.Machine.execResumeRegion lb via p s
  | .treeCounts lb via p => Sys2Proof.Machine.execTreeCounts lb via p s
  | .assocStatus lb via p => Sys2Proof.Machine.execAssocStatus lb via p s
  | .evictAssoc lb via p => Sys2Proof.Machine.execEvictAssoc lb via p s
  | .ratchetNow lb via p => Sys2Proof.Machine.execRatchetNow lb via p s
  | .revokePeer lb via p => Sys2Proof.Machine.execRevokePeer lb via p s
  | .restorePeer lb via p => Sys2Proof.Machine.execRestorePeer lb via p s
  | .assocCounts lb via p => Sys2Proof.Machine.execAssocCounts lb via p s
  | .envelopeStatus lb via p => Sys2Proof.Machine.execEnvelopeStatus lb via p s
  | .setNodeNumber lb via p => Sys2Proof.Machine.execSetNodeNumber lb via p s
  | .setRoute lb via p => Sys2Proof.Machine.execSetRoute lb via p s
  | .routeStatus lb via p => Sys2Proof.Machine.execRouteStatus lb via p s
  | .openWindow lb via p => Sys2Proof.Machine.execOpenWindow lb via p s
  | .closeWindow lb via p => Sys2Proof.Machine.execCloseWindow lb via p s
  | .windowStatus lb via p => Sys2Proof.Machine.execWindowStatus lb via p s
  | .setWindowOwner lb via p => Sys2Proof.Machine.execSetWindowOwner lb via p s
  | .redirect lb via p => Sys2Proof.Machine.execRedirect lb via p s
  | .redirectWaitTimeout handle peer => Sys2Proof.Machine.execRedirectWaitTimeout handle peer s
  | .mapStatus lb via p => Sys2Proof.Machine.execMapStatus lb via p s
  | .setDeadTargetTimeout lb via p => Sys2Proof.Machine.execSetDeadTargetTimeout lb via p s
  | .openFence lb via p => Sys2Proof.Machine.execOpenFence lb via p s
  | .closeFence lb via p => Sys2Proof.Machine.execCloseFence lb via p s
  | .armFence lb via p => Sys2Proof.Machine.execArmFence lb via p s
  | .fenceStatus lb via p => Sys2Proof.Machine.execFenceStatus lb via p s
  | .remoteCounts lb via p => Sys2Proof.Machine.execRemoteCounts lb via p s
  | .activateReduction lb via p => Sys2Proof.Machine.execActivateReduction lb via p s
  | .cancelReduction lb via p => Sys2Proof.Machine.execCancelReduction lb via p s
  | .reductionStatus lb via p => Sys2Proof.Machine.execReductionStatus lb via p s
  | .groupStatus lb via p => Sys2Proof.Machine.execGroupStatus lb via p s
  | .reductionCounts lb via p => Sys2Proof.Machine.execReductionCounts lb via p s
  | .masterStatus lb via p => Sys2Proof.Machine.execMasterStatus lb via p s
  | .internalStatus lb via p => Sys2Proof.Machine.execInternalStatus lb via p s
  | .regulationCounts lb via p => Sys2Proof.Machine.execRegulationCounts lb via p s
  | .powerStatus lb via p => Sys2Proof.Machine.execPowerStatus lb via p s
  | .setPowerLimits lb via p => Sys2Proof.Machine.execSetPowerLimits lb via p s
  | .setRailLimits lb via p => Sys2Proof.Machine.execSetRailLimits lb via p s
  | .grantLease lb via p => Sys2Proof.Machine.execGrantLease lb via p s
  | .releaseLease lb via p => Sys2Proof.Machine.execReleaseLease lb via p s
  | .loadUserCalibration lb via p => Sys2Proof.Machine.execLoadUserCalibration lb via p s
  | .calibrationStatus lb via p => Sys2Proof.Machine.execCalibrationStatus lb via p s
  | .setFrequencyMode lb via p => Sys2Proof.Machine.execSetFrequencyMode lb via p s
  | .setThermalLimit lb via p => Sys2Proof.Machine.execSetThermalLimit lb via p s
  | .throttleStatus lb via p => Sys2Proof.Machine.execThrottleStatus lb via p s
  | .powerSample lb via p => Sys2Proof.Machine.execPowerSample lb via p s
  | .marginSweep lb via p => Sys2Proof.Machine.execMarginSweep lb via p s
  | .marginSweepStep tile alarm => Sys2Proof.Machine.execMarginSweepStep tile alarm s
  | .marginStatus lb via p => Sys2Proof.Machine.execMarginStatus lb via p s
  | .faultStatus lb via p => Sys2Proof.Machine.execFaultStatus lb via p s
  | .healthStatus lb via p => Sys2Proof.Machine.execHealthStatus lb via p s
  | .setPostcards lb via p => Sys2Proof.Machine.execSetPostcards lb via p s
  | .suspectList lb via p => Sys2Proof.Machine.execSuspectList lb via p s
  | .waitForGraphSnapshot lb via p => Sys2Proof.Machine.execWaitForGraphSnapshot lb via p s
  | .waitForGraphRead lb via p => Sys2Proof.Machine.execWaitForGraphRead lb via p s
  | .setMailbagBuffer lb via p => Sys2Proof.Machine.execSetMailbagBuffer lb via p s
  | .resetPartition lb via p => Sys2Proof.Machine.execResetPartition lb via p s
  | .partitionResetProgress part ev => Sys2Proof.Machine.execPartitionResetProgress part ev s
  | .suspectProbeTimeout part => Sys2Proof.Machine.execSuspectProbeTimeout part s
  | .unitReadTimeout part => Sys2Proof.Machine.execUnitReadTimeout part s
  | .mailbagDeadline part => Sys2Proof.Machine.execMailbagDeadline part s
  | .replaySuspects lb via p => Sys2Proof.Machine.execReplaySuspects lb via p s
  | .contextFaults lb via p => Sys2Proof.Machine.execContextFaults lb via p s
  | .timebaseStatus lb via p => Sys2Proof.Machine.execTimebaseStatus lb via p s
  | .traceStart lb via p => Sys2Proof.Machine.execTraceStart lb via p s
  | .traceStop lb via p => Sys2Proof.Machine.execTraceStop lb via p s
  | .traceTrigger lb via p => Sys2Proof.Machine.execTraceTrigger lb via p s
  | .traceStatus lb via p => Sys2Proof.Machine.execTraceStatus lb via p s
  | .traceMark lb via p => Sys2Proof.Machine.execTraceMark lb via p s
  | .counterSelect lb via p => Sys2Proof.Machine.execCounterSelect lb via p s
  | .counterSnapshot lb via p => Sys2Proof.Machine.execCounterSnapshot lb via p s
  | .counterRead lb via p => Sys2Proof.Machine.execCounterRead lb via p s
  | .jobCounters lb via p => Sys2Proof.Machine.execJobCounters lb via p s
  | .deadLetterCounts lb via p => Sys2Proof.Machine.execDeadLetterCounts lb via p s
  | .throttleEnd lb => Sys2Proof.Machine.execThrottleEnd lb s
  | .fabricPacketGapTimeout lb sequence => Sys2Proof.Machine.execFabricPacketGapTimeout lb sequence s
  | .managementLinkAck lb noticeSeq => Sys2Proof.Machine.execManagementLinkAck lb noticeSeq s
  | .posteRestantePlaceDue => Sys2Proof.Machine.execPosteRestantePlaceDue s
  | .msixQuietEnd link vector => Sys2Proof.Machine.execMsixQuietEnd link vector s
  | .lbxControlWrite link lb value => Sys2Proof.Machine.execLbxControlWrite link lb value s
  | .envControlWrite link handle value => Sys2Proof.Machine.execEnvControlWrite link handle value s
  | .registerWrite link offset value => Sys2Proof.Machine.execRegisterWrite link offset value s
  | .envelopeToDevice link handle d page => Sys2Proof.Machine.execEnvelopeToDevice link handle d page s
  | .envelopeToHost link handle d => Sys2Proof.Machine.execEnvelopeToHost link handle d s
  | .fwLoadGo link value => Sys2Proof.Machine.execFwLoadGo link value s
  | .firmwareImageFetched image => Sys2Proof.Machine.execFirmwareImageFetched image s
  | .bar2Read link offset length tag => Sys2Proof.Machine.execBar2Read link offset length tag s
  | .bar2Write link offset data => Sys2Proof.Machine.execBar2Write link offset data s
  | .tileRead tile h => Sys2Proof.Machine.execTileRead tile h s
  | .tileWrite tile h data mask laneFault => Sys2Proof.Machine.execTileWrite tile h data mask laneFault s
  | .tileAtomic tile h => Sys2Proof.Machine.execTileAtomic tile h s
  | .tileFence tile h => Sys2Proof.Machine.execTileFence tile h s
  | .reduceContribute tile h image => Sys2Proof.Machine.execReduceContribute tile h image s
  | .keyDelivered request laneFault => Sys2Proof.Machine.execKeyDelivered request laneFault s
  | .memoryReadData stack op d laneFault => Sys2Proof.Machine.execMemoryReadData stack op d laneFault s
  | .memoryWriteAccepted stack op => Sys2Proof.Machine.execMemoryWriteAccepted stack op s
  | .metadataFetchReturn island fetch bytes ue laneFault => Sys2Proof.Machine.execMetadataFetchReturn island fetch bytes ue laneFault s
  | .streamTrackerExpired island tracker => Sys2Proof.Machine.execStreamTrackerExpired island tracker s
  | .wcWindowExpired island region sector => Sys2Proof.Machine.execWcWindowExpired island region sector s
  | .leafWrap island region leaf sectors laneFault => Sys2Proof.Machine.execLeafWrap island region leaf sectors laneFault s
  | .courierPassStart => Sys2Proof.Machine.execCourierPassStart s
  | .courierStep region d laneFault => Sys2Proof.Machine.execCourierStep region d laneFault s
  | .trayReadData port op d laneFault => Sys2Proof.Machine.execTrayReadData port op d laneFault s
  | .trayWriteAck port op => Sys2Proof.Machine.execTrayWriteAck port op s
  | .helloReceived port p => Sys2Proof.Machine.execHelloReceived port p s
  | .acceptReceived port p => Sys2Proof.Machine.execAcceptReceived port p s
  | .confirmReceived port p => Sys2Proof.Machine.execConfirmReceived port p s
  | .refuseReceived port p => Sys2Proof.Machine.execRefuseReceived port p s
  | .helloResendTimer job peer => Sys2Proof.Machine.execHelloResendTimer job peer s
  | .handshakeTimeout job peer => Sys2Proof.Machine.execHandshakeTimeout job peer s
  | .answeredAttemptExpired job peer => Sys2Proof.Machine.execAnsweredAttemptExpired job peer s
  | .ratchetReceived port p => Sys2Proof.Machine.execRatchetReceived port p s
  | .ratchetEpochTimer job peer => Sys2Proof.Machine.execRatchetEpochTimer job peer s
  | .ratchetKeysReady job peer laneFault => Sys2Proof.Machine.execRatchetKeysReady job peer laneFault s
  | .ratchetResendTimer job peer => Sys2Proof.Machine.execRatchetResendTimer job peer s
  | .epochDrainTimer job peer => Sys2Proof.Machine.execEpochDrainTimer job peer s
  | .remoteLoad port p => Sys2Proof.Machine.execRemoteLoad port p s
  | .remoteStore port p laneFault => Sys2Proof.Machine.execRemoteStore port p laneFault s
  | .remoteAtomic port p => Sys2Proof.Machine.execRemoteAtomic port p s
  | .drainMarker port p => Sys2Proof.Machine.execDrainMarker port p s
  | .redirectReceived port p => Sys2Proof.Machine.execRedirectReceived port p s
  | .redirectAck port p => Sys2Proof.Machine.execRedirectAck port p s
  | .loadResponse port p => Sys2Proof.Machine.execLoadResponse port p s
  | .storeAck port p => Sys2Proof.Machine.execStoreAck port p s
  | .atomicResponse port p => Sys2Proof.Machine.execAtomicResponse port p s
  | .drainAck port p => Sys2Proof.Machine.execDrainAck port p s
  | .storeNak port p => Sys2Proof.Machine.execStoreNak port p s
  | .trayDrainAnswer port m => Sys2Proof.Machine.execTrayDrainAnswer port m s
  | .drainMarkerTimeout node marker => Sys2Proof.Machine.execDrainMarkerTimeout node marker s
  | .storeAckTimer job peer tc => Sys2Proof.Machine.execStoreAckTimer job peer tc s
  | .retransmitTimer request => Sys2Proof.Machine.execRetransmitTimer request s
  | .deadTargetTimeout request => Sys2Proof.Machine.execDeadTargetTimeout request s
  | .reductionPacketReceived port p => Sys2Proof.Machine.execReductionPacketReceived port p s
  | .reductionDeadline descriptor => Sys2Proof.Machine.execReductionDeadline descriptor s
  | .slotBoundary port laneFault => Sys2Proof.Machine.execSlotBoundary port laneFault s
  | .maskingSlotCut port => Sys2Proof.Machine.execMaskingSlotCut port s
  | .ageingTimer request => Sys2Proof.Machine.execAgeingTimer request s
  | .boostUpdate => Sys2Proof.Machine.execBoostUpdate s
  | .guaranteeWindow => Sys2Proof.Machine.execGuaranteeWindow s
  | .powerInterval counts => Sys2Proof.Machine.execPowerInterval counts s
  | .voltageReached rail => Sys2Proof.Machine.execVoltageReached rail s
  | .railPoll rail answer => Sys2Proof.Machine.execRailPoll rail answer s
  | .thermalRead readings => Sys2Proof.Machine.execThermalRead readings s
  | .marginCompute lowest => Sys2Proof.Machine.execMarginCompute lowest s
  | .healthUpdate => Sys2Proof.Machine.execHealthUpdate s
  | .linkMarginReport port margin => Sys2Proof.Machine.execLinkMarginReport port margin s
  | .droopAlarm detector => Sys2Proof.Machine.execDroopAlarm detector s
  | .stretchRelease zone => Sys2Proof.Machine.execStretchRelease zone s
  | .droopPersistent zone => Sys2Proof.Machine.execDroopPersistent zone s
  | .leaseLapsed => Sys2Proof.Machine.execLeaseLapsed s
  | .thermTripAsserted => Sys2Proof.Machine.execThermTripAsserted s
  | .thermTripDeasserted => Sys2Proof.Machine.execThermTripDeasserted s
  | .pwrAlertAsserted alerting => Sys2Proof.Machine.execPwrAlertAsserted alerting s
  | .pwrAlertDeasserted => Sys2Proof.Machine.execPwrAlertDeasserted s
  | .tamper => Sys2Proof.Machine.execTamper s
  | .rstNAsserted => Sys2Proof.Machine.execRstNAsserted s
  | .start inp => Sys2Proof.Machine.execStart inp s
  | .powerLoss => Sys2Proof.Machine.execPowerLoss s
  | .fuseSupplyOutOfRange => Sys2Proof.Machine.execFuseSupplyOutOfRange s
  | .refclkLost => Sys2Proof.Machine.execRefclkLost s
  | .mcReady stack => Sys2Proof.Machine.execMcReady stack s
  | .mcReadyDeadline stack => Sys2Proof.Machine.execMcReadyDeadline stack s
  | .fabricLinkDown port => Sys2Proof.Machine.execFabricLinkDown port s
  | .fabricLinkUp port => Sys2Proof.Machine.execFabricLinkUp port s
  | .hostLinkDown link => Sys2Proof.Machine.execHostLinkDown link s
  | .hostLinkTrained link => Sys2Proof.Machine.execHostLinkTrained link s
  | .memoryChannelWatchdog stack => Sys2Proof.Machine.execMemoryChannelWatchdog stack s
  | .portLogicWatchdog port => Sys2Proof.Machine.execPortLogicWatchdog port s
  | .tileCrossbarWatchdog tile => Sys2Proof.Machine.execTileCrossbarWatchdog tile s
  | .hostLinkWatchdog link => Sys2Proof.Machine.execHostLinkWatchdog link s
  | .digestWatchdog pair kat => Sys2Proof.Machine.execDigestWatchdog pair kat s
  | .cpWatchdog => Sys2Proof.Machine.execCpWatchdog s
  | .digestCallEnd pair equal kat => Sys2Proof.Machine.execDigestCallEnd pair equal kat s
  | .postcardTimer => Sys2Proof.Machine.execPostcardTimer s
  | .postcardAckReceived a => Sys2Proof.Machine.execPostcardAckReceived a s
  | .traceConsumedPoll consumed => Sys2Proof.Machine.execTraceConsumedPoll consumed s
  | .tracePostmarkTrigger => Sys2Proof.Machine.execTracePostmarkTrigger s
  | .traceDrainEmpty => Sys2Proof.Machine.execTraceDrainEmpty s
  | .counterSnapshotLatch => Sys2Proof.Machine.execCounterSnapshotLatch s
  | .counterPeriodLatch => Sys2Proof.Machine.execCounterPeriodLatch s
  | .tapInstruction inp => Sys2Proof.Machine.execTapInstruction inp s
  | .undefinedOpcode opcode lb via p => Sys2Proof.Machine.execUndefinedOpcode opcode lb via p s
  | .lbxDoorbellWrite link lb value => Sys2Proof.Machine.execLbxDoorbellWrite link lb value s
  | .ratchetSpacingElapsed job peer => Sys2Proof.Machine.execRatchetSpacingElapsed job peer s

end Machine
end Sys2Proof
end

