-- ==== Sys2Proof/Safety.lean ====
section
/-!
DEFINITION. Safety.lean: what the claims mean by a state in order, by keys that are gone, and by what a command leaves alone.
-/

namespace Sys2Proof
namespace Machine

/-- Every table of the block is in the one form that a table of given entries has: its numbers strictly rising. -/
def State.tablesSorted (s : State) : Bool :=
  tsorted s.boot.msixTable && tsorted s.boot.msixQuiet && tsorted s.kv.roots && tsorted s.kv.jobRoots && tsorted s.kv.lbxKeys
    && tsorted s.sniby.boxes && tsorted s.sniby.nodePorts && tsorted s.assocs.noHello && tsorted s.parts && tsorted s.jobs
    && s.jobs.all (fun e => tsorted e.2.keyTable && tsorted e.2.pastRounds) && tsorted s.ctxs && tsorted s.regions
    && tsorted s.env && tsorted s.remote.routes && tsorted s.remote.windows && tsorted s.remote.fences && tsorted s.red.descs
    && tsorted s.red.ports && tsorted s.power.tiles && s.power.tiles.all (fun e => tsorted e.2.reasonUs)
    && tsorted s.power.partHist && tsorted s.power.userWeights && tsorted s.power.zones && tsorted s.fault.suspects
    && tsorted s.fault.dropped && tsorted s.fault.linkMargin && tsorted s.trace.buffers && tsorted s.trace.counters
    && tsorted s.trace.latched

/-- KV's own stores of R95 hold no key: its registers and device slots, the slots of jobs and of their letterboxes, and the cache. -/
def Vault.keysGone (k : Vault) : Bool :=
  k.enrolSecret.isNone && k.lbx0.isNone && k.lbx1.isNone && k.attest.isNone && k.transport.isNone
    && k.permit.isNone && k.roots.isEmpty && k.enrolling.isNone && k.jobRoots.isEmpty && k.lbxKeys.isEmpty && k.cache.isEmpty

/-- No island and no stream of the digest engine holds a key that KV delivered: schedules, the keys of associations and of answered
attempts, of reduction groups and of envelope rings (R95). -/
def State.deliveredGone (s : State) : Bool :=
  s.kv.schedules.isEmpty && s.dg.streams.isEmpty
    && s.assocs.entries.all (fun a => a.epochs.all (fun e => e.keyTx == 0 && e.keyRx == 0) && a.answerKeys == (0, 0) && a.answer.isNone)
    && s.red.descs.all (fun e => e.2.keys.isNone) && s.env.all (fun e => e.2.sk0.isNone && e.2.sk1.isNone)

/-- No store of R95 holds a key. -/
def State.keysGone (s : State) : Bool := s.kv.keysGone && s.deliveredGone

/-- Where the block holds for a tamper, is in reset or without power, no store of R95 holds a key and nothing of a root is left in
the personalisation of the DRBG; and a block that holds for a tamper says so in its state, unless its processor has hung. -/
def State.tamperClean (s : State) : Bool :=
  (s.live && !s.boot.tamperHeld || s.keysGone && s.kv.personal == 0)
    && (!s.boot.tamperHeld || s.boot.blockState == .tamperHeld || s.boot.blockState == .cpHung)

/-- What only a pin, a start or a life-cycle command touches: the queue, the fuse array, power, the reset and the
TAMPER_HELD latch. -/
structure Lasting where
  pending    : List Instr
  fuses      : Fuses
  powered    : Bool
  inReset    : Bool
  tamperHeld : Bool
deriving DecidableEq, Repr

def State.lasting (s : State) : Lasting :=
  { pending := s.pending, fuses := s.fuses, powered := s.boot.powered, inReset := s.boot.inReset,
    tamperHeld := s.boot.tamperHeld }

/-- The state with everything blanked that an answer to a command writes: the block's outputs, the letterboxes and the
ports of nodes, commands that wait for the CP and the rotation of R52, notices without a taker, vectors in their quiet interval and items held for a port, what the internal masters of DMA over host links were charged, counts of permutation
calls, trace records, the values of event counters, and the model's own counters of draws and free values.  `t.apart = s.apart` says that everything else of
`t` is as in `s`. -/
def State.apart (s : State) : State :=
  { s with
    boot := { s.boot with msixQuiet := [], msixDeferred := [], heldItems := [] },
    kv := { s.kv with draws := 0 },
    dg := { s.dg with calls := 0, callsKv := 0 },
    sniby := { s.sniby with boxes := [], nodePorts := [], unsubscribed := 0, atCp := [], blocked := none, turn := 0 },
    trace := { s.trace with session := {}, buffers := [], resyncs := 0, woken := [],
                            counters := tmap s.trace.counters (fun _ c => { c with value := 0 }) },
    reg := { s.reg with masters := s.reg.masters.filter (fun x => decide (x.handle < 256 + 5)) },
    freeCtr := 0,
    out := [] }

/-- Nothing waits for the block itself to do it: no finished request, no seal, pass, fence or descriptor at work, no change of the
package limit to announce, no counter of cycles, no trigger to announce, no held command to start, no command that waits for the CP, no place of the
poste restante, no stream of the digest engine whose abortion a command is still to be told, no remote request for a place of its port
island, no master that has waited throughout its guarantee window so far, no job probe of a quarantined block. -/
def State.atRest (s : State) : Bool :=
  s.mem.finished.isEmpty && s.regions.all (fun e => e.2.sealOp.isNone) && s.courier.passes.isEmpty
    && s.remote.fences.all (fun e => e.2.state != .armed) && s.mem.lostChunks.isEmpty && s.red.descs.isEmpty
    && s.power.lastLimit == s.packageLimit && s.power.lastScale == s.shareScale && s.trace.counters.isEmpty
    && (s.countersOpen == !s.trace.held) && s.trace.session.announce.isNone && s.sniby.ready.isEmpty && s.sniby.atCp.isEmpty
    && s.sniby.boxes.all (fun e => e.2.waiting.isEmpty) && s.sniby.blocked.isNone
    && !s.placeWaits && !s.dg.aborted && s.remote.reqs.all (fun q => !q.parked) && s.reg.masters.all (fun x => !x.waitedAll)
    && (!s.quarantined || s.fault.runs.all (fun r => !(r.reset && r.step == 9)))

/-! ### A command that is served -/

/-- The state in which the CP has taken a command: through a port, the port's logic is alive; the CP has read the command's slot,
and the rotation of the job letterboxes goes on from its letterbox (R36, R52). -/
def State.met (s : State) (c : Cmd) : State :=
  (match c.via with
   | .host _ => s
   | .fabric port _ => s.portAlive port).takeNext c.lb c.via

/-- The state in which the check value of a command is verified: its digest calls are counted. -/
def State.checking (s : State) (c : Cmd) : State :=
  (s.met c).calls (kmacCalls (57 + c.p.body.length) 128 false) false

/-- The session nonce under which a command is checked and answered. -/
def State.nonceOf (s : State) (c : Cmd) : BitVec 64 := (((s.checking c).noteNode c).box c.lb).session

/-- The state in which a command that passed checks 1 to 4 of R46 is decided: its node is noted, its sequence number taken. -/
def State.admitted (s : State) (c : Cmd) : State :=
  (((s.checking c).noteNode c).modBox c.lb (fun b => { b with failCount := 0 })).modBox c.lb
    (fun b => { b with nextSeq := b.nextSeq + 1 })

/-- A packet comes where its letterbox takes it: through the ring of the link to which the letterbox is bound, with a slot that is
not consumed, or through a port for a letterbox bound to the fabric (R33, R36, R63). -/
def State.comes (s : State) (c : Cmd) : Prop :=
  match c.via with
  | .host l => (s.box c.lb).binding.link = some l ∧ (s.box c.lb).enable = true
      ∧ ((s.box c.lb).state = .opened ∨ (s.box c.lb).state = .closing) ∧ (s.box c.lb).cmdProduced ≠ (s.box c.lb).cmdConsumed
  | .fabric port _ => s.fabricTakes port = true ∧ ((s.portAlive port).box c.lb).binding = .fabric
      ∧ (((s.portAlive port).box c.lb).state = .opened ∨ ((s.portAlive port).box c.lb).state = .closing)

/-- A command comes, with no place of the poste restante due ahead of it (R52), and is framed and checked (checks 1 to 3 of R46) by
firmware that serves (R43, R83, R505). -/
structure Verified (s : State) (c : Cmd) (key : Key) : Prop where
  comes   : s.comes c
  box     : c.lb < 64
  first   : s.ahead c.lb = s
  serves  : (s.met c).cpServes = true
  calm    : (s.met c).boot.tamperHeld = false
  engine  : (s.met c).dg.pairs ≠ []
  keyed   : (s.met c).lbxKey c.lb = some key
  framed  : framed c = true
  checked : checked key ((s.checking c).box c.lb).session c = true

/-- A command that passes the checks 1 to 11 of R46 under a handler, with the services of R507 running where the handler asks for
them (R62). -/
structure Ready (s : State) (h : Handler) (c : Cmd) (key : Key) : Prop extends Verified s c key where
  turn    : c.p.sequence.toNat = (((s.checking c).noteNode c).box c.lb).nextSeq
  whole   : (s.admitted c).dg.aborted = false
  passes  : preCheck (some h) (s.admitted c) c = none
  service : h.service = true → (s.admitted c).awaitsService = false

/-- A letterbox has a token, or needs none (R60). -/
def State.hasToken (s : State) (lb : Nat) : Bool := match s.takeToken lb with | .ok _ => true | .error _ => false

/-- The state after a letterbox's token is drawn. -/
def State.charged (s : State) (lb : Nat) : State := match s.takeToken lb with | .ok u => u | .error _ => s

/-- Command `i` of an opcode, where it is ready and `good` holds of the state in which it is decided: it is answered with `ans`,
its effect is `eff`, and `after` follows its reply.  `α` names what the command's operands designate. -/
def Replies {α : Type} (i : Nat → Via → Packet → Instr) (op : Nat) (h : Handler) (good : State → Cmd → α → Prop)
    (ans : State → Cmd → α → Ans) (eff : State → Cmd → α → State) (after : State → Cmd → α → State → State) : Prop :=
  ∀ (s : State) (lb : Nat) (via : Via) (p : Packet) (key : Key) (a : α),
    Ready s h { op := op, lb := lb, via := via, p := p } key →
    good (s.admitted { op := op, lb := lb, via := via, p := p }) { op := op, lb := lb, via := via, p := p } a →
    (eff (s.admitted { op := op, lb := lb, via := via, p := p }) { op := op, lb := lb, via := via, p := p } a).hasToken lb = true →
    exec (i lb via p) s = .next (State.ended
      (after (s.admitted { op := op, lb := lb, via := via, p := p }) { op := op, lb := lb, via := via, p := p } a
        (((eff (s.admitted { op := op, lb := lb, via := via, p := p }) { op := op, lb := lb, via := via, p := p } a).charged lb).replyWith
          { op := op, lb := lb, via := via, p := p } key (s.nonceOf { op := op, lb := lb, via := via, p := p })
          (ans (s.admitted { op := op, lb := lb, via := via, p := p }) { op := op, lb := lb, via := via, p := p } a))))

/-- The same for a command that is ACCEPTED after `spent`, what its earlier steps did: an operation is held for it, under `bound` µs,
the reply is written, and `start` begins the operation (R56). -/
def AcceptsAfter {α : Type} (i : Nat → Via → Packet → Instr) (op : Nat) (h : Handler) (good : State → Cmd → α → Prop)
    (spent : State → Cmd → α → State) (bound : State → Cmd → α → Option Nat)
    (start : State → Cmd → α → Nat → State → State) : Prop :=
  ∀ (s : State) (lb : Nat) (via : Via) (p : Packet) (key : Key) (a : α),
    Ready s h { op := op, lb := lb, via := via, p := p } key →
    good (s.admitted { op := op, lb := lb, via := via, p := p }) { op := op, lb := lb, via := via, p := p } a →
    (spent (s.admitted { op := op, lb := lb, via := via, p := p }) { op := op, lb := lb, via := via, p := p } a).hasToken lb = true →
    ((spent (s.admitted { op := op, lb := lb, via := via, p := p }) { op := op, lb := lb, via := via, p := p } a).charged lb).opRoom lb
      = none →
    exec (i lb via p) s = .next (State.ended
      (start (s.admitted { op := op, lb := lb, via := via, p := p }) { op := op, lb := lb, via := via, p := p } a
        ((spent (s.admitted { op := op, lb := lb, via := via, p := p }) { op := op, lb := lb, via := via, p := p } a).charged
          lb).sniby.nextOp
        ((((spent (s.admitted { op := op, lb := lb, via := via, p := p }) { op := op, lb := lb, via := via, p := p } a).charged
            lb).newOp { op := op, lb := lb, via := via, p := p }
            (bound (s.admitted { op := op, lb := lb, via := via, p := p }) { op := op, lb := lb, via := via, p := p } a)).2.replyWith
          { op := op, lb := lb, via := via, p := p } key (s.nonceOf { op := op, lb := lb, via := via, p := p })
          { status := .accepted })))

/-- A command that is ACCEPTED with nothing done before. -/
def Accepts {α : Type} (i : Nat → Via → Packet → Instr) (op : Nat) (h : Handler) (good : State → Cmd → α → Prop)
    (bound : State → Cmd → α → Option Nat) (start : State → Cmd → α → Nat → State → State) : Prop :=
  AcceptsAfter i op h good (fun s _ _ => s) bound start

/-- A query: DONE with a body, and nothing else. -/
def Queries {α : Type} (i : Nat → Via → Packet → Instr) (op : Nat) (h : Handler) (good : State → Cmd → α → Prop)
    (body : State → Cmd → α → Bytes) : Prop :=
  Replies i op h good (fun s c a => ok (body s c a)) (fun s _ _ => s) (fun _ _ _ u => u)

/-- A command that is answered DONE without a body, and has an effect. -/
def Does {α : Type} (i : Nat → Via → Packet → Instr) (op : Nat) (h : Handler) (good : State → Cmd → α → Prop)
    (eff : State → Cmd → α → State) : Prop :=
  Replies i op h good (fun _ _ _ => ok []) eff (fun _ _ _ u => u)

/-- Command `i` takes the state to `t`, and the block then does what it does of itself. -/
def Ends (i : Instr) (s t : State) : Prop := exec i s = .next t.ended

/-- `r` is m times 2 to the e rounded to the nearest integer, a tie to the even one. -/
def Nearest (m e r : Int) : Prop :=
  if 0 ≤ e then r = m * 2 ^ e.toNat
  else 2 * (m - r * 2 ^ (-e).toNat).natAbs ≤ 2 ^ (-e).toNat ∧ (2 * (m - r * 2 ^ (-e).toNat).natAbs = 2 ^ (-e).toNat → r % 2 = 0)

/-- An acknowledgement of a postcard that the block takes (R430, R431). -/
def State.takesAck (s : State) (a : PostcardAck) : Prop :=
  ∃ key, s.lbxKey 1 = some key ∧ s.cards = true ∧ a.subtype = 2 ∧ a.kind = 0x41 ∧ a.revision = 0x32 ∧ a.health = 0 ∧ a.blockSt = 0 ∧ a.flags = 0
    ∧ a.verdict.toNat ≤ 1 ∧ a.reserved = 0 ∧ a.node.toNat = s.boot.nodeNumber ∧ a.seq.toNat ≤ s.fault.postcardSeq
    ∧ a.check = checkValue key 5 (s.box 1).session (cardBytes a.kind.toNat a.node.toNat a.seq.toNat a.postmark.toNat
        a.health.toNat a.blockSt.toNat a.flags.toNat a.verdict.toNat)

/-- What taking it does first: the check is computed, and highest_acked follows (R431). -/
def State.acked (s : State) (a : PostcardAck) : State :=
  (s.calls (kmacCalls 57 128 false) false).modFault (fun f => { f with highestAcked := max f.highestAcked a.seq.toNat })

/-! ### A packet that is heard -/

/-- The port's logic hears a packet, and the block reads packets: it runs, is not held, has its number, and is not
quarantined (R243, R288, R421, R505). -/
structure Heard (s : State) (port : Nat) : Prop where
  takes    : s.fabricTakes port = true
  alive    : port ∉ s.fault.portsHung
  calm     : s.boot.tamperHeld = false
  numbered : s.boot.nodeNumber ≠ 0xFFFF
  free     : s.quarantined = false

/-- The state in which a message packet is read: its bytes are counted. -/
def State.heard (s : State) (port : Nat) (p : MsgPacket) : State :=
  s.count (islandP port) 5 (some (packetTc p)) (40 + p.body.length)

/-- A DATA or RATCHET packet that opens under the newest epoch of an open association of a job of this node (R255); an epoch that
has drained before the next one's keys are there is not accepted any more (R261). -/
structure Carries (s : State) (port : Nat) (p : MsgPacket) (h : Nat) (e : Epoch) (plain : Bytes) : Prop extends Heard s port where
  formed   : wellFormedPacket s.boot.nodeNumber p = true
  revision : p.revision = Config.revisionByte
  job      : s.handleOf p.job.toNat = some h
  open_    : ∃ j, s.job h = some j ∧ j.state ≠ .closing
  trusted  : p.src.toNat ∉ s.assocs.revoked
  assoc    : ∃ a, s.assoc h p.src.toNat = some a ∧ a.seals = true ∧ a.answer = none ∧ a.epochs.head? = some e
               ∧ (a.drained = false ∨ a.epochs.tail ≠ [])
               ∧ openPacket e.keyRx a.salt p = some plain
  parity   : e.number % 2 = p.flags.toNat % 2
  accepts  : e.accepts p.sequence.toNat = true

/-- The state in which what such a packet carried is used. -/
def State.carried (s : State) (port : Nat) (p : MsgPacket) (h : Nat) (e : Epoch) : State :=
  (s.heard port p).packetIn h port e.number p

/-- The row of a message that a DATA packet carries: its body has the op of the row, and the row's effect is `eff`; `init` is what
the row's other operands do before. -/
def BringsFrom (init : State → State) (i : Nat → MsgPacket → Instr) (op : Nat)
    (eff : State → Nat → Nat → Nat → Nat → Bytes → State) : Prop :=
  ∀ (s : State) (port : Nat) (p : MsgPacket) (h : Nat) (e : Epoch) (plain : Bytes), p.kind = 0x10 →
    Carries (init s) port p h e plain → wellFormedBody ((init s).carried port p h e).boot.nodeNumber plain = true →
    hdr plain 0 1 = op →
    Ends (i port p) s
      ((eff ((init s).carried port p h e) h p.src.toNat (packetTc p) port plain).stepEnd h p.src.toNat)

/-- The row of a message without other operands. -/
def Brings (i : Nat → MsgPacket → Instr) (op : Nat) (eff : State → Nat → Nat → Nat → Nat → Bytes → State) : Prop :=
  BringsFrom id i op eff

/-- No condition on the state beyond the checks. -/
def always : State → Cmd → Unit → Prop := fun _ _ _ => True

/-- Instruction `i` is the row of a letterbox command, and `c` is the command that it brings. -/
def RowOf (i : Instr) (c : Cmd) : Prop := ∀ s, exec i s = s.command c.op c.lb c.via c.p

/-- Blown bits of a group of 16. -/
def blownIn (w : BitVec 64) (lo : Nat) : Nat := ((List.range 16).map (fun i => (w.getLsbD (lo + i)).toNat)).sum

/-- Every bit of `a` is a bit of `b`. -/
def Within (a b : BitVec 64) : Prop := ∀ i, a.getLsbD i = true → b.getLsbD i = true

/-- Fuse array `g` is `f` with more bits blown: no word loses one, and what holds a blown bit is as it was. -/
structure Blown (f g : Fuses) : Prop where
  lifecycle   : Within f.lifecycleWord g.lifecycleWord
  progress    : Within f.progressWord g.progressWord
  policy      : Within f.policyWord g.policyWord
  disable     : Within f.disableWord g.disableWord
  roots       : ∀ n, (f.rootSlots.getD n {}).blown = true → g.rootSlots.getD n {} = f.rootSlots.getD n {}
  enrolment   : ∀ n, (f.enrolSlots.getD n {}).blown = true → g.enrolSlots.getD n {} = f.enrolSlots.getD n {}
  serial      : g.serial = f.serial
  repair      : g.rowRepair = f.rowRepair
  reserved    : g.reserved48 = f.reserved48 ∧ g.reserved480 = f.reserved480
  calibration : g.calibration = f.calibration

end Machine
end Sys2Proof
end

