-- ==== Sys2Proof/Certificates/Slice0/Obligations.lean ====
section
/-!
DEFINITION. Certificates/Slice0/Obligations.lean: the statements for the provers.
-/

open Sys2Proof Sys2Proof.Machine

/-- NOP to SET_ROOT_LINK (R66 to R71), each served with its own effect.
The nonce of RENEW_SESSION is a draw, a free value (log 6). -/
def Obligations.GeneralCommands : Prop :=
  Queries .nop 0x0100 hNop always (fun _ c _ => c.p.body)
  ∧ Queries .identify 0x0101 hIdentify always (fun s _ _ =>
      enc [(1, 0x3), (1, 0x2), (1, s.fuses.recorded.code), (1, s.boot.blockState.code), (4, 0), (16, s.fuses.serial.toNat),
           (32, s.boot.fwMeasurement.toNat), (4, s.boot.fwVersion), (2, s.boot.nodeNumber), (2, s.openBoxes), (8, s.now)])
  ∧ Replies .renewSession 0x0102 hRenewSession always
      (fun s _ _ => ok (le 8 (s.draw 64).1.toNat))
      (fun s c _ => (s.draw 64).2.modBox c.lb (fun b => { b with session := (s.draw 64).1, nextSeq := 1, noticeSeq := 0 }))
      (fun _ _ _ u => u)
  ∧ Does .subscribe 0x0103 hSubscribe always
      (fun s c _ => s.modBox c.lb (fun b => { b with classMask := BitVec.ofNat 16 (c.arg 0 2) }))
  ∧ Replies .readDropCounts 0x0104 hReadDropCounts always
      (fun s c _ => ok (enc [(4, (s.box c.lb).ringFullDrops), (4, if c.lb = 0 then s.sniby.unsubscribed else 0),
                             (4, if c.lb = 0 then s.sniby.deadLetters else 0), (4, 0)]))
      (fun s c _ =>
        let u := s.modBox c.lb (fun b => { b with ringFullDrops := 0 })
        if c.lb = 0 then { u with sniby := { u.sniby with unsubscribed := 0, deadLetters := 0 } } else u)
      (fun _ _ _ u => u)
  ∧ Replies .cancelQueued 0x0105 hCancelQueued
      (fun s c (_ : Unit) => ∃ e ∈ s.sniby.heldBehind, e.2.lb = c.arg 0 1 ∧ e.2.packet.sequence.toNat = c.arg 4 4)
      (fun _ _ _ => ok []) (fun s _ _ => s)
      (fun _ c _ u => u.squashHeld (fun _ k => k.lb == c.arg 0 1 && k.packet.sequence.toNat == c.arg 4 4))
  ∧ Replies .setRootLink 0x0106 hSetRootLink always (fun _ _ _ => ok []) (fun s _ _ => s) (fun _ c _ u => u.moveRoot (c.arg 0 1))

/-- LIFECYCLE_STATUS to KEY_VAULT_STATUS (R87 to R94): the transitions begin, each with the bound that its rule states. -/
def Obligations.LifeCycleCommands : Prop :=
  Queries .lifecycleStatus 0x0200 hLifecycleStatus always (fun s _ _ => lifecycleBody s)
  ∧ Accepts .enterTest 0x0201 hEnterTest
      (fun s _ (_ : Unit) => s.canTransit = true ∧ markSet s.fuses.progressWord mkRootsComplete = true)
      (fun _ _ _ => some 1000)
      (fun _ _ _ id u => { u with life := { u.life with transition := .toTest, step := 1, op := some id } })
  ∧ AcceptsAfter .enrolProduction 0x0202 hEnrolProduction
      (fun s c (_ : Unit) => BitVec.ofNat 128 (c.arg 40 16) = oesCheck (BitVec.ofNat 256 (c.arg 0 32)) s.fuses.serial
        ∧ c.arg 56 8 = 0 ∧ s.canTransit = true ∧ s.jobs = [] ∧ s.fuses.enrolFree ≠ [])
      (fun s _ _ => s.calls (kmacCalls 25 128 false) false)
      (fun _ _ _ => some 20000)
      (fun _ c _ id u => { u with life := { u.life with
        transition := .toProduction, step := if markSet u.fuses.progressWord mkProdBegun then 3 else 2, op := some id,
        policy := BitVec.ofNat 64 (c.arg 32 8) }, kv := { u.kv with enrolling := some (BitVec.ofNat 256 (c.arg 0 32)) } })
  ∧ Replies .enrolProduction 0x0202 hEnrolProduction
      (fun s c (_ : Unit) => BitVec.ofNat 128 (c.arg 40 16) ≠ oesCheck (BitVec.ofNat 256 (c.arg 0 32)) s.fuses.serial)
      (fun _ _ _ => { status := .badParam, detail := 104 }) (fun s _ _ => s.calls (kmacCalls 25 128 false) false)
      (fun _ _ _ u => u)
  ∧ Accepts .enterEndOfLife 0x0203 hEnterEndOfLife (fun s _ (_ : Unit) => s.canTransit = true)
      (fun _ _ _ => some 2000)
      (fun _ _ _ id u => { u with life := { u.life with transition := .toEndOfLife, step := 1, op := some id } })
  ∧ Queries .keyVaultStatus 0x0204 hKeyVaultStatus always (fun s _ _ => vaultBody s)

/-- DIGEST_STATUS to PERMIT_STATUS (R119, R124, R129 to R133).
KMAC256 is computed from its standard (log 5); a nonce is a draw, a free value (log 6).  That every job_scope is valid, and that a
right to MARGIN_TEST is granted whatever the partition, is the model's (log 63), and so is the rounding of the remaining lifetime
(log 52). -/
def Obligations.AttestCommands : Prop :=
  Queries .digestStatus 0x0300 hDigestStatus always (fun s _ _ => digestBody s)
  ∧ Replies .attest 0x0301 hAttest
      (fun s c (a : Key × Option Job) => s.kv.attest = some a.1
        ∧ ((c.arg 32 4 = 0xFFFFFFFF ∧ a.2 = none)
           ∨ (c.arg 32 4 ≠ 0xFFFFFFFF ∧ ∃ j, (s.handleOf (c.arg 32 4)).bind s.job = some j ∧ j.state ≠ .admitting ∧ j.state ≠ .resizing
              ∧ s.partGate j.partition false false = none ∧ a.2 = some j)))
      (fun s c a => ok (reportBytes s (c.arg 0 32) a.2 ++ bytesOf (reportTag a.1 (reportBytes s (c.arg 0 32) a.2))))
      (fun s _ _ => s.calls (kmacCalls 253 256 false) false) (fun _ _ _ u => u)
  ∧ Queries .readMeasurements 0x0302 hReadMeasurements always (fun s _ _ => measurementsBody s)
  ∧ Replies .nonce 0x0303 hNonce always (fun s _ _ => ok (bytesOf (s.draw 128).1))
      (fun s c _ =>
        let kept := if 32 ≤ s.att.nonces.length then s.att.nonces.drop 1 else s.att.nonces
        { (s.draw 128).2 with att := { s.att with
            nonces := kept ++ [{ value := (s.draw 128).1, purpose := c.arg 0 1, issued := s.now }] } })
      (fun _ _ _ u => u)
  ∧ Does .presentPermit 0x0304 hPresentPermit
      (fun s c (a : Key × Nonce) =>
        bit s.fuses.policy 1 = true ∧ s.expirePermit = s ∧ s.att.permit = none ∧ field c.p.body 8 16 = s.fuses.serial.toNat
        ∧ s.att.nonces.find? (fun n => n.value == BitVec.ofNat 128 (field c.p.body 24 16)) = some a.2
        ∧ a.2.purpose = 2 ∧ s.now ≤ a.2.issued + nonceLife ∧ s.kv.permit = some a.1
        ∧ BitVec.ofNat 256 (field c.p.body 64 32)
            = kmac256 (bytesOf a.1) (ascii "PERMIT-TAG" ++ slice c.p.body 0 64) 256
        ∧ s.att.log.length < 64
        ∧ ((bit (field c.p.body 4 4) 0 = true ∨ bit (field c.p.body 4 4) 1 = true) → s.jobs = []))
      (fun s c a =>
        let spent : State := { s with att := { s.att with nonces := s.att.nonces.erase a.2 } }
        let u := ((spent.calls (kmacCalls 74 256 false) false).calls (shakeCalls 75) false).extend 0x10 (labelled "PERMIT-OPEN" (slice c.p.body 0 64))
        { u with att := { u.att with permit := some {
            rights := BitVec.ofNat 32 (field c.p.body 4 4), scope := field c.p.body 44 4, lifetime := field c.p.body 40 4,
            opened := u.now } } })
  ∧ Does .closePermit 0x0305 hClosePermit (fun s _ (_ : Unit) => s.expirePermit.att.permit.isSome = true)
      (fun s _ _ => s.expirePermit.closePermit)
  ∧ Queries .permitStatus 0x0306 hPermitStatus always (fun s _ _ => permitBody s)

/-- Partitions are created, resized, destroyed and reported (R135 to R137, R156).  CREATE_PARTITION on a partition that is not FREE, or
with a tile that is in a partition, and DESTROY_PARTITION on an ACTIVE partition with a job, or a FREE one, are refused with
BAD_STATE; an empty tile mask is a BAD_PARAM. -/
def Obligations.PartitionCommands : Prop :=
  Does .createPartition 0x0404 hCreatePartition
      (fun s c (_ : Unit) => (s.part (c.arg 0 1)).state = .free ∧ ∀ t ∈ tilesOf (c.arg 2 2), s.tileTaken t = false)
      (fun s c _ =>
        let u := s.modPart (c.arg 0 1) (fun _ => { state := .active, tiles := tilesOf (c.arg 2 2) })
        let u : State := { u with fault := { u.fault with
          stacksFenced := u.fault.stacksFenced.filter (fun t => decide (t ∉ tilesOf (c.arg 2 2))) } }
        u.testEnable (tilesOf (c.arg 2 2)) false)
  ∧ Accepts .resizePartition 0x0405 hResizePartition
      (fun s c (_ : Unit) => (s.part (c.arg 0 1)).state = .active
        ∧ (∃ t ∈ tilesOf (c.arg 2 2), t ∈ (s.part (c.arg 0 1)).tiles)
        ∧ (∀ t ∈ tilesOf (c.arg 2 2), t ∉ (s.part (c.arg 0 1)).tiles → s.tileTaken t = false)
        ∧ (∀ t ∈ (s.part (c.arg 0 1)).tiles, t ∉ tilesOf (c.arg 2 2) → s.stackHeld t = false)
        ∧ 2 ≤ (tilesOf (c.arg 2 2)).length)
      (fun _ _ _ => some 50)
      (fun _ c _ id u => u.modPart (c.arg 0 1) (fun q =>
        { q with state := .resizing, newTiles := tilesOf (c.arg 2 2), op := some id, since := u.now }))
  ∧ Does .destroyPartition 0x0406 hDestroyPartition
      (fun s c (_ : Unit) => (s.part (c.arg 0 1)).state = .active ∧ s.jobsIn (c.arg 0 1) = [])
      (fun s c _ => (s.modPart (c.arg 0 1) (fun _ => {})).testEnable (s.part (c.arg 0 1)).tiles true)
  ∧ Queries .partitionStatus 0x0407 hPartitionStatus always (fun s c _ => partitionBody s (c.arg 0 1))
  ∧ (∀ (s : State) (lb : Nat) (via : Via) (p : Packet) (key : Key), Ready s hCreatePartition { op := 0x0404, lb := lb, via := via, p := p } key →
    (((s.admitted { op := 0x0404, lb := lb, via := via, p := p }).part (field p.body 0 1)).state ≠ .free
      ∨ ∃ t ∈ tilesOf (field p.body 2 2), (s.admitted { op := 0x0404, lb := lb, via := via, p := p }).tileTaken t = true) →
    exec (.createPartition lb via p) s = .next (((s.admitted { op := 0x0404, lb := lb, via := via, p := p }).replyWith
      { op := 0x0404, lb := lb, via := via, p := p } key (s.nonceOf { op := 0x0404, lb := lb, via := via, p := p })
      { status := .badState }).ended))
  ∧ (∀ (s : State) (lb : Nat) (via : Via) (p : Packet) (key : Key), Ready s hDestroyPartition { op := 0x0406, lb := lb, via := via, p := p } key →
    (((s.admitted { op := 0x0406, lb := lb, via := via, p := p }).part (field p.body 0 1)).state = .free
      ∨ (((s.admitted { op := 0x0406, lb := lb, via := via, p := p }).part (field p.body 0 1)).state = .active
        ∧ (s.admitted { op := 0x0406, lb := lb, via := via, p := p }).jobsIn (field p.body 0 1) ≠ [])) →
    exec (.destroyPartition lb via p) s = .next (((s.admitted { op := 0x0406, lb := lb, via := via, p := p }).replyWith
      { op := 0x0406, lb := lb, via := via, p := p } key (s.nonceOf { op := 0x0406, lb := lb, via := via, p := p })
      { status := .badState }).ended))
  ∧ (∀ (s : State) (c : Cmd), field c.p.body 0 1 < 16 → field c.p.body 1 1 = 0 → field c.p.body 2 2 = 0 →
      (headerParams hCreatePartition c).all (·.2) = true → paramFault hCreatePartition s c = some 66)
  ∧ (∀ (s : State) (p t : Nat) (tiles : List Nat), (s.part p).state = .free → t ∈ tiles →
      (∀ u ∈ tiles, s.partOfTile u = none) →
      (s.modPart p (fun _ => { state := .active, tiles := tiles })).partOfTile t = some p)

/-- Jobs are admitted, torn down, resized and reported (R143, R153, R155, R157).
SHAKE256 and KMAC256 are computed from their standards (log 5).  Which free handle and runs a job gets is the model's choice (log 64),
and so are what a resize checks first and the letterbox that JOB_STATUS of an ADMITTING job reports (log 29). -/
def Obligations.JobCommands : Prop :=
  AcceptsAfter .admitJob 0x0400 hAdmitJob
      (fun s c (a : Manifest × Placement × Nat × Key) =>
        (s.life.inForce = .production → s.right 0 none = false ∧ s.right 1 none = false)
        ∧ parseManifest s (c.p.body.drop 128) = .ok a.1 ∧ field (c.bytes 0 128) 4 4 = a.1.jobNumber
        ∧ s.jobs.find? (fun e => e.2.number == a.1.jobNumber && e.2.state == .closing) = none
        ∧ ((s.calls (shakeCalls (8 + (c.p.body.drop 128).length)) false).openToken (c.bytes 0 128)
            (labelled "MANIFEST" (c.p.body.drop 128))).1 = .ok a.2.2.2
        ∧ ((s.calls (shakeCalls (8 + (c.p.body.drop 128).length)) false).openToken (c.bytes 0 128)
            (labelled "MANIFEST" (c.p.body.drop 128))).2.fit a.1 = .ok a.2.1
        ∧ ((s.calls (shakeCalls (8 + (c.p.body.drop 128).length)) false).openToken (c.bytes 0 128)
            (labelled "MANIFEST" (c.p.body.drop 128))).2.freeHandle = some a.2.2.1)
      (fun s c _ => ((s.calls (shakeCalls (8 + (c.p.body.drop 128).length)) false).openToken (c.bytes 0 128)
        (labelled "MANIFEST" (c.p.body.drop 128))).2)
      (fun _ _ a => some (2000 + treeTime a.2.1.placed))
      (fun _ c a id u =>
        (u.createJob a.2.2.1 id a.1 a.2.1 a.2.2.2 (labelled "MANIFEST" (c.p.body.drop 128))).endSweep a.1.partition)
  ∧ Accepts .teardownJob 0x0401 hTeardownJob
      (fun s c (a : Nat × Job) => s.named (c.arg 0 4) = some a ∧ a.2.state ≠ .closing)
      (fun s _ a => some (s.teardownBound a.1))
      (fun _ _ a id u => u.teardownStart a.1 (some id))
  ∧ Accepts .resizeJob 0x0402 hResizeJob
      (fun s c (a : (Nat × Job) × List (Nat × Rec) × (Nat × Nat × Nat)) => s.jobGate (c.arg 0 4) = .ok a.1
        ∧ resizeRecords c.p.body = .ok a.2.1 ∧ s.resizeHeld a.1.1 (a.1.2.resize a.2.1 (c.arg 4 4)) = false
        ∧ s.resizeFit a.1.1 a.1.2 a.2.1 (a.1.2.resize a.2.1 (c.arg 4 4)) = .ok a.2.2)
      (fun _ _ _ => some 100)
      (fun _ c a id u =>
        let v := u.resizeStart a.1.1 id (a.1.2.resize a.2.1 (c.arg 4 4)) a.2.2
        if (rangesMinus a.1.2.keyRanges (a.1.2.resize a.2.1 (c.arg 4 4)).ranges).isEmpty then v.complete id .done [] else v)
  ∧ Queries .jobStatus 0x0403 hJobStatus (fun s c (a : Nat × Job) => s.named (c.arg 0 4) = some a
      ∧ s.partGate a.2.partition false false = none)
      (fun s _ a => jobBody s a.1 a.2)

/-- Contexts are opened, closed and reported (R148, R151, R156).
The incarnation is a draw, a free value (log 6). -/
def Obligations.ContextCommands : Prop :=
  Does .openContext 0x0408 hOpenContext
      (fun s c (a : Nat × Job) => s.ctxGate (c.arg 0 2) true false = .ok a.1 ∧ s.job a.1 = some a.2 ∧ a.2.takesCtx = true
        ∧ (s.ctx (c.arg 0 2)).state = .free)
      (fun s c _ => (s.draw 32).2.modCtx (c.arg 0 2) (fun _ =>
        { state := .opened, incarnation := if (s.draw 32).1 = (s.ctx (c.arg 0 2)).incarnation then (s.draw 32).1 + 1
                                           else (s.draw 32).1 }))
  ∧ Accepts .closeContext 0x0409 hCloseContext
      (fun s c (a : Nat × Job) => s.ctxGate (c.arg 0 2) true false = .ok a.1 ∧ s.job a.1 = some a.2 ∧ a.2.takesCtx = true
        ∧ (s.ctx (c.arg 0 2)).state = .opened)
      (fun s _ a => some (s.closeBound a.1))
      (fun _ c a id u => u.closeStart a.1 (c.arg 0 2) (some id))
  ∧ Queries .contextStatus 0x040A hContextStatus (fun s c (h : Nat) => s.ctxGate (c.arg 0 2) true true = .ok h)
      (fun s c _ => enc [(1, (s.ctx (c.arg 0 2)).state.code), (3, 0), (4, s.inFlight (c.arg 0 2))])

/-- Regions, key indices and sectors (R174, R175, R194 to R199).
What a failing run of ZERO_SECTORS answers, and how an entry of the key-index table is kept, are the model's (log 22, log 14). -/
def Obligations.RegionCommands : Prop :=
  Queries .regionStatus 0x0500 hRegionStatus (fun s c (_ : Unit) => (s.region (c.arg 0 2)).state ≠ .free)
      (fun s c _ => (s.region (c.arg 0 2)).statusBody)
  ∧ Accepts .sealRegion 0x0501 hSealRegion
      (fun s c (_ : Unit) => (s.region (c.arg 0 2)).state = .loading ∧ (s.region (c.arg 0 2)).cls = .weights)
      (fun s c _ => some ((s.region (c.arg 0 2)).wcWindow / 1000 + 20))
      (fun _ c _ id u => (u.modRegion (c.arg 0 2) (fun r => { r with state := .sealed, sealOp := some id })).flushWhere
        (fun e => e.region == c.arg 0 2))
  ∧ Does .setWcWindow 0x0502 hSetWcWindow
      (fun s c (_ : Unit) => (s.region (c.arg 0 2)).state ≠ .free ∧ (s.region (c.arg 0 2)).state ≠ .sealed
        ∧ (s.region (c.arg 0 2)).state ≠ .closing ∧ (s.region (c.arg 0 2)).cls ≠ .opened)
      (fun s c _ => (s.modRegion (c.arg 0 2) (fun r => { r with wcWindow := c.arg 4 4 })).flushWhere
        (fun e => e.region == c.arg 0 2))
  ∧ Accepts .zeroSectors 0x0503 hZeroSectors (fun s c (_ : Unit) => (s.region (c.arg 0 2)).zeroable = true
        ∧ s.entryAwaited (c.arg 0 2) (c.arg 4 4) = false ∧ s.sealable (c.arg 0 2) (c.arg 4 4) = true
        ∧ c.arg 8 8 + c.arg 16 8 ≤ (s.region (c.arg 0 2)).sectors)
      (fun _ _ _ => none)
      (fun _ c _ id u => State.zeroNext { u with mem := { u.mem with zeroRuns := u.mem.zeroRuns ++
        [{ op := id, region := c.arg 0 2, keyIndex := c.arg 4 4, next := c.arg 8 8, stop := c.arg 8 8 + c.arg 16 8,
           written := 0, squash := false, lb := c.lb }] } } id)
  ∧ Accepts .retireKeyIndex 0x0504 hRetireKeyIndex
      (fun s c (a : Nat × Job) => s.jobGate (c.arg 0 4) = .ok a
        ∧ (∀ r ∈ s.courier.retirements, ¬(r.handle = a.1 ∧ r.index = c.arg 4 4))
        ∧ (s.entry a.1 (c.arg 4 4)).state = .live ∧ s.courier.retirements.length < 64)
      (fun s _ a => some (s.retireBound a.1 a.2))
      (fun _ c a id u => u.retireStart a.1 (c.arg 4 4) (some id))
  ∧ Queries .keyIndexStatus 0x0505 hKeyIndexStatus
      (fun s c (a : Nat × Job) => s.jobGate (c.arg 0 4) = .ok a ∧ a.2.keyRanges ≠ []
        ∧ s.entryLost a.1 (c.arg 4 4) = false ∧ s.entryAtHand a.1 (c.arg 4 4) = true)
      (fun _ c a => enc [(8, (a.2.entry (c.arg 4 4)).word), (8, 0)])
  ∧ Queries .sectorCounts 0x0506 hSectorCounts always (fun s _ _ => sectorCounts s)

/-- Freshness trees and courier passes (R224, R225, R232, R236). -/
def Obligations.TreeCommands : Prop :=
  Queries .treeStatus 0x0600 hTreeStatus (fun s c (a : Nat × Tree) => s.target c = .ok a) (fun s _ a => treeBody s a.1 a.2)
  ∧ Accepts .resetSubtree 0x0601 hResetSubtree
      (fun s c (a : Nat × Tree) => s.target c = .ok a
        ∧ ¬(a.1 < 65536 ∧ ((s.region a.1).state = .suspended ∨ (s.region a.1).state = .closing))
        ∧ c.arg 8 1 ≠ 0 ∧ c.arg 8 1 ≤ a.2.depth ∧ c.arg 16 8 < a.2.width (c.arg 8 1)
        ∧ a.2.rootLost = false ∧ (List.range a.2.depth).any (fun j => decide (c.arg 8 1 < j + 1)
            && s.knownLost a.1 (j + 1) (c.arg 16 8 / 64 ^ (j + 1 - c.arg 8 1))) = false)
      (fun _ c _ => some (50 + 128 * nodesBelow (c.arg 8 1) / 200000))
      (fun _ c a id u => u.resetSubtree a.1 (c.arg 8 1) (c.arg 16 8) id)
  ∧ Accepts .startCourier 0x0602 hStartCourier
      (fun s c (a : Nat × Job) => s.jobGate (c.arg 0 4) = .ok a ∧ (s.entry a.1 (c.arg 4 4)).state = .live
        ∧ (s.entry a.1 (c.arg 4 4)).gen ≠ 0xFE ∧ s.passOf a.1 (c.arg 4 4) = none
        ∧ s.courier.armed.length < 4096)
      (fun _ _ _ => none)
      (fun _ c a id u =>
        match u.courier.armed.find? (fun x => x.1 == a.1 && x.2.1 == c.arg 4 4) with
        | some x => { u with courier := { u.courier with
            armed := (a.1, c.arg 4 4, x.2.2 ++ [id]) :: u.courier.armed.filter (fun y => !(y.1 == a.1 && y.2.1 == c.arg 4 4)) } }
        | none => { u with courier := { u.courier with armed := u.courier.armed ++ [(a.1, c.arg 4 4, [id])] } })
  ∧ Queries .courierStatus 0x0603 hCourierStatus (fun s c (a : Nat × Job) => s.jobGate (c.arg 0 4) = .ok a)
      (fun s c a => courierBody s a.1 (c.arg 4 4))
  ∧ Accepts .resumeRegion 0x0604 hResumeRegion
      (fun s c (a : Job) => (s.region (c.arg 0 2)).state = .suspended ∧ (s.region (c.arg 0 2)).tree.rootLost = false
        ∧ (s.region (c.arg 0 2)).resumeOp = none ∧ s.job (s.region (c.arg 0 2)).handle = some a)
      (fun _ _ a => some (a.timeout + 5))
      (fun _ c _ id u => u.resumeStart (c.arg 0 2) id)
  ∧ Queries .treeCounts 0x0605 hTreeCounts always (fun s _ _ => treeCounts s)

/-- Associations and envelope rings (R259, R265, R271, R284, R285). -/
def Obligations.AssociationCommands : Prop :=
  Queries .assocStatus 0x0700 hAssocStatus (fun s c (a : Nat × Job) => s.jobGate (c.arg 0 4) = .ok a)
      (fun s c a => assocBody s a.1 (c.arg 4 2) a.2.epochFloor)
  ∧ Accepts .evictAssoc 0x0701 hEvictAssoc
      (fun s c (a : (Nat × Job) × Assoc) => s.jobGate (c.arg 0 4) = .ok a.1 ∧ s.assoc a.1.1 (c.arg 4 2) = some a.2
        ∧ a.2.state ≠ .closing)
      (fun _ _ _ => some 1)
      (fun _ c a id u => u.beginClose a.1.1 (c.arg 4 2) (some id))
  ∧ Accepts .ratchetNow 0x0702 hRatchetNow
      (fun s c (a : (Nat × Job) × Assoc) => s.jobGate (c.arg 0 4) = .ok a.1 ∧ s.assoc a.1.1 (c.arg 4 2) = some a.2
        ∧ a.2.state = .opened)
      (fun _ _ _ => none)
      (fun _ _ a id u => (u.modAssoc a.1.1 a.2.peer (fun x => { x with ratchetOps := x.ratchetOps ++ [id] })).ratchetTrigger
        a.1.1 a.2.peer)
  ∧ Accepts .revokePeer 0x0703 hRevokePeer
      (fun s _ (_ : Unit) => s.assocs.revoked.length < 1024)
      (fun _ _ _ => some 5) (fun _ c _ id u => u.revoke (c.arg 0 2) id)
  ∧ Does .restorePeer 0x0704 hRestorePeer (fun s c (_ : Unit) => c.arg 0 2 ∈ s.assocs.revoked)
      (fun s c _ => s.modAssocs (fun x => { x with revoked := x.revoked.filter (fun n => n != c.arg 0 2) }))
  ∧ Queries .assocCounts 0x0705 hAssocCounts always (fun s _ _ => assocCountsBody s)
  ∧ Queries .envelopeStatus 0x0706 hEnvelopeStatus (fun s c (a : Nat × Job) => s.jobGate (c.arg 0 4) = .ok a)
      (fun s c a => (s.ring (c.arg 4 1) a.1).body)

/-- The node number, routes and windows, and the dead-target timeout (R289, R306, R307, R319, R325 to R329).
How SET_ROUTE drains the old route is in part the model's (log 17). -/
def Obligations.RouteCommands : Prop :=
  Does .setNodeNumber 0x0800 hSetNodeNumber (fun s _ (_ : Unit) => s.jobs = [])
      (fun s c _ => s.numbered (c.arg 0 2))
  ∧ Accepts .setRoute 0x0801 hSetRoute
      (fun s c (_ : Unit) => ¬((s.route (c.arg 0 2)).valid = true ∧ (s.route (c.arg 0 2)).port = c.arg 2 1)
        ∧ ¬((s.route (c.arg 0 2)).valid = false ∧ c.arg 2 1 = 0xFF)
        ∧ s.draining (c.arg 0 2) < 3)
      (fun _ _ _ => some 20) (fun _ c _ id u => u.setRoute (c.arg 0 2) (c.arg 2 1) id)
  ∧ Queries .routeStatus 0x0802 hRouteStatus always
      (fun s c _ => enc [(2, s.routeWord (c.arg 0 2)), (2, 0), (4, s.draining (c.arg 0 2))])
  ∧ Does .openWindow 0x0803 hOpenWindow
      (fun s c (a : Nat × Job) => s.jobGate (c.arg 0 4) = .ok a ∧ (s.window (c.arg 4 2)).state = .free
        ∧ (c.arg 6 1 = a.2.mapEpoch ∨ c.arg 6 1 = (a.2.mapEpoch + 1) % 256)
        ∧ (∀ e ∈ s.jobWindows a.1, e.2.mapEpoch = c.arg 6 1 → c.arg 8 8 + c.arg 16 8 ≤ e.2.base
            ∨ e.2.base + e.2.size ≤ c.arg 8 8)
        ∧ firstBad (s.openWindowRanges c a.1 a.2) = none
        ∧ (s.jobWindows a.1).length < a.2.windows.getD 0)
      (fun s c a => s.modRemote (fun x => { x with
        windows := tput x.windows (c.arg 4 2)
          { state := .opened, read := bit (c.arg 7 1) 0, write := bit (c.arg 7 1) 1, atomic := bit (c.arg 7 1) 2,
            mapEpoch := c.arg 6 1, handle := a.1, base := c.arg 8 8, size := c.arg 16 8, target := c.arg 24 8,
            region := c.arg 32 2, owner := c.arg 34 2, ctx := c.arg 36 2,
            useFixed := bit (c.arg 40 4) 31, fixedKey := bits (c.arg 40 4) 19 0, openedAt := s.now } }))
  ∧ Accepts .closeWindow 0x0804 hCloseWindow
      (fun s c (a : Nat × Job) => s.jobGate (c.arg 0 4) = .ok a ∧ (s.window (c.arg 4 2)).state = .opened
        ∧ (s.window (c.arg 4 2)).handle = a.1)
      (fun _ _ _ => some 20)
      (fun _ c _ id u => u.modRemote (fun x => { x with
        windows := tmod x.windows (c.arg 4 2) (fun w => { w with
          state := .closing, closeOp := some id, closeBy := u.now + 20 * Config.us }) }))
  ∧ Queries .windowStatus 0x0805 hWindowStatus
      (fun s c (a : Nat × Job) => s.jobGate (c.arg 0 4) = .ok a
        ∧ ((s.window (c.arg 4 2)).state = .free ∨ (s.window (c.arg 4 2)).handle = a.1))
      (fun s c _ => if (s.window (c.arg 4 2)).state = .free then zeros 72
        else (s.window (c.arg 4 2)).bytes ++ enc [(4, s.windowFlight (c.arg 4 2)), (4, 0)])
  ∧ Does .setWindowOwner 0x0806 hSetWindowOwner
      (fun s c (a : Nat × Job) => s.jobGate (c.arg 0 4) = .ok a ∧ (s.window (c.arg 4 2)).state = .opened
        ∧ (s.window (c.arg 4 2)).handle = a.1)
      (fun s c _ => s.modRemote (fun x => { x with
        windows := tmod x.windows (c.arg 4 2) (fun w => { w with owner := c.arg 6 2 }) }))
  ∧ Accepts .redirect 0x0807 hRedirect
      (fun s c (a : Nat × Job) => s.jobGate (c.arg 0 4) = .ok a ∧ a.2.redirect = none)
      (fun _ _ a => some (a.2.timeout + 34)) (fun _ _ a id u => u.redirectStart a.1 id)
  ∧ Queries .mapStatus 0x0808 hMapStatus (fun s c (a : Nat × Job) => s.jobGate (c.arg 0 4) = .ok a)
      (fun s _ a => mapBody s a.1 a.2)
  ∧ Does .setDeadTargetTimeout 0x0809 hSetDeadTargetTimeout (fun s c (a : Nat × Job) => s.jobGate (c.arg 0 4) = .ok a)
      (fun s c a => s.modJob a.1 (fun j => { j with timeout := c.arg 4 4 }))

/-- Fences, and the counts of remote access (R321 to R324, R327, R329). -/
def Obligations.FenceCommands : Prop :=
  Does .openFence 0x080A hOpenFence
      (fun s c (a : Nat × Job) => s.jobGate (c.arg 0 4) = .ok a ∧ (s.fenceObj (c.arg 4 2)).state = .free
        ∧ (s.remote.fences.filter (fun e => e.2.state != .free && e.2.handle == a.1 && decide (e.1 < 8128))).length
            < a.2.fenceQuota)
      (fun s c a => s.modRemote (fun x => { x with fences := tput x.fences (c.arg 4 2) { state := .idle, handle := a.1 } }))
  ∧ Accepts .closeFence 0x080B hCloseFence
      (fun s c (a : Nat × Job) => s.jobGate (c.arg 0 4) = .ok a ∧ (s.fenceObj (c.arg 4 2)).handle = a.1
        ∧ ((s.fenceObj (c.arg 4 2)).state = .idle ∨ (s.fenceObj (c.arg 4 2)).state = .armed))
      (fun _ _ _ => some 1)
      (fun _ c _ id u => u.disarm (c.arg 4 2) .squashed (fun x => { x with state := .closing, closeOp := some id }))
  ∧ Accepts .armFence 0x080C hArmFence
      (fun s c (a : Nat × Job) => s.jobGate (c.arg 0 4) = .ok a ∧ (s.fenceObj (c.arg 4 2)).handle = a.1
        ∧ (s.fenceObj (c.arg 4 2)).state = .idle)
      (fun s c a => some (s.fenceTmax a.1 (s.scopeNodes a.1 (c.arg 6 2)) / Config.us + 5))
      (fun _ c a id u => u.arm (c.arg 4 2) (c.arg 6 2) (u.scopeNodes a.1 (c.arg 6 2)) (fun x => { x with op := some id }))
  ∧ Queries .fenceStatus 0x080D hFenceStatus
      (fun s c (a : Nat × Job) => s.jobGate (c.arg 0 4) = .ok a
        ∧ ((s.fenceObj (c.arg 4 2)).state = .free ∨ (s.fenceObj (c.arg 4 2)).handle = a.1))
      (fun s c _ => if (s.fenceObj (c.arg 4 2)).state = .free then zeros 24 else fenceBody (s.fenceObj (c.arg 4 2)))
  ∧ Queries .remoteCounts 0x080E hRemoteCounts always (fun s _ _ => remoteCounts s)

/-- Masked reduction (R348 to R358, R365). -/
def Obligations.ReductionCommands : Prop :=
  Accepts .activateReduction 0x0900 hActivateReduction
      (fun s c (a : (Nat × Job) × RedGroup) => s.named (c.arg 0 4) = some a.1 ∧ (s.part a.1.2.partition).state = .active
        ∧ s.serving a.1.1 = true ∧ (s.ctx (c.arg 22 2)).state = .opened ∧ (s.desc (c.arg 4 2)).state = .free
        ∧ a.1.2.group (c.arg 6 2) = some a.2 ∧ a.2.lastRound < c.arg 8 4
        ∧ (s.red.descs.filter (fun e => e.2.state == .active && e.2.handle == a.1.1 && e.2.group == a.2.group)).length
            < a.2.descriptors)
      (fun _ c _ => some (c.arg 40 4)) (fun _ c a id u => u.activate a.1.1 id c)
  ∧ Accepts .cancelReduction 0x0901 hCancelReduction
      (fun s c (a : Nat × Job) => s.jobGate (c.arg 0 4) = .ok a ∧ (s.desc (c.arg 4 2)).state = .active
        ∧ (s.desc (c.arg 4 2)).handle = a.1 ∧ (s.desc (c.arg 4 2)).ending = none)
      (fun _ _ _ => some 5) (fun _ c _ id u => u.descCloses (c.arg 4 2) (some id) false)
  ∧ Queries .reductionStatus 0x0902 hReductionStatus
      (fun s c (a : Nat × Job) => s.jobGate (c.arg 0 4) = .ok a
        ∧ ((s.desc (c.arg 4 2)).state = .free ∨ (s.desc (c.arg 4 2)).handle = a.1))
      (fun s c _ => if (s.desc (c.arg 4 2)).state = .free then zeros 80
        else s.descBytes (c.arg 4 2) (s.desc (c.arg 4 2)) ++ enc [(4, (s.desc (c.arg 4 2)).sent),
          (4, (s.desc (c.arg 4 2)).decided.length), (4, (s.desc (c.arg 4 2)).failed),
          (4, (s.desc (c.arg 4 2)).staged.length)])
  ∧ Queries .groupStatus 0x0903 hGroupStatus
      (fun s c (a : (Nat × Job) × RedGroup) => s.jobGate (c.arg 0 4) = .ok a.1 ∧ a.1.2.group (c.arg 4 2) = some a.2)
      (fun s _ a => enc [(4, a.2.lastRound),
        (2, (s.red.descs.filter (fun e => e.2.state == .active && e.2.handle == a.1.1 && e.2.group == a.2.group)).length),
        (2, a.2.descriptors), (2, a.2.contributors), (6, 0)])
  ∧ Queries .reductionCounts 0x0904 hReductionCounts always (fun s _ _ => reductionCounts s)

/-- Regulation (R381 to R384). -/
def Obligations.RegulationCommands : Prop :=
  Queries .masterStatus 0x0A00 hMasterStatus
      (fun s c (a : Nat × Job) => s.jobGate (c.arg 0 4) = .ok a
        ∧ (c.arg 5 1 = 0 → c.arg 6 1 ∈ (s.part a.2.partition).tiles))
      (fun s c a => masterBody s a.1 (c.arg 4 1) (c.arg 5 1) (c.arg 6 1)
        (2 * flag (s.contract a.1 (c.arg 4 1) (c.arg 5 1)).isNone
          + 4 * flag (c.arg 4 1 == 0 && !s.hasTc0 a.1)))
  ∧ Queries .internalStatus 0x0A01 hInternalStatus always
      (fun s c _ => masterBody s (256 + c.arg 0 1) (internalContract (c.arg 0 1) (c.arg 1 1)).2.2 (c.arg 1 1) (c.arg 2 1) 0)
  ∧ Queries .regulationCounts 0x0A02 hRegulationCounts always (fun s _ _ => regulationBody s)

/-- Power limits, rails, the lease and calibration (R388, R393, R399, R400, R415).
The notice of RELEASE_LEASE is the model's reading (log 32). -/
def Obligations.PowerCommands : Prop :=
  Queries .powerStatus 0x0B00 hPowerStatus always (fun s _ _ => s.powerBody)
  ∧ Does .setPowerLimits 0x0B01 hSetPowerLimits always
      (fun s c _ => s.modPower (fun p => { p with
        boardLimit := c.arg 0 2, safeBudget := c.arg 2 2, reserve := c.arg 4 2, leaseMode := c.arg 6 1,
        lease := if c.arg 6 1 = 0 then none else p.lease }))
  ∧ Does .setRailLimits 0x0B02 hSetRailLimits always
      (fun s c _ => s.modRail (c.arg 0 1) (fun x => { x with continuous := c.arg 2 2, peak := c.arg 4 2 }))
  ∧ Does .grantLease 0x0B03 hGrantLease
      (fun s c (l : Lease) => s.power.leaseMode ≠ 0
        ∧ l = { id := c.arg 0 4, budget := c.arg 4 2, ends := s.now + c.arg 8 4 * Config.ms }
        ∧ s.packageLimit ≤ (s.takeLease l).packageLimit)
      (fun s _ l => s.takeLease l)
  ∧ Accepts .grantLease 0x0B03 hGrantLease
      (fun s c (l : Lease) => s.power.leaseMode ≠ 0
        ∧ l = { id := c.arg 0 4, budget := c.arg 4 2, ends := s.now + c.arg 8 4 * Config.ms }
        ∧ (s.takeLease l).packageLimit < s.packageLimit)
      (fun _ _ _ => some 2000)
      (fun s c _ id u => (u.takeLease { id := c.arg 0 4, budget := c.arg 4 2, ends := s.now + c.arg 8 4 * Config.ms }).modPower
        (fun p => { p with lowering := [(id, c.arg 4 2)] }))
  ∧ Accepts .releaseLease 0x0B04 hReleaseLease
      (fun s c (a : Lease) => s.liveLease = some a ∧ a.id = c.arg 0 4)
      (fun _ _ _ => some 2000)
      (fun _ _ a id u => (u.modPower (fun p => { p with lease := none, lowering := p.lowering ++ [(id, p.safeBudget)] })).powerNotice
        0x0B01 .timeout [(4, a.id)])
  ∧ Does .loadUserCalibration 0x0B05 hLoadUserCalibration always
      (fun s c _ =>
        let u := s.modPower (fun p => { p with
          userParts := if c.arg 0 1 ∈ p.userParts then p.userParts else c.arg 0 1 :: p.userParts })
        if c.arg 0 1 = 2 then
          u.modPower (fun p => { p with
            calId := BitVec.ofNat 64 (c.arg 8 8), userLeak := (List.range 17).map (fun d => c.signed (16 + 2 * d) 2),
            userThermal := (List.range 96).map (fun i => c.signed (56 + i) 1),
            userDroop := (List.range 64).map (fun i => c.arg (152 + i) 1) })
        else
          u.modPower (fun p => { p with
            userWeights := (List.range 2048).foldl
              (fun w i => tput w (2048 * c.arg 0 1 + i) (c.signed (8 + i) 1)) p.userWeights }))
  ∧ Queries .calibrationStatus 0x0B06 hCalibrationStatus always
      (fun s _ _ => enc [(1, s.calibrationCode), (1, maskOf s.power.userParts 3), (6, 0), (8, s.power.calId.toNat)])

/-- Frequency, thermal limits, samples and margins (R404, R406 to R414). -/
def Obligations.ClockCommands : Prop :=
  Does .setFrequencyMode 0x0B07 hSetFrequencyMode (fun s c (_ : Unit) => (s.part (c.arg 0 1)).state = .active)
      (fun s c _ => s.modPart (c.arg 0 1) (fun p => { p with fixedMhz := c.arg 2 2 }))
  ∧ Does .setThermalLimit 0x0B08 hSetThermalLimit always (fun s c _ => s.modPower (fun p => { p with tThrottle := c.arg 0 1 }))
  ∧ Queries .throttleStatus 0x0B09 hThrottleStatus always
      (fun s c _ => enc ([(2, (s.clk (c.arg 0 1)).mhz), (2, s.requested (c.arg 0 1)), (2, maskOf (s.holding (c.arg 0 1)) 11), (2, 0)]
        ++ (List.range 11).map (fun n => (8, tgetD (s.clk (c.arg 0 1)).reasonUs n 0)) ++ [(8, s.stretchedNs (c.arg 0 1))]))
  ∧ Queries .powerSample 0x0B0A hPowerSample always
      (fun s _ _ => enc ([(8, s.power.windowEnd), (4, s.power.mean), (4, (s.power.sampleRails.map (fun e => e.2.2)).sum)]
        ++ (List.range 8).flatMap (fun r => [(2, (s.power.sampleRails.getD r (0, 0, 0)).1),
             (2, (s.power.sampleRails.getD r (0, 0, 0)).2.1), (4, (s.power.sampleRails.getD r (0, 0, 0)).2.2)])
        ++ [(4, s.power.meanDyn), (4, s.power.meanShared), (8, 0)]))
  ∧ Accepts .marginSweep 0x0B0B hMarginSweep
      (fun s c (_ : Unit) => s.power.sweep = none
        ∧ (∀ t q, (t = c.arg 0 1 ∨ (c.arg 1 1 = 0 ∧ tileRail t = tileRail (c.arg 0 1))) → s.partOfTile t = some q → s.jobsIn q = []))
      (fun _ _ _ => some 3500) (fun _ c _ id u => u.sweepStart (c.arg 0 1) (c.arg 1 1) id)
  ∧ Queries .marginStatus 0x0B0C hMarginStatus always
      (fun s c _ => enc ([(2, twos 2 (s.clk (c.arg 0 1)).voltMargin), (2, 0)]
        ++ (List.range 4).map (fun i => (2, s.power.headrooms.getD (4 * c.arg 0 1 + i) 0))
        ++ [(2, (s.clk (c.arg 0 1)).sweepV.getD 0xFFFF), (2, (s.clk (c.arg 0 1)).sweepT.getD 0xFFFF)]))

/-- Faults, health, postcards, suspects, the wait-for graph and partition resets (R417, R428, R430, R436 to R452). -/
def Obligations.FaultCommands : Prop :=
  Queries .faultStatus 0x0C00 hFaultStatus always (fun s _ _ => s.faultBody)
  ∧ Queries .healthStatus 0x0C01 hHealthStatus always (fun s _ _ => s.healthBody)
  ∧ Does .setPostcards 0x0C02 hSetPostcards
      (fun s c (_ : Unit) => ¬(c.arg 0 1 = 1 ∧ c.arg 2 2 = 0xFFFF ∧ (s.box 1).lastNode = none))
      (fun s c _ => s.modFault (fun f => { f with
        postcards := c.arg 0 1 == 1, manager := c.arg 2 2, period := c.arg 4 4, postcardSeq := 0, highestAcked := 0,
        isolatedSeq := 1, nextPostcard := s.now + c.arg 4 4 * Config.us }))
  ∧ Queries .suspectList 0x0C03 hSuspectList (fun s c (_ : Unit) => (s.part (c.arg 0 1)).state = .active)
      (fun s c _ =>
        let own := match s.jobOfBox c.lb with
          | some e => (tgetD s.fault.suspects (c.arg 0 1) []).filter (fun (x : Suspect) => decide (x.ctx ∈ e.2.ctxs))
          | none => tgetD s.fault.suspects (c.arg 0 1) []
        enc [(2, own.length), (2, tgetD s.fault.dropped (c.arg 0 1) 0), (4, 0)]
          ++ own.flatMap (fun (x : Suspect) => Suspect.bytes { x with outcome := 0, time := 0 }))
  ∧ Replies .waitForGraphSnapshot 0x0C04 hWaitForGraph (fun _ c (_ : Unit) => c.arg 0 1 = 0)
      (fun s c _ => ok (s.takeSnapshot.graphBody (c.arg 8 4))) (fun s _ _ => s.takeSnapshot) (fun _ _ _ u => u)
  ∧ Queries .waitForGraphRead 0x0C04 hWaitForGraph
      (fun s c (_ : Unit) => c.arg 0 1 ≠ 0 ∧ c.arg 4 4 = s.fault.snapshot.gen) (fun s c _ => s.graphBody (c.arg 8 4))
  ∧ Does .setMailbagBuffer 0x0C05 hSetMailbagBuffer always
      (fun s c _ => s.modFault (fun f => { f with
        mailbagAddr := c.arg 0 8, mailbagSize := if c.arg 0 8 = 0 then 0 else c.arg 8 8 }))
  ∧ Accepts .resetPartition 0x0C06 hResetPartition
      (fun s c (_ : Unit) => (s.part (c.arg 0 1)).state = .active ∧ ∀ e ∈ s.jobsIn (c.arg 0 1), e.2.state ≠ .admitting)
      (fun _ _ _ => some 50000)
      (fun _ c _ id u => u.resetStart id (c.arg 0 1) (c.arg 1 1) (c.arg 4 4) (c.arg 8 2))
  ∧ Accepts .replaySuspects 0x0C07 hReplaySuspects
      (fun s c (_ : Unit) => (s.part (c.arg 0 1)).state = .active ∧ s.fault.mailbagSize ≠ 0 ∧ s.jobsIn (c.arg 0 1) = []
        ∧ s.mailLink ∈ s.boot.hostUp ∧ s.mailLink ∉ s.boot.dmaAbandoned)
      (fun _ _ _ => some 10000)
      (fun s c _ id u =>
        let run : ResetRun := { part := c.arg 0 1, reset := false, op := id, step := 9, started := u.now,
                                mailbag := decide (s.mailLink ∈ u.boot.hostUp) && decide (s.mailLink ∉ u.boot.dmaAbandoned),
                                suspects := (List.range (c.arg 2 2)).map (suspectAt c) }
        let v := (u.modPart (c.arg 0 1) (fun x => { x with state := .resetting, since := u.now, op := some id })).modFault
          (fun f => { f with runs := f.runs ++ [run] })
        State.nextProbe (c.arg 0 1) 66 (if run.mailbag then v else v.post 0x0C06 .noFit [(1, c.arg 0 1)] [] []))
  ∧ Queries .contextFaults 0x0C08 hContextFaults (fun s c (h : Nat) => s.ctxGate (c.arg 0 2) false false = .ok h)
      (fun s c _ => enc [(4, (s.ctx (c.arg 0 2)).faults), (2, (s.ctx (c.arg 0 2)).lastType),
        (1, (s.ctx (c.arg 0 2)).lastReason), (1, 0), (8, (s.ctx (c.arg 0 2)).lastMark)])

/-- The timebase, trace sessions and counters (R456, R464 to R484).
The reference frequency that TIMEBASE_STATUS reports is a free value (log 12). -/
def Obligations.TraceCommands : Prop :=
  Replies .timebaseStatus 0x0D00 hTimebaseStatus always
      (fun s _ _ => ok (enc [(8, s.now), (4, (s.free 32).1.toNat), (1, flag s.boot.locked), (3, 0), (8, s.trace.resyncs), (8, 0)]))
      (fun s _ _ => (s.free 32).2) (fun _ _ _ u => u)
  ∧ Accepts .traceStart 0x0D01 hTraceStart
      (fun s c (_ : Unit) => s.trace.session.state = .idle ∧ s.scopeGate (c.arg 4 4) = none
        ∧ c.arg 1 1 ∈ s.boot.hostUp ∧ c.arg 1 1 ∉ s.boot.dmaAbandoned)
      (fun _ _ _ => none)
      (fun _ c _ id u =>
        let n : Session := {
          state := if c.arg 0 1 = 0 then .running else .armed, mode := c.arg 0 1, owner := c.lb,
          number := u.trace.session.number + 1, link := c.arg 1 1, trigKind := c.arg 2 1,
          trigValue := BitVec.ofNat 64 (c.arg 48 8), scope := c.arg 4 4, islands := BitVec.ofNat 64 (c.arg 8 8),
          kinds := BitVec.ofNat 64 (c.arg 16 8), ring := c.arg 24 8, ringSize := c.arg 32 8, postQuota := c.arg 40 2,
          postLimit := c.arg 44 4, period := c.arg 42 2, nextLatch := u.now + c.arg 42 2 * Config.us, ctx := c.arg 56 2,
          op := some id }
        let v := u.modTrace (fun t => { t with session := n, buffers := [], turn := 0 })
        if n.link ∉ v.boot.hostUp ∨ n.link ∈ v.boot.dmaAbandoned then v.endSession .timeout false else v.ringHead false)
  ∧ Does .traceStop 0x0D02 hTraceStop (fun s _ (_ : Unit) => s.trace.session.writes = true)
      (fun s _ _ => s.modSession (fun n => { n with state := .draining }))
  ∧ Does .traceTrigger 0x0D03 hTraceTrigger (fun s _ (_ : Unit) => s.trace.session.state = .armed)
      (fun s _ _ => s.trigger s.now)
  ∧ Queries .traceStatus 0x0D04 hTraceStatus always (fun s _ _ => s.trace.session.body)
  ∧ Does .traceMark 0x0D05 hTraceMark
      (fun s _ (_ : Unit) => s.trace.session.writes = true ∧ s.trace.session.islands.getLsbD islandCP = true)
      (fun s c _ => s.traceRec islandCP 0x03 none none [(1, c.lb), (3, 0), (16, c.arg 0 16)])
  ∧ Does .counterSelect 0x0D06 hCounterSelect always
      (fun s c _ => s.modTrace (fun t => { t with
        counters := tput t.counters (c.arg 0 1 * 8 + c.arg 1 1)
          { enable := bit (c.arg 2 2) 15, mask := bits (c.arg 2 2) 11 8, event := bits (c.arg 2 2) 7 0, value := 0,
            since := s.now } }))
  ∧ Accepts .counterSnapshot 0x0D07 hCounterSnapshot always
      (fun s c _ => some (((if c.arg 0 8 = 0 then s.now + 10 * Config.us else c.arg 0 8) - s.now) / Config.us + 20))
      (fun s c _ id u => u.modTrace (fun x => { x with
        snapAt := x.snapAt ++ [(if c.arg 0 8 = 0 then s.now + 10 * Config.us else c.arg 0 8, id)] }))
  ∧ Queries .counterRead 0x0D08 hCounterRead (fun s _ (m : Nat) => s.trace.latchMark = some m)
      (fun s c m => enc ([(1, c.arg 0 1), (7, 0), (8, m)] ++ (List.range 8).flatMap (fun k =>
        [(2, (s.counter (c.arg 0 1) k).control), (6, 0), (8, tgetD s.trace.latched (c.arg 0 1 * 8 + k) 0)])))
  ∧ Queries .jobCounters 0x0D09 hJobCounters (fun s c (a : Nat × Job) => s.named (c.arg 0 4) = some a ∧ a.2.state ≠ .admitting)
      (fun _ _ a => a.2.counterBody)
  ∧ Queries .deadLetterCounts 0x0D0A hDeadLetterCounts always
      (fun s _ _ => enc [(8, s.trace.dead.tileRequests), (8, s.trace.dead.fabricResponses), (8, s.trace.dead.inbound),
        (8, s.trace.dead.quarantine), (8, s.trace.dead.doorbells), (8, s.trace.dead.orphanFaults),
        (8, s.trace.dead.letterboxPackets), (8, 0)])

/-- Timers and acknowledgements of the letterboxes: throttling ends (R38), a gap ends a command with BAD_PARAM (R63), the management
link answers (R63), a place of the poste restante comes due (R508), a vector leaves its quiet interval (R64).
The moment at which a timer's event acts is the model's (log 4). -/
def Obligations.LetterboxTimers : Prop :=
  (∀ (s : State) (lb : Nat), s.live = true → (s.box lb).state = .throttled → (s.box lb).binding ≠ .fabric →
    Ends (.throttleEnd lb) s ((s.reach (s.box lb).throttledUntil).modBox lb
      (fun b => { b with state := if b.enable then .opened else .idle })))
  ∧ (∀ (s : State) (lb : Nat), s.live = true → (s.box lb).state = .throttled → (s.box lb).binding = .fabric →
    Ends (.throttleEnd lb) s
      (let u := (s.reach (s.box lb).throttledUntil).modBox lb (fun b => { b with state := .opened, waiting := [] })
       { u with sniby := { u.sniby with atCp := u.sniby.atCp ++ (s.box lb).waiting } }))
  ∧ (∀ (s : State) (lb : Nat) (k : HeldCmd) (key : Key), s.live = true → s.cpServes = true → s.boot.tamperHeld = false →
    s.dg.pairs ≠ [] → (s.box lb).state ≠ .throttled → k.lb = lb →
    (s.box lb).waiting.find? (fun x => x.packet.sequence == k.packet.sequence) = some k → s.lbxKey lb = some key →
    Ends (.fabricPacketGapTimeout lb k.packet.sequence) s
      (((s.reach (k.since + Config.ms)).modBox lb (fun b => { b with waiting := b.waiting.erase k })).replyWith
        k.cmd key (s.box lb).session { status := .badParam, detail := 4 }))
  ∧ (∀ (s : State) (lb q : Nat), q ∈ (s.box lb).fabricRing →
    Ends (.managementLinkAck lb q) s (s.modBox lb (fun b => { b with fabricRing := b.fabricRing.erase q })))
  ∧ (∀ (s : State) (x : Place), s.live = true → s.cpServes = true → s.boot.blockState = .fullService →
    s.sniby.places.head? = some x →
    Ends .posteRestantePlaceDue s (State.servePlace handlerFor
      (let u := s.reach (s.sniby.lastDue + 25 * Config.us)
       { u with sniby := { u.sniby with lastDue := u.now, places := u.sniby.places.tail } }) x))
  ∧ (∀ (s : State) (link vector : Nat), s.live = true → link * 512 + vector ∈ s.boot.msixDeferred →
    Ends (.msixQuietEnd link vector) s (State.raise
      (let u := s.reach (tgetD s.boot.msixQuiet (link * 512 + vector) 0)
       { u with boot := { u.boot with msixDeferred := u.boot.msixDeferred.filter (fun j => j != link * 512 + vector) } })
      link vector))

/-- Writes by the host to a letterbox's page and to the registers of BAR0 (R34 to R36, R274, R490, R495). -/
def Obligations.HostWrites : Prop :=
  (∀ (s : State) (link lb : Nat) (v : BitVec 64), lb < 64 → link ∈ s.boot.hostUp → s.pagesLive = true →
    (s.box lb).onLink link = true → (s.box lb).state = .idle → bit v.toNat 0 = true →
    1 ≤ (s.box lb).cmdLog2 → (s.box lb).cmdLog2 ≤ 8 → (s.box lb).rplLog2 = (s.box lb).cmdLog2 →
    6 ≤ (s.box lb).ntcLog2 → (s.box lb).ntcLog2 ≤ 12 →
    Ends (.lbxControlWrite link lb v) s
      (((s.modBox lb (fun b => { b with msixEnable := bit v.toNat 1 })).modBox lb
        (fun b => { b with enable := true, state := if s.boxClosing lb then .closing else .opened })).flushHeld lb))
  ∧ (∀ (s : State) (link lb : Nat) (v : BitVec 64), lb < 64 → link ∈ s.boot.hostUp → s.pagesLive = true →
    (s.box lb).onLink link = true → (s.box lb).state = .idle → bit v.toNat 0 = true →
    ((s.box lb).cmdLog2 = 0 ∨ 8 < (s.box lb).cmdLog2 ∨ (s.box lb).rplLog2 ≠ (s.box lb).cmdLog2 ∨ (s.box lb).ntcLog2 < 6
      ∨ 12 < (s.box lb).ntcLog2) →
    Ends (.lbxControlWrite link lb v) s (s.modBox lb (fun b => { b with msixEnable := bit v.toNat 1 })))
  ∧ (∀ (s : State) (link lb : Nat) (v : BitVec 64), lb < 64 → link ∈ s.boot.hostUp → s.pagesLive = true →
    (s.box lb).onLink link = true → (s.box lb).state = .throttled →
    Ends (.lbxControlWrite link lb v) s
      (((s.modBox lb (fun b => { b with msixEnable := bit v.toNat 1 })).modBox lb
        (fun b => { b with enable := bit v.toNat 0 })).flushHeld lb))
  ∧ (∀ (s : State) (link lb : Nat) (v : BitVec 64), lb < 64 → link ∈ s.boot.hostUp → s.pagesLive = true →
    (s.box lb).onLink link = true → (s.box lb).state = .opened → bit v.toNat 0 = false →
    (s.sniby.blocked.all (fun e => e.1.lb != lb) = true →
      Ends (.lbxControlWrite link lb v) s
        (((s.modBox lb (fun b => { b with msixEnable := bit v.toNat 1 })).modBox lb
          (fun b => { b with enable := false })).modBox lb (fun b => { b with state := .idle })))
    ∧ (s.sniby.blocked.all (fun e => e.1.lb != lb) = false →
      Ends (.lbxControlWrite link lb v) s
        ((s.modBox lb (fun b => { b with msixEnable := bit v.toNat 1 })).modBox lb (fun b => { b with enable := false }))))
  ∧ (∀ (s : State) (link lb : Nat) (v : BitVec 64), lb < 64 → link ∈ s.boot.hostUp → s.pagesLive = true →
    s.boot.tamperHeld = false → (s.box lb).onLink link = true → (s.box lb).state ≠ .unbound → (s.box lb).state ≠ .closed →
    Ends (.lbxDoorbellWrite link lb v) s
      ((s.modBox lb (fun b => { b with cmdProduced := v.toNat % 65536, doorbellAt := s.now })).count (islandH link) 6 none 1))
  ∧ (∀ (s : State) (v : BitVec 64), 0 ∈ s.boot.hostUp →
    Ends (.registerWrite 0 16 v) s { s with boot := { s.boot with fwBase := v.toNat / 4096 } })
  ∧ (∀ (s : State) (link lb : Nat) (v : BitVec 64), link < 2 → link ∈ s.boot.hostUp → lb < 64 → s.pagesLive = true →
    (s.box lb).onLink link = true →
    Ends (.registerWrite link (1048576 + 4096 * lb + 40) v) s (s.modBox lb (fun b => { b with ntcConsumed := v.toNat % 65536 })))
  ∧ (∀ (s : State) (link lb : Nat) (v : BitVec 64), link < 2 → link ∈ s.boot.hostUp → lb < 64 → s.pagesLive = true →
    (s.box lb).onLink link = true → (s.box lb).state = .idle →
    Ends (.registerWrite link (1048576 + 4096 * lb) v) s
      (s.modBox lb (fun b => { b with cmdBase := v.toNat / 4096, cmdLog2 := v.toNat % 16 }))
    ∧ Ends (.registerWrite link (1048576 + 4096 * lb + 8) v) s
      (s.modBox lb (fun b => { b with rplBase := v.toNat / 4096, rplLog2 := v.toNat % 16 }))
    ∧ Ends (.registerWrite link (1048576 + 4096 * lb + 16) v) s
      (s.modBox lb (fun b => { b with ntcBase := v.toNat / 4096, ntcLog2 := v.toNat % 16 })))
  ∧ (∀ (s : State) (link lb off : Nat) (v : BitVec 64), link < 2 → link ∈ s.boot.hostUp → lb < 64 → off < 4096 →
    (off ∉ [0, 8, 16, 24, 32, 40] ∨ (off ∈ [0, 8, 16] ∧ (s.box lb).state ≠ .idle)
      ∨ (off ≠ 32 ∧ (s.pageTakes link lb = false ∨ s.pagesLive = false))) →
    Ends (.registerWrite link (1048576 + 4096 * lb + off) v) s s)
  ∧ (∀ (s : State) (link h : Nat) (v : BitVec 64), link < 2 → link ∈ s.boot.hostUp → h < 256 → s.pagesLive = true →
    ((s.ring link h).state = .disabled →
      Ends (.registerWrite link (2097152 + 4096 * h) v) s
        (s.modRing link h (fun e => { e with descBase := v.toNat / 4096, descLog2 := v.toNat % 16 }))
      ∧ Ends (.registerWrite link (2097152 + 4096 * h + 8) v) s
        (s.modRing link h (fun e => { e with cplBase := v.toNat / 4096, cplLog2 := v.toNat % 16 })))
    ∧ Ends (.registerWrite link (2097152 + 4096 * h + 24) v) s
      ((s.modRing link h (fun e => { e with produced := v.toNat % 65536 })).count (islandH link) 6 none 1))
  ∧ (∀ (s : State) (link h off : Nat) (v : BitVec 64), link < 2 → link ∈ s.boot.hostUp → h < 256 → off < 4096 →
    (off ∉ [0, 8, 16, 24] ∨ (off ∈ [0, 8] ∧ (s.ring link h).state ≠ .disabled) ∨ s.pagesLive = false) →
    Ends (.registerWrite link (2097152 + 4096 * h + off) v) s s)
  ∧ (∀ (s : State) (link off : Nat) (v : BitVec 64), link < 2 → link ∈ s.boot.hostUp → off < 5136 →
    Ends (.registerWrite link (4194304 + off) v) s
      { s with boot := { s.boot with msixTable := tput s.boot.msixTable (link * 2 ^ 32 + (4194304 + off)) v } })
  ∧ (∀ (s : State) (link off : Nat) (v : BitVec 64), link < 2 → link ∈ s.boot.hostUp →
    (off ∉ [16, 24] ∧ off < 1048576 ∨ off = 16 ∧ link = 1 ∨ 1310720 ≤ off ∧ off < 2097152 ∨ 3145728 ≤ off ∧ off < 4194304
      ∨ 4199440 ≤ off) →
    Ends (.registerWrite link off v) s s)
  ∧ (∀ (s : State) (link h : Nat) (v : BitVec 64) (r : JobRoot) (e : EnvRing), link < 2 → link ∈ s.boot.hostUp → h < 256 →
    s.pagesLive = true → tget s.kv.jobRoots h = some r → r.state = .active →
    e = ((s.modRing link h (fun e => { e with msix := bit v.toNat 1 })).ring link h) →
    e.state = .disabled → e.valid = true → bit v.toNat 0 = true →
    (s.modRing link h (fun e => { e with msix := bit v.toNat 1 })).serving h = true →
    Ends (.envControlWrite link h v) s
      (let u := s.modRing link h (fun e => { e with msix := bit v.toNat 1 })
       ((((u.draw 64).2.derived 1).derived 1).keyHeldBy h (islandH link)).modRing link h (fun e => { e with
         state := .enabled, enable := true, nextSeq := 1, session := (u.draw 64).1, tagFails := 0, doneCount := 0,
         sk0 := some (sessionKey (envKey r.jrk link 0) (u.draw 64).1),
         sk1 := some (sessionKey (envKey r.jrk link 1) (u.draw 64).1) })))
  ∧ (∀ (s : State) (v : BitVec 64), s.live = true → 0 ∈ s.boot.hostUp → s.wantsImage = true → bit v.toNat 63 = true →
    4160 ≤ v.toNat % 2 ^ 32 → v.toNat % 2 ^ 32 ≤ 4259840 →
    Ends (.fwLoadGo 0 v) s
      (let u : State := { s with boot := { s.boot with
         fwLength := v.toNat % 2 ^ 32, goLatched := false, fetchLength := v.toNat % 2 ^ 32 } }
       (u.setBootCode 0xFE).emit (.hostRead 0 (s.boot.fwBase * 4096) (v.toNat % 2 ^ 32))))
  ∧ (∀ (s : State) (v : BitVec 64), s.boot.powered = true → s.boot.inReset = true → 0 ∈ s.boot.hostUp → s.wantsImage = true →
    bit v.toNat 63 = true →
    Ends (.fwLoadGo 0 v) s { s with boot := { s.boot with fwLength := v.toNat % 2 ^ 32, goLatched := true } })

/-- The firmware image (R113 to R117), and reads and writes of device memory by the host (R174, R493).
HSS verification is computed from its standard, under keys that are free values (log 5); when BAR2 is served is in part the model's reading (log 36). -/
def Obligations.HostMemory : Prop :=
  (∀ (s : State) (i : FwImage), s.live = true → s.boot.bootCode = 0xFE → s.fwCheck i = 0 →
    Ends (.firmwareImageFetched i) s
      (let key : BitVec 256 := match Config.bootRomKey i.keyId.toNat with
         | some k => if i.signing = 0 then 0 else labelled "FW-KEY" (i.keyId :: k)
         | none => 0
       let u := ((s.fwDigests i).extend 3 (fwMeasure i)).extend 4 key
       (State.setBootCode { u with boot := { u.boot with
         fwMeasurement := fwMeasure i, fwSigned := decide (i.signing ≠ 0), fwKeyId := i.keyId.toNat,
         fwVersion := i.version.toNat, fwRunning := true } } 0).handshakeReady))
  ∧ (∀ (s : State) (i : FwImage), s.live = true → s.boot.bootCode = 0xFE → s.fwCheck i ≠ 0 →
    Ends (.firmwareImageFetched i) s ((s.fwDigests i).imageRefused (s.fwCheck i)))
  ∧ (∀ (s : State) (link len tag : Nat) (off : BitVec 64), s.barServes link = true → 0 < len → len ≤ 4096 →
    s.barRefused off.toNat len = false →
    Ends (.bar2Read link off len tag) s (s.barAccess (.bar link tag) .read off.toNat len []))
  ∧ (∀ (s : State) (link len tag : Nat) (off : BitVec 64), s.live = true → link ∈ s.boot.hostUp → s.barServes link = false →
    0 < len → len ≤ 4096 → Ends (.bar2Read link off len tag) s (s.emit (.barData link tag (zeros len))))
  ∧ (∀ (s : State) (link len tag : Nat) (off : BitVec 64), s.barServes link = true → 0 < len → len ≤ 4096 →
    s.barRefused off.toNat len = true →
    Ends (.bar2Read link off len tag) s
      (State.emit { s with mem := { s.mem with protectedRefusals := sat64 s.mem.protectedRefusals } } (.barData link tag (zeros len))))
  ∧ (∀ (s : State) (link : Nat) (off : BitVec 64) (data : Bytes), s.barServes link = true → 0 < data.length →
    data.length ≤ 4096 → s.barRefused off.toNat data.length = false →
    Ends (.bar2Write link off data) s (s.barAccess (.bar link 0) .write off.toNat data.length (data.map some)))
  ∧ (∀ (s : State) (link : Nat) (off : BitVec 64) (data : Bytes), s.barServes link = true → 0 < data.length →
    data.length ≤ 4096 → s.barRefused off.toNat data.length = true → Ends (.bar2Write link off data) s s.barCounted)

/-- Envelopes: a descriptor is opened under its session key, in order of its sequence number, and its transfer begins
(R275 to R279).
GCM is computed from its standard (log 5). -/
def Obligations.Envelopes : Prop :=
  (∀ (s : State) (link h : Nat) (d : EnvDesc) (page plain : Bytes) (j : Job) (k : Key), d.op = 1 → s.envReads link h = true →
    firstBad (descFields d) = none → s.job h = some j → (s.ring link h).sk0 = some k →
    d.descSeq.toNat = (s.ring link h).nextSeq → d.descSeq.toNat < 0xFFFFF000 → d.job.toNat = j.number →
    gcmOpen k (envIv d.descSeq 1) (descBytes d) (slice page 0 d.length.toNat) (bytesOf d.tag) = some plain →
    Ends (.envelopeToDevice link h d page) s
      ((((s.modRing link h (fun e => { e with taken := ((s.ring link h).taken + 1) % 65536 })).count (islandH link) 5 none
          (64 + d.length.toNat)).modRing link h (fun e => { e with nextSeq := e.nextSeq + 1 })).envAccess link h
        (s.ring link h).taken j d plain))
  ∧ (∀ (s : State) (link h : Nat) (d : EnvDesc) (plain : Bytes) (j : Job) (k : Key), d.op = 2 → s.envReads link h = true →
    firstBad (descFields d) = none → s.job h = some j → (s.ring link h).sk0 = some k →
    d.descSeq.toNat = (s.ring link h).nextSeq → d.descSeq.toNat < 0xFFFFF000 → d.job.toNat = j.number →
    gcmOpen k (envIv d.descSeq 1) (descBytes d) [] (bytesOf d.tag) = some plain →
    Ends (.envelopeToHost link h d) s
      ((((s.modRing link h (fun e => { e with taken := ((s.ring link h).taken + 1) % 65536 })).count (islandH link) 5 none
          64).modRing link h (fun e => { e with nextSeq := e.nextSeq + 1 })).envAccess link h
        (s.ring link h).taken j d plain))

/-- Requests of tiles (R163, R177, R311, R322, R351): one that is admitted goes to its region, its fence or its descriptor; one
that is not is answered, or withheld.
What is withheld is the model's reading (log 19). -/
def Obligations.TileRequests : Prop :=
  (∀ (s : State) (t j : Nat) (h : TileHead), h.op = 1 → s.tileEntry t h = .job j →
    h.address.toNat / 2 ^ 48 = s.boot.nodeNumber → s.boot.nodeNumber ≠ 0xFFFF →
    Ends (.tileRead t h) s (s.regionAccess (remAsk t j h [] []) false))
  ∧ (∀ (s : State) (t j : Nat) (h : TileHead) (data : Bytes) (mask : List Bool) (lane : Bool), h.op = 2 →
    s.tileEntry t h = .job j → h.address.toNat / 2 ^ 48 = s.boot.nodeNumber → s.boot.nodeNumber ≠ 0xFFFF →
    Ends (.tileWrite t h data mask lane) s ((s.verifyLane lane).regionAccess (remAsk t j h data mask) false))
  ∧ (∀ (s : State) (t j : Nat) (h : TileHead), h.op = 3 → s.tileEntry t h = .job j →
    h.address.toNat / 2 ^ 48 = s.boot.nodeNumber → s.boot.nodeNumber ≠ 0xFFFF →
    Ends (.tileAtomic t h) s (s.regionAccess (remAsk t j h [] []) false))
  ∧ (∀ (s : State) (a : RemAsk) (n : Nat) (r : Region),
    s.regionAt a.handle false (a.address % 2 ^ 48) a.length = some (n, r) → s.regionCheck a.handle r a.op a.keyIndex = none →
    s.regionAccess a false = s.submit {
      origin := .tile a.tile a.tag, kind := if a.op = 1 then .read else if a.op = 2 then .write else .atomic,
      ctx := some a.ctx, keyIndex := if r.cls = .opened then 0 else a.keyIndex, region := n, address := a.address % 2 ^ 48,
      length := a.length, tc := a.tc,
      bytes := if a.op = 2 then ((slice a.data 0 a.length).zip a.mask).map (fun e => if e.2 then some e.1 else none) else [],
      atomicOp := a.atomicOp, operand := a.operand, compare := a.compare })
  ∧ (∀ (s : State) (t j : Nat) (h : TileHead) (data : Bytes) (mask : List Bool) (lane : Bool), h.op = 2 →
    s.tileEntry t h = .job j → h.address.toNat / 2 ^ 48 ≠ s.boot.nodeNumber → h.address.toNat / 2 ^ 48 ≠ 0xFFFF →
    s.boot.nodeNumber ≠ 0xFFFF → s.isTray (h.address.toNat / 2 ^ 48) = false →
    Ends (.tileWrite t h data mask lane) s ((s.verifyLane lane).issue (remAsk t j h data mask)))
  ∧ (∀ (s : State) (t j : Nat) (h : TileHead), h.op = 4 → s.tileEntry t h = .job j → bits h.address.toNat 12 0 ≤ 8127 →
    (s.fenceObj (bits h.address.toNat 12 0)).state = .idle → (s.fenceObj (bits h.address.toNat 12 0)).handle = j →
    Ends (.tileFence t h) s ((s.arm (bits h.address.toNat 12 0) (bits h.address.toNat 31 16)
      (s.scopeNodes j (bits h.address.toNat 31 16))
      (fun x => { x with tileReq := some (t * 65536 + h.tag.toNat), tileCtx := h.ctx.toNat })).fencesSettle))
  ∧ (∀ (s : State) (t j : Nat) (h : TileHead) (image : Bytes), h.op = 5 → s.tileEntry t h = .job j →
    s.chunkRefusal j h (bits h.address.toNat 9 0) (bits h.address.toNat 39 16) = none →
    s.tc0Full h.ctx.toNat j h.tc.toNat (s.desc (bits h.address.toNat 9 0)).port = false →
    Ends (.reduceContribute t h image) s
      (let n := bits h.address.toNat 9 0
       let tc := (s.reclass j h.tc.toNat).1
       let charged := (s.reclass j h.tc.toNat).2.charge (some h.ctx.toNat) j tc 1 (s.desc n).port 544 none
       let u := ((charged.2.tc0Wait charged.1 (s.desc n).port).modCounters j (fun k => { k with
         requests := addAt k.requests tc 1, bytes := addAt k.bytes tc 544 })).count islandXB 2 (some tc) 1
       let v := if charged.1 = 0 then u.count islandXB 6 (some tc) 1 else u
       let w : State := { v with mem := { v.mem with nextId := v.mem.nextId + 1 } }
       (w.modDesc n (fun y => { y with
         contributed := bits h.address.toNat 39 16 :: y.contributed,
         waiting := y.waiting ++ [{ chunk := bits h.address.toNat 39 16, image := slice image 0 h.length.toNat, tile := t,
                                    tag := h.tag, accepted := v.now, tc := tc, id := v.mem.nextId, level := charged.1,
                                    within := charged.1 != 0 }] })).flushDesc n))
  ∧ (∀ (s u : State) (t : Nat) (h : TileHead) (data : Bytes) (mask : List Bool) (lane : Bool), s.tileEntry t h = .answered u →
    (h.op = 1 → Ends (.tileRead t h) s u) ∧ (h.op = 2 → Ends (.tileWrite t h data mask lane) s (u.verifyLane lane))
    ∧ (h.op = 3 → Ends (.tileAtomic t h) s u) ∧ (h.op = 4 → Ends (.tileFence t h) s u)
    ∧ (h.op = 5 → Ends (.reduceContribute t h data) s u))
  ∧ (∀ (s : State) (t : Nat) (h : TileHead) (data : Bytes) (mask : List Bool) (lane : Bool), s.tileEntry t h = .withheld →
    Ends (.tileRead t h) s s ∧ Ends (.tileWrite t h data mask lane) s (s.verifyLane lane) ∧ Ends (.tileAtomic t h) s s
    ∧ Ends (.tileFence t h) s s ∧ Ends (.reduceContribute t h data) s s)

/-- Keys, data and metadata come back to the units that asked for them (R99, R164 to R169, R189, R214).
Data keys are computed from the standards (log 5); what memory returns is an operand (log 8).  The operand that names an SRAM error
of a root is the model's (log 66), and so is code 1 of the SECTOR record of a read of an OPEN region (log 69). -/
def Obligations.ReturningData : Prop :=
  (∀ (s u v : State) (r : KeyReq) (i g : Nat) (root : JobRoot) (lane : Bool),
    s.kv.requests.find? (fun x => x.id == r.id && x.ready) = some r → r.kind = .data i g → u = s.verifyLane lane →
    (u.scheduleRoom r.island).1 = true →
    v = (State.scheduleRoom (State.keyHeldBy { u with kv := { u.kv with
      requests := u.kv.requests.filter (fun x => x.id != r.id) } } r.handle r.island) r.island).2 →
    tget v.kv.jobRoots r.handle = some root →
    Ends (.keyDelivered r.id lane) s
      ((State.settleAll 6 { v with kv := { v.kv with
         schedules := v.kv.schedules ++ [{ island := r.island, handle := r.handle, index := i, gen := g,
                                           key := dataKey root.jrk i g, lastUse := v.now }] } }).runBacks.subtreesRun).turn)
  ∧ (∀ (s : State) (r : KeyReq) (i g : Nat) (lane : Bool),
    s.kv.requests.find? (fun x => x.id == r.id && x.ready) = some r → r.kind = .data i g →
    ((s.verifyLane lane).scheduleRoom r.island).1 = false →
    Ends (.keyDelivered r.id lane) s (((s.verifyLane lane).scheduleRoom r.island).2.runBacks).turn)
  ∧ (∀ (s : State) (r : KeyReq) (n : Nat) (lane : Bool),
    s.kv.requests.find? (fun x => x.id == r.id && x.ready) = some r → r.kind = .reduce n →
    Ends (.keyDelivered r.id lane) s
      (let u := s.verifyLane lane
       (State.keyHeldBy { u with kv := { u.kv with requests := u.kv.requests.filter (fun x => x.id != r.id) } } r.handle
         r.island).reduceKeyDelivered r.handle n))
  ∧ (∀ (s : State) (o : SecOp) (d : SectorData) (lane : Bool), s.secOp o.id = some o → o.stage = .reading → o.got = none →
    (s.regionX o.region).cls ≠ .opened →
    Ends (.memoryReadData o.island o.id d lane) s
      (((s.verifyLane lane).setOp { o with got := some d }).openStep { o with got := some d }).turn)
  ∧ (∀ (s : State) (o : SecOp) (d : SectorData) (lane : Bool), s.secOp o.id = some o → o.stage = .reading → o.got = none →
    (s.regionX o.region).cls = .opened → d.ue = false → o.kind ≠ .atomic →
    Ends (.memoryReadData o.island o.id d lane) s
      (((((s.verifyLane lane).sectorRec o 1).islandCount o 2 1).deliverTo o (slice d.bytes 0 (s.regionX o.region).sector)).dropOp
        o.id).turn)
  ∧ (∀ (s : State) (o : SecOp), s.secOp o.id = some o → o.stage = .writing → o.writes ≤ 1 →
    Ends (.memoryWriteAccepted o.island o.id) s
      ((State.settleAll 6 (State.evict o.island 0 16 (s.written o))).runBacks.subtreesRun.turn))
  ∧ (∀ (s : State) (port : Nat) (o : SecOp) (d : SectorData) (lane : Bool), s.fabricTakes port = true → port ∉ s.fault.portsHung →
    s.secOp o.id = some o → o.island = islandP port → o.stage = .reading → o.got = none → (s.regionX o.region).cls ≠ .opened →
    Ends (.trayReadData port o.id d lane) s
      ((((s.verifyLane lane).count (islandP port) 5 (some o.tc) (64 + d.bytes.length)).setOp
        { o with got := some d }).openStep { o with got := some d }).turn)
  ∧ (∀ (s : State) (port nth : Nat) (o : SecOp), port < 32 → s.fabricTakes port = true → port ∉ s.fault.portsHung →
    s.secOp o.id = some o → o.island = islandP port → o.stage = .writing → 1 < o.writes →
    ((s.count (islandP port) 5 (some 3) 64).resumeAck port nth o.id).secOp o.id = some o →
    Ends (.trayWriteAck (port + 32 * nth) o.id) s
      ((State.settleAll 6 (State.evict (islandP port) 0 16
        ((((s.count (islandP port) 5 (some 3) 64).resumeAck port nth o.id).setOp { o with writes := o.writes - 1 }).recordAck
          (some port) port nth o.id))).runBacks.subtreesRun.turn))
  ∧ (∀ (s : State) (f : Fetch) (b : Bytes) (ue root lane : Bool),
    s.mem.fetches.find? (fun x => x.id == f.id && x.island == f.island && x.got.isNone) = some f → f.island < 48 →
    Ends (.metadataFetchReturn (if root then f.island + 64 else f.island) f.id b ue lane) s
      (let r := if root then (s.verifyLane lane).rootFails f.key else s.verifyLane lane
       let u := if 16 ≤ f.island then r.count f.island 5 (some f.tc) (64 + b.length) else r
       (State.settleAll 6 { u with mem := { u.mem with
         fetches := u.mem.fetches.map (fun x => if x.id = f.id then { x with got := some (b, ue) } else x) } }).runBacks.subtreesRun.turn))

/-- The run-ahead's trackers and the windows of write combining end, a leaf wraps, and the courier starts a pass and goes
through its sectors (R179, R218, R220, R227, R229).
The moment at which a timer's event acts is the model's (log 4), and what memory returns is an operand (log 8). -/
def Obligations.SectorTimers : Prop :=
  (∀ (s : State) (island k : Nat) (t : Tracker), s.live = true →
    (s.mem.trackers.filter (fun x => x.island == island))[k]? = some t →
    Ends (.streamTrackerExpired island k) s
      (let u := s.reach (t.at_ + 10 * Config.us)
       { u with mem := { u.mem with trackers := u.mem.trackers.erase t } }))
  ∧ (∀ (s : State) (region sector : Nat) (e : WcEntry), s.live = true → s.wcEntry region sector = some e →
    Ends (.wcWindowExpired e.island region sector) s
      (((s.reach (e.first + (s.region region).wcWindow * 4)).flushEntry e).turn))
  ∧ (∀ (s : State) (island region leaf : Nat) (data : List SectorData) (o : SecOp) (old : Node) (dk : Key),
    (s.wrapsOf island).find? (fun x => x.region == region && x.sector / 64 == leaf) = some o →
    (∀ x ∈ s.mem.ops, x.region = region → x.sector / 64 = leaf → x.stage ≠ .reading ∧ x.stage ≠ .writing) →
    (s.region region).pooled = false →
    (s.entry (s.region region).handle o.keyIndex).seals + (s.leafGroup region leaf).length ≤ 2 ^ 34 →
    (∀ k ∈ s.leafGroup region leaf, ∀ g ∈ s.openGens region (s.region region).handle k o.keyIndex,
      s.schedule? island (s.region region).handle o.keyIndex g ≠ none) →
    s.schedule? island (s.region region).handle o.keyIndex (s.entry (s.region region).handle o.keyIndex).gen = some dk →
    s.nodeAt region 1 leaf = .found old → s.laneOff = false → usableKey dk = true →
    Ends (.leafWrap island region leaf data false) s
      (let held := s.holdPath region leaf
       if held.pathHeld region leaf then held.wrapLeaf island region leaf data o old dk else held.runBacks))
  ∧ (∀ (s : State) (h i : Nat) (ops : List Nat) (rest : List (Nat × Nat × List Nat)), s.courier.armed = (h, i, ops) :: rest →
    s.courier.passes.length < 64 →
    (∀ n ∈ s.passRegions h i, (s.region n).courier = none ∧ (s.region n).state ≠ .suspended) →
    (s.entry h i).state = .live → (s.entry h i).gen ≠ 0xFE →
    Ends .courierPassStart s
      (let g := (s.entry h i).gen + 1
       let u := (s.passRegions h i).foldl (fun x n => x.modRegion n (fun r => { r with
         courier := some { index := i, gen := g, watermark := 0 }, state := if r.state = .active then .rekeying else r.state })) s
       let v := (u.setEntry h i { gen := g, state := .live, seals := 0 }).uncacheEntry h i
       let p : Pass := {
         handle := h, index := i, gen := g, state := .starting, regions := s.passRegions h i, ops := ops,
         waits := (v.mem.ops.filter (fun o => o.keyIndex == i && (v.regionX o.region).handle == h
           && (o.stage == .writing || o.stage == .wrapping))).map (·.id) }
       State.passesRun { v with courier := { v.courier with
         armed := rest, passes := v.courier.passes ++ [p],
         limitPosted := v.courier.limitPosted.filter (fun x => x != (h, i)) } }))
  ∧ (∀ (s : State) (n island : Nat) (d : SectorData) (c : CourierField) (p : Pass) (leaf : Node) (old new : Key),
    (s.region n).courier = some c → s.courier.passes.find? (fun p => decide (n ∈ p.regions) && s.walks p n) = some p →
    s.regionIsland (s.region n) = some island → (s.region n).pooled = false →
    atLimit (s.entry (s.region n).handle c.index) = false →
    c.watermark < (s.region n).sectors →
    (∀ o ∈ s.mem.ops, o.region = n → o.sector ≠ c.watermark
      ∧ ¬((o.stage = .wrapping ∨ o.group = true) ∧ o.sector / 64 = c.watermark / 64)) →
    ((s.region n).cls ≠ .fresh ∧ leaf = {} ∨ (s.region n).cls = .fresh ∧ s.nodeAt n 1 (c.watermark / 64) = .found leaf
      ∧ leaf.childZero (c.watermark % 64) = false) →
    s.schedule? island (s.region n).handle c.index (c.gen - 1) = some old →
    s.schedule? island (s.region n).handle c.index c.gen = some new → d.ue = false → usableKey old = true →
    usableKey new = true →
    frankOf old (lbnOf n (s.region n) c.watermark) (versionOf (s.region n).cls leaf c.watermark) d.bytes
      = s.storedFrank (s.passOp n c.watermark island c.index) d →
    s.laneOff = false →
    Ends (.courierStep n d false) s ((s.walkedOn (s.region n) island).2.passSector n c.watermark island
      (s.walkedOn (s.region n) island).1 c
      (xtsDecrypt old (lbnOf n (s.region n) c.watermark) (versionOf (s.region n).cls leaf c.watermark) d.bytes) new
      (versionOf (s.region n).cls leaf c.watermark)))

/-- HELLO, ACCEPT and CONFIRM take a place of the poste restante, and REFUSE defers or ends an attempt (R248, R249, R508).
That a packet takes a place until it is served, and that a BUSY which comes while a deferral runs adds only what lies past its end, are
the model's (log 23, log 56). -/
def Obligations.HandshakeMessages : Prop :=
  (∀ (s : State) (port h : Nat) (p : MsgPacket), Heard s port → p.kind = 0x20 → p.revision = Config.revisionByte →
    wellFormedPacket s.boot.nodeNumber p = true → s.handleOf p.job.toNat = some h → s.serving h = true →
    p.src.toNat ∉ s.assocs.revoked →
    (∀ k q, Place.message k q ∈ s.sniby.places → q ≠ p) → s.sniby.places.length < 80 →
    Ends (.helloReceived port p) s ((s.heard port p).takePlace (.message port p)))
  ∧ (∀ (s : State) (port h : Nat) (p : MsgPacket), Heard s port → p.kind = 0x20 → p.revision = Config.revisionByte →
    wellFormedPacket s.boot.nodeNumber p = true → s.handleOf p.job.toNat = some h → s.serving h = true →
    p.src.toNat ∉ s.assocs.revoked → (∀ k q, Place.message k q ∈ s.sniby.places → q ≠ p) → 80 ≤ s.sniby.places.length →
    Ends (.helloReceived port p) s ((s.heard port p).refuseHello port p.src.toNat p.job.toNat))
  ∧ (∀ (s : State) (port h : Nat) (p : MsgPacket), Heard s port → p.revision = Config.revisionByte →
    wellFormedPacket s.boot.nodeNumber p = true → s.handleOf p.job.toNat = some h → s.serving h = true →
    p.src.toNat ∉ s.assocs.revoked → s.sniby.places.length < 4096 →
    (p.kind = 0x21 → Ends (.acceptReceived port p) s ((s.heard port p).takePlace (.message port p)))
    ∧ (p.kind = 0x22 → Ends (.confirmReceived port p) s ((s.heard port p).takePlace (.message port p))))
  ∧ (∀ (s : State) (port h : Nat) (p : MsgPacket), Heard s port → p.kind = 0x23 →
    wellFormedPacket s.boot.nodeNumber p = true → s.handleOf p.job.toNat = some h → p.src.toNat ∉ s.assocs.revoked →
    (Status.ofCode (field p.body 0 2) = some .busy → Ends (.refuseReceived port p) s
      (let t := s.now + field p.body 2 4 * Config.us
       (s.heard port p).modAssocs (fun x => { x with
         noHello := tput x.noHello p.src.toNat (max (tgetD x.noHello p.src.toNat 0) t),
         entries := x.entries.map (fun a => if a.peer = p.src.toNat ∧ a.state = .calling then { a with
           dueAt := max a.dueAt t, deferred := a.deferred + (t - max s.now a.deferUntil), deferUntil := max a.deferUntil t }
           else a) })))
    ∧ (∀ a, s.assoc h p.src.toNat = some a → a.state = .calling → Status.ofCode (field p.body 0 2) = some .revisionMismatch →
      Ends (.refuseReceived port p) s
        ((s.heard port p).otherRevision.abandonAttempt a .revisionMismatch (field p.body 6 1))))

/-- The timers of associations (R248, R249, R259 to R261), and the keys of a step.
The moment at which a timer's event acts is the model's (log 4). -/
def Obligations.AssociationTimers : Prop :=
  (∀ (s : State) (h peer : Nat) (a : Assoc) (q : MsgPacket), s.live = true → s.assoc h peer = some a → a.state = .calling →
    a.sends < 8 → a.deferred ≤ 1000 * Config.ms → a.hello = some q → s.fault.isolated = false →
    Ends (.helloResendTimer h peer) s
      (let u := s.reach (max a.dueAt (tgetD s.assocs.noHello peer 0))
       (u.modAssoc h peer (fun x => { x with sends := x.sends + 1, dueAt := u.now + 25 * Config.us })).handOver a.home h
         a.proposed q))
  ∧ (∀ (s : State) (h peer t : Nat) (a : Assoc), s.live = true → s.assoc h peer = some a → a.state = .calling → a.sends ≠ 0 →
    a.deferred ≤ 1000 * Config.ms → s.handshakeDue h peer = some t →
    Ends (.handshakeTimeout h peer) s ((s.reach t).abandonAttempt a .timeout 0))
  ∧ (∀ (s : State) (h peer t e : Nat) (a : Assoc) (salt : BitVec 48) (ni nr : BitVec 64), s.live = true →
    s.assoc h peer = some a → a.answer = some (e, salt, ni, nr, t) → a.state ≠ .answered →
    Ends (.answeredAttemptExpired h peer) s ((s.reach (t + 200 * Config.us)).modAssoc h peer
      (fun x => { x with answer := none, accept := none, answerKeys := (0, 0) })))
  ∧ (∀ (s : State) (h peer t e : Nat) (a : Assoc) (salt : BitVec 48) (ni nr : BitVec 64), s.live = true →
    s.assoc h peer = some a → a.answer = some (e, salt, ni, nr, t) → a.state = .answered →
    (∀ q ∈ ((s.reach (t + 200 * Config.us)).removeAssoc h peer).remote.reqs, ¬(q.handle = h ∧ q.node = peer)) →
    Ends (.answeredAttemptExpired h peer) s ((s.reach (t + 200 * Config.us)).removeAssoc h peer))
  ∧ (∀ (s : State) (h peer : Nat) (a : Assoc), s.live = true → s.assoc h peer = some a → a.seals = true →
    a.waitKeys = false →
    Ends (.ratchetEpochTimer h peer) s ((s.reach (a.enteredAt + 60000 * Config.ms)).ratchetTrigger h peer))
  ∧ (∀ (s : State) (h peer : Nat) (a : Assoc) (r : KeyReq) (root : JobRoot) (lane : Bool), s.assoc h peer = some a →
    s.kv.requests.find? (fun x => x.handle == h && x.ready && x.kind == .assoc peer (a.epoch + 1)) = some r →
    tget s.kv.jobRoots h = some root → a.waitKeys = true →
    Ends (.ratchetKeysReady h peer lane) s
      (let m := assocKeys root.jrk s.boot.nodeNumber peer (a.epoch + 1)
       let u := s.verifyLane lane
       (State.keyHeldBy { u with kv := { u.kv with requests := u.kv.requests.filter (fun x => x.id != r.id) } } h r.island).switchEpoch h
         peer (if s.boot.nodeNumber < peer then (m.extractLsb' 0 256, m.extractLsb' 256 256)
               else (m.extractLsb' 256 256, m.extractLsb' 0 256))))
  ∧ (∀ (s : State) (h peer : Nat) (a : Assoc) (new old : Epoch), s.live = true → s.assoc h peer = some a →
    a.state = .ratcheting → a.learnedAt = none → a.epochs = [new, old] → a.resends < 8 →
    Ends (.ratchetResendTimer h peer) s
      (((s.reach a.resendAt).sealRatchet h peer old.number new.number).modAssoc h peer (fun x =>
        { x with resends := x.resends + 1, resendAt := x.resendAt + 50 * Config.us })))
  ∧ (∀ (s : State) (h peer : Nat) (a : Assoc) (new old : Epoch), s.live = true → s.assoc h peer = some a →
    a.state = .ratcheting → a.learnedAt = none → a.epochs = [new, old] → a.resends = 8 →
    Ends (.ratchetResendTimer h peer) s
      (((s.reach a.resendAt).modAssoc h peer (fun x => { x with resends := 9 })).post 0x0703 .timeout
        (assocObject (s.numberOf h) peer) (assocPayload new.number 0 0) [h]))
  ∧ (∀ (s : State) (h peer t : Nat) (a : Assoc), s.live = true → s.assoc h peer = some a → a.learnedAt = some t →
    Ends (.epochDrainTimer h peer) s
      (((s.reach (t + 200 * Config.us)).modAssoc h peer (fun x => { x with drained := true })).stepEnd h peer))
  ∧ (∀ (s : State) (h peer t : Nat) (a : Assoc), s.live = true → s.assoc h peer = some a → a.trigger = true →
    a.lastStep = some t → (s.reach (t + Config.ms)).mayStep a = true →
    Ends (.ratchetSpacingElapsed h peer) s ((s.reach (t + Config.ms)).beginStep a))

/-- What DATA and RATCHET packets carry (R255, R260, R290, R292, R295, R298 to R301, R315, R319). -/
def Obligations.CarriedMessages : Prop :=
  Brings (fun port p => .remoteLoad port p) 0x01
      (fun s h peer tc port b => s.streamArrives h peer tc port b)
  ∧ (∀ lane : Bool, BringsFrom (fun s => s.verifyLane lane) (fun port p => .remoteStore port p lane) 0x02
      (fun s h peer tc port b => s.streamArrives h peer tc port b))
  ∧ Brings (fun port p => .remoteAtomic port p) 0x03
      (fun s h peer tc port b => s.streamArrives h peer tc port b)
  ∧ Brings (fun port p => .drainMarker port p) 0x04
      (fun s h peer tc _ b => s.sealData h peer tc (controlBody 0x84 (s.mapEpochOf h) (hdr b 21 1)))
  ∧ Brings (fun port p => .redirectReceived port p) 0x05 (fun s h peer _ _ b => s.redirected h peer (hdr b 20 1))
  ∧ Brings (fun port p => .redirectAck port p) 0x06 (fun s h peer tc port b => s.streamArrives h peer tc port b)
  ∧ Brings (fun port p => .loadResponse port p) 0x81 (fun s h peer tc _ b => s.response h peer tc b)
  ∧ Brings (fun port p => .storeAck port p) 0x82
      (fun s h peer tc _ b => (s.modAssoc h peer (fun a => { a with mapEpoch := hdr b 20 1 })).appliedThrough h peer tc
        (hdr b 24 4))
  ∧ Brings (fun port p => .atomicResponse port p) 0x83 (fun s h peer tc _ b => s.response h peer tc b)
  ∧ Brings (fun port p => .drainAck port p) 0x84
      (fun s h peer _ _ b => (s.modAssoc h peer (fun a => { a with mapEpoch := hdr b 20 1 })).drained (fun m => m.node == peer && m.tray == false && m.epoch == hdr b 21 1))
  ∧ Brings (fun port p => .storeNak port p) 0x86 (fun s h peer tc _ b => s.response h peer tc b)
  ∧ (∀ (s : State) (port : Nat) (p : MsgPacket) (h : Nat) (e : Epoch) (plain : Bytes), p.kind = 0x24 →
    Carries s port p h e plain → field plain 4 4 = 0 →
    Ends (.ratchetReceived port p) s
      (((s.carried port p h e).gotRatchet h p.src.toNat e.number (field plain 0 4) p.sequence.toNat).stepEnd h p.src.toNat))

/-- A request of another node: at its stream's cursor it is passed on and checked against its window (R298, R309); an atomic that
is sent again is answered by its pigeonhole (R315).  A response ends the request that it answers (R301). -/
def Obligations.RemoteRequests : Prop :=
  (∀ (s : State) (h peer tc port : Nat) (b : Bytes) (a : Assoc), s.assoc h peer = some a →
    hdr b 4 4 = (a.streams.getD tc {}).cursor →
    s.streamArrives h peer tc port b = State.passHeld h peer tc a.heldAhead.length
      ((s.modStream h peer tc (fun t => { t with cursor := nextOrdinal t.cursor })).pass h peer tc false b))
  ∧ (∀ (s : State) (i : Inbound) (b : Bytes) (j : Job) (n key : Nat) (w : Window), s.job i.handle = some j →
    j.state ≠ .closing → ¬(i.op = 3 ∧ (i.dup = true ∨ hdr b 1 1 = 1)) →
    (s.confirmHoles i (hdr b 32 4)).windowCheck i j b = .ok (n, w, key) →
    s.inbound i b =
      (((s.confirmHoles i (hdr b 32 4)).count islandXB 4 (some i.tc) 1).modCounters i.handle
        (fun k => { k with inbound := sat64 k.inbound })).submit {
          origin := .stream { i with window := n }, kind := if i.op = 1 then .read else if i.op = 2 then .write else .atomic,
          ctx := some w.ctx, keyIndex := if (s.region w.region).cls = .opened then 0 else key, region := w.region,
          address := w.target + (i.address % 2 ^ 48 - w.base), length := i.length, tc := i.tc, window := some n,
          bytes := if i.op = 2 then (b.drop 64).map some else [], atomicOp := hdr b 36 1,
          operand := BitVec.ofNat 64 (hdr b 40 8), compare := BitVec.ofNat 64 (hdr b 48 8) })
  ∧ (∀ (s : State) (i : Inbound) (b : Bytes) (j : Job) (r : Row) (p : Pigeonhole), s.job i.handle = some j →
    j.state ≠ .closing → i.op = 3 → i.dup = true ∨ hdr b 1 1 = 1 →
    (s.confirmHoles i (hdr b 32 4)).remote.rows.find? (fun x => x.bound i) = some r →
    r.holes.find? (fun x => x.seq == i.atomicSeq) = some p →
    s.inbound i b =
      (let u := (s.confirmHoles i (hdr b 32 4)).count islandXB 5 none 1
       State.inboundEnds { u with remote := { u.remote with pigeonHits := sat64 u.remote.pigeonHits } } i p.status p.reason
         p.result [] false))
  ∧ (∀ (s : State) (h peer tc : Nat) (b : Bytes) (q : RemReq), hdr b 0 1 = 0x81 ∨ hdr b 0 1 = 0x83 →
    s.remote.reqs.find? (fun q => q.handle == h && q.node == peer && q.tc == tc && q.op == asked (hdr b 0 1) && q.sent
      && q.ordinal == hdr b 4 4) = some q → Status.ofCode (hdr b 38 2) = some .done →
    s.response h peer tc b =
      (((s.remoteDone q (b.drop 64) (BitVec.ofNat 64 (hdr b 40 8))).modAssoc h peer (fun a => { a with
        mapEpoch := hdr b 20 1 })).appliedThrough h peer tc (hdr b 24 4)))
  ∧ (∀ (s : State) (h peer tc : Nat) (b : Bytes) (q : RemReq) (st : Status), hdr b 0 1 = 0x86 →
    s.remote.reqs.find? (fun q => q.handle == h && q.node == peer && q.tc == tc && q.op == 2 && q.sent
      && q.ordinal == hdr b 4 4) = some q → Status.ofCode (hdr b 38 2) = some st →
    ¬(st = .badState ∧ hdr b 56 1 = 1 ∧ q.restamped = false) →
    s.response h peer tc b =
      (((s.remoteFails q true st 0x0803 (hdr b 56 1)).modAssoc h peer (fun a => { a with
        mapEpoch := hdr b 20 1 })).appliedThrough h peer tc (hdr b 24 4)))
  ∧ (∀ (s : State) (h peer tc : Nat) (b : Bytes) (q : RemReq), hdr b 0 1 = 0x86 →
    s.remote.reqs.find? (fun q => q.handle == h && q.node == peer && q.tc == tc && q.op == 2 && q.sent
      && q.ordinal == hdr b 4 4) = some q → Status.ofCode (hdr b 38 2) = some .badState → hdr b 56 1 = 1 → q.restamped = false →
    s.response h peer tc b =
      ((((s.appliedThrough h peer tc (hdr b 24 4) q.id).restamp q (hdr b 20 1)).modAssoc h peer (fun a => { a with
        mapEpoch := hdr b 20 1 })).appliedThrough h peer tc (hdr b 24 4)))

/-- The timers and markers of remote access (R290, R292, R300, R303, R304, R319).
The moment at which a timer's event acts is the model's (log 4). -/
def Obligations.RemoteTimers : Prop :=
  (∀ (s : State) (port : Nat) (m : TrayMarker), Heard s port → m.kind = 0x31 → m.revision = 0x32 →
    m.routeEpoch.toNat < 16 → m.reserved1 = 0 → m.reserved2 = 0 → m.src.toNat = s.boot.nodeNumber →
    m.subtype = 3 →
    Ends (.trayDrainAnswer port m) s (s.drained (fun k => k.tray && k.node == m.dst.toNat && k.id == m.markerId.toNat
      && k.epoch == m.routeEpoch.toNat)))
  ∧ (∀ (s : State) (port : Nat) (m : TrayMarker), Heard s port → m.subtype ≠ 3 →
    Ends (.trayDrainAnswer port m) s s.wrongSubtype)
  ∧ (∀ (s : State) (m : Marker), s.live = true → s.remote.markers.find? (fun x => x.id == m.id && x.node == m.node) = some m →
    Ends (.drainMarkerTimeout m.node m.id) s
      (let u := s.reach (m.sentAt + 20 * Config.us)
       let v := u.modRemote (fun x => { x with
         markers := x.markers.erase m,
         fences := tmap x.fences (fun _ f => { f with nodes := f.nodes.map (fun n =>
           if n.node = m.node ∧ m.id ∈ n.markers then { n with timedOut := true } else n) }) })
       (v.post 0x0807 .timeout [(4, 0), (2, m.node), (2, 0)] [(8, 0), (1, m.epoch), (7, 0)] []).completeOpt m.op .timeout []))
  ∧ (∀ (s : State) (h peer tc : Nat), s.live = true → (s.stream h peer tc).appliedRx ≠ (s.stream h peer tc).acked →
    0 < (s.stream h peer tc).stores →
    Ends (.storeAckTimer h peer tc) s ((s.reach ((s.stream h peer tc).firstAt + 1000)).sendAck h peer tc))
  ∧ (∀ (s : State) (q : RemReq) (a : Assoc), s.live = true → s.remote.reqs.find? (fun x => x.id == q.id) = some q →
    q.retries < 3 → s.fault.isolated = false → s.assoc q.handle q.node = some a → a.seals = true → q.parked = false →
    Ends (.retransmitTimer q.id) s
      (((s.reach (q.accepted + (q.retries + 1) * q.timeout / 4)).setRemote { q with retries := q.retries + 1 }).transmit
         { q with retries := q.retries + 1 } q.sent))
  ∧ (∀ (s : State) (q : RemReq), s.live = true → s.remote.reqs.find? (fun x => x.id == q.id) = some q → q.req ≠ 0 →
    Ends (.deadTargetTimeout q.id) s
      (let u := s.reach (q.accepted + q.timeout)
       (State.remoteDead { u with remote := { u.remote with deadTimeouts := sat64 u.remote.deadTimeouts } } q 1).deadTeardown q 1))
  ∧ (∀ (s : State) (h peer acks due : Nat) (j : Job) (r : Redirect), s.live = true → s.job h = some j → j.redirect = some r →
    r.peers.find? (fun x => x.1 == peer && x.2.1 != 15) = some (peer, acks, due) →
    Ends (.redirectWaitTimeout h peer) s ((s.reach due).modJob h (fun j => { j with
      redirect := some { r with peers := r.peers.erase (peer, acks, due), missed := r.missed + 1 } })))

/-- Packets of masked reduction and their staging slots, deadlines of descriptors, and the slots of a port (R25, R341, R352, R353, R355,
R377).  That a packet waits in its staging slot for the key and the masks is the model's (log 58).
The moment at which a timer's event acts is the model's (log 4). -/
def Obligations.ReductionEvents : Prop :=
  (∀ (s : State) (port n : Nat) (p : RedPacket) (x : Descriptor), Heard s port → p.tag0.toNat / 2 ^ 56 = 0x32 →
    bits p.tag0.toNat 54 52 = 0 → p.tag2.toNat % 2 ^ 40 = 0 → p.lanes.length = 65 → s.descOf p = some (n, x) →
    (if x.gather then p.tag2.toNat / 2 ^ 52 < x.n ∧ p.tag0.toNat % 2 ^ 24 < x.chunks
     else x.rxFirst ≤ p.tag0.toNat % 2 ^ 24 ∧ p.tag0.toNat % 2 ^ 24 < x.rxFirst + x.rxCount) →
    x.place (p.tag2.toNat / 2 ^ 52) (p.tag0.toNat % 2 ^ 24) ∉ x.decided → x.decided.length < x.rxCount →
    Ends (.reductionPacketReceived port p) s
      (((s.count (islandP port) 8 none 1).count (islandP port) 5 none 544).takePacket n p))
  ∧ (∀ (s : State) (port : Nat) (p : RedPacket), Heard s port → p.tag0.toNat / 2 ^ 56 = 0x32 →
    bits p.tag0.toNat 54 52 = 0 → p.tag2.toNat % 2 ^ 40 = 0 → p.lanes.length = 65 → s.descOf p = none →
    Ends (.reductionPacketReceived port p) s
      (((s.count (islandP port) 8 none 1).count (islandP port) 5 none 544).modRed (fun r => { r with stray := sat64 r.stray })))
  ∧ (∀ (s : State) (n : Nat) (x : Descriptor) (p : RedPacket) (keys : Key × Key) (sums : List Int), s.desc n = x →
    x.keys = some keys → s.masksFor x = true → x.place (if x.gather then p.tag2.toNat / 2 ^ 52 else 0) (p.tag0.toNat % 2 ^ 24) ∉ x.decided →
    x.decided.length < x.rxCount →
    x.verdict keys (if x.gather then p.tag2.toNat / 2 ^ 52 else 0) (p.tag0.toNat % 2 ^ 24) (p.lanes.map (·.toNat)) = .ok sums →
    s.decideChunk n p =
      (let c := p.tag0.toNat % 2 ^ 24
       let j := if x.gather then p.tag2.toNat / 2 ^ 52 else 0
       let u := (((s.modDesc n (fun d => { d with staged := d.staged.erase p })).modDesc n
         (fun d => { d with decided := x.place j c :: d.decided })).count islandXB 10 none 1).modSlots x.port
         (fun y => { y with ahead := y.ahead - maskBytes x.gather })
       let v := (u.traceRec (islandP x.port) 0x23 (some x.handle) (some x.ctx) (redRecord n x c j 0)).modDesc n
         (fun d => { d with outSat := d.outSat + (convertOut x.outFmt sums x.scale).2 })
       (v.modRed (fun r => { r with outSat := satAdd 64 r.outSat (convertOut x.outFmt sums x.scale).2 })).writeChunk n
         (x.place j c) (convertOut x.outFmt sums x.scale).1))
  ∧ (∀ (s : State) (n : Nat), s.live = true → (s.desc n).state = .active → (s.desc n).ending = none →
    Ends (.reductionDeadline n) s
      ((s.reach ((s.desc n).activated + (s.desc n).deadline * Config.us)).descEnds n .timeout))
  ∧ (∀ (s : State) (port : Nat) (lane : Bool), s.boot.fwRunning = true →
    ((s.slotsOfPort port).masking = true → s.laneOff = false ∧ lane = false) →
    Ends (.slotBoundary port lane) s
      (let s := s.verifyLane lane
       let ahead := (s.slotsOfPort port).ahead + (if (s.slotsOfPort port).masking && s.activeOn port then 16384 else 0)
       let waits := s.boot.heldItems.any (fun x => x.port == port && s.laneSealed x.item)
       let mask := s.activeOn port && decide (ahead < 8192)
         && !(waits && (decide ((s.slotsOfPort port).recent.length = 3) && (s.slotsOfPort port).recent.all id))
       let u := s.modSlots port (fun x => { x with ahead := ahead, masking := mask, since := s.now,
                                                   recent := (mask :: x.recent).take 3 })
       (u.count (islandP port) (if mask then 6 else 7) none 1).masksMade port))
  ∧ (∀ (s : State) (port : Nat), s.boot.fwRunning = true → (s.slotsOfPort port).masking = true →
    Ends (.slotBoundary port true) s (s.laneFound.hardFault 3 (islandP port)))
  ∧ (∀ (s : State) (port : Nat), (s.slotsOfPort port).masking = true →
    Ends (.maskingSlotCut port) s
      (let u := s.modSlots port (fun y => { y with
         ahead := (s.slotsOfPort port).ahead + (if s.activeOn port then s.slotMasks (s.slotsOfPort port).since else 0),
         masking := false, since := s.now, recent := (false :: y.recent).take 3 })
       (State.count { u with reg := { u.reg with slotsCut := sat64 u.reg.slotsCut } } (islandP port) 7 none 1).masksMade port))
  ∧ (∀ (s : State) (n : Nat) (p : RedPacket), (s.desc n).held = [] → ((s.desc n).staged.length < 4 ∨ s.sharedSlots < 3072) →
    s.takePacket n p = (s.modDesc n (fun d => { d with staged := d.staged ++ [p] })).decideChunk n p)
  ∧ (∀ (s : State) (n : Nat) (p : RedPacket), 4 ≤ (s.desc n).staged.length → 3072 ≤ s.sharedSlots →
    s.takePacket n p = s.modDesc n (fun d => { d with held := d.held ++ [p], heldAt := if d.held.isEmpty then s.now else d.heldAt }))
  ∧ (∀ (s : State) (n : Nat) (p : RedPacket), (s.desc n).keys = none ∨ s.masksFor (s.desc n) = false → s.decideChunk n p = s)
  ∧ (∀ (s : State) (n : Nat) (keys : Key × Key), (s.desc n).keys = some keys → s.masksFor (s.desc n) = false → s.flushDesc n = s)

/-- Ageing, the boost and the guarantee window of the regulators (R371, R375, R384): each event ends in a next state, which is what the
shared operations on one master make of every master.
The moment at which a timer's event acts is the model's (log 4), and so is when a master counts as having waited throughout a window, and
that a wait is counted once (log 67). -/
def Obligations.RegulationTimers : Prop :=
  (∀ (s : State) (id level t : Nat) (done : Option Nat) (x : Master), s.live = true → s.waiting id = some (level, done, x) →
    s.waitsSince id = some t → level < 5 → done ≠ some t →
    Ends (.ageingTimer id) s
      (let u := (s.reach (t + 2 * Config.us)).putMaster { x with aged := sat64 x.aged }
       State.count { u.raiseAged id t with reg := { u.reg with aged := sat64 u.reg.aged } } islandXB 7 (some x.tc) 1))
  ∧ (∀ (s : State) (id level t : Nat) (done : Option Nat) (x : Master), s.live = true → s.waiting id = some (level, done, x) →
    s.waitsSince id = some t → 5 ≤ level ∨ done = some t → Ends (.ageingTimer id) s (s.reach (t + 2 * Config.us)))
  ∧ (∀ (s : State) (id : Nat), s.waitsSince id = none → Ends (.ageingTimer id) s s)
  ∧ (∀ (s : State), s.live = true →
    Ends .boostUpdate s
      (let u := s.reach (s.reg.boostAt + Config.us)
       s.reg.masters.foldl State.boostMaster { u with reg := { u.reg with boostAt := u.now } }))
  ∧ (∀ (s : State) (x : Master) (b : Bandwidth), s.contract x.handle x.tc x.targetKind = some b →
    x.below 100 b.latency = true →
    s.boostMaster x = s.putMaster { x with
      boost := if x.below 60 b.latency then 0 else if x.below 75 b.latency then x.boost else max x.boost 1,
      missedSince := none })
  ∧ (∀ (s : State) (x : Master) (b : Bandwidth), s.contract x.handle x.tc x.targetKind = some b → b.latency ≠ 0 →
    x.below 100 b.latency = false → x.missedSince = none →
    s.boostMaster x = s.putMaster { x with boost := 2, missedSince := some s.now })
  ∧ (∀ (s : State) (x : Master) (b : Bandwidth) (t : Nat), s.contract x.handle x.tc x.targetKind = some b → b.latency ≠ 0 →
    x.below 100 b.latency = false → x.missedSince = some t → t + Config.ms ≤ s.now →
    s.boostMaster x = (s.putMaster { x with boost := 2 }).masterNotice { x with boost := 2 } 0x0A02 .timeout)
  ∧ (∀ (s : State) (x : Master), s.latencyTarget x = 0 → s.boostMaster x = s.putMaster { x with boost := 0, missedSince := none })
  ∧ (∀ (s : State), s.live = true →
    Ends .guaranteeWindow s
      (let u := s.reach (s.reg.windowAt + 10 * Config.us)
       s.reg.masters.foldl State.windowMaster { u with reg := { u.reg with windowAt := u.now } }))
  ∧ (∀ (s : State) (x : Master) (b : Bandwidth), s.contract x.handle x.tc x.targetKind = some b → 0 < b.minBw →
    x.waitedAll = true → x.windowBytes < b.minBw * 1000 →
    s.windowMaster x = (s.putMaster { x with
      windowBytes := 0, lastBytes := x.windowBytes, waitedAll := s.masterWaits x,
      shortfalls := sat32 x.shortfalls }).masterNotice { x with
        windowBytes := 0, lastBytes := x.windowBytes, waitedAll := s.masterWaits x } 0x0A01 .noFit)
  ∧ (∀ (s : State) (x : Master), (s.minimum x = 0 ∨ x.waitedAll = false ∨ s.minimum x * 1000 ≤ x.windowBytes) →
    s.windowMaster x = s.putMaster { x with windowBytes := 0, lastBytes := x.windowBytes, waitedAll := s.masterWaits x })

/-- The power manager's interval, rails, sensors, margins, droop and lease, and its pins (R386 to R411, R417, R428).
The moment at which a timer's event acts is the model's (log 4); the rounding of leakage, the pace of a reduction and the nominal voltages are free (log 11). -/
def Obligations.PowerEvents : Prop :=
  (∀ (s u : State) (counts : List (Nat × Nat)), s.live = true → u = s.reach (s.power.intervalAt + 2 * Config.us) →
    s.power.running = true →
    Ends (.powerInterval counts) s
      (let total := ((List.range 17).map (u.domainMw counts)).sum
       let dyn := u.groupMw counts 0 + u.groupMw counts 1
       let judged := max total (u.power.rails.map Rail.readMw).sum
       let mws := (List.range 8).map (u.railMw counts)
       let rails := u.power.rails.zipIdx.map (fun (e : Rail × Nat) =>
         { e.1 with estimate := mws.getD e.2 0, currents := (e.1.judged (mws.getD e.2 0) :: e.1.currents).take 500 })
       let v := ((u.modPower (fun p => { p with
         intervalAt := u.now, interval := p.interval + 1, estimate := total, shared := u.domainMw counts 16, tileDyn := dyn,
         window := (total, u.domainMw counts 16, dyn) :: p.window, history := (judged :: p.history).take 500,
         rails := rails, partHist := (u.parts.filter (fun e => e.2.state != .free)).map (fun e =>
           (e.1, (u.partMw counts e.1 :: tgetD p.partHist e.1 []).take 500)) })).closeWindow).holdsEnd
       let above := if v.packageLimit * 1000 < meanOf 500 v.power.history then v.packageTiles else []
       let w := (List.range 16).foldl (fun x t =>
         (((x.squeeze 0 t ((above.filter (fun e => e.1 == t)).map (·.2)).sum).squeeze 1 t
           (if t ∈ v.railTiles then x.levelsFor 1 1 else 0)).alertTile t).plainReasons t) v
       ((((List.range 16).foldl State.countReasons ((List.range 16).foldl State.stepUp w.lowerTiles)).departures).loweringEnds)))
  ∧ (∀ (s : State) (r : Nat), (s.rail r).silent = true → Ends (.voltageReached r) s s)
  ∧ (∀ (s : State) (r : Nat), s.live = true → s.power.running = true → (s.rail r).silent = false →
    Ends (.voltageReached r) s ((List.range 8).foldl (fun x i =>
      if 15 < 8 * r + i then x
      else match (x.clk (8 * r + i)).raising with
        | some m => (x.modClk (8 * r + i) (fun c => { c with raising := none })).setClock (8 * r + i) m
        | none => x) s))
  ∧ (∀ (s : State) (r : Nat) (a : Telemetry), s.live = true → s.power.running = true → r < 8 →
    Ends (.railPoll r (some a)) s
      (let u := s.reach ((s.rail r).polledAt + 100 * Config.us)
       (u.emit (.smbusRead r 0x40 0xDA)).modRail r (fun x => { x with
         polledAt := u.now, silentPolls := 0, silent := false, volts := railVolts r a.vout, amps := railAmps a.iout,
         status := a.status, polls := x.polls ++ [(railVolts r a.vout, railAmps a.iout)] })))
  ∧ (∀ (s : State) (r : Nat), s.live = true → s.power.running = true → r < 8 → (s.rail r).silent = false →
    (s.rail r).silentPolls = 2 →
    Ends (.railPoll r none) s
      (let u := s.reach ((s.rail r).polledAt + 100 * Config.us)
       ((u.emit (.smbusRead r 0x40 0xDA)).modRail r (fun x => { x with
         polledAt := u.now, silentPolls := x.silentPolls + 1,
         silent := x.silent || decide (3 ≤ x.silentPolls + 1) })).powerNotice 0x0B09 .timeout
         [(1, r)]))
  ∧ (∀ (s u : State) (readings : List (Option Int)), s.live = true → s.power.running = true →
    u = s.reach (s.power.thermalAt + 20 * Config.us) →
    Ends (.thermalRead readings) s
      (let bad := (List.range 96).filter (fun i => decide (i ∉ u.power.invalid) && (u.corrected readings i).isNone)
       let v := u.modPower (fun p => { p with thermalAt := u.now, invalid := p.invalid ++ bad })
       let read := v.modPower (fun p => { p with temps := (List.range 17).map (v.domainTemp readings) })
       let w := bad.foldl (fun x i => x.powerNotice 0x0B07 .integrityLost [(1, i)])
         (read.modPower (fun p => { p with warm := read.warmNow }))
       ((List.range 16).foldl (fun x t => (x.thermTile t).modClk t (fun c =>
           c.hold 4 (if t ∈ x.power.critical ∨ 16 ∈ x.power.critical then some 900 else none)))
         ((List.range 17).foldl State.critical w)).lowerTiles))
  ∧ (∀ (s u : State) (lowest : List Nat), s.live = true → s.power.running = true → u = s.reach (s.power.marginAt + Config.ms) →
    Ends (.marginCompute lowest) s ((List.range 16).foldl (fun x t => x.modClk t (fun c => { c with
        voltMargin := ((x.rail (tileRail t)).mv : Int) - (if c.mhz = 0 then 0 else x.fuseMv t c.mhz) }))
      (u.modPower (fun p => { p with marginAt := u.now,
                                     headrooms := (List.range 64).map (fun d => lowest.getD d 0 - u.tripLevel d) }))))
  ∧ (∀ (s u : State) (v t o : Option (Nat × Nat)), s.live = true → s.power.running = true →
    u = s.reach (s.fault.healthAt + Config.ms) → u.components = (v, t, o) →
    bandOf s.fault.band (nextScore s.fault.score (([v, t, o].filterMap (fun x => x.map (·.1))).foldl min 1023)) = s.fault.band →
    Ends .healthUpdate s
      (let raw := ([v, t, o].filterMap (fun x => x.map (·.1))).foldl min 1023
       u.modFault (fun f => { f with healthAt := u.now, raw := raw, score := some (nextScore s.fault.score raw),
                                     band := s.fault.band, vComp := v, tComp := t, oComp := o })))
  ∧ (∀ (s : State) (port margin : Nat), s.live = true → port < 32 → margin ≤ 255 →
    Ends (.linkMarginReport port margin) s (s.modFault (fun f => { f with linkMargin := tput f.linkMargin port margin })))
  ∧ (∀ (s : State) (d : Nat), s.live = true → s.power.running = true → d < 64 →
    (tgetD s.power.zones (d / 4) {}).stretched = false →
    Ends (.droopAlarm d) s
      (let old := tgetD s.power.zones (d / 4) {}
       let recent := s.now :: old.recent.filter (fun t => decide (s.now < t + 100 * Config.us))
       (s.cyclesSettle.modZone (d / 4) (fun x => { x with
         alarms := { detector := d, since := s.now } :: x.alarms.filter (fun a => a.detector != d), stretched := true,
         since := if x.stretched then x.since else s.now, newest := s.now, recent := recent, clearAt := none,
         rateUntil := if 16 < recent.length then s.now + Config.ms else x.rateUntil })).emit (.stretch (d / 4) true)))
  ∧ (∀ (s : State) (z : Nat) (x : Zone), s.live = true → s.power.running = true → tget s.power.zones z = some x →
    x.stretched = true →
    Ends (.stretchRelease z) s
      (let u := s.reach (x.newest + 128)
       let v := ((u.cyclesSettle.modZone z (fun y => { y with alarms := [], stretched := false, clearAt := some (u.now - 128) })).emit
         (.stretch z false)).modClk z (fun c => { c with stretched := satAdd 64 c.stretched ((u.now - x.since) / 4) })
       v.traceAt x.since islandPW 0x38 none none [(1, z), (3, 0), (4, (u.now - x.since) / 4), (12, 0)]))
  ∧ (∀ (s : State) (z : Nat) (x : Zone) (a : Alarm), s.live = true → s.power.running = true → tget s.power.zones z = some x →
    x.oldest = some a →
    Ends (.droopPersistent z) s
      (((((s.reach (a.since + 10 * Config.us)).modZone z (fun y => { y with
        persistent := true, alarms := y.alarms.map (fun b => if b = a then { b with lasting := true } else b) })).modClk z
        (fun c => c.hold 7 (some 900))).lowerTiles).powerNotice 0x0B06 .busy [(1, z)]))
  ∧ (∀ (s : State) (l : Lease), s.live = true → s.power.lease = some l →
    Ends .leaseLapsed s
      (((s.reach l.ends).modPower (fun p => { p with lease := none, lapses := sat32 p.lapses })).powerNotice 0x0B01 .timeout
        [(4, l.id)]))
  ∧ (∀ (s : State), s.live = true → s.power.running = true → (s.power.thermTrip = false ∨ s.power.tripCleared = true) →
    Ends .thermTripAsserted s
      (((List.range 16).foldl (fun x t => (x.modClk t (fun c => c.hold 5 (some 0))).lowerTile t)
        (s.modPower (fun p => { p with
          thermTrip := true, tripCleared := false, tripPin := p.tripPin.falls false s.now }))).powerNotice 0x0B04 .busy []))
  ∧ (∀ (s : State), s.live = true →
    (s.power.tripPin.low + (if s.power.tripPin.chatter then 10 * Config.ms else Config.ms) ≤ s.now →
      Ends .thermTripDeasserted s (s.modPower (fun p => { p with tripCleared := true, tripPin := p.tripPin.rises s.now })))
    ∧ (s.now < s.power.tripPin.low + (if s.power.tripPin.chatter then 10 * Config.ms else Config.ms) →
      Ends .thermTripDeasserted s s))
  ∧ (∀ (s u : State) (r : Nat) (l : List Nat), s.live = true → s.power.running = true →
    u = s.modPower (fun p => { p with
      alertOn := true, alertCleared := false, alertPin := p.alertPin.falls (p.alertOn && !p.alertCleared) s.now }) →
    ((∀ t, s.power.statusAt = some t → t + 20 * Config.us ≤ s.now) →
      Ends (.pwrAlertAsserted (r :: l)) s ((r :: l).foldl (fun x k => x.powerNotice 0x0B05 .busy [(1, k)])
        (u.modPower (fun p => { p with railAlert := r :: l, statusAt := some s.now }))))
    ∧ (∀ t, s.power.statusAt = some t → s.now < t + 20 * Config.us → Ends (.pwrAlertAsserted (r :: l)) s u))
  ∧ (∀ (s : State), s.live = true → s.power.running = true →
    (s.power.alertPin.low + (if s.power.alertPin.chatter then 10 * Config.ms else 100 * Config.us) ≤ s.now →
      Ends .pwrAlertDeasserted s (s.modPower (fun p => { p with
        alertOn := false, alertCleared := false, alertPin := p.alertPin.rises s.now })))
    ∧ (s.now < s.power.alertPin.low + (if s.power.alertPin.chatter then 10 * Config.ms else 100 * Config.us) →
      Ends .pwrAlertDeasserted s s))
  ∧ (∀ (s : State), s.live = true → s.power.running = false →
    s.power.alertPin.low + (if s.power.alertPin.chatter then 10 * Config.ms else 100 * Config.us) ≤ s.now →
    Ends .pwrAlertDeasserted s (s.modPower (fun p => { p with alertCleared := p.alertOn, alertPin := p.alertPin.rises s.now })))
  ∧ (∀ (s : State) (w : Sweep), s.live = true → s.power.running = true → s.power.sweep = some w → w.squash = false →
    w.step < w.last →
    Ends (.marginSweepStep w.tile false) s
      (let u := (s.reach w.nextAt).modPower (fun p => { p with
         sweep := some { w with step := w.step + 1, nextAt := w.nextAt + 100 * Config.us } })
       if w.kind = 0 then u.setVolts (tileRail w.tile) (u.fuseMv w.tile 900 - 5 * (w.step + 1))
       else u.setClock w.tile (u.sweptMhz w.tile (900 + 50 * (w.step + 1)))))
  ∧ (∀ (s : State) (w : Sweep), s.live = true → s.power.running = true → s.power.sweep = some w → w.squash = false →
    Ends (.marginSweepStep w.tile true) s
      (((s.reach w.nextAt).modClk w.tile (fun c => if w.kind = 0 then { c with sweepV := some (w.step * w.unit) }
         else { c with sweepT := some (w.step * w.unit) })).sweepEnd w .done [(2, w.step * w.unit), (1, 0), (13, 0)]))

/-- Starts, resets and the pins that rule them (R21, R101 to R104, R502 to R507): a start runs the self-tests and reads the
fuses, a reset and a loss of power clear the block, and TAMPER clears every key.
That one START stands for steps 1 to 6 of R506, and what a reset keeps, are the model's (log 16, log 31), and so are what becomes of a
transition that a tamper meets (log 49), what END_OF_LIFE does to requests in flight (log 47), a transition to PRODUCTION that finds its
root unreadable (log 46, log 26), when a halted processor goes on (log 30), the deadline of MC_READY (log 35) and that factory rows are programmed whole
(log 2). -/
def Obligations.PowerOn : Prop :=
  (∀ (s : State) (i : StartInput), s.boot.inReset = true →
    Ends (.start i) s
      (let held := s.boot.tamperHeld || i.tamper
       let on : State := { s with
         now := 0,
         boot := { s.boot with powered := true, inReset := false, hasStarted := true, locked := true, tamperHeld := held,
                               vddAuxOk := i.auxInRange, startedAt := 0, lifecycleRead := true,
                               blockState := if held then .tamperHeld else .starting } }
       let u := State.statusChanged ((List.range 16).foldl (fun x n => x.emit (.mcScrubEn n true)) on)
       let v := (u.lifecycleStart held i).2.selfTest i.kat
       if (u.lifecycleStart held i).1 = true then v.rstAsserted
       else if v.dg.pairs = [] then v.setBootCode 6
       else
         let w := ((v.calls (Config.bootRomCalls + shakeCalls 30) false).extend 1 Config.bootRomDigest).extend 2
           (labelled "STATE" (enc [(1, v.life.inForce.code)] ++ le 8 v.fuses.policy ++ bytesOf v.fuses.serial))
         let x := State.drawSessions (if held then w else w.readSecrets)
         let y := ((x.calls (shakeCalls 14822) false).modPower (fun p => { p with
           calFault := decide (x.fuses.calibration.check ≠ labelled "PW-CAL" (calBytes x.fuses.calibration)) })).powerStart
         if y.boot.goLatched then y.fetchImage else y))
  ∧ (∀ (s : State), s.boot.powered = true →
    Ends .rstNAsserted s
      { fuses := s.fuses, kv := { draws := s.kv.draws },
        boot := { tamperHeld := s.boot.tamperHeld, hasStarted := s.boot.hasStarted,
                  blockState := (if s.boot.tamperHeld then .tamperHeld else .starting) },
        power := { thermTrip := s.power.thermTrip && !s.power.tripCleared,
                   alertOn := s.power.alertOn && !s.power.alertCleared, railAlert := s.power.railAlert },
        freeCtr := s.freeCtr, out := s.out, pending := s.pending })
  ∧ (∀ (s : State), Ends .powerLoss s
      { fuses := s.fuses, kv := { draws := s.kv.draws }, boot := { powered := false, hasStarted := s.boot.hasStarted }, freeCtr := s.freeCtr, out := s.out,
        pending := s.pending })
  ∧ (∀ (s u : State), s.boot.powered = true → s.boot.tamperHeld = false →
    u = ((State.endSession (State.failAll (State.tamperClear { s with boot := { s.boot with tamperHeld := true } }).answerWaiting .tamperHeld)
      .squashed false)) →
    Ends .tamper s
      (let v := State.setBlock { u with sniby := { u.sniby with places := [], heldBehind := [], ready := [] } } .tamperHeld
       if v.life.inForce = .production ∧ bit v.fuses.policy 0 = true then
         if v.life.transition = .toEndOfLife then
           { v with life := { v.life with step := max v.life.step 2, op := none, killOwed := true } }
         else if v.fuses.recorded = .endOfLife then v
         else { v with life := { v.life with transition := .toEndOfLife, step := 2, op := none, killOwed := true } }
       else if v.life.transition = .toTest ∨ v.life.transition = .toProduction ∨ v.life.transition = .toEndOfLife then
         { v with life := { v.life with transition := .none, step := 0, op := none } }
       else v))
  ∧ (∀ (s : State), s.live = true →
    Ends .fuseSupplyOutOfRange s { s with boot := { s.boot with vddAuxOk := false } })
  ∧ (∀ (s : State), s.live = true → s.boot.refclkLost = false →
    Ends .refclkLost s (State.statusChanged { s with boot := { s.boot with refclkLost := true, locked := false } }))
  ∧ (∀ (s : State) (n : Nat), s.boot.powered = true → n < 16 → n ∉ s.boot.mcReady →
    Ends (.mcReady n) s (State.fullService { s with boot := { s.boot with mcReady := n :: s.boot.mcReady } }))
  ∧ (∀ (s u : State) (n : Nat), s.live = true → n < 16 → n ∉ s.boot.mcReady →
    u = ((s.reach (s.boot.startedAt + 1000 * Config.ms)).unitHung 0 n [0, 1] []).fenceStack n →
    Ends (.mcReadyDeadline n) s (State.fullService { u with boot := { u.boot with mcReady := n :: u.boot.mcReady } }))
  ∧ (∀ (s : State) (fails : BitVec 64) (ok : Bool), s.live = true → s.boot.vddAuxOk = true → s.boot.tamperHeld = false →
    s.life.transition = .toTest →
    Ends (.lifecycleTransitionProgress fails ok) s
      (State.afterStep (s.testStep s.life.step fails) (decide (3 ≤ s.life.step))))
  ∧ (∀ (s : State) (fails : BitVec 64) (ok : Bool), s.live = true → s.boot.vddAuxOk = true → s.life.transition = .toEndOfLife →
    (s.boot.tamperHeld = true → s.life.killOwed = true) → s.life.step ≠ 1 →
    Ends (.lifecycleTransitionProgress fails ok) s
      (State.afterStep (s.eolStep s.life.step fails) (decide (6 ≤ s.life.step))))
  ∧ (∀ (s : State) (fails : BitVec 64) (ok : Bool), s.live = true → s.boot.vddAuxOk = true → s.life.transition = .toEndOfLife →
    (s.boot.tamperHeld = true → s.life.killOwed = true) → s.life.step = 1 →
    Ends (.lifecycleTransitionProgress fails ok) s
      (let u := State.clearJobKeys (if s.kv.requests.isEmpty then s else s.failAll .faulted)
       { u with
         kv := { u.kv with roots := [], enrolling := none, personal := 0, enrolSecret := none, attest := none, transport := none,
                           permit := none },
         life := { u.life with step := 2 } }))
  ∧ (∀ (s : State) (fails : BitVec 64) (ok : Bool), s.live = true → s.boot.vddAuxOk = true → s.boot.tamperHeld = false →
    s.life.transition = .toProduction →
    (s.life.step = 2 → Ends (.lifecycleTransitionProgress fails ok) s (State.afterStep (s.fuseMark mkProdBegun fails) false))
    ∧ (∀ (i : Nat) (free : List Nat) (root : Key), s.life.step = 3 → s.fuses.enrolFree = i :: free → s.fuses.readRoot 1 = some root →
      Ends (.lifecycleTransitionProgress fails ok) s
        (let record := sealRecord root s.fuses.serial (s.kv.enrolling.getD 0) s.life.policy
         let u := State.calls { s with
             fuses := { s.fuses with enrolSlots := s.fuses.enrolSlots.set i record }, kv := { s.kv with roots := [(1, root)] } }
           (shakeCalls 42 + kmacCalls 24 320 false + kmacCalls 64 128 false) false
         if ok then { u with life := { u.life with step := 4, slot := i } } else u.nextSlot))
    ∧ (∀ (root : Key), s.life.step = 3 → s.fuses.enrolFree = [] → s.fuses.readRoot 1 = some root →
      Ends (.lifecycleTransitionProgress fails ok) s (s.endTransition .awaitingResend .integrityLost))
    ∧ (s.life.step = 3 → s.fuses.readRoot 1 = none →
      Ends (.lifecycleTransitionProgress fails ok) s ((s.endTransition .stalled .faulted).hardFault 1 islandKV))
    ∧ (s.life.step = 4 →
      Ends (.lifecycleTransitionProgress fails ok) s
        (let u := s.calls (kmacCalls 64 128 false) false
         if ok then { u with life := { u.life with step := 5 } } else u.nextSlot))
    ∧ (s.life.step = 5 → Ends (.lifecycleTransitionProgress fails ok) s
      (State.afterStep (s.fuseMark (mkRecordA + 2 * s.life.slot) fails) false))
    ∧ (5 < s.life.step → Ends (.lifecycleTransitionProgress fails ok) s
      (State.afterStep (s.prodStep s.life.step s.life.policy fails) (decide (9 ≤ s.life.step)))))
  ∧ (∀ (s : State) (fails : BitVec 64) (ok : Bool), s.live = false ∨ s.boot.vddAuxOk = false
      ∨ (s.boot.tamperHeld = true ∧ (s.life.killOwed = false ∨ s.life.transition ≠ .toEndOfLife)) →
    Ends (.lifecycleTransitionProgress fails ok) s s)
  ∧ (∀ (s : State),
    (s.fuses.enrolFree = [] → s.nextSlot = s.endTransition .awaitingResend .integrityLost)
    ∧ (s.fuses.enrolFree ≠ [] → s.nextSlot = { s with life := { s.life with step := 3 } })
    ∧ ∀ (last : Bool),
      State.afterStep (.stalled, s) last = s.endTransition .stalled .integrityLost
      ∧ State.afterStep (.finished, s) last
          = (if last then s.endTransition .complete .done else { s with life := { s.life with step := s.life.step + 1 } }))
  ∧ (∀ (s : State) (rows : FactoryRows),
    Ends (.tapInstruction (.program rows)) s
      (let u : State := if s.boot.powered = true ∧ s.boot.hasStarted = false
         then { s with fuses := { s.fuses with serial := rows.serial, calibration := rows.calibration, rowRepair := rows.rowRepair } }
         else s
       { u with boot := { u.boot with tap := .bypass, cpHalted := false } }))
  ∧ (∀ (s : State) (i : TapInstr), (∀ rows, i ≠ .program rows) → Ends (.tapInstruction i) s
      (let pick : TapInstr := if i = .scan ∧ s.tapOpen 0 = true then .scan else if i = .cpDebug ∧ s.tapOpen 1 = true then .cpDebug
         else .bypass
       { s with boot := { s.boot with tap := pick, cpHalted := decide (pick = .cpDebug) } }))

/-- The links and their watchdogs, the digest engine's calls, and the CP's watchdog (R22, R23, R107 to R110, R422 to R427, R497).
The moment at which a watchdog's event acts is the model's (log 4), and so are which requests are held to wait on a unit (log 35) and
which command learns of a call's failed compare on a pair that computes no key (log 51). -/
def Obligations.LinksAndWatchdogs : Prop :=
  (∀ (s : State) (p : Nat), Ends (.fabricLinkDown p) s
    { s with boot := { s.boot with fabricUp := s.boot.fabricUp.filter (fun x => x != p) } })
  ∧ (∀ (s : State) (p : Nat), s.boot.powered = true → p < 32 → p ∉ s.boot.fabricUp →
    Ends (.fabricLinkUp p) s
      ((State.modFault { s with boot := { s.boot with fabricUp := p :: s.boot.fabricUp } }
        (fun f => { f with portsHung := f.portsHung.filter (fun x => x != p) })).flushPort p))
  ∧ (∀ (s : State) (l : Nat), l ∈ s.boot.hostUp →
    Ends (.hostLinkDown l) s
      (let u := s.linkAway l
       { u with boot := { u.boot with hostUp := u.boot.hostUp.filter (fun k => k != l) } }))
  ∧ (∀ (s : State) (l : Nat),
    (∀ lb, (s.box lb).binding.link = some l → ((s.linkAway l).box lb).enable = false
      ∧ ((s.linkAway l).box lb).state = if (s.box lb).state = .opened ∨ (s.box lb).state = .throttled ∨ (s.box lb).state = .closing
          then .idle else (s.box lb).state)
    ∧ (∀ lb, (s.box lb).binding.link ≠ some l → ((s.linkAway l).box lb).state = (s.box lb).state
        ∧ ((s.linkAway l).box lb).enable = (s.box lb).enable)
    ∧ (s.linkAway l).boot.bootCode = (if l = 0 ∧ s.boot.bootCode = 0xFE then 0xFF else s.boot.bootCode)
    ∧ l ∈ (s.linkAway l).boot.dmaAbandoned)
  ∧ (∀ (s : State) (l : Nat), s.boot.powered = true → l < 2 → l ∉ s.boot.hostUp →
    Ends (.hostLinkTrained l) s
      (State.modFault { s with boot := { s.boot with
        hostUp := l :: s.boot.hostUp, dmaAbandoned := s.boot.dmaAbandoned.filter (fun k => k != l) } }
        (fun f => { f with linksHung := f.linksHung.filter (fun k => k != l) })))
  ∧ (∀ (s u : State) (n : Nat), s.live = true → n < 16 → u = s.reachOpt (s.channelDue n) →
    (∃ t ∈ u.issuedAt n, t + 50 * Config.us ≤ u.now) →
    Ends (.memoryChannelWatchdog n) s (((u.hangCounted.unitHung 0 n [0, 1] (u.waitingOn 0 n)).fenceStack n).turn))
  ∧ (∀ (s : State) (p : Nat), s.live = true → p ∈ s.boot.fabricUp → p ∉ s.fault.portsHung →
    Ends (.portLogicWatchdog p) s
      ((s.hangCounted.modFault (fun f => { f with portsHung := p :: f.portsHung })).unitHung 1 p [0, 1] (s.waitingOn 1 p)))
  ∧ (∀ (s : State) (t : Nat), s.live = true → t < 16 → t ∉ s.fault.tilesHung →
    Ends (.tileCrossbarWatchdog t) s
      ((s.hangCounted.modFault (fun f => { f with tilesHung := t :: f.tilesHung })).unitHung 2 t [0, 1] (s.waitingOn 2 t)))
  ∧ (∀ (s u : State) (l : Nat), s.live = true → l ∈ s.boot.hostUp → l ∉ s.boot.dmaAbandoned →
    u = (s.hangCounted.modFault (fun f => { f with linksHung := l :: f.linksHung })).linkAway l →
    Ends (.hostLinkWatchdog l) s (u.unitHung 3 l
      (1 :: (u.sniby.boxes.filter (fun e => match e.2.binding.link with | some k => k != l | none => false)).map (·.1))
      (s.waitingOn 3 l)))
  ∧ (∀ (s : State) (pair id : Nat) (kat : List Bool) (x : Stream), pair < s.dg.pairs.length → x ∈ s.dg.streams →
    x.pair = some pair → x.purpose = .key id →
    Ends (.digestWatchdog pair kat) s
      ((State.calls { s with fault := { s.fault with unitHangs := sat64 s.fault.unitHangs } } 1 true).compareFailure pair kat))
  ∧ (∀ (s : State), s.live = true → s.boot.fwRunning = true → s.boot.blockState ≠ .cpHung →
    Ends .cpWatchdog s ((s.hangCounted.setBlock .cpHung).isolate 1))
  ∧ (∀ (s : State) (pair : Nat) (kat : List Bool) (x : Stream) (id : Nat),
    pair < s.dg.pairs.length → s.dg.streams.find? (fun y => y.pair == some pair) = some x → x.purpose = .key id → x.left ≤ 1 →
    Ends (.digestCallEnd pair true kat) s
      (let u := s.calls 1 true
       State.streamDone (State.schedule { u with dg := { u.dg with
         streams := u.dg.streams.filter (fun y => y.id != x.id) } }) x.purpose))
  ∧ (∀ (s : State) (pair id : Nat) (kat : List Bool) (x : Stream),
    pair < s.dg.pairs.length → s.dg.streams.find? (fun y => y.pair == some pair) = some x → x.purpose = .key id →
    Ends (.digestCallEnd pair false kat) s ((s.calls 1 true).compareFailure pair kat))
  ∧ (∀ (s : State) (pair : Nat) (kat : List Bool), s.dg.streams.find? (fun y => y.pair == some pair) = none →
    pair < s.dg.pairs.length → s.boot.fwRunning = true →
    Ends (.digestCallEnd pair false kat) s
      (let u := (s.calls 1 false).compareFailure pair kat
       { u with dg := { u.dg with aborted := true } }))

/-- Postcards, the acknowledgements that isolate a node and lift its isolation, and the runs that reset a partition or probe its
suspects (R431 to R433, R440 to R448): the fifth postcard without an acknowledgement isolates the node before it is sent.
The moment at which a timer's event acts is the model's (log 4), and so are the probe of a suspect without a job by a raw read (log 68) and
what a probe's own error counts for (log 60); a management message of another subtype is counted as the model chose (log 71). -/
def Obligations.ManagementEvents : Prop :=
  (∀ (s u : State) (key : Key) (node port : Nat), s.lbxKey 1 = some key → s.cards = true → s.fault.postcards = true →
    s.fault.postcardSeq < s.fault.highestAcked + 4 →
    u = (s.reach s.fault.nextPostcard).modFault (fun f => { f with
      postcardSeq := s.fault.postcardSeq + 1, nextPostcard := f.nextPostcard + f.period * Config.us }) →
    u.cardNode = some node → u.portTo node = some port →
    Ends .postcardTimer s
      ((u.calls (kmacCalls 57 128 false) false).emitPort port (.postcard port node {
        node := u.boot.nodeNumber, seq := s.fault.postcardSeq + 1, postmark := u.now, health := u.healthScore,
        blockSt := u.boot.blockState.code, isolated := u.fault.isolated,
        check := checkValue key 4 (u.box 1).session (cardBytes 0x40 u.boot.nodeNumber (s.fault.postcardSeq + 1) u.now
          u.healthScore u.boot.blockState.code (flag u.fault.isolated) 0) })))
  ∧ (∀ (s u : State) (key : Key) (node port : Nat), s.lbxKey 1 = some key → s.cards = true → s.fault.postcards = true →
    s.fault.highestAcked + 4 ≤ s.fault.postcardSeq →
    u = ((s.reach s.fault.nextPostcard).isolate 1).modFault (fun f => { f with
      postcardSeq := s.fault.postcardSeq + 1, nextPostcard := f.nextPostcard + f.period * Config.us }) →
    u.fault.isolated = true ∧ (u.cardNode = some node → u.portTo node = some port →
    Ends .postcardTimer s
      ((u.calls (kmacCalls 57 128 false) false).emitPort port (.postcard port node {
        node := u.boot.nodeNumber, seq := s.fault.postcardSeq + 1, postmark := u.now, health := u.healthScore,
        blockSt := u.boot.blockState.code, isolated := true,
        check := checkValue key 4 (u.box 1).session (cardBytes 0x40 u.boot.nodeNumber (s.fault.postcardSeq + 1) u.now
          u.healthScore u.boot.blockState.code 1 0) }))))
  ∧ (∀ (s : State) (cause : Nat),
    (s.fault.isolated = true → s.isolate cause = s)
    ∧ (s.fault.isolated = false → s.isolate cause
        = State.post { s with fault := { s.fault with isolated := true, isolatedSeq := s.fault.postcardSeq + 1 } } 0x0C04 .targetDead
            [(1, cause)] [(4, s.fault.highestAcked)] []))
  ∧ (∀ (s : State) (a : PostcardAck), a.subtype ≠ 2 → Ends (.postcardAckReceived a) s s.wrongSubtype)
  ∧ (∀ (s : State) (a : PostcardAck) (key : Key), s.lbxKey 1 = some key → s.cards = true → a.subtype = 2 → a.kind = 0x41 → a.revision = 0x32 →
    a.health = 0 → a.blockSt = 0 → a.flags = 0 → a.verdict.toNat ≤ 1 → a.reserved = 0 →
    a.check = checkValue key 5 (s.box 1).session (cardBytes a.kind.toNat a.node.toNat a.seq.toNat a.postmark.toNat
      a.health.toNat a.blockSt.toNat a.flags.toNat a.verdict.toNat) →
    a.node.toNat = s.boot.nodeNumber → a.seq.toNat ≤ s.fault.postcardSeq →
    (a.verdict = 1 → Ends (.postcardAckReceived a) s
      (((s.calls (kmacCalls 57 128 false) false).modFault (fun f => { f with highestAcked := max f.highestAcked a.seq.toNat })).isolate
        2))
    ∧ (a.verdict = 0 → s.fault.isolated = false → Ends (.postcardAckReceived a) s
      ((s.calls (kmacCalls 57 128 false) false).modFault (fun f => { f with highestAcked := max f.highestAcked a.seq.toNat }))))
  ∧ (∀ (s : State) (p : Nat) (r : ResetRun), s.live = true → s.runOf p = some r →
    Ends (.partitionResetProgress p .done) s (s.resetDone p r))
  ∧ (∀ (s : State) (p : Nat) (r : ResetRun) (x : Suspect) (time : Nat) (error : Bool), s.live = true → s.runOf p = some r →
    r.suspects[r.probe]? = some x → s.probeJob r x = none →
    Ends (.partitionResetProgress p (.probe time error)) s (s.probed p r time error))
  ∧ (∀ (s : State) (p t : Nat) (r : ResetRun) (x : Suspect), s.live = true → s.runOf p = some r → r.probeAt = some t →
    r.suspects[r.probe]? = some x → r.step = 9 →
    Ends (.suspectProbeTimeout p) s
      (let stack : Option Nat := if x.unitKind = 0 then some x.unit
         else if s.isTray (x.address / 2 ^ 48) then none else some (stackOf x.address)
       let u := (s.reach (t + 100 * Config.us)).modRun p (fun r => { r.mark r.probe 2 10000 with
         step := 10, probeAt := none, culprit := stack })
       let v := match r.reset, stack with
         | true, some n => u.fenceStack n
         | _, _ => u
       match v.runOf p with
       | some r => v.mailTail p r 10
       | none => v))
  ∧ (∀ (s : State) (p : Nat) (r : ResetRun), s.live = true → s.runOf p = some r → s.unitsRead r = true →
    Ends (.unitReadTimeout p) s ((s.reach (r.unitAt + 4 * Config.us)).unitEnd p r 1))
  ∧ (∀ (s : State) (p : Nat) (r : ResetRun), s.live = true → s.runOf p = some r → s.unitsRead r = true →
    Ends (.mailbagDeadline p) s
      (State.unitsLeft p 4096 ((s.reach (r.readFrom + 30 * Config.ms)).modRun p (fun r => { r with deadline := true }))))
  ∧ (∀ (s : State) (a : PostcardAck), s.takesAck a → a.verdict = 0 → s.fault.isolated = true → s.fault.isolatedSeq ≤ a.seq.toNat →
    Ends (.postcardAckReceived a) s
      (((s.acked a).modFault (fun f => { f with isolated := false })).post 0x0C05 .done [] [(4, a.seq.toNat)] []))
  ∧ (∀ (s : State) (a : PostcardAck), s.takesAck a → a.verdict = 0 → s.fault.isolated = true → a.seq.toNat < s.fault.isolatedSeq →
    Ends (.postcardAckReceived a) s (s.acked a) ∧ (s.acked a).fault.isolated = true)

/-- A trace session's ring, trigger and drain, the counters' latches, and the wakes of idle islands (R456, R466 to R474).  Which islands
stop and wake is a free value (log 34).
The moment at which a timer's event acts is the model's (log 4). -/
def Obligations.TraceEvents : Prop :=
  (∀ (s : State) (consumed : Nat), s.live = true → s.trace.session.state ≠ .idle → s.trace.session.state ≠ .armed →
    s.trace.session.free < 128 → s.trace.session.link ∈ s.boot.hostUp → s.trace.session.link ∉ s.boot.dmaAbandoned →
    Ends (.traceConsumedPoll consumed) s
      (let u := (s.reach (s.trace.session.pollAt + 10 * Config.us)).dma 7 3 s.trace.session.link 8
       u.modSession (fun n => { n with consumed := min consumed n.produced, pollAt := u.now })))
  ∧ (∀ (s : State), s.live = true → s.trace.session.trigKind = 3 → s.trace.session.fired = false →
    s.trace.session.state = .armed →
    Ends .tracePostmarkTrigger s
      (((s.reach s.trace.session.trigValue.toNat).modSession (fun n => { n with fired := true })).trigger
        s.trace.session.trigValue.toNat))
  ∧ (∀ (s : State), s.trace.session.state = .draining → s.trace.session.trigWritten = true →
    (∀ e ∈ s.trace.buffers, e.2.records = []) →
    Ends .traceDrainEmpty s (s.endSession s.trace.session.endStatus true))
  ∧ (∀ (s : State) (t id : Nat), s.live = true → s.trace.snapAt = [(t, id)] → s.now ≤ t →
    Ends .counterSnapshotLatch s
      (let u := (s.reach t).cyclesSettle
       (u.modTrace (fun x => { x with
         snapAt := x.snapAt.filter (fun e => decide (u.now < e.1)),
         latched := u.trace.counters.map (fun c => (c.1, c.2.value)), latchMark := some t })).complete id .done []))
  ∧ (∀ (s : State), s.live = true → s.trace.session.writes = true → s.trace.session.period ≠ 0 →
    Ends .counterPeriodLatch s
      ((counterIslands.filter (fun i => s.trace.session.islands.getLsbD i)).foldl
        (fun x i => x.counterRecords s.trace.session.nextLatch i)
        ((s.reach s.trace.session.nextLatch).cyclesSettle.modSession (fun n => { n with
          nextLatch := s.trace.session.nextLatch + s.trace.session.period * Config.us }))))
  ∧ (∀ (s : State), s.live = true → ∃ l : List Nat, (∀ i ∈ l, i ∈ sleepers)
      ∧ s.wakes.trace.resyncs = satAdd 64 s.trace.resyncs l.length ∧ (∀ i, i ∈ s.wakes.trace.woken ↔ i ∈ s.trace.woken ∨ i ∈ l))
  ∧ (∀ (s : State) (data : List (Nat × Nat)), s.trace.session.state = .running → s.trace.session.scope = 0xFFFFFFFF →
    s.trace.session.islands.getLsbD islandCP = true → s.trace.session.kinds.getLsbD 3 = true → islandCP ∉ s.trace.session.atLimit →
    (tgetD s.trace.buffers islandCP {}).drained ≤ s.now → (tgetD s.trace.buffers islandCP {}).records.length < 2048 →
    (∀ o ∈ (tgetD s.trace.buffers islandCP {}).records, o.postmark ≤ s.now) →
    ∃ r : TraceRec, (tgetD (s.traceRec islandCP 3 none none data).trace.buffers islandCP {}).records
        = (tgetD s.trace.buffers islandCP {}).records ++ [r]
      ∧ r.postmark = s.now ∧ r.kind = 3 ∧ r.island = islandCP ∧ r.handle = 0xFF ∧ r.flags.testBit 0 = decide (islandCP ∈ s.trace.woken)
      ∧ r.flags.testBit 1 = s.stretched islandCP ∧ islandCP ∉ (s.traceRec islandCP 3 none none data).trace.woken)

/-- The steps of the operations on permits, jobs, partitions, contexts and key indices (R130, R137, R143, R144, R151, R153, R174).
One event carries out one step of an operation, which is the model's (log 4); that a sealed line's room is awaited before a key-index
table is laid out, too (log 54), and so is what END_OF_LIFE leaves of an admission (log 47). -/
def Obligations.OperationProgress : Prop :=
  (∀ (s : State) (p : Permit), s.live = true → s.att.permit = some p →
    Ends .permitExpired s ((s.reach (p.opened + p.lifetime * Config.ms)).expirePermit))
  ∧ (∀ (s : State) (h : Nat) (j : Job), s.job h = some j → j.state = .admitting → j.step < 11 →
    Ends (.admissionProgress h false) s (s.undoAdmission h .integrityLost))
  ∧ (∀ (s : State) (h : Nat) (j : Job), s.job h = some j → j.state = .admitting → j.step = 7 →
    (s.mirrorUnrouted j = true → Ends (.admissionProgress h true) s (s.undoAdmission h .integrityLost))
    ∧ (s.mirrorUnrouted j = false → s.sweepHits j.partition = true → Ends (.admissionProgress h true) s s)
    ∧ (s.mirrorUnrouted j = false → s.sweepHits j.partition = false → j.keyRanges = [] →
      Ends (.admissionProgress h true) s (State.modJob
        { s with regions := j.regions.foldl (fun t e => tput t e.1 (newRegion h [] e.2)) s.regions } h
        (fun j => { j with step := 8 })))
    ∧ (s.mirrorUnrouted j = false → s.sweepHits j.partition = false → j.keyRanges ≠ [] → (s.tableRoom j).1 = false →
      Ends (.admissionProgress h true) s (s.tableRoom j).2)
    ∧ (∀ (w u v : State) (key : Key), s.mirrorUnrouted j = false → s.sweepHits j.partition = false → j.keyRanges ≠ [] →
      s.tableRoom j = (true, w) →
      u = { w with regions := j.regions.foldl (fun t e => tput t e.1 (newRegion h j.keyRanges e.2)) w.regions } →
      u.slotKey h (.data 0 0xFF) = some key → v = (u.setupTable h).derived 1 →
      Ends (.admissionProgress h true) s
        (if (v.metaKey h).isNone then v.undoAdmission h .integrityLost else v.modJob h (fun j => { j with step := j.step + 1 }))))
  ∧ (∀ (h : Nat) (ranges : List KeyRange) (p : Placed),
    (newRegion h ranges p).state = (if p.record.cls = .weights then .loading else .active)
    ∧ (newRegion h ranges p).handle = h ∧ (newRegion h ranges p).cls = p.record.cls ∧ (newRegion h ranges p).base = p.base
    ∧ (newRegion h ranges p).size = p.size ∧ (newRegion h ranges p).pooled = p.record.pooled
    ∧ (p.record.cls = .fresh → (newRegion h ranges p).tree.copyA = p.treeA ∧ (newRegion h ranges p).tree.copyB = p.treeB
        ∧ (newRegion h ranges p).tree.sectors = p.size / 2 ^ p.record.sectorLog))
  ∧ (∀ (s u v : State) (h lb : Nat) (j : Job) (r : JobRoot) (x : Lbx), s.job h = some j → j.state = .admitting → j.step = 9 →
    j.letterbox = some lb → tget s.kv.jobRoots h = some r →
    u = (s.draw 64).2 → v = (u.draw 64).2 →
    x = { state := if j.binding = 3 then .opened else .idle,
          binding := if j.binding = 1 then .host0 else if j.binding = 2 then .host1 else .fabric,
          session := (u.draw 64).1, tokenAt := s.now } →
    Ends (.admissionProgress h true) s
      ((State.derived { v with
          sniby := { v.sniby with boxes := tput v.sniby.boxes lb x },
          kv := { v.kv with lbxKeys := tput v.kv.lbxKeys lb (lbxJobKey r.jrk j.number lb (s.draw 64).1) } } 1).modJob h
        (fun j => { j with admissionNonce := (s.draw 64).1, step := 10 })))
  ∧ (∀ (s : State) (h : Nat) (j : Job), s.job h = some j → j.state = .admitting → j.step = 9 →
    (j.letterbox = none → Ends (.admissionProgress h true) s (s.modJob h (fun j => { j with step := 10 })))
    ∧ (j.letterbox ≠ none → tget s.kv.jobRoots h = none →
      Ends (.admissionProgress h true) s ((s.hardFault 1 islandKV).undoAdmission h .integrityLost)))
  ∧ (∀ (s : State) (h : Nat) (j : Job), s.job h = some j → j.state = .admitting → j.step = 10 →
    (∀ r, tget s.kv.jobRoots h = some r → Ends (.admissionProgress h true) s
      ((State.calls { s with kv := { s.kv with jobRoots := tput s.kv.jobRoots h { r with state := .active } } }
        (shakeCalls 103) false).modJob h (fun k => { k with
          measurement := shake256 (ascii "JOB" ++ bytesOf s.att.dmr ++ le 4 j.number ++ bytesOf j.manifestDigest
            ++ bytesOf j.modelDigest) 256,
          step := 11 })))
    ∧ (tget s.kv.jobRoots h = none → Ends (.admissionProgress h true) s (s.undoAdmission h .integrityLost)))
  ∧ (∀ (s t : State) (h : Nat) (j : Job) (st : Status), s.tablesSorted = true → s.job h = some j → t = s.undoAdmission h st →
    t.job h = none ∧ tget t.kv.jobRoots h = none ∧ (∀ e ∈ j.regions, tget t.regions e.1 = none)
    ∧ (∀ x ∈ t.kv.cache, x.handle ≠ h) ∧ (∀ x ∈ t.kv.schedules, x.handle ≠ h)
    ∧ (∀ lb, j.letterbox = some lb → 9 < j.step → tget t.kv.lbxKeys lb = none ∧ (t.box lb).state = .closed))
  ∧ (∀ (s : State) (h : Nat) (j : Job), s.job h = some j → j.state = .admitting → j.step = 8 →
    Ends (.admissionProgress h true) s (s.modJob h (fun j => { j with step := j.step + 1 })))
  ∧ (∀ (s : State) (h : Nat) (j : Job) (good : Bool), s.job h = some j → j.state = .admitting → 10 < j.step →
    Ends (.admissionProgress h good) s
      ((s.modJob h (fun j => { j with state := .active, op := none, step := 0, admittedAt := s.now })).completeOpt j.op .done
        [(1, h), (1, j.letterbox.getD 0xFF), (2, j.regBase), (2, j.ctxBase), (2, 0), (8, j.admissionNonce.toNat)]))
  ∧ (∀ (s : State) (h : Nat) (j : Job), s.live = true → s.job h = some j → j.state = .closing → j.step = 2 →
    Ends (.jobTeardownProgress h) s (s.modJob h (fun j => { j with step := j.step + 1 })))
  ∧ (∀ (s t : State) (h : Nat) (j : Job) (op : Option Nat), s.job h = some j → t = s.teardownStart h op →
    (∃ k, t.job h = some k ∧ k.state = .closing ∧ k.step = 2 ∧ k.op = op)
    ∧ (∀ r, tget s.kv.jobRoots h = some r → tget t.kv.jobRoots h = some { r with state := .draining })
    ∧ (∀ e ∈ j.regions, (t.region e.1).state = .closing)
    ∧ (∀ lb, j.letterbox = some lb → (t.box lb).state =
        if (s.box lb).state = .unbound ∨ (s.box lb).state = .closed then (s.box lb).state else .closing)
    ∧ (∀ a ∈ t.assocs.entries, a.handle = h → a.state ≠ .calling ∧ a.state ≠ .answered ∧ a.answer = none))
  ∧ (∀ (s : State) (h : Nat) (j : Job), s.live = true → s.job h = some j → j.state = .closing →
    (s.part j.partition).state ≠ .resetting →
    (j.step = 3 →
      (∀ l, j.ctxs.filter (fun c => (s.ctx c).state == .opened) = l → l ≠ [] →
        Ends (.jobTeardownProgress h) s (l.foldl (fun x c => x.closeStart h c none) s))
      ∧ ((∀ c ∈ j.ctxs, (s.ctx c).state ≠ .opened) → (∃ c ∈ j.ctxs, (s.ctx c).state ≠ .free) → Ends (.jobTeardownProgress h) s s)
      ∧ ((∀ c ∈ j.ctxs, (s.ctx c).state = .free) →
        Ends (.jobTeardownProgress h) s (s.modJob h (fun k => { k with step := 4 }))))
    ∧ (j.step = 4 → Ends (.jobTeardownProgress h) s
      ((((s.red.descs.filter (fun e => e.2.handle == h)).map (·.1)).foldl (fun x n => x.descCloses n none true) s).modJob h
        (fun k => { k with step := k.step + 1 })))
    ∧ (j.step = 5 →
      ((∃ q ∈ s.mem.reqs, q.handle = h ∧ q.window ≠ none) ∨ (∃ e ∈ s.red.descs, e.2.handle = h) →
        Ends (.jobTeardownProgress h) s s)
      ∧ ((∀ q ∈ s.mem.reqs, q.handle = h → q.window = none) → (∀ e ∈ s.red.descs, e.2.handle ≠ h) →
        Ends (.jobTeardownProgress h) s
          ((s.modRemote (fun x => { x with rows := x.rows.filter (fun y => y.handle != h) })).modJob h (fun k => { k with step := 6 }))))
    ∧ (j.step = 6 → Ends (.jobTeardownProgress h) s ((s.stopWalkers h).modJob h (fun k => { k with step := k.step + 1 })))
    ∧ (j.step = 7 → Ends (.jobTeardownProgress h) s
      (((s.openRegions h).foldl (fun x r =>
          if r.pooled then
            match x.routePort (r.base / 2 ^ 48) with
            | some p => x.emitPort p (.trayZero p (r.base / 2 ^ 48) r.base r.size)
            | none => x
          else x.wipe h (stackOf r.base) r.base r.size) s).modJob h (fun k => { k with step := k.step + 1 })))
    ∧ (j.step = 8 → ((∃ w ∈ s.mem.wipes, w.handle = h) → Ends (.jobTeardownProgress h) s s)
      ∧ ((∀ w ∈ s.mem.wipes, w.handle ≠ h) →
        Ends (.jobTeardownProgress h) s ((s.dropPeers h).modJob h (fun k => { k with step := k.step + 1 }))))
    ∧ (j.step = 9 → (s.jobBusy h = true → Ends (.jobTeardownProgress h) s s)
      ∧ (s.jobBusy h = false →
        Ends (.jobTeardownProgress h) s ((s.dropTables h).modJob h (fun k => { k with step := k.step + 1 }))))
    ∧ (j.step = 10 → (s.jobBusy h = true → Ends (.jobTeardownProgress h) s s)
      ∧ (s.jobBusy h = false → Ends (.jobTeardownProgress h) s
        (State.modJob { s with kv := { s.kv with
            schedules := s.kv.schedules.filter (fun k => k.handle != h),
            requests := s.kv.requests.filter (fun r => r.handle != h),
            jobRoots := tmod s.kv.jobRoots h (fun r => { r with holders := [] }) } } h (fun k => { k with step := 11 }))))
    ∧ (j.step = 11 → ∀ r, tget s.kv.jobRoots h = some r → r.holders = [] → Ends (.jobTeardownProgress h) s
      (State.modJob { s with kv := { s.kv with
          jobRoots := tdel s.kv.jobRoots h, cache := s.kv.cache.filter (fun x => x.handle != h),
          schedules := s.kv.schedules.filter (fun x => x.handle != h) } } h (fun k => { k with step := 12 })))
    ∧ (j.step = 12 → Ends (.jobTeardownProgress h) s ((s.closeBox h).modJob h (fun k => { k with step := k.step + 1 }))))
  ∧ (∀ (s t : State) (h : Nat), t = s.stopWalkers h →
    (∀ r ∈ t.courier.retirements, r.handle ≠ h) ∧ (∀ r ∈ t.regions, r.2.handle = h → r.2.sealOp = none ∧ r.2.resumeOp = none)
    ∧ (∀ w ∈ t.mem.wc, (t.region w.region).handle ≠ h) ∧ (∀ z ∈ t.mem.zeroRuns, (t.region z.region).handle ≠ h))
  ∧ (∀ (s t : State) (h : Nat) (j : Job), s.job h = some j → j.state = .closing → t = s.dropPeers h →
    (∀ a ∈ t.assocs.entries, a.handle ≠ h)
    ∧ (∀ e ∈ t.env, e.1 % 256 = h → e.2.state = .disabled ∧ e.2.sk0 = none ∧ e.2.sk1 = none))
  ∧ (∀ (s t : State) (h : Nat), t = s.dropTables h →
    (∀ e ∈ t.regions, e.2.handle ≠ h) ∧ (∀ e ∈ t.remote.windows, e.2.handle ≠ h) ∧ (∀ e ∈ t.remote.fences, e.2.handle ≠ h)
    ∧ (∀ e ∈ t.red.descs, e.2.handle ≠ h))
  ∧ (∀ (s t : State) (h lb : Nat) (j : Job), s.tablesSorted = true → s.job h = some j → j.letterbox = some lb →
    (s.box lb).state ≠ .unbound → t = s.closeBox h →
    (t.box lb).state = .closed ∧ tget t.kv.lbxKeys lb = none ∧ (t.box lb).waiting = [] ∧ ∀ o ∈ t.sniby.pendingOps, o.lb ≠ lb)
  ∧ (∀ (s : State) (h : Nat) (j : Job), s.live = true → s.job h = some j → j.state = .closing → 12 < j.step →
    (s.part j.partition).state ≠ .resetting →
    Ends (.jobTeardownProgress h) s
      (let u := s.dropJob h
       (State.completeOpt { u with env := u.env.filter (fun e => e.1 % 256 != h) } j.op .done []).closeEnded (.job j.number) true))
  ∧ (∀ (s : State) (p : Nat), (s.part p).state = .resizing → (∃ t ∈ (s.part p).tiles, t ∉ (s.part p).newTiles) →
    Ends (.partitionResizeProgress p) s
      ((s.modPart p (fun q => { q with
        tiles := (s.part p).tiles.filter (fun t => decide (t ∈ (s.part p).newTiles)) })).testEnable
          ((s.part p).tiles.filter (fun t => decide (t ∉ (s.part p).newTiles))) true))
  ∧ (∀ (s : State) (p : Nat), (s.part p).state = .resizing → (∀ t ∈ (s.part p).tiles, t ∈ (s.part p).newTiles) →
    s.leftBehind p (s.part p).tiles = false →
    Ends (.partitionResizeProgress p) s
      (let added := (s.part p).newTiles.filter (fun t => decide (t ∉ (s.part p).tiles))
       let u := s.modPart p (fun q => { q with tiles := q.newTiles, state := .active, newTiles := [], op := none })
       (u.testEnable added false).completeOpt (s.part p).op .done []))
  ∧ (∀ (s : State) (c h : Nat) (j : Job), s.live = true → s.jobOfCtx c = some h → s.job h = some j →
    (s.part j.partition).state ≠ .resetting → (s.ctx c).state = .closing →
    ((s.ctx c).step = 3 → Ends (.contextCloseProgress c) s
      ((s.flushWhere (fun e => e.ctx == some c)).modCtx c (fun x => { x with step := 4 })))
    ∧ ((s.ctx c).step = 4 → s.localBusy c = false →
        Ends (.contextCloseProgress c) s (s.modCtx c (fun x => { x with step := 5 })))
    ∧ ((s.ctx c).step = 4 → s.localBusy c = true → Ends (.contextCloseProgress c) s s)
    ∧ (∀ l, (s.ctx c).step = 5 →
        s.red.descs.filter (fun e => e.2.handle == h && e.2.ctx == c && e.2.state != .free) = l →
        (l = [] → Ends (.contextCloseProgress c) s (s.modCtx c (fun x => { x with step := 6 })))
        ∧ (l ≠ [] → Ends (.contextCloseProgress c) s
          (l.foldl (fun x e => x.descCloses e.1 none (s.ctx c).op.isNone) s)))
    ∧ ((s.ctx c).step = 6 → (s.ctx c).fence = none →
        (s.freeFences.length ≤ s.resetsAtFence.length → Ends (.contextCloseProgress c) s s)
        ∧ (∀ n l, s.resetsAtFence.length < s.freeFences.length → s.freeFences = n :: l →
          Ends (.contextCloseProgress c) s
            ((s.modRemote (fun x => { x with fences := tput x.fences n {
              state := .armed, scope := 0xFFFF, nodes := (s.ctx c).dests.map (fun d => s.fenceNode h d), armedAt := s.now,
              handle := 0xFFFF } })).modCtx c (fun x => { x with fence := some n }))))
    ∧ (∀ n, (s.ctx c).step = 6 → (s.ctx c).fence = some n →
        ((s.fenceObj n).state = .armed → Ends (.contextCloseProgress c) s s)
        ∧ ((s.fenceObj n).state ≠ .armed → Ends (.contextCloseProgress c) s
          ((s.modRemote (fun x => { x with fences := tdel x.fences n })).modCtx c (fun x => { x with
            step := 7, fence := none, fenceMissed := (s.fenceObj n).missed }))))
    ∧ ((s.ctx c).step = 7 → (s.remoteBusy c = true → Ends (.contextCloseProgress c) s s)
        ∧ (s.remoteBusy c = false → Ends (.contextCloseProgress c) s (s.modCtx c (fun x => { x with step := 8 }))))
    ∧ ((s.ctx c).step = 8 → (s.envBusy [c] = true → Ends (.contextCloseProgress c) s s)
        ∧ (s.envBusy [c] = false → Ends (.contextCloseProgress c) s (s.modCtx c (fun x => { x with step := 9 }))))
    ∧ ((s.ctx c).step = 9 → (s.inFlight c ≠ 0 → Ends (.contextCloseProgress c) s s)
        ∧ (s.inFlight c = 0 → Ends (.contextCloseProgress c) s
          (State.modCtx { s with kv := { s.kv with schedules := s.kv.schedules.filter (fun k => k.handle != h) } } c
            (fun x => { x with step := 10 }))))
    ∧ (9 < (s.ctx c).step → Ends (.contextCloseProgress c) s (s.closeEnd c)))
  ∧ (∀ (s : State) (h c : Nat) (op : Option Nat), s.closeStart h c op = s.modCtx c (fun x => { x with
      state := .closing, step := 3, op := op, fence := none, fenceMissed := 0, remoteMissed := 0,
      closeBy := s.now + s.closeBound h * Config.us }))
  ∧ (∀ (s : State) (n : Nat) (op : Option Nat) (noRecord : Bool),
    ((s.desc n).state ≠ .active → s.descCloses n op noRecord = s)
    ∧ ((s.desc n).state = .active → ((s.descCloses n op noRecord).desc n).state = .closing
        ∧ ((s.descCloses n op noRecord).desc n).ending = (if (s.desc n).ending.isSome then (s.desc n).ending else some .squashed)
        ∧ ((s.desc n).ending = none → ((s.descCloses n op noRecord).desc n).keys = none)))
  ∧ (∀ (s : State) (r : Retirement), s.courier.retirements.find? (fun x => x.handle == r.handle && x.index == r.index) = some r →
    s.retireDue r = true → Ends (.retirementProgress r.handle r.index) s (s.retireEnd r))
  ∧ (∀ (s : State) (h i : Nat) (j : Job), (∀ r ∈ s.courier.retirements, ¬(r.handle = h ∧ r.index = i)) →
    s.courier.retirements.length < 64 → s.job h = some j → j.state = .resizing →
    (∃ k ∈ j.removing, k.base ≤ i ∧ i < k.base + k.count) → (s.entry h i).state = .live →
    Ends (.retirementProgress h i) s (s.retireStart h i none))

/-- UNDEFINED_OPCODE: a command whose opcode no handler serves is answered UNKNOWN_OPCODE once it has passed the checks before
check 8 of R46, and has no other effect. -/
def Obligations.UnknownOpcode : Prop :=
  ∀ (s : State) (op : BitVec 16) (lb : Nat) (via : Via) (p : Packet) (key : Key),
    handlerFor op.toNat = none →
    Verified s { op := op.toNat, lb := lb, via := via, p := p } key →
    p.sequence.toNat = (((s.checking { op := op.toNat, lb := lb, via := via, p := p }).noteNode
      { op := op.toNat, lb := lb, via := via, p := p }).box lb).nextSeq →
    p.revision = Config.revisionByte → p.sequence.toNat < 0xFFFFF000 →
    (s.admitted { op := op.toNat, lb := lb, via := via, p := p }).dg.aborted = false →
    (s.admitted { op := op.toNat, lb := lb, via := via, p := p }).quarantined = false →
    ((s.admitted { op := op.toNat, lb := lb, via := via, p := p }).box lb).state ≠ .closing →
    exec (.undefinedOpcode op lb via p) s = .next (State.ended
      ((s.admitted { op := op.toNat, lb := lb, via := via, p := p }).replyWith { op := op.toNat, lb := lb, via := via, p := p } key
        (s.nonceOf { op := op.toNat, lb := lb, via := via, p := p }) { status := .unknownOpcode }))

/-- Checks 1 to 4 of R46, for every row of a letterbox command: what answers a command that fails one of them, and that only
a command whose check verifies and whose turn has come goes on; a command that fails a later check is answered with that
check's status and detail.  A packet from the fabric ahead of its turn waits where there is room, and is BUSY where 16 wait (R60, R63).
A letterbox without its key is answered FAULTED, as R83 has it for a part whose roots fail; that it is so whatever left the key away
is the model's reading (log 25).  A command whose stream a compare failure has aborted takes its sequence number and is refused
with FAULTED (R47, R110); which command that is, is the model's choice (log 51). -/
def Obligations.CommandChecks : Prop :=
  ∀ (i : Instr) (c : Cmd) (s : State), RowOf i c → c.lb < 64 → s.comes c → s.ahead c.lb = s → (s.met c).cpServes = true →
    ((s.met c).boot.tamperHeld = true →
      exec i s = .next (((s.met c).unauth c .tamperHeld).ended))
    ∧ ((s.met c).boot.tamperHeld = false → ((s.met c).dg.pairs = [] ∨ (s.met c).lbxKey c.lb = none) →
      exec i s = .next (((s.met c).unauth c .faulted).ended))
    ∧ (∀ key, (s.met c).boot.tamperHeld = false → (s.met c).dg.pairs ≠ [] →
      (s.met c).lbxKey c.lb = some key →
      (framed c = false → exec i s = .next (((s.met c).checkFailed c key).ended))
      ∧ (framed c = true → checked key ((s.checking c).box c.lb).session c = false →
          exec i s = .next (((s.checking c).checkFailed c key).ended)))
    ∧ (∀ key, Verified s c key →
      (c.p.sequence.toNat < (((s.checking c).noteNode c).box c.lb).nextSeq →
        exec i s = .next (((((s.checking c).noteNode c).modBox c.lb (fun b => { b with failCount := 0 })).replyWith c key
          (s.nonceOf c) { status := .replayed }).ended))
      ∧ ((((s.checking c).noteNode c).box c.lb).nextSeq < c.p.sequence.toNat → (∃ l, c.via = .host l) →
        exec i s = .next (((((s.checking c).noteNode c).modBox c.lb (fun b => { b with failCount := 0 })).replyWith c key
          (s.nonceOf c) { status := .badParam, detail := 4 }).ended))
      ∧ ((((s.checking c).noteNode c).box c.lb).nextSeq < c.p.sequence.toNat → (∃ port n, c.via = .fabric port n) →
        (((s.checking c).noteNode c).box c.lb).waiting.length < 16 →
        exec i s = .next (((((s.checking c).noteNode c).modBox c.lb (fun b => { b with failCount := 0 })).keepPacket c).ended))
      ∧ (∀ u, (((s.checking c).noteNode c).box c.lb).nextSeq < c.p.sequence.toNat → (∃ port n, c.via = .fabric port n) →
        16 ≤ (((s.checking c).noteNode c).box c.lb).waiting.length →
        u = ((s.checking c).noteNode c).modBox c.lb (fun b => { b with failCount := 0 }) →
        exec i s = .next ((u.replyWith c key (s.nonceOf c) { status := .busy, wait := u.waitingBusy c.lb }).ended))
      ∧ (c.p.sequence.toNat = (((s.checking c).noteNode c).box c.lb).nextSeq → (s.admitted c).dg.aborted = true →
        exec i s = .next (State.ended (State.replyWith { s.admitted c with dg := { (s.admitted c).dg with aborted := false } }
          c key (s.nonceOf c) { status := .faulted })))
      ∧ (c.p.sequence.toNat = (((s.checking c).noteNode c).box c.lb).nextSeq → (s.admitted c).dg.aborted = false →
        ∀ st d, preCheck (handlerFor c.op) (s.admitted c) c = some (st, d) →
          exec i s = .next (((s.admitted c).replyWith c key (s.nonceOf c) { status := st, detail := d }).ended)))

/-- A CHECK_FAIL (R38, R45): the reply, under the letterbox's key and nonce, carries the session nonce; the eighth in a row on an
OPEN letterbox throttles it for 10 ms and posts LETTERBOX_THROTTLED, which names it and the end of the 10 ms, for the letterbox's own
job (R513), and any other adds one to the count and posts nothing; no other letterbox changes state or count. -/
def Obligations.CheckFailures : Prop :=
  ∀ (s : State) (c : Cmd) (key : Key),
    (∀ l, c.via = .host l →
      ∃ r : Reply, r.status = .checkFail ∧ r.inline = pay [(8, (s.box c.lb).session.toNat)] ∧ r.opcode = c.op
        ∧ r.letterbox = c.lb ∧ r.sequence = c.p.sequence ∧ r.cookie = c.p.cookie ∧ r.body = [] ∧ r.detail = 0
        ∧ r.nextSeq = (s.box c.lb).nextSeq ∧ r.retryAfter = 0
        ∧ r.check = checkValue key 2 (s.box c.lb).session (replyBytes { r with check := 0 })
        ∧ Item.reply c.lb c.via (s.box c.lb).rplSlot r ∈ (s.checkFailed c key).out)
    ∧ (∀ u, u = s.replyWith c key (s.box c.lb).session { status := .checkFail, inline := pay [(8, (s.box c.lb).session.toNat)] } →
      ((s.box c.lb).state = .opened → 7 ≤ (s.box c.lb).failCount → ∀ jobs,
        (∀ h, h ∈ jobs ↔ ∃ j, s.jobs.find? (fun e => e.2.letterbox == some c.lb) = some (h, j)) → jobs.length ≤ 1 →
        s.checkFailed c key = State.post (u.modBox c.lb (fun b => { b with
          state := .throttled, failCount := 0, throttledUntil := s.now + 10 * Config.ms }))
          0x0101 .checkFail [(1, c.lb)] [(8, s.now + 10 * Config.ms)] jobs)
      ∧ (¬((s.box c.lb).state = .opened ∧ 7 ≤ (s.box c.lb).failCount) →
        s.checkFailed c key = u.modBox c.lb (fun b => { b with failCount := b.failCount + 1 })))
    ∧ ((s.box c.lb).state = .opened → 7 ≤ (s.box c.lb).failCount →
      ((s.checkFailed c key).box c.lb).state = .throttled ∧ ((s.checkFailed c key).box c.lb).failCount = 0
        ∧ ((s.checkFailed c key).box c.lb).throttledUntil = s.now + 10 * Config.ms)
    ∧ (¬((s.box c.lb).state = .opened ∧ 7 ≤ (s.box c.lb).failCount) →
      ((s.checkFailed c key).box c.lb).state = (s.box c.lb).state
        ∧ ((s.checkFailed c key).box c.lb).failCount = (s.box c.lb).failCount + 1)
    ∧ (∀ lb, lb ≠ c.lb → ((s.checkFailed c key).box lb).state = (s.box lb).state
        ∧ ((s.checkFailed c key).box lb).failCount = (s.box lb).failCount)
    ∧ (∀ lb, ((s.checkFailed c key).box lb).session = (s.box lb).session
        ∧ ((s.checkFailed c key).box lb).nextSeq = (s.box lb).nextSeq)

/-- Step 13 of R46 for every row of a letterbox command (R56, R58, R60, R62): no token, no entry for one more operation, one
command held behind a close already, or the block not yet in full service: there letterbox 0's command is held, and letterbox 1's is
BUSY with 1 s less the time since the start (R515); a command that needs a metadata fetch first holds the CP
until it has come back (R198). -/
def Obligations.LimitsAndHolds : Prop :=
  ∀ (i : Instr) (c : Cmd) (s : State) (key : Key) (h : Handler), RowOf i c → handlerFor c.op = some h → Verified s c key →
    c.p.sequence.toNat = (((s.checking c).noteNode c).box c.lb).nextSeq → (s.admitted c).dg.aborted = false →
    preCheck (some h) (s.admitted c) c = none →
    (h.service = true → (s.admitted c).awaitsService = true → c.lb = 0 →
      (∀ e, (s.admitted c).opRoom 0 = some e →
        exec i s = .next (((s.admitted c).replyWith c key (s.nonceOf c) { status := .busy, wait := e }).ended))
      ∧ ((s.admitted c).opRoom 0 = none → (s.admitted c).sniby.places.length < 4096 →
        exec i s = .next (State.ended (State.replyWith
          (let u := ((s.admitted c).newOp c none).2
           { u with sniby := { u.sniby with places := u.sniby.places ++
             [.command { opcode := c.op, lb := c.lb, via := c.via, packet := c.p, op := (s.admitted c).sniby.nextOp, since := u.now }] } })
          c key (s.nonceOf c) { status := .held }))))
    ∧ (h.service = true → (s.admitted c).awaitsService = true → c.lb = 1 →
      (∀ a u after, h.run (s.admitted c) c = .reply a u after →
        exec i s = .next (((s.admitted c).replyWith c key (s.nonceOf c) {
          status := .busy, wait := 1000000 - (s.now - s.boot.startedAt) / Config.us }).ended))
      ∧ (∀ body bound start spent, h.run (s.admitted c) c = .accept body bound start spent →
        exec i s = .next (((spent (s.admitted c)).replyWith c key (s.nonceOf c) {
          status := .busy,
          wait := 1000000 - ((spent (s.admitted c)).now - (spent (s.admitted c)).boot.startedAt) / Config.us }).ended)))
    ∧ ((h.service = true → (s.admitted c).awaitsService = false) →
      (∀ a, h.run (s.admitted c) c = .stop a → exec i s = .next (((s.admitted c).replyWith c key (s.nonceOf c) a).ended))
      ∧ (∀ u, h.run (s.admitted c) c = .wait u → exec i s = .next ((u.block c 0 (some (s.nonceOf c))).ended))
      ∧ (∀ body bound start spent e, h.run (s.admitted c) c = .accept body bound start spent →
          (spent (s.admitted c)).takeToken c.lb = .error e →
          exec i s = .next (((spent (s.admitted c)).replyWith c key (s.nonceOf c) { status := .busy, wait := e }).ended))
      ∧ (∀ body bound start spent u e, h.run (s.admitted c) c = .accept body bound start spent →
          (spent (s.admitted c)).takeToken c.lb = .ok u →
          u.opRoom c.lb = some e → exec i s = .next ((u.replyWith c key (s.nonceOf c) { status := .busy, wait := e }).ended))
      ∧ (∀ o remain, h.run (s.admitted c) c = .behind o remain → (s.admitted c).sniby.heldBehind.any (fun e => e.1 == o) = true →
          exec i s = .next (((s.admitted c).replyWith c key (s.nonceOf c) { status := .busy, wait := remain }).ended))
      ∧ (∀ o remain, h.run (s.admitted c) c = .behind o remain → (s.admitted c).sniby.heldBehind.any (fun e => e.1 == o) = false →
          (s.admitted c).opRoom c.lb = none →
          exec i s = .next (State.ended (State.replyWith
            (let u := ((s.admitted c).newOp c none).2
             { u with sniby := { u.sniby with heldBehind := u.sniby.heldBehind ++
               [(o, { opcode := c.op, lb := c.lb, via := c.via, packet := c.p, op := (s.admitted c).sniby.nextOp, since := u.now })] } })
            c key (s.nonceOf c) { status := .queuedBehindClose }))))

/-- A job letterbox's tokens (R60): at most 256, one more for each 20 µs; with none left the command is BUSY, and the letterboxes 0
and 1 need none.  retry_after of a BUSY (R48): the estimate, or 10 µs where it is less, and a jitter from the DRBG of at most a
quarter of it. -/
def Obligations.CommandRate : Prop :=
  (∀ (s : State) (lb : Nat),
    (lb < 2 → s.takeToken lb = .ok s)
    ∧ (2 ≤ lb → (s.box lb).tokens = 0 → s.now < (s.box lb).tokenAt + 80000 → ∃ e, s.takeToken lb = .error e)
    ∧ (2 ≤ lb → (0 < (s.box lb).tokens ∨ (s.box lb).tokenAt + 80000 ≤ s.now) → ∃ u, s.takeToken lb = .ok u
        ∧ (u.box lb).tokens < 256 ∧ ∃ n, (u.box lb).tokens = n - 1
        ∧ n = min 256 ((s.box lb).tokens + (s.now - (s.box lb).tokenAt) / 80000)
        ∧ ∀ k, k ≠ lb → u.box k = s.box k))
  ∧ (∀ (s : State) (e : Nat),
    10 ≤ (s.retryAfter e).1
    ∧ (∃ j, (s.retryAfter e).1 = max e 10 + j ∧ j ≤ max e 10 / 4)
    ∧ (∀ (c : Cmd) (key : Key) (nonce : BitVec 64) (l : Nat), c.via = .host l →
        ∃ r : Reply, r.status = .busy ∧ r.retryAfter = (s.retryAfter e).1 ∧ r.sequence = c.p.sequence ∧ r.opcode = c.op
          ∧ Item.reply c.lb c.via (s.box c.lb).rplSlot r ∈ (s.replyWith c key nonce { status := .busy, wait := e }).out))

/-- An event notice that finds no free unreserved entry, or a host-bound letterbox that is not enabled, is dropped and counted, and
the next notice written to that letterbox says so (R57). -/
def Obligations.DroppedNotices : Prop :=
  ∀ (s : State) (lb : Nat) (n : Notice),
    (((s.box lb).binding ≠ .fabric ∧ (s.box lb).enable = false) ∨ (s.box lb).ringDepth ≤ (s.box lb).ringUsed + s.reserved lb →
      (s.eventTo lb n).out = s.out
      ∧ (((s.eventTo lb n).box lb).ringFullDrops = min ((s.box lb).ringFullDrops + 1) 0xFFFFFFFF)
      ∧ ((s.eventTo lb n).box lb).dropsPending = true
      ∧ ((s.eventTo lb n).box lb).heldNotices = (s.box lb).heldNotices
      ∧ ∀ k, k ≠ lb → (s.eventTo lb n).box k = s.box k)
    ∧ (∀ key, s.lbxKey lb = some key → (s.box lb).dropsPending = true →
      ((s.writeNotice lb none n).box lb).dropsPending = false
      ∧ ∃ m : Notice, m.dropsPending = true ∧ m.noticeSeq = (s.box lb).noticeSeq + 1 ∧ m.noticeType = n.noticeType
          ∧ m.check = checkValue key 3 (s.box lb).session (noticeBytes m)
          ∧ Item.notice lb none (s.box lb).ntcSlot m ∈ (s.writeNotice lb none n).out)

/-- MSI-X (R64): a host-bound letterbox with msix_enable raises the vector of its number on its bound link for every reply and notice,
at most once in 2 µs; a write in the quiet interval raises it at its end. -/
def Obligations.QuietVectors : Prop :=
  ∀ (s : State) (lb l : Nat), (s.box lb).binding.link = some l →
    ((s.box lb).msixEnable = false → s.raiseBox lb = s)
    ∧ ((s.box lb).msixEnable = true →
      (tgetD s.boot.msixQuiet (l * 512 + lb) 0 ≤ s.now →
        (s.raiseBox lb).out = s.out ++ [.msix l lb]
        ∧ tgetD (s.raiseBox lb).boot.msixQuiet (l * 512 + lb) 0 = s.now + 2 * Config.us
        ∧ (s.raiseBox lb).boot.msixDeferred = s.boot.msixDeferred)
      ∧ (s.now < tgetD s.boot.msixQuiet (l * 512 + lb) 0 →
        (s.raiseBox lb).out = s.out ∧ l * 512 + lb ∈ (s.raiseBox lb).boot.msixDeferred
        ∧ (s.raiseBox lb).boot.msixQuiet = s.boot.msixQuiet))
    ∧ (∀ (c : Cmd) (st : Status) (k : Nat), c.lb = lb → c.via = .host k → (s.box lb).msixEnable = true →
        tgetD s.boot.msixQuiet (l * 512 + lb) 0 ≤ s.now → Item.msix l lb ∈ (s.replied c st).out)
    ∧ (∀ (key : Key) (n : Notice), s.lbxKey lb = some key → (s.box lb).msixEnable = true →
        tgetD s.boot.msixQuiet (l * 512 + lb) 0 ≤ s.now → Item.msix l lb ∈ (s.writeNotice lb none n).out)
    ∧ (s.live = true → l * 512 + lb ∈ s.boot.msixDeferred →
        ∃ u, Ends (.msixQuietEnd l lb) s u ∧ u.out = s.out ++ [.msix l lb]
          ∧ u.now = max s.now (tgetD s.boot.msixQuiet (l * 512 + lb) 0))

/-- A step takes the command at the front of the queue and is that command's exec on the state with the queue's rest. -/
def Obligations.TakesTheFront : Prop :=
  ∀ (s : State) (c : Instr) (rest : List Instr), s.pending = c :: rest → step s = exec c { s with pending := rest }

/-- Every step answers a next state: it takes one command off the queue and puts none there, and an idle block lets one unit of time
pass, or none while it has no power or is held in reset (the model's choice: log 3). -/
def Obligations.StepAnswers : Prop :=
  ∀ s : State, ∃ t, step s = .next t ∧ t.pending = s.pending.tail
    ∧ (s.pending = [] → (s.live = true → t = s.tick) ∧ (s.live = false → t = s))

/-- The state right after power-on reset: the block is held in reset, no store holds a key, letterboxes 0 and 1 alone are
bound, no job, partition, context or region exists, nothing is quarantined or held for tamper, the limits of power and of temperature have the values that the
manual gives, and nothing waits. -/
def Obligations.ResetState : Prop :=
  State.reset.live = false ∧ State.reset.boot.tamperHeld = false ∧ State.reset.quarantined = false ∧ State.reset.keysGone = true
    ∧ State.reset.boot.nodeNumber = 0xFFFF ∧ State.reset.boot.bootCode = 0xFF ∧ State.reset.boot.fwRunning = false
    ∧ (State.reset.box 0).state = .idle ∧ (State.reset.box 0).binding = .host0
    ∧ (State.reset.box 1).state = .idle ∧ (State.reset.box 1).binding = .fabric
    ∧ (∀ lb, 2 ≤ lb → (State.reset.box lb).state = .unbound)
    ∧ State.reset.jobs = [] ∧ State.reset.parts = [] ∧ State.reset.ctxs = [] ∧ State.reset.regions = []
    ∧ State.reset.trace.session.state = .idle ∧ State.reset.att.permit = none
    ∧ State.reset.power.boardLimit = 600 ∧ State.reset.power.safeBudget = 600 ∧ State.reset.power.reserve = 160
    ∧ State.reset.power.tThrottle = 95 ∧ State.reset.power.leaseMode = 0
    ∧ State.reset.fuses.recorded = .blank ∧ State.reset.fuses.policy = 0
    ∧ State.reset.tablesSorted = true ∧ State.reset.pending = []

/-- Every table of the block keeps the one form in which equal tables are equal data, whatever the command or step, from whatever
state has it; the form is the model's own (log 9). -/
def Obligations.TablesStaySorted : Prop :=
  (∀ (s t : State) (i : Instr), s.tablesSorted = true → exec i s = .next t → t.tablesSorted = true)
  ∧ (∀ s t : State, s.tablesSorted = true → step s = .next t → t.tablesSorted = true)
  ∧ State.reset.tablesSorted = true

/-- Fuses only blow, whatever the step: no word loses a blown bit, no slot with a blown bit changes (R79), and the serial, the
calibration and the row repair stay as they are, but for the programming of factory rows through the test port, which nothing but a
part that has never started takes and which touches no other fuse (R76, R501). -/
def Obligations.FusesOnlyBlow : Prop :=
  (∀ s t : State, step s = .next t →
    (s.boot.hasStarted = true ∨ ∀ rows, s.pending.head? ≠ some (.tapInstruction (.program rows))) → Blown s.fuses t.fuses)
  ∧ (∀ (s t : State) (rows : FactoryRows), step s = .next t → s.pending.head? = some (.tapInstruction (.program rows)) →
    t.fuses = s.fuses ∨ (s.boot.hasStarted = false
      ∧ t.fuses = { s.fuses with serial := rows.serial, calibration := rows.calibration, rowRepair := rows.rowRepair }))

/-- The recorded life-cycle state never goes back, whatever the step, and a root that has become unreadable stays so (R77, R89). -/
def Obligations.LifeCycleForward : Prop :=
  ∀ s t : State, step s = .next t →
    s.fuses.recorded.code ≤ t.fuses.recorded.code
    ∧ (∀ m, markSet s.fuses.progressWord m = true → markSet t.fuses.progressWord m = true)
    ∧ (s.fuses.recorded = .endOfLife → t.fuses.recorded = .endOfLife ∧ (markSet s.fuses.progressWord mkEolBegun = true → t.fuses.readRoot 1 = none))

/-- The recorded state (R77): a group is set when at least 9 of its 16 bits read blown, and the order in which they count. -/
def Obligations.RecordedState : Prop :=
  ∀ f : Fuses,
    (f.recorded = .endOfLife ↔ 9 ≤ blownIn f.lifecycleWord 32 ∨ markSet f.progressWord 28 = true)
    ∧ (f.recorded = .production ↔ f.recorded ≠ .endOfLife ∧ 9 ≤ blownIn f.lifecycleWord 16)
    ∧ (f.recorded = .test ↔ f.recorded ≠ .endOfLife ∧ f.recorded ≠ .production ∧ 9 ≤ blownIn f.lifecycleWord 0)
    ∧ (f.recorded = .blank ↔ f.recorded ≠ .endOfLife ∧ f.recorded ≠ .production ∧ f.recorded ≠ .test)
    ∧ (∀ g : Fuses, (∀ i, i < 48 → g.lifecycleWord.getLsbD i = f.lifecycleWord.getLsbD i) → g.progressWord = f.progressWord →
        g.recorded = f.recorded)

/-- TAMPER_HELD (R103): no step but a loss of power lets it go, RST_N does not, a start that reads TAMPER_N as asserted takes it before
any secret is read and reports it in its state, and a second tamper does nothing. -/
def Obligations.TamperLasts : Prop :=
  (∀ s t : State, step s = .next t → s.boot.tamperHeld = true → s.pending.head? ≠ some .powerLoss → t.boot.tamperHeld = true)
  ∧ (∀ s : State, s.boot.powered = true → ∃ t, exec .tamper s = .next t ∧ t.boot.tamperHeld = true
      ∧ (s.boot.tamperHeld = false → t.boot.blockState = (if s.boot.blockState = .cpHung then .cpHung else .tamperHeld)))
  ∧ (∀ s : State, s.boot.powered = true → ∃ t, exec .rstNAsserted s = .next t ∧ t.boot.tamperHeld = s.boot.tamperHeld)
  ∧ (∀ (s : State) (i : StartInput), s.boot.inReset = true → (i.tamper = true ∨ s.boot.tamperHeld = true) →
      (s.startUp i).boot.tamperHeld = true ∧ (s.startUp i).kv.enrolSecret = s.kv.enrolSecret ∧ (s.startUp i).kv.lbx0 = s.kv.lbx0
        ∧ (s.startUp i).kv.lbx1 = s.kv.lbx1 ∧ (s.startUp i).kv.attest = s.kv.attest ∧ (s.startUp i).kv.transport = s.kv.transport
        ∧ (s.startUp i).kv.permit = s.kv.permit ∧ (s.startUp i).kv.roots = s.kv.roots ∧ (s.startUp i).kv.personal = s.kv.personal
        ∧ (s.startUp i).boot.blockState = .tamperHeld)
  ∧ (∀ s : State, s.boot.powered = true → s.boot.tamperHeld = true → Ends .tamper s s)
  ∧ (∀ s : State, ∃ t, exec .powerLoss s = .next t ∧ t.boot.tamperHeld = false)

/-- What a tamper cleared stays clear (R95, R102 to R104): a state in which the block holds for a tamper, is in reset or without power
has no key in any store of R95 and nothing of a root in the personalisation of the DRBG, and a block that holds for a tamper reports
TAMPER_HELD unless its processor has hung.  Every command and every step keeps this, from whatever state. -/
def Obligations.TamperKeepsClear : Prop :=
  (∀ (s t : State) (i : Instr), s.tamperClean = true → exec i s = .next t → t.tamperClean = true)
  ∧ (∀ s t : State, s.tamperClean = true → step s = .next t → t.tamperClean = true)
  ∧ State.reset.tamperClean = true

/-- Where the stores of R95 lose their keys: a tamper, RST_N and a loss of power clear all of them, what KV delivered to islands and to
streams of the digest engine among them (R102, R21, R419); self-quarantine clears
all but the root registers, the enrolment secret and the five device slots, closes the letterboxes of jobs, and reports its cause (R421). -/
def Obligations.KeysCleared : Prop :=
  (∀ s : State, s.boot.powered = true → s.boot.tamperHeld = false →
    ∃ u, Ends .tamper s u ∧ u.keysGone = true ∧ u.boot.tamperHeld = true ∧ u.att.nonces = [] ∧ u.att.permit = none)
  ∧ (∀ s : State, ∃ t, exec .powerLoss s = .next t ∧ t.keysGone = true ∧ t.boot.powered = false ∧ t.fuses = s.fuses)
  ∧ (∀ s : State, s.boot.powered = true →
    ∃ t, exec .rstNAsserted s = .next t ∧ t.keysGone = true ∧ t.boot.inReset = true ∧ t.fuses = s.fuses)
  ∧ (∀ (s : State) (cause island : Nat), s.boot.tamperHeld = false → s.quarantined = false →
    let t := s.hardFault cause island
    t.kv.jobRoots = [] ∧ t.kv.lbxKeys = [] ∧ t.kv.cache = [] ∧ t.kv.schedules = [] ∧ t.deliveredGone = true
      ∧ t.kv.lbx0 = s.kv.lbx0 ∧ t.kv.lbx1 = s.kv.lbx1 ∧ t.kv.attest = s.kv.attest ∧ t.kv.transport = s.kv.transport
      ∧ t.kv.permit = s.kv.permit ∧ t.kv.enrolSecret = s.kv.enrolSecret ∧ t.kv.roots = s.kv.roots ∧ t.kv.enrolling = s.kv.enrolling
      ∧ t.fault.cause = cause ∧ t.fault.causeIsland = island ∧ t.att.permit = none ∧ t.fault.isolated = true
      ∧ t.boot.blockState = (if s.boot.blockState = .cpHung then .cpHung else .faulted)
      ∧ (∀ lb, 2 ≤ lb → (s.box lb).state ≠ .unbound → (t.box lb).state = .closed)
      ∧ (∀ lb, lb < 2 → (t.box lb).state = (s.box lb).state))

/-- Queries leave the block as it was: whatever comes of one through a host link, with nothing waiting to be done, there is a next state
and only the letterboxes, the vectors, the counts of digest calls and of Aethok's own DMA, the trace buffers and the outputs change.  What
a query is answered is said by the statements of its family.  A KEY_INDEX_STATUS whose line of the table is still to be fetched is another
statement's. -/
def Obligations.QueryFrame : Prop :=
  ∀ (s : State) (i : Nat → Via → Packet → Instr) (lb l : Nat) (p : Packet),
    i ∈ [Instr.nop, .identify, .lifecycleStatus, .keyVaultStatus, .digestStatus, .attest, .readMeasurements, .permitStatus,
         .partitionStatus, .jobStatus, .contextStatus, .regionStatus, .keyIndexStatus, .sectorCounts, .treeStatus, .courierStatus,
         .treeCounts, .assocStatus, .assocCounts, .envelopeStatus, .routeStatus, .windowStatus, .mapStatus, .fenceStatus,
         .remoteCounts, .reductionStatus, .groupStatus, .reductionCounts, .masterStatus, .internalStatus, .regulationCounts,
         .powerStatus, .calibrationStatus, .throttleStatus, .powerSample, .marginStatus, .faultStatus, .healthStatus, .suspectList,
         .contextFaults, .traceStatus, .counterRead, .jobCounters, .deadLetterCounts] →
    s.atRest = true → (s.awaitsService = false ∨ lb ≠ 0) →
    (i = Instr.keyIndexStatus → ∀ h j, s.jobGate (field p.body 0 4) = .ok (h, j) →
      s.entryLost h (field p.body 4 4) = true ∨ s.entryFenced h (field p.body 4 4) = true
      ∨ s.entryAtHand h (field p.body 4 4) = true) →
    ∃ t, exec (i lb (.host l) p) s = .next t ∧ t.apart = s.apart

/-- The replay window of an epoch (R256): 0 and what was accepted before are refused, everything above the highest is accepted, what lies more
than 511 below it is refused, and accepting moves the window. -/
def Obligations.ReplayWindow : Prop :=
  ∀ (e : Epoch) (q : Nat),
    e.accepts 0 = false
    ∧ (1 ≤ q → e.rxHigh < q → e.accepts q = true)
    ∧ (q + 511 < e.rxHigh → e.accepts q = false)
    ∧ (1 ≤ q → q ≤ e.rxHigh → e.rxHigh ≤ q + 511 → (e.accepts q = true ↔ q ∉ e.rxSeen))
    ∧ ((e.accept q).rxHigh = max e.rxHigh q)
    ∧ (e.accepts q = true → (e.accept q).accepts q = false)
    ∧ (∀ r, r ≠ q → e.accepts r = false → (e.accept q).accepts r = false)
    ∧ ((∀ x ∈ e.rxSeen, x ≤ e.rxHigh) → (∀ x ∈ (e.accept q).rxSeen, x ≤ (e.accept q).rxHigh)
      ∧ ∀ r, (e.accept q).rxHigh ≤ r + 511 → r ≠ q → e.accepts r = true → (e.accept q).accepts r = true)

/-- Masked sums (R333, R336, R339, R342, R343): what a switch makes of the contributions of all `n` contributors of a SUM is accepted
by a receiver, which decodes exactly the sum of the contributions; and a receiver of a GATHER decodes exactly what the contributor
at each position contributed (R340). -/
def Obligations.MaskedReduction : Prop :=
  (∀ (s : State) (x : Descriptor) (km kc : Key) (chunk : Nat) (vs : Nat → List Int),
    x.gather = false → 1 ≤ x.n → x.n ≤ 4096 → (∀ i, (vs i).length = 64) → (∀ i, ∀ v ∈ vs i, -maxIn ≤ v ∧ v ≤ maxIn) →
    x.verdict (km, kc) 0 chunk ((List.range 65).map (fun l =>
      ((List.range x.n).map (fun i => ((s.redPacket { x with index := i } km kc chunk (vs i)).lanes.getD l 0).toNat)).sum % fxP))
      = .ok ((List.range 64).map (fun k => ((List.range x.n).map (fun i => (vs i).getD k 0)).sum)))
  ∧ (∀ (s : State) (x : Descriptor) (km kc : Key) (chunk : Nat) (vs : List Int), x.gather = true → vs.length = 64 →
    (∀ v ∈ vs, -maxIn ≤ v ∧ v ≤ maxIn) →
    x.verdict (km, kc) x.index chunk ((s.redPacket x km kc chunk vs).lanes.map (·.toNat)) = .ok vs)

/-- Conversion in (R336): NaN and infinities, rounding to the nearest with ties to even, and saturation of exactly those results
whose magnitude exceeds 2^48 - 1. -/
def Obligations.ConversionIn : Prop :=
  (∀ q, convertIn .nan q = (0, false, true)) ∧ (∀ q, convertIn (.inf false) q = (2 ^ 48 - 1, true, false))
  ∧ (∀ q, convertIn (.inf true) q = (-(2 ^ 48 - 1), true, false))
  ∧ (∀ (v : Value) (q : Int), -(2 ^ 48 - 1) ≤ (convertIn v q).1 ∧ (convertIn v q).1 ≤ 2 ^ 48 - 1)
  ∧ (∀ (m e q : Int), 0 ≤ e + q → (convertIn (.fin m e) q).2.1 = false → (convertIn (.fin m e) q).1 = m * 2 ^ (e + q).toNat)
  ∧ (∀ (m e q : Int), e + q < 0 → (convertIn (.fin m e) q).2.1 = false →
      2 * (m - (convertIn (.fin m e) q).1 * 2 ^ (-(e + q)).toNat).natAbs ≤ 2 ^ (-(e + q)).toNat
      ∧ (2 * (m - (convertIn (.fin m e) q).1 * 2 ^ (-(e + q)).toNat).natAbs = 2 ^ (-(e + q)).toNat →
          (convertIn (.fin m e) q).1 % 2 = 0))
  ∧ (∀ (m e q r : Int), Nearest m (e + q) r → convertIn (.fin m e) q =
      if 2 ^ 48 - 1 < r then (2 ^ 48 - 1, true, false) else if r < -(2 ^ 48 - 1) then (-(2 ^ 48 - 1), true, false) else (r, false, false))
  ∧ (∀ (m e q : Int), ∃ r, Nearest m (e + q) r)
  ∧ (∀ (m e q : Int), (convertIn (.fin m e) q).2.2 = false)
  ∧ (∀ (m e q : Int), (convertIn (.fin m e) q).2.1 = true → (convertIn (.fin m e) q).1 = if m < 0 then -(2 ^ 48 - 1) else 2 ^ 48 - 1)

/-- Conversion out (R334, R337).  Every finite value of a floating-point format other than a zero goes back to its own code without
saturation, a sum of zero gives the code of +0, a value beyond the greatest finite one becomes that one with its sign and is counted,
and of any other no finite code of the format lies nearer than its code, and a tie goes to the even code.  An integer format returns every value it
holds; any other is rounded to the nearest integer, ties to even, and saturated to the format's range, and is counted where it is.  A chunk image
holds the codes of its 64 sums times 2 to the -q, and in an MX format the shared scale of each block of 32, which the elements are divided
by; the count is that of the elements that saturated. -/
def Obligations.ConversionOut : Prop :=
  (∀ f ∈ [fp64, fp32, fp16, bf16, e4m3, e5m2, e3m2, e2m3, e2m1], ∀ c sign, 0 < c → c ≤ f.maxCode → sign < 2 →
    ∃ m e, f.decode (sign * 2 ^ (f.ebits + f.mbits) + c) = .fin m e ∧ m ≠ 0
      ∧ f.encode m e = (sign * 2 ^ (f.ebits + f.mbits) + c, false))
  ∧ (∀ (w frac c : Nat), 1 ≤ w → c < 2 ^ w → ∃ m e, (ElemFmt.int w frac).decode c = .fin m e
      ∧ (ElemFmt.int w frac).encode m e = (c, false))
  ∧ (∀ f ∈ [fp64, fp32, fp16, bf16, e4m3, e5m2, e3m2, e2m3, e2m1], ∀ m e : Int, (f.encode m e).1 % 2 ^ (f.ebits + f.mbits) ≤ f.maxCode)
  ∧ (∀ f ∈ [fp64, fp32, fp16, bf16, e4m3, e5m2, e3m2, e2m3, e2m1], ∀ e : Int, f.encode 0 e = (0, false))
  ∧ (∀ f ∈ [fp64, fp32, fp16, bf16, e4m3, e5m2, e3m2, e2m3, e2m1], ∀ m e g x k : Int, f.decode f.maxCode = .fin g x → m ≠ 0 →
    k ≤ e → k ≤ x →
    (g * 2 ^ (x - k).toNat < m.natAbs * 2 ^ (e - k).toNat →
      f.encode m e = ((if m < 0 then 2 ^ (f.ebits + f.mbits) else 0) + f.maxCode, true))
    ∧ (m.natAbs * 2 ^ (e - k).toNat ≤ g * 2 ^ (x - k).toNat → (f.encode m e).2 = false))
  ∧ (∀ f ∈ [fp64, fp32, fp16, bf16, e4m3, e5m2, e3m2, e2m3, e2m1], ∀ m e n x n' x' k : Int, ∀ c c' sign,
    f.encode m e = (c, false) → f.decode c = .fin n x → c' ≤ f.maxCode → sign < 2 →
    f.decode (sign * 2 ^ (f.ebits + f.mbits) + c') = .fin n' x' → k ≤ e → k ≤ x → k ≤ x' →
    (m * 2 ^ (e - k).toNat - n * 2 ^ (x - k).toNat).natAbs ≤ (m * 2 ^ (e - k).toNat - n' * 2 ^ (x' - k).toNat).natAbs
    ∧ ((m * 2 ^ (e - k).toNat - n * 2 ^ (x - k).toNat).natAbs = (m * 2 ^ (e - k).toNat - n' * 2 ^ (x' - k).toNat).natAbs →
        n * 2 ^ (x - k).toNat ≠ n' * 2 ^ (x' - k).toNat → c % 2 = 0))
  ∧ (∀ (w frac c : Nat) (m e r : Int) (sat : Bool), 1 ≤ w → Nearest m (e + frac) r → (ElemFmt.int w frac).encode m e = (c, sat) →
    (ElemFmt.int w frac).decode c = .fin (max (-2 ^ (w - 1)) (min (2 ^ (w - 1) - 1) r)) (-frac) ∧ c < 2 ^ w
    ∧ sat = decide (r < -2 ^ (w - 1) ∨ 2 ^ (w - 1) - 1 < r))
  ∧ (∀ (code : Nat) (sums : List Int) (q : Int), code < 16 → sums.length = 64 →
    (convertOut code sums q).1.length = imageSize code
    ∧ (isMx code = false → ∀ k, k < 64 →
      elemCode (elemFmt code).width (ofLe (convertOut code sums q).1) k = ((elemFmt code).encode (sums.getD k 0) (-q)).1)
    ∧ (isMx code = false → (convertOut code sums q).2
        = (sums.filter (fun v => ((elemFmt code).encode v (-q)).2)).length)
    ∧ (isMx code = true → (convertOut code sums q).2
        = ((sums.take 32).filter (fun v => ((elemFmt code).encode v (-q + 127 - field (convertOut code sums q).1 0 1)).2)).length
          + ((sums.drop 32).filter (fun v => ((elemFmt code).encode v (-q + 127 - field (convertOut code sums q).1 1 1)).2)).length)
    ∧ (isMx code = true → ∀ k, k < 64 → ∀ (X : Nat) (l : List Int), l = (sums.drop (32 * (k / 32))).take 32 →
      field (convertOut code sums q).1 (k / 32) 1 = X →
      ((∀ v ∈ l, v = 0) → X = 127)
      ∧ (∀ (a n : Nat), a ∈ l.map Int.natAbs → (∀ v ∈ l, v.natAbs ≤ a) → 2 ^ n ≤ a → a < 2 ^ (n + 1) →
          X = (min 254 (max 0 ((n : Int) - q - (if code = 13 then 8 else if code = 14 then 2 else 0) + 127))).toNat)
      ∧ elemCode (elemFmt code).width (ofLe ((convertOut code sums q).1.drop 2)) k
          = ((elemFmt code).encode (sums.getD k 0) (-q + 127 - X)).1))

/-- The health score (R428): the raw score at first, then at most 16 down and 2 up in a millisecond, and the bands with their
hysteresis; the score isolates, quarantines, throttles and resets nothing (R429). -/
def Obligations.HealthScore : Prop :=
  (∀ s : State, s.pwRuns = true → s.fault.healthAt + Config.ms ≤ s.now →
    ∃ n, s.healthUpdate.fault.score = some n ∧ s.healthUpdate.fault.band = bandOf s.fault.band n ∧ s.healthUpdate.fault.raw ≤ 1023
      ∧ (s.fault.score = none → n = s.healthUpdate.fault.raw)
      ∧ (∀ old, s.fault.score = some old →
          (s.healthUpdate.fault.raw < old → n + min 16 (old - s.healthUpdate.fault.raw) = old)
          ∧ (old ≤ s.healthUpdate.fault.raw → n = old + min 2 (s.healthUpdate.fault.raw - old))))
  ∧ (∀ s : State, let t := s.healthUpdate
      t.fault.isolated = s.fault.isolated ∧ t.fault.cause = s.fault.cause ∧ t.fault.runs = s.fault.runs
      ∧ t.fault.stacksFenced = s.fault.stacksFenced ∧ t.boot.blockState = s.boot.blockState ∧ t.power = s.power
      ∧ t.apart.reg = s.apart.reg ∧ t.parts = s.parts ∧ t.ctxs = s.ctxs)
  ∧ (∀ (old : Band) (n : Nat), (n < 256 → bandOf old n = .failing)
      ∧ (256 ≤ n → n < 320 → bandOf old n = if old = .failing then .failing else .poor)
      ∧ (320 ≤ n → n < 512 → bandOf old n = .poor)
      ∧ (512 ≤ n → n < 576 → bandOf old n = if old = .failing ∨ old = .poor then .poor else .fair)
      ∧ (576 ≤ n → n < 768 → bandOf old n = .fair)
      ∧ (768 ≤ n → n < 832 → bandOf old n = if old = .good then .good else .fair)
      ∧ (832 ≤ n → bandOf old n = .good))
end

