-- ==== Sys2Proof/Laws/Serving.lean ====
section
/-!
SUPPORT. Laws/Serving.lean: what serving one command does, said once: a command that is verified is decided in its admitted
state, and a command that is ready has its handler's effect.
-/

-- One theorem after another: side by side, each holds a thread (NOTES.md).
set_option Elab.async false

namespace Sys2Proof
namespace Machine

/-- A packet that comes, framed and checked, is verified in the state in which it was checked (R46, checks 1 to 3). -/
theorem State.serve_verified {s : State} {c : Cmd} {key : Key} (v : Verified s c key) (h : Option Handler) :
    (s.met c).serve h c = (s.checking c).verified h c key := by
  have h1 := v.calm
  have h2 := v.engine
  have h3 := v.keyed
  have h4 := v.framed
  have h5 := v.checked
  unfold State.serve
  rw [if_neg (by simp [h1]), if_neg (by simpa using h2)]
  simp only [h3]
  rw [if_neg (by simp [h4])]
  exact if_neg (by
    intro hc
    have : checked key ((s.checking c).box c.lb).session c = false := hc
    rw [h5] at this
    cases this)

/-- Taking a command changes nothing that decides whether the CP serves. -/
theorem State.takeNext_cpServes (s : State) (lb : Nat) (via : Via) : (s.takeNext lb via).cpServes = s.cpServes := by
  unfold State.takeNext
  dsimp only
  split <;> split <;> rfl

/-- Where a packet comes, its arrival is its service, and through a port the service of those that waited for it (R36, R63). -/
theorem State.packetArrives_of_comes {s : State} {c : Cmd} {key : Key} (v : Verified s c key) :
    ((s.ahead c.lb).packetArrives c.op c.lb c.via c.p).ended = ((s.checking c).verified (handlerFor c.op) c key).ended := by
  have hs := State.serve_verified v (handlerFor c.op)
  obtain ⟨op, lb, via, p⟩ := c
  have hbox := v.box
  have hserves := v.serves
  have hcomes := v.comes
  rw [v.first]
  dsimp only at hs hbox hserves
  unfold State.met at hs hserves
  rw [State.takeNext_cpServes] at hserves
  simp only [State.cpServes, Bool.and_eq_true, Bool.not_eq_true'] at hserves
  obtain ⟨hup, hgo⟩ := hserves
  cases via with
  | host l =>
    simp only [State.comes] at hcomes
    unfold State.packetArrives State.arrive
    dsimp only
    rw [if_neg (by rw [hup]; simp; omega),
      if_pos (by unfold State.hostServes; obtain ⟨hl, he, hst, hc⟩ := hcomes; rcases hst with hst | hst <;> simp [hl, he, hst, hc]),
      if_neg (by rw [hgo]; decide), hs]
  | fabric port n =>
    simp only [State.comes] at hcomes
    obtain ⟨ht, hb, hst⟩ := hcomes
    unfold State.packetArrives State.atPort State.arrive
    dsimp only
    rw [if_pos ht, if_neg (by rw [hup]; simp; omega)]
    rcases hst with hst | hst
    · simp only [hst]; rw [if_pos hb, if_neg (by rw [hgo]; decide), hs]
    · simp only [hst]; rw [if_pos hb, if_neg (by rw [hgo]; decide), hs]

/-- A ready command is decided by its handler alone. -/
theorem State.verified_ready {s : State} {h : Handler} {c : Cmd} {key : Key} (r : Ready s h c key) :
    (s.checking c).verified (some h) c key = (s.admitted c).decideCmd (some h) c key (s.nonceOf c) := by
  have ht := r.turn
  have hw := r.whole
  unfold State.verified
  dsimp only
  rw [if_neg (by rw [ht]; exact Nat.lt_irrefl _), if_neg (by rw [ht]; exact Nat.lt_irrefl _)]
  unfold State.taken
  exact if_neg (by
    intro hc
    have : (s.admitted c).dg.aborted = true := hc
    rw [hw] at this
    cases this)

/-- A handler that waits for full service finds it. -/
theorem early_false {s : State} {h : Handler} (hs : h.service = true → s.awaitsService = false) :
    (h.service && s.awaitsService) = false := by
  cases hx : h.service
  · rfl
  · simp [hs hx]

/-- Past its checks, a command whose handler answers at once is carried out and answered (R46, steps 13 and 14). -/
theorem State.decideCmd_replies {s t u : State} {h : Handler} {c : Cmd} {key : Key} {nonce : BitVec 64} {a : Ans}
    {after : State → State} (hp : preCheck (some h) s c = none)
    (hs : h.service = true → s.awaitsService = false) (hrun : h.run s c = .reply a t after)
    (htok : t.takeToken c.lb = .ok u) :
    s.decideCmd (some h) c key nonce = after (u.replyWith c key nonce a) := by
  unfold State.decideCmd
  simp only [hp, early_false hs, hrun, htok, Bool.false_eq_true, false_and, if_false]

/-- Past its checks, a command whose handler accepts it starts its operation (R46, steps 13 and 14; R56). -/
theorem State.decideCmd_accepts {s u : State} {h : Handler} {c : Cmd} {key : Key} {nonce : BitVec 64} {body : Bytes}
    {bound : Option Nat} {start : Nat → State → State} {spent : State → State} (hp : preCheck (some h) s c = none)
    (hs : h.service = true → s.awaitsService = false) (hrun : h.run s c = .accept body bound start spent)
    (htok : (spent s).takeToken c.lb = .ok u) (hroom : u.opRoom c.lb = none) :
    s.decideCmd (some h) c key nonce
      = start u.sniby.nextOp ((u.newOp c bound).2.replyWith c key nonce { status := .accepted, body := body }) := by
  unfold State.decideCmd
  simp only [hp, early_false hs, hrun, htok, hroom, Bool.false_eq_true, false_and, if_false]
  rfl

/-- A command whose handler answers at once. -/
theorem replies_of {α : Type} {i : Nat → Via → Packet → Instr} {op : Nat} {h : Handler} {good : State → Cmd → α → Prop}
    {ans : State → Cmd → α → Ans} {eff : State → Cmd → α → State} {after : State → Cmd → α → State → State}
    (hx : ∀ lb via p s, exec (i lb via p) s = s.command op lb via p) (ht : handlerFor op = some h)
    (hrun : ∀ s c a, c.op = op → preCheck (some h) s c = none → good s c a →
      h.run s c = .reply (ans s c a) (eff s c a) (after s c a)) :
    Replies i op h good ans eff after := by
  intro s lb via p key a r hg htok
  rw [hx]
  unfold State.command
  have hc := State.packetArrives_of_comes r.toVerified
  simp only [ht] at hc
  rw [State.verified_ready r] at hc
  unfold State.hasToken at htok
  unfold State.charged
  split at htok
  · rename_i u hu
    rw [State.decideCmd_replies r.passes r.service (hrun _ _ _ rfl r.passes hg) hu] at hc
    rw [hc]
  · cases htok

/-- A command whose handler accepts it. -/
theorem acceptsAfter_of {α : Type} {i : Nat → Via → Packet → Instr} {op : Nat} {h : Handler} {good : State → Cmd → α → Prop}
    {spent : State → Cmd → α → State} {bound : State → Cmd → α → Option Nat} {start : State → Cmd → α → Nat → State → State}
    (hx : ∀ lb via p s, exec (i lb via p) s = s.command op lb via p) (ht : handlerFor op = some h)
    (hrun : ∀ s c a, c.op = op → preCheck (some h) s c = none → good s c a →
      ∃ pre, h.run s c = .accept [] (bound s c a) (start s c a) pre ∧ pre s = spent s c a) :
    AcceptsAfter i op h good spent bound start := by
  intro s lb via p key a r hg htok hroom
  rw [hx]
  unfold State.command
  have hc := State.packetArrives_of_comes r.toVerified
  simp only [ht] at hc
  rw [State.verified_ready r] at hc
  obtain ⟨pre, hrun, hpre⟩ := hrun (s.admitted { op := op, lb := lb, via := via, p := p }) { op := op, lb := lb, via := via, p := p }
    a rfl r.passes hg
  rw [← hpre] at htok hroom ⊢
  unfold State.hasToken at htok
  unfold State.charged at hroom ⊢
  split at htok
  · rename_i u hu
    simp only [hu] at hroom ⊢
    rw [State.decideCmd_accepts r.passes r.service hrun hu hroom] at hc
    rw [hc]
  · cases htok

/-- A command whose handler accepts it with nothing done before. -/
theorem accepts_of {α : Type} {i : Nat → Via → Packet → Instr} {op : Nat} {h : Handler} {good : State → Cmd → α → Prop}
    {bound : State → Cmd → α → Option Nat} {start : State → Cmd → α → Nat → State → State}
    (hx : ∀ lb via p s, exec (i lb via p) s = s.command op lb via p) (ht : handlerFor op = some h)
    (hrun : ∀ s c a, c.op = op → preCheck (some h) s c = none → good s c a →
      h.run s c = .accept [] (bound s c a) (start s c a)) :
    Accepts i op h good bound start :=
  acceptsAfter_of hx ht (fun s c a ho hp hg => ⟨id, hrun s c a ho hp hg, rfl⟩)

end Machine
end Sys2Proof
end

