-- ==== Sys2Proof/Laws/Tables.lean ====
section
/-!
SUPPORT. Laws/Tables.lean: reads after writes of a table, and the operations that keep its keys strictly rising.
-/

-- One theorem after another: side by side, each holds a thread (NOTES.md).
set_option Elab.async false

namespace Sys2Proof
namespace Machine

variable {α : Type}

@[simp] theorem tget_tput_self (t : Table α) (k : Nat) (v : α) : tget (tput t k v) k = some v := by
  induction t with
  | nil => simp [tput, tget]
  | cons e r ih =>
    obtain ⟨k', v'⟩ := e
    unfold tput
    split
    · simp [tget]
    · split
      · simp [tget]
      · rename_i h1 h2
        simp only [tget, if_neg (fun h : k' = k => h2 h.symm), ih]

theorem tget_tput_of_ne (t : Table α) {k j : Nat} (v : α) (h : j ≠ k) : tget (tput t k v) j = tget t j := by
  induction t with
  | nil => simp [tput, tget, Ne.symm h]
  | cons e r ih =>
    obtain ⟨k', v'⟩ := e
    unfold tput
    split
    · simp only [tget, if_neg (Ne.symm h)]
    · split
      · rename_i h1 h2
        subst h2
        simp only [tget, if_neg (Ne.symm h)]
      · simp only [tget, ih]

@[simp] theorem tgetD_tput_self (t : Table α) (k : Nat) (v d : α) : tgetD (tput t k v) k d = v := by
  simp [tgetD]

theorem tgetD_tput_of_ne (t : Table α) {k j : Nat} (v d : α) (h : j ≠ k) : tgetD (tput t k v) j d = tgetD t j d := by
  simp only [tgetD, tget_tput_of_ne t v h]

@[simp] theorem tgetD_tmodD_self (t : Table α) (k : Nat) (d : α) (f : α → α) :
    tgetD (tmodD t k d f) k d = f (tgetD t k d) := by simp [tmodD]

theorem tgetD_tmodD_of_ne (t : Table α) {k j : Nat} (d : α) (f : α → α) (h : j ≠ k) :
    tgetD (tmodD t k d f) j d = tgetD t j d := by simp only [tmodD, tgetD_tput_of_ne t _ _ h]

@[simp] theorem tget_tmod_self (t : Table α) (k : Nat) (f : α → α) : tget (tmod t k f) k = (tget t k).map f := by
  unfold tmod
  split
  · rename_i v h; rw [tget_tput_self, h]; rfl
  · rename_i h; rw [h]; rfl

theorem tget_tmod_of_ne (t : Table α) {k j : Nat} (f : α → α) (h : j ≠ k) : tget (tmod t k f) j = tget t j := by
  unfold tmod
  split
  · rw [tget_tput_of_ne t _ h]
  · rfl

/-- Every key of a table is above a bound. -/
theorem tput_above (t : Table α) (b k : Nat) (v : α) (hb : b < k) (h : t.all (fun e => decide (b < e.1)) = true) :
    (tput t k v).all (fun e => decide (b < e.1)) = true := by
  induction t with
  | nil => simp [tput, hb]
  | cons e r ih =>
    obtain ⟨k', v'⟩ := e
    simp only [List.all_cons, Bool.and_eq_true, decide_eq_true_eq] at h
    unfold tput
    split
    · simp only [List.all_cons, Bool.and_eq_true, decide_eq_true_eq]; exact ⟨hb, h⟩
    · split
      · simp only [List.all_cons, Bool.and_eq_true, decide_eq_true_eq]; exact ⟨hb, h.2⟩
      · simp only [List.all_cons, Bool.and_eq_true, decide_eq_true_eq]; exact ⟨h.1, ih h.2⟩

theorem tput_sorted (t : Table α) (k : Nat) (v : α) (h : tsorted t = true) : tsorted (tput t k v) = true := by
  induction t with
  | nil => rfl
  | cons e r ih =>
    obtain ⟨k', v'⟩ := e
    simp only [tsorted, Bool.and_eq_true] at h
    unfold tput
    split
    · rename_i hk
      simp only [tsorted, List.all_cons, Bool.and_eq_true, decide_eq_true_eq]
      refine ⟨⟨hk, ?_⟩, h⟩
      rw [List.all_eq_true] at h ⊢
      intro e he
      have := h.1 e he
      simp only [decide_eq_true_eq] at this ⊢
      omega
    · split
      · rename_i h1 h2; subst h2; simp only [tsorted, Bool.and_eq_true]; exact h
      · rename_i h1 h2
        simp only [tsorted, Bool.and_eq_true]
        exact ⟨tput_above r k' k v (by omega) h.1, ih h.2⟩

theorem tmod_sorted (t : Table α) (k : Nat) (f : α → α) (h : tsorted t = true) : tsorted (tmod t k f) = true := by
  unfold tmod
  split
  · exact tput_sorted t k _ h
  · exact h

theorem tmodD_sorted (t : Table α) (k : Nat) (d : α) (f : α → α) (h : tsorted t = true) :
    tsorted (tmodD t k d f) = true := tput_sorted t k _ h

theorem tmap_sorted (t : Table α) (f : Nat → α → α) (h : tsorted t = true) : tsorted (tmap t f) = true := by
  induction t with
  | nil => rfl
  | cons e r ih =>
    simp only [tsorted, Bool.and_eq_true] at h
    have hr := ih h.2
    simp only [tmap, List.map_cons, tsorted, Bool.and_eq_true, List.all_map] at hr ⊢
    exact ⟨h.1, hr⟩

theorem tdel_above (t : Table α) (b k : Nat) (h : t.all (fun e => decide (b < e.1)) = true) :
    (tdel t k).all (fun e => decide (b < e.1)) = true := by
  induction t with
  | nil => rfl
  | cons e r ih =>
    obtain ⟨k', v'⟩ := e
    simp only [List.all_cons, Bool.and_eq_true] at h
    unfold tdel
    split
    · exact h.2
    · simp only [List.all_cons, Bool.and_eq_true]; exact ⟨h.1, ih h.2⟩

theorem tdel_sorted (t : Table α) (k : Nat) (h : tsorted t = true) : tsorted (tdel t k) = true := by
  induction t with
  | nil => rfl
  | cons e r ih =>
    obtain ⟨k', v'⟩ := e
    simp only [tsorted, Bool.and_eq_true] at h
    unfold tdel
    split
    · exact h.2
    · simp only [tsorted, Bool.and_eq_true]; exact ⟨tdel_above r k' k h.1, ih h.2⟩

end Machine
end Sys2Proof
end

