-- ==== Sys2Proof/Laws/State.lean ====
section
/-!
SUPPORT. Laws/State.lean: each small update of the state leaves every field but its own; what its own field then reads.
-/

-- One theorem after another: side by side, each holds a thread (NOTES.md).
set_option Elab.async false

namespace Sys2Proof
namespace Machine

/-! ### State.reach -/

@[simp] theorem State.reach_boot (s : State) (t : Nat) : (s.reach t).boot = s.boot := by unfold State.reach; first | rfl | (split <;> rfl)
@[simp] theorem State.reach_fuses (s : State) (t : Nat) : (s.reach t).fuses = s.fuses := by unfold State.reach; first | rfl | (split <;> rfl)
@[simp] theorem State.reach_life (s : State) (t : Nat) : (s.reach t).life = s.life := by unfold State.reach; first | rfl | (split <;> rfl)
@[simp] theorem State.reach_kv (s : State) (t : Nat) : (s.reach t).kv = s.kv := by unfold State.reach; first | rfl | (split <;> rfl)
@[simp] theorem State.reach_dg (s : State) (t : Nat) : (s.reach t).dg = s.dg := by unfold State.reach; first | rfl | (split <;> rfl)
@[simp] theorem State.reach_att (s : State) (t : Nat) : (s.reach t).att = s.att := by unfold State.reach; first | rfl | (split <;> rfl)
@[simp] theorem State.reach_sniby (s : State) (t : Nat) : (s.reach t).sniby = s.sniby := by unfold State.reach; first | rfl | (split <;> rfl)
@[simp] theorem State.reach_parts (s : State) (t : Nat) : (s.reach t).parts = s.parts := by unfold State.reach; first | rfl | (split <;> rfl)
@[simp] theorem State.reach_jobs (s : State) (t : Nat) : (s.reach t).jobs = s.jobs := by unfold State.reach; first | rfl | (split <;> rfl)
@[simp] theorem State.reach_ctxs (s : State) (t : Nat) : (s.reach t).ctxs = s.ctxs := by unfold State.reach; first | rfl | (split <;> rfl)
@[simp] theorem State.reach_regions (s : State) (t : Nat) : (s.reach t).regions = s.regions := by unfold State.reach; first | rfl | (split <;> rfl)
@[simp] theorem State.reach_mem (s : State) (t : Nat) : (s.reach t).mem = s.mem := by unfold State.reach; first | rfl | (split <;> rfl)
@[simp] theorem State.reach_courier (s : State) (t : Nat) : (s.reach t).courier = s.courier := by unfold State.reach; first | rfl | (split <;> rfl)
@[simp] theorem State.reach_assocs (s : State) (t : Nat) : (s.reach t).assocs = s.assocs := by unfold State.reach; first | rfl | (split <;> rfl)
@[simp] theorem State.reach_env (s : State) (t : Nat) : (s.reach t).env = s.env := by unfold State.reach; first | rfl | (split <;> rfl)
@[simp] theorem State.reach_remote (s : State) (t : Nat) : (s.reach t).remote = s.remote := by unfold State.reach; first | rfl | (split <;> rfl)
@[simp] theorem State.reach_red (s : State) (t : Nat) : (s.reach t).red = s.red := by unfold State.reach; first | rfl | (split <;> rfl)
@[simp] theorem State.reach_reg (s : State) (t : Nat) : (s.reach t).reg = s.reg := by unfold State.reach; first | rfl | (split <;> rfl)
@[simp] theorem State.reach_power (s : State) (t : Nat) : (s.reach t).power = s.power := by unfold State.reach; first | rfl | (split <;> rfl)
@[simp] theorem State.reach_fault (s : State) (t : Nat) : (s.reach t).fault = s.fault := by unfold State.reach; first | rfl | (split <;> rfl)
@[simp] theorem State.reach_trace (s : State) (t : Nat) : (s.reach t).trace = s.trace := by unfold State.reach; first | rfl | (split <;> rfl)
@[simp] theorem State.reach_laneOff (s : State) (t : Nat) : (s.reach t).laneOff = s.laneOff := by unfold State.reach; first | rfl | (split <;> rfl)
@[simp] theorem State.reach_freeCtr (s : State) (t : Nat) : (s.reach t).freeCtr = s.freeCtr := by unfold State.reach; first | rfl | (split <;> rfl)
@[simp] theorem State.reach_out (s : State) (t : Nat) : (s.reach t).out = s.out := by unfold State.reach; first | rfl | (split <;> rfl)
@[simp] theorem State.reach_pending (s : State) (t : Nat) : (s.reach t).pending = s.pending := by unfold State.reach; first | rfl | (split <;> rfl)

/-! ### State.emit -/

@[simp] theorem State.emit_now (s : State) (i : Item) : (s.emit i).now = s.now := rfl
@[simp] theorem State.emit_boot (s : State) (i : Item) : (s.emit i).boot = s.boot := rfl
@[simp] theorem State.emit_fuses (s : State) (i : Item) : (s.emit i).fuses = s.fuses := rfl
@[simp] theorem State.emit_life (s : State) (i : Item) : (s.emit i).life = s.life := rfl
@[simp] theorem State.emit_kv (s : State) (i : Item) : (s.emit i).kv = s.kv := rfl
@[simp] theorem State.emit_dg (s : State) (i : Item) : (s.emit i).dg = s.dg := rfl
@[simp] theorem State.emit_att (s : State) (i : Item) : (s.emit i).att = s.att := rfl
@[simp] theorem State.emit_sniby (s : State) (i : Item) : (s.emit i).sniby = s.sniby := rfl
@[simp] theorem State.emit_parts (s : State) (i : Item) : (s.emit i).parts = s.parts := rfl
@[simp] theorem State.emit_jobs (s : State) (i : Item) : (s.emit i).jobs = s.jobs := rfl
@[simp] theorem State.emit_ctxs (s : State) (i : Item) : (s.emit i).ctxs = s.ctxs := rfl
@[simp] theorem State.emit_regions (s : State) (i : Item) : (s.emit i).regions = s.regions := rfl
@[simp] theorem State.emit_mem (s : State) (i : Item) : (s.emit i).mem = s.mem := rfl
@[simp] theorem State.emit_courier (s : State) (i : Item) : (s.emit i).courier = s.courier := rfl
@[simp] theorem State.emit_assocs (s : State) (i : Item) : (s.emit i).assocs = s.assocs := rfl
@[simp] theorem State.emit_env (s : State) (i : Item) : (s.emit i).env = s.env := rfl
@[simp] theorem State.emit_remote (s : State) (i : Item) : (s.emit i).remote = s.remote := rfl
@[simp] theorem State.emit_red (s : State) (i : Item) : (s.emit i).red = s.red := rfl
@[simp] theorem State.emit_reg (s : State) (i : Item) : (s.emit i).reg = s.reg := rfl
@[simp] theorem State.emit_power (s : State) (i : Item) : (s.emit i).power = s.power := rfl
@[simp] theorem State.emit_fault (s : State) (i : Item) : (s.emit i).fault = s.fault := rfl
@[simp] theorem State.emit_trace (s : State) (i : Item) : (s.emit i).trace = s.trace := rfl
@[simp] theorem State.emit_laneOff (s : State) (i : Item) : (s.emit i).laneOff = s.laneOff := rfl
@[simp] theorem State.emit_freeCtr (s : State) (i : Item) : (s.emit i).freeCtr = s.freeCtr := rfl
@[simp] theorem State.emit_pending (s : State) (i : Item) : (s.emit i).pending = s.pending := rfl

/-! ### State.emitPort -/

/-- All that handing an item to a port can do: nothing, hand it over and count it, or hold it. -/
theorem State.emitPort_cases (s : State) (port : Nat) (i : Item) :
    s.emitPort port i = s
    ∨ s.emitPort port i = (s.emit i).count (islandP port) 4 (some (s.itemTc i)) i.cost
    ∨ ∃ x : Held, s.emitPort port i = { s with boot := { s.boot with heldItems := s.boot.heldItems ++ [x] } } := by
  unfold State.emitPort State.serveHeld
  split
  · exact .inl rfl
  · split
    · exact .inr (.inl rfl)
    · exact .inr (.inr ⟨_, rfl⟩)

@[simp] theorem State.emitPort_now (s : State) (port : Nat) (i : Item) : (s.emitPort port i).now = s.now := by rcases State.emitPort_cases s port i with h | h | ⟨x, h⟩ <;> rw [h] <;> first | rfl | (unfold State.count; split <;> rfl)
@[simp] theorem State.emitPort_fuses (s : State) (port : Nat) (i : Item) : (s.emitPort port i).fuses = s.fuses := by rcases State.emitPort_cases s port i with h | h | ⟨x, h⟩ <;> rw [h] <;> first | rfl | (unfold State.count; split <;> rfl)
@[simp] theorem State.emitPort_life (s : State) (port : Nat) (i : Item) : (s.emitPort port i).life = s.life := by rcases State.emitPort_cases s port i with h | h | ⟨x, h⟩ <;> rw [h] <;> first | rfl | (unfold State.count; split <;> rfl)
@[simp] theorem State.emitPort_kv (s : State) (port : Nat) (i : Item) : (s.emitPort port i).kv = s.kv := by rcases State.emitPort_cases s port i with h | h | ⟨x, h⟩ <;> rw [h] <;> first | rfl | (unfold State.count; split <;> rfl)
@[simp] theorem State.emitPort_dg (s : State) (port : Nat) (i : Item) : (s.emitPort port i).dg = s.dg := by rcases State.emitPort_cases s port i with h | h | ⟨x, h⟩ <;> rw [h] <;> first | rfl | (unfold State.count; split <;> rfl)
@[simp] theorem State.emitPort_att (s : State) (port : Nat) (i : Item) : (s.emitPort port i).att = s.att := by rcases State.emitPort_cases s port i with h | h | ⟨x, h⟩ <;> rw [h] <;> first | rfl | (unfold State.count; split <;> rfl)
@[simp] theorem State.emitPort_sniby (s : State) (port : Nat) (i : Item) : (s.emitPort port i).sniby = s.sniby := by rcases State.emitPort_cases s port i with h | h | ⟨x, h⟩ <;> rw [h] <;> first | rfl | (unfold State.count; split <;> rfl)
@[simp] theorem State.emitPort_parts (s : State) (port : Nat) (i : Item) : (s.emitPort port i).parts = s.parts := by rcases State.emitPort_cases s port i with h | h | ⟨x, h⟩ <;> rw [h] <;> first | rfl | (unfold State.count; split <;> rfl)
@[simp] theorem State.emitPort_jobs (s : State) (port : Nat) (i : Item) : (s.emitPort port i).jobs = s.jobs := by rcases State.emitPort_cases s port i with h | h | ⟨x, h⟩ <;> rw [h] <;> first | rfl | (unfold State.count; split <;> rfl)
@[simp] theorem State.emitPort_ctxs (s : State) (port : Nat) (i : Item) : (s.emitPort port i).ctxs = s.ctxs := by rcases State.emitPort_cases s port i with h | h | ⟨x, h⟩ <;> rw [h] <;> first | rfl | (unfold State.count; split <;> rfl)
@[simp] theorem State.emitPort_regions (s : State) (port : Nat) (i : Item) : (s.emitPort port i).regions = s.regions := by rcases State.emitPort_cases s port i with h | h | ⟨x, h⟩ <;> rw [h] <;> first | rfl | (unfold State.count; split <;> rfl)
@[simp] theorem State.emitPort_mem (s : State) (port : Nat) (i : Item) : (s.emitPort port i).mem = s.mem := by rcases State.emitPort_cases s port i with h | h | ⟨x, h⟩ <;> rw [h] <;> first | rfl | (unfold State.count; split <;> rfl)
@[simp] theorem State.emitPort_courier (s : State) (port : Nat) (i : Item) : (s.emitPort port i).courier = s.courier := by rcases State.emitPort_cases s port i with h | h | ⟨x, h⟩ <;> rw [h] <;> first | rfl | (unfold State.count; split <;> rfl)
@[simp] theorem State.emitPort_assocs (s : State) (port : Nat) (i : Item) : (s.emitPort port i).assocs = s.assocs := by rcases State.emitPort_cases s port i with h | h | ⟨x, h⟩ <;> rw [h] <;> first | rfl | (unfold State.count; split <;> rfl)
@[simp] theorem State.emitPort_env (s : State) (port : Nat) (i : Item) : (s.emitPort port i).env = s.env := by rcases State.emitPort_cases s port i with h | h | ⟨x, h⟩ <;> rw [h] <;> first | rfl | (unfold State.count; split <;> rfl)
@[simp] theorem State.emitPort_remote (s : State) (port : Nat) (i : Item) : (s.emitPort port i).remote = s.remote := by rcases State.emitPort_cases s port i with h | h | ⟨x, h⟩ <;> rw [h] <;> first | rfl | (unfold State.count; split <;> rfl)
@[simp] theorem State.emitPort_red (s : State) (port : Nat) (i : Item) : (s.emitPort port i).red = s.red := by rcases State.emitPort_cases s port i with h | h | ⟨x, h⟩ <;> rw [h] <;> first | rfl | (unfold State.count; split <;> rfl)
@[simp] theorem State.emitPort_reg (s : State) (port : Nat) (i : Item) : (s.emitPort port i).reg = s.reg := by rcases State.emitPort_cases s port i with h | h | ⟨x, h⟩ <;> rw [h] <;> first | rfl | (unfold State.count; split <;> rfl)
@[simp] theorem State.emitPort_power (s : State) (port : Nat) (i : Item) : (s.emitPort port i).power = s.power := by rcases State.emitPort_cases s port i with h | h | ⟨x, h⟩ <;> rw [h] <;> first | rfl | (unfold State.count; split <;> rfl)
@[simp] theorem State.emitPort_fault (s : State) (port : Nat) (i : Item) : (s.emitPort port i).fault = s.fault := by rcases State.emitPort_cases s port i with h | h | ⟨x, h⟩ <;> rw [h] <;> first | rfl | (unfold State.count; split <;> rfl)
@[simp] theorem State.emitPort_laneOff (s : State) (port : Nat) (i : Item) : (s.emitPort port i).laneOff = s.laneOff := by rcases State.emitPort_cases s port i with h | h | ⟨x, h⟩ <;> rw [h] <;> first | rfl | (unfold State.count; split <;> rfl)
@[simp] theorem State.emitPort_freeCtr (s : State) (port : Nat) (i : Item) : (s.emitPort port i).freeCtr = s.freeCtr := by rcases State.emitPort_cases s port i with h | h | ⟨x, h⟩ <;> rw [h] <;> first | rfl | (unfold State.count; split <;> rfl)
@[simp] theorem State.emitPort_pending (s : State) (port : Nat) (i : Item) : (s.emitPort port i).pending = s.pending := by rcases State.emitPort_cases s port i with h | h | ⟨x, h⟩ <;> rw [h] <;> first | rfl | (unfold State.count; split <;> rfl)

/-! ### State.modBox -/

@[simp] theorem State.modBox_now (s : State) (lb : Nat) (f : Lbx → Lbx) : (s.modBox lb f).now = s.now := rfl
@[simp] theorem State.modBox_boot (s : State) (lb : Nat) (f : Lbx → Lbx) : (s.modBox lb f).boot = s.boot := rfl
@[simp] theorem State.modBox_fuses (s : State) (lb : Nat) (f : Lbx → Lbx) : (s.modBox lb f).fuses = s.fuses := rfl
@[simp] theorem State.modBox_life (s : State) (lb : Nat) (f : Lbx → Lbx) : (s.modBox lb f).life = s.life := rfl
@[simp] theorem State.modBox_kv (s : State) (lb : Nat) (f : Lbx → Lbx) : (s.modBox lb f).kv = s.kv := rfl
@[simp] theorem State.modBox_dg (s : State) (lb : Nat) (f : Lbx → Lbx) : (s.modBox lb f).dg = s.dg := rfl
@[simp] theorem State.modBox_att (s : State) (lb : Nat) (f : Lbx → Lbx) : (s.modBox lb f).att = s.att := rfl
@[simp] theorem State.modBox_parts (s : State) (lb : Nat) (f : Lbx → Lbx) : (s.modBox lb f).parts = s.parts := rfl
@[simp] theorem State.modBox_jobs (s : State) (lb : Nat) (f : Lbx → Lbx) : (s.modBox lb f).jobs = s.jobs := rfl
@[simp] theorem State.modBox_ctxs (s : State) (lb : Nat) (f : Lbx → Lbx) : (s.modBox lb f).ctxs = s.ctxs := rfl
@[simp] theorem State.modBox_regions (s : State) (lb : Nat) (f : Lbx → Lbx) : (s.modBox lb f).regions = s.regions := rfl
@[simp] theorem State.modBox_mem (s : State) (lb : Nat) (f : Lbx → Lbx) : (s.modBox lb f).mem = s.mem := rfl
@[simp] theorem State.modBox_courier (s : State) (lb : Nat) (f : Lbx → Lbx) : (s.modBox lb f).courier = s.courier := rfl
@[simp] theorem State.modBox_assocs (s : State) (lb : Nat) (f : Lbx → Lbx) : (s.modBox lb f).assocs = s.assocs := rfl
@[simp] theorem State.modBox_env (s : State) (lb : Nat) (f : Lbx → Lbx) : (s.modBox lb f).env = s.env := rfl
@[simp] theorem State.modBox_remote (s : State) (lb : Nat) (f : Lbx → Lbx) : (s.modBox lb f).remote = s.remote := rfl
@[simp] theorem State.modBox_red (s : State) (lb : Nat) (f : Lbx → Lbx) : (s.modBox lb f).red = s.red := rfl
@[simp] theorem State.modBox_reg (s : State) (lb : Nat) (f : Lbx → Lbx) : (s.modBox lb f).reg = s.reg := rfl
@[simp] theorem State.modBox_power (s : State) (lb : Nat) (f : Lbx → Lbx) : (s.modBox lb f).power = s.power := rfl
@[simp] theorem State.modBox_fault (s : State) (lb : Nat) (f : Lbx → Lbx) : (s.modBox lb f).fault = s.fault := rfl
@[simp] theorem State.modBox_trace (s : State) (lb : Nat) (f : Lbx → Lbx) : (s.modBox lb f).trace = s.trace := rfl
@[simp] theorem State.modBox_laneOff (s : State) (lb : Nat) (f : Lbx → Lbx) : (s.modBox lb f).laneOff = s.laneOff := rfl
@[simp] theorem State.modBox_freeCtr (s : State) (lb : Nat) (f : Lbx → Lbx) : (s.modBox lb f).freeCtr = s.freeCtr := rfl
@[simp] theorem State.modBox_out (s : State) (lb : Nat) (f : Lbx → Lbx) : (s.modBox lb f).out = s.out := rfl
@[simp] theorem State.modBox_pending (s : State) (lb : Nat) (f : Lbx → Lbx) : (s.modBox lb f).pending = s.pending := rfl

/-! ### State.modJob -/

@[simp] theorem State.modJob_now (s : State) (h : Nat) (f : Job → Job) : (s.modJob h f).now = s.now := rfl
@[simp] theorem State.modJob_boot (s : State) (h : Nat) (f : Job → Job) : (s.modJob h f).boot = s.boot := rfl
@[simp] theorem State.modJob_fuses (s : State) (h : Nat) (f : Job → Job) : (s.modJob h f).fuses = s.fuses := rfl
@[simp] theorem State.modJob_life (s : State) (h : Nat) (f : Job → Job) : (s.modJob h f).life = s.life := rfl
@[simp] theorem State.modJob_kv (s : State) (h : Nat) (f : Job → Job) : (s.modJob h f).kv = s.kv := rfl
@[simp] theorem State.modJob_dg (s : State) (h : Nat) (f : Job → Job) : (s.modJob h f).dg = s.dg := rfl
@[simp] theorem State.modJob_att (s : State) (h : Nat) (f : Job → Job) : (s.modJob h f).att = s.att := rfl
@[simp] theorem State.modJob_sniby (s : State) (h : Nat) (f : Job → Job) : (s.modJob h f).sniby = s.sniby := rfl
@[simp] theorem State.modJob_parts (s : State) (h : Nat) (f : Job → Job) : (s.modJob h f).parts = s.parts := rfl
@[simp] theorem State.modJob_ctxs (s : State) (h : Nat) (f : Job → Job) : (s.modJob h f).ctxs = s.ctxs := rfl
@[simp] theorem State.modJob_regions (s : State) (h : Nat) (f : Job → Job) : (s.modJob h f).regions = s.regions := rfl
@[simp] theorem State.modJob_mem (s : State) (h : Nat) (f : Job → Job) : (s.modJob h f).mem = s.mem := rfl
@[simp] theorem State.modJob_courier (s : State) (h : Nat) (f : Job → Job) : (s.modJob h f).courier = s.courier := rfl
@[simp] theorem State.modJob_assocs (s : State) (h : Nat) (f : Job → Job) : (s.modJob h f).assocs = s.assocs := rfl
@[simp] theorem State.modJob_env (s : State) (h : Nat) (f : Job → Job) : (s.modJob h f).env = s.env := rfl
@[simp] theorem State.modJob_remote (s : State) (h : Nat) (f : Job → Job) : (s.modJob h f).remote = s.remote := rfl
@[simp] theorem State.modJob_red (s : State) (h : Nat) (f : Job → Job) : (s.modJob h f).red = s.red := rfl
@[simp] theorem State.modJob_reg (s : State) (h : Nat) (f : Job → Job) : (s.modJob h f).reg = s.reg := rfl
@[simp] theorem State.modJob_power (s : State) (h : Nat) (f : Job → Job) : (s.modJob h f).power = s.power := rfl
@[simp] theorem State.modJob_fault (s : State) (h : Nat) (f : Job → Job) : (s.modJob h f).fault = s.fault := rfl
@[simp] theorem State.modJob_trace (s : State) (h : Nat) (f : Job → Job) : (s.modJob h f).trace = s.trace := rfl
@[simp] theorem State.modJob_laneOff (s : State) (h : Nat) (f : Job → Job) : (s.modJob h f).laneOff = s.laneOff := rfl
@[simp] theorem State.modJob_freeCtr (s : State) (h : Nat) (f : Job → Job) : (s.modJob h f).freeCtr = s.freeCtr := rfl
@[simp] theorem State.modJob_out (s : State) (h : Nat) (f : Job → Job) : (s.modJob h f).out = s.out := rfl
@[simp] theorem State.modJob_pending (s : State) (h : Nat) (f : Job → Job) : (s.modJob h f).pending = s.pending := rfl

/-! ### State.modCtx -/

@[simp] theorem State.modCtx_now (s : State) (c : Nat) (f : Ctx → Ctx) : (s.modCtx c f).now = s.now := rfl
@[simp] theorem State.modCtx_boot (s : State) (c : Nat) (f : Ctx → Ctx) : (s.modCtx c f).boot = s.boot := rfl
@[simp] theorem State.modCtx_fuses (s : State) (c : Nat) (f : Ctx → Ctx) : (s.modCtx c f).fuses = s.fuses := rfl
@[simp] theorem State.modCtx_life (s : State) (c : Nat) (f : Ctx → Ctx) : (s.modCtx c f).life = s.life := rfl
@[simp] theorem State.modCtx_kv (s : State) (c : Nat) (f : Ctx → Ctx) : (s.modCtx c f).kv = s.kv := rfl
@[simp] theorem State.modCtx_dg (s : State) (c : Nat) (f : Ctx → Ctx) : (s.modCtx c f).dg = s.dg := rfl
@[simp] theorem State.modCtx_att (s : State) (c : Nat) (f : Ctx → Ctx) : (s.modCtx c f).att = s.att := rfl
@[simp] theorem State.modCtx_sniby (s : State) (c : Nat) (f : Ctx → Ctx) : (s.modCtx c f).sniby = s.sniby := rfl
@[simp] theorem State.modCtx_parts (s : State) (c : Nat) (f : Ctx → Ctx) : (s.modCtx c f).parts = s.parts := rfl
@[simp] theorem State.modCtx_jobs (s : State) (c : Nat) (f : Ctx → Ctx) : (s.modCtx c f).jobs = s.jobs := rfl
@[simp] theorem State.modCtx_regions (s : State) (c : Nat) (f : Ctx → Ctx) : (s.modCtx c f).regions = s.regions := rfl
@[simp] theorem State.modCtx_mem (s : State) (c : Nat) (f : Ctx → Ctx) : (s.modCtx c f).mem = s.mem := rfl
@[simp] theorem State.modCtx_courier (s : State) (c : Nat) (f : Ctx → Ctx) : (s.modCtx c f).courier = s.courier := rfl
@[simp] theorem State.modCtx_assocs (s : State) (c : Nat) (f : Ctx → Ctx) : (s.modCtx c f).assocs = s.assocs := rfl
@[simp] theorem State.modCtx_env (s : State) (c : Nat) (f : Ctx → Ctx) : (s.modCtx c f).env = s.env := rfl
@[simp] theorem State.modCtx_remote (s : State) (c : Nat) (f : Ctx → Ctx) : (s.modCtx c f).remote = s.remote := rfl
@[simp] theorem State.modCtx_red (s : State) (c : Nat) (f : Ctx → Ctx) : (s.modCtx c f).red = s.red := rfl
@[simp] theorem State.modCtx_reg (s : State) (c : Nat) (f : Ctx → Ctx) : (s.modCtx c f).reg = s.reg := rfl
@[simp] theorem State.modCtx_power (s : State) (c : Nat) (f : Ctx → Ctx) : (s.modCtx c f).power = s.power := rfl
@[simp] theorem State.modCtx_fault (s : State) (c : Nat) (f : Ctx → Ctx) : (s.modCtx c f).fault = s.fault := rfl
@[simp] theorem State.modCtx_trace (s : State) (c : Nat) (f : Ctx → Ctx) : (s.modCtx c f).trace = s.trace := rfl
@[simp] theorem State.modCtx_laneOff (s : State) (c : Nat) (f : Ctx → Ctx) : (s.modCtx c f).laneOff = s.laneOff := rfl
@[simp] theorem State.modCtx_freeCtr (s : State) (c : Nat) (f : Ctx → Ctx) : (s.modCtx c f).freeCtr = s.freeCtr := rfl
@[simp] theorem State.modCtx_out (s : State) (c : Nat) (f : Ctx → Ctx) : (s.modCtx c f).out = s.out := rfl
@[simp] theorem State.modCtx_pending (s : State) (c : Nat) (f : Ctx → Ctx) : (s.modCtx c f).pending = s.pending := rfl

/-! ### State.modPart -/

@[simp] theorem State.modPart_now (s : State) (p : Nat) (f : Partition → Partition) : (s.modPart p f).now = s.now := rfl
@[simp] theorem State.modPart_boot (s : State) (p : Nat) (f : Partition → Partition) : (s.modPart p f).boot = s.boot := rfl
@[simp] theorem State.modPart_fuses (s : State) (p : Nat) (f : Partition → Partition) : (s.modPart p f).fuses = s.fuses := rfl
@[simp] theorem State.modPart_life (s : State) (p : Nat) (f : Partition → Partition) : (s.modPart p f).life = s.life := rfl
@[simp] theorem State.modPart_kv (s : State) (p : Nat) (f : Partition → Partition) : (s.modPart p f).kv = s.kv := rfl
@[simp] theorem State.modPart_dg (s : State) (p : Nat) (f : Partition → Partition) : (s.modPart p f).dg = s.dg := rfl
@[simp] theorem State.modPart_att (s : State) (p : Nat) (f : Partition → Partition) : (s.modPart p f).att = s.att := rfl
@[simp] theorem State.modPart_sniby (s : State) (p : Nat) (f : Partition → Partition) : (s.modPart p f).sniby = s.sniby := rfl
@[simp] theorem State.modPart_jobs (s : State) (p : Nat) (f : Partition → Partition) : (s.modPart p f).jobs = s.jobs := rfl
@[simp] theorem State.modPart_ctxs (s : State) (p : Nat) (f : Partition → Partition) : (s.modPart p f).ctxs = s.ctxs := rfl
@[simp] theorem State.modPart_regions (s : State) (p : Nat) (f : Partition → Partition) : (s.modPart p f).regions = s.regions := rfl
@[simp] theorem State.modPart_mem (s : State) (p : Nat) (f : Partition → Partition) : (s.modPart p f).mem = s.mem := rfl
@[simp] theorem State.modPart_courier (s : State) (p : Nat) (f : Partition → Partition) : (s.modPart p f).courier = s.courier := rfl
@[simp] theorem State.modPart_assocs (s : State) (p : Nat) (f : Partition → Partition) : (s.modPart p f).assocs = s.assocs := rfl
@[simp] theorem State.modPart_env (s : State) (p : Nat) (f : Partition → Partition) : (s.modPart p f).env = s.env := rfl
@[simp] theorem State.modPart_remote (s : State) (p : Nat) (f : Partition → Partition) : (s.modPart p f).remote = s.remote := rfl
@[simp] theorem State.modPart_red (s : State) (p : Nat) (f : Partition → Partition) : (s.modPart p f).red = s.red := rfl
@[simp] theorem State.modPart_reg (s : State) (p : Nat) (f : Partition → Partition) : (s.modPart p f).reg = s.reg := rfl
@[simp] theorem State.modPart_power (s : State) (p : Nat) (f : Partition → Partition) : (s.modPart p f).power = s.power := rfl
@[simp] theorem State.modPart_fault (s : State) (p : Nat) (f : Partition → Partition) : (s.modPart p f).fault = s.fault := rfl
@[simp] theorem State.modPart_trace (s : State) (p : Nat) (f : Partition → Partition) : (s.modPart p f).trace = s.trace := rfl
@[simp] theorem State.modPart_laneOff (s : State) (p : Nat) (f : Partition → Partition) : (s.modPart p f).laneOff = s.laneOff := rfl
@[simp] theorem State.modPart_freeCtr (s : State) (p : Nat) (f : Partition → Partition) : (s.modPart p f).freeCtr = s.freeCtr := rfl
@[simp] theorem State.modPart_out (s : State) (p : Nat) (f : Partition → Partition) : (s.modPart p f).out = s.out := rfl
@[simp] theorem State.modPart_pending (s : State) (p : Nat) (f : Partition → Partition) : (s.modPart p f).pending = s.pending := rfl

/-! ### State.modRegion -/

@[simp] theorem State.modRegion_now (s : State) (r : Nat) (f : Region → Region) : (s.modRegion r f).now = s.now := rfl
@[simp] theorem State.modRegion_boot (s : State) (r : Nat) (f : Region → Region) : (s.modRegion r f).boot = s.boot := rfl
@[simp] theorem State.modRegion_fuses (s : State) (r : Nat) (f : Region → Region) : (s.modRegion r f).fuses = s.fuses := rfl
@[simp] theorem State.modRegion_life (s : State) (r : Nat) (f : Region → Region) : (s.modRegion r f).life = s.life := rfl
@[simp] theorem State.modRegion_kv (s : State) (r : Nat) (f : Region → Region) : (s.modRegion r f).kv = s.kv := rfl
@[simp] theorem State.modRegion_dg (s : State) (r : Nat) (f : Region → Region) : (s.modRegion r f).dg = s.dg := rfl
@[simp] theorem State.modRegion_att (s : State) (r : Nat) (f : Region → Region) : (s.modRegion r f).att = s.att := rfl
@[simp] theorem State.modRegion_sniby (s : State) (r : Nat) (f : Region → Region) : (s.modRegion r f).sniby = s.sniby := rfl
@[simp] theorem State.modRegion_parts (s : State) (r : Nat) (f : Region → Region) : (s.modRegion r f).parts = s.parts := rfl
@[simp] theorem State.modRegion_jobs (s : State) (r : Nat) (f : Region → Region) : (s.modRegion r f).jobs = s.jobs := rfl
@[simp] theorem State.modRegion_ctxs (s : State) (r : Nat) (f : Region → Region) : (s.modRegion r f).ctxs = s.ctxs := rfl
@[simp] theorem State.modRegion_mem (s : State) (r : Nat) (f : Region → Region) : (s.modRegion r f).mem = s.mem := rfl
@[simp] theorem State.modRegion_courier (s : State) (r : Nat) (f : Region → Region) : (s.modRegion r f).courier = s.courier := rfl
@[simp] theorem State.modRegion_assocs (s : State) (r : Nat) (f : Region → Region) : (s.modRegion r f).assocs = s.assocs := rfl
@[simp] theorem State.modRegion_env (s : State) (r : Nat) (f : Region → Region) : (s.modRegion r f).env = s.env := rfl
@[simp] theorem State.modRegion_remote (s : State) (r : Nat) (f : Region → Region) : (s.modRegion r f).remote = s.remote := rfl
@[simp] theorem State.modRegion_red (s : State) (r : Nat) (f : Region → Region) : (s.modRegion r f).red = s.red := rfl
@[simp] theorem State.modRegion_reg (s : State) (r : Nat) (f : Region → Region) : (s.modRegion r f).reg = s.reg := rfl
@[simp] theorem State.modRegion_power (s : State) (r : Nat) (f : Region → Region) : (s.modRegion r f).power = s.power := rfl
@[simp] theorem State.modRegion_fault (s : State) (r : Nat) (f : Region → Region) : (s.modRegion r f).fault = s.fault := rfl
@[simp] theorem State.modRegion_trace (s : State) (r : Nat) (f : Region → Region) : (s.modRegion r f).trace = s.trace := rfl
@[simp] theorem State.modRegion_laneOff (s : State) (r : Nat) (f : Region → Region) : (s.modRegion r f).laneOff = s.laneOff := rfl
@[simp] theorem State.modRegion_freeCtr (s : State) (r : Nat) (f : Region → Region) : (s.modRegion r f).freeCtr = s.freeCtr := rfl
@[simp] theorem State.modRegion_out (s : State) (r : Nat) (f : Region → Region) : (s.modRegion r f).out = s.out := rfl
@[simp] theorem State.modRegion_pending (s : State) (r : Nat) (f : Region → Region) : (s.modRegion r f).pending = s.pending := rfl

/-! ### State.draw -/

@[simp] theorem State.draw_now (s : State) (w : Nat) : (s.draw w).2.now = s.now := rfl
@[simp] theorem State.draw_boot (s : State) (w : Nat) : (s.draw w).2.boot = s.boot := rfl
@[simp] theorem State.draw_fuses (s : State) (w : Nat) : (s.draw w).2.fuses = s.fuses := rfl
@[simp] theorem State.draw_life (s : State) (w : Nat) : (s.draw w).2.life = s.life := rfl
@[simp] theorem State.draw_dg (s : State) (w : Nat) : (s.draw w).2.dg = s.dg := rfl
@[simp] theorem State.draw_att (s : State) (w : Nat) : (s.draw w).2.att = s.att := rfl
@[simp] theorem State.draw_sniby (s : State) (w : Nat) : (s.draw w).2.sniby = s.sniby := rfl
@[simp] theorem State.draw_parts (s : State) (w : Nat) : (s.draw w).2.parts = s.parts := rfl
@[simp] theorem State.draw_jobs (s : State) (w : Nat) : (s.draw w).2.jobs = s.jobs := rfl
@[simp] theorem State.draw_ctxs (s : State) (w : Nat) : (s.draw w).2.ctxs = s.ctxs := rfl
@[simp] theorem State.draw_regions (s : State) (w : Nat) : (s.draw w).2.regions = s.regions := rfl
@[simp] theorem State.draw_mem (s : State) (w : Nat) : (s.draw w).2.mem = s.mem := rfl
@[simp] theorem State.draw_courier (s : State) (w : Nat) : (s.draw w).2.courier = s.courier := rfl
@[simp] theorem State.draw_assocs (s : State) (w : Nat) : (s.draw w).2.assocs = s.assocs := rfl
@[simp] theorem State.draw_env (s : State) (w : Nat) : (s.draw w).2.env = s.env := rfl
@[simp] theorem State.draw_remote (s : State) (w : Nat) : (s.draw w).2.remote = s.remote := rfl
@[simp] theorem State.draw_red (s : State) (w : Nat) : (s.draw w).2.red = s.red := rfl
@[simp] theorem State.draw_reg (s : State) (w : Nat) : (s.draw w).2.reg = s.reg := rfl
@[simp] theorem State.draw_power (s : State) (w : Nat) : (s.draw w).2.power = s.power := rfl
@[simp] theorem State.draw_fault (s : State) (w : Nat) : (s.draw w).2.fault = s.fault := rfl
@[simp] theorem State.draw_trace (s : State) (w : Nat) : (s.draw w).2.trace = s.trace := rfl
@[simp] theorem State.draw_laneOff (s : State) (w : Nat) : (s.draw w).2.laneOff = s.laneOff := rfl
@[simp] theorem State.draw_freeCtr (s : State) (w : Nat) : (s.draw w).2.freeCtr = s.freeCtr := rfl
@[simp] theorem State.draw_out (s : State) (w : Nat) : (s.draw w).2.out = s.out := rfl
@[simp] theorem State.draw_pending (s : State) (w : Nat) : (s.draw w).2.pending = s.pending := rfl

/-! ### State.free -/

@[simp] theorem State.free_now (s : State) (w : Nat) : (s.free w).2.now = s.now := rfl
@[simp] theorem State.free_boot (s : State) (w : Nat) : (s.free w).2.boot = s.boot := rfl
@[simp] theorem State.free_fuses (s : State) (w : Nat) : (s.free w).2.fuses = s.fuses := rfl
@[simp] theorem State.free_life (s : State) (w : Nat) : (s.free w).2.life = s.life := rfl
@[simp] theorem State.free_kv (s : State) (w : Nat) : (s.free w).2.kv = s.kv := rfl
@[simp] theorem State.free_dg (s : State) (w : Nat) : (s.free w).2.dg = s.dg := rfl
@[simp] theorem State.free_att (s : State) (w : Nat) : (s.free w).2.att = s.att := rfl
@[simp] theorem State.free_sniby (s : State) (w : Nat) : (s.free w).2.sniby = s.sniby := rfl
@[simp] theorem State.free_parts (s : State) (w : Nat) : (s.free w).2.parts = s.parts := rfl
@[simp] theorem State.free_jobs (s : State) (w : Nat) : (s.free w).2.jobs = s.jobs := rfl
@[simp] theorem State.free_ctxs (s : State) (w : Nat) : (s.free w).2.ctxs = s.ctxs := rfl
@[simp] theorem State.free_regions (s : State) (w : Nat) : (s.free w).2.regions = s.regions := rfl
@[simp] theorem State.free_mem (s : State) (w : Nat) : (s.free w).2.mem = s.mem := rfl
@[simp] theorem State.free_courier (s : State) (w : Nat) : (s.free w).2.courier = s.courier := rfl
@[simp] theorem State.free_assocs (s : State) (w : Nat) : (s.free w).2.assocs = s.assocs := rfl
@[simp] theorem State.free_env (s : State) (w : Nat) : (s.free w).2.env = s.env := rfl
@[simp] theorem State.free_remote (s : State) (w : Nat) : (s.free w).2.remote = s.remote := rfl
@[simp] theorem State.free_red (s : State) (w : Nat) : (s.free w).2.red = s.red := rfl
@[simp] theorem State.free_reg (s : State) (w : Nat) : (s.free w).2.reg = s.reg := rfl
@[simp] theorem State.free_power (s : State) (w : Nat) : (s.free w).2.power = s.power := rfl
@[simp] theorem State.free_fault (s : State) (w : Nat) : (s.free w).2.fault = s.fault := rfl
@[simp] theorem State.free_trace (s : State) (w : Nat) : (s.free w).2.trace = s.trace := rfl
@[simp] theorem State.free_laneOff (s : State) (w : Nat) : (s.free w).2.laneOff = s.laneOff := rfl
@[simp] theorem State.free_out (s : State) (w : Nat) : (s.free w).2.out = s.out := rfl
@[simp] theorem State.free_pending (s : State) (w : Nat) : (s.free w).2.pending = s.pending := rfl

/-! ### State.calls -/

@[simp] theorem State.calls_now (s : State) (n : Nat) (kv : Bool) : (s.calls n kv).now = s.now := rfl
@[simp] theorem State.calls_boot (s : State) (n : Nat) (kv : Bool) : (s.calls n kv).boot = s.boot := rfl
@[simp] theorem State.calls_fuses (s : State) (n : Nat) (kv : Bool) : (s.calls n kv).fuses = s.fuses := rfl
@[simp] theorem State.calls_life (s : State) (n : Nat) (kv : Bool) : (s.calls n kv).life = s.life := rfl
@[simp] theorem State.calls_kv (s : State) (n : Nat) (kv : Bool) : (s.calls n kv).kv = s.kv := rfl
@[simp] theorem State.calls_att (s : State) (n : Nat) (kv : Bool) : (s.calls n kv).att = s.att := rfl
@[simp] theorem State.calls_sniby (s : State) (n : Nat) (kv : Bool) : (s.calls n kv).sniby = s.sniby := rfl
@[simp] theorem State.calls_parts (s : State) (n : Nat) (kv : Bool) : (s.calls n kv).parts = s.parts := rfl
@[simp] theorem State.calls_jobs (s : State) (n : Nat) (kv : Bool) : (s.calls n kv).jobs = s.jobs := rfl
@[simp] theorem State.calls_ctxs (s : State) (n : Nat) (kv : Bool) : (s.calls n kv).ctxs = s.ctxs := rfl
@[simp] theorem State.calls_regions (s : State) (n : Nat) (kv : Bool) : (s.calls n kv).regions = s.regions := rfl
@[simp] theorem State.calls_mem (s : State) (n : Nat) (kv : Bool) : (s.calls n kv).mem = s.mem := rfl
@[simp] theorem State.calls_courier (s : State) (n : Nat) (kv : Bool) : (s.calls n kv).courier = s.courier := rfl
@[simp] theorem State.calls_assocs (s : State) (n : Nat) (kv : Bool) : (s.calls n kv).assocs = s.assocs := rfl
@[simp] theorem State.calls_env (s : State) (n : Nat) (kv : Bool) : (s.calls n kv).env = s.env := rfl
@[simp] theorem State.calls_remote (s : State) (n : Nat) (kv : Bool) : (s.calls n kv).remote = s.remote := rfl
@[simp] theorem State.calls_red (s : State) (n : Nat) (kv : Bool) : (s.calls n kv).red = s.red := rfl
@[simp] theorem State.calls_reg (s : State) (n : Nat) (kv : Bool) : (s.calls n kv).reg = s.reg := rfl
@[simp] theorem State.calls_power (s : State) (n : Nat) (kv : Bool) : (s.calls n kv).power = s.power := rfl
@[simp] theorem State.calls_fault (s : State) (n : Nat) (kv : Bool) : (s.calls n kv).fault = s.fault := rfl
@[simp] theorem State.calls_trace (s : State) (n : Nat) (kv : Bool) : (s.calls n kv).trace = s.trace := rfl
@[simp] theorem State.calls_laneOff (s : State) (n : Nat) (kv : Bool) : (s.calls n kv).laneOff = s.laneOff := rfl
@[simp] theorem State.calls_freeCtr (s : State) (n : Nat) (kv : Bool) : (s.calls n kv).freeCtr = s.freeCtr := rfl
@[simp] theorem State.calls_out (s : State) (n : Nat) (kv : Bool) : (s.calls n kv).out = s.out := rfl
@[simp] theorem State.calls_pending (s : State) (n : Nat) (kv : Bool) : (s.calls n kv).pending = s.pending := rfl

/-! ### State.count -/

@[simp] theorem State.count_now (s : State) (island event : Nat) (tc : Option Nat) (n : Nat) : (s.count island event tc n).now = s.now := by unfold State.count; first | rfl | (split <;> rfl)
@[simp] theorem State.count_boot (s : State) (island event : Nat) (tc : Option Nat) (n : Nat) : (s.count island event tc n).boot = s.boot := by unfold State.count; first | rfl | (split <;> rfl)
@[simp] theorem State.count_fuses (s : State) (island event : Nat) (tc : Option Nat) (n : Nat) : (s.count island event tc n).fuses = s.fuses := by unfold State.count; first | rfl | (split <;> rfl)
@[simp] theorem State.count_life (s : State) (island event : Nat) (tc : Option Nat) (n : Nat) : (s.count island event tc n).life = s.life := by unfold State.count; first | rfl | (split <;> rfl)
@[simp] theorem State.count_kv (s : State) (island event : Nat) (tc : Option Nat) (n : Nat) : (s.count island event tc n).kv = s.kv := by unfold State.count; first | rfl | (split <;> rfl)
@[simp] theorem State.count_dg (s : State) (island event : Nat) (tc : Option Nat) (n : Nat) : (s.count island event tc n).dg = s.dg := by unfold State.count; first | rfl | (split <;> rfl)
@[simp] theorem State.count_att (s : State) (island event : Nat) (tc : Option Nat) (n : Nat) : (s.count island event tc n).att = s.att := by unfold State.count; first | rfl | (split <;> rfl)
@[simp] theorem State.count_sniby (s : State) (island event : Nat) (tc : Option Nat) (n : Nat) : (s.count island event tc n).sniby = s.sniby := by unfold State.count; first | rfl | (split <;> rfl)
@[simp] theorem State.count_parts (s : State) (island event : Nat) (tc : Option Nat) (n : Nat) : (s.count island event tc n).parts = s.parts := by unfold State.count; first | rfl | (split <;> rfl)
@[simp] theorem State.count_jobs (s : State) (island event : Nat) (tc : Option Nat) (n : Nat) : (s.count island event tc n).jobs = s.jobs := by unfold State.count; first | rfl | (split <;> rfl)
@[simp] theorem State.count_ctxs (s : State) (island event : Nat) (tc : Option Nat) (n : Nat) : (s.count island event tc n).ctxs = s.ctxs := by unfold State.count; first | rfl | (split <;> rfl)
@[simp] theorem State.count_regions (s : State) (island event : Nat) (tc : Option Nat) (n : Nat) : (s.count island event tc n).regions = s.regions := by unfold State.count; first | rfl | (split <;> rfl)
@[simp] theorem State.count_mem (s : State) (island event : Nat) (tc : Option Nat) (n : Nat) : (s.count island event tc n).mem = s.mem := by unfold State.count; first | rfl | (split <;> rfl)
@[simp] theorem State.count_courier (s : State) (island event : Nat) (tc : Option Nat) (n : Nat) : (s.count island event tc n).courier = s.courier := by unfold State.count; first | rfl | (split <;> rfl)
@[simp] theorem State.count_assocs (s : State) (island event : Nat) (tc : Option Nat) (n : Nat) : (s.count island event tc n).assocs = s.assocs := by unfold State.count; first | rfl | (split <;> rfl)
@[simp] theorem State.count_env (s : State) (island event : Nat) (tc : Option Nat) (n : Nat) : (s.count island event tc n).env = s.env := by unfold State.count; first | rfl | (split <;> rfl)
@[simp] theorem State.count_remote (s : State) (island event : Nat) (tc : Option Nat) (n : Nat) : (s.count island event tc n).remote = s.remote := by unfold State.count; first | rfl | (split <;> rfl)
@[simp] theorem State.count_red (s : State) (island event : Nat) (tc : Option Nat) (n : Nat) : (s.count island event tc n).red = s.red := by unfold State.count; first | rfl | (split <;> rfl)
@[simp] theorem State.count_reg (s : State) (island event : Nat) (tc : Option Nat) (n : Nat) : (s.count island event tc n).reg = s.reg := by unfold State.count; first | rfl | (split <;> rfl)
@[simp] theorem State.count_power (s : State) (island event : Nat) (tc : Option Nat) (n : Nat) : (s.count island event tc n).power = s.power := by unfold State.count; first | rfl | (split <;> rfl)
@[simp] theorem State.count_laneOff (s : State) (island event : Nat) (tc : Option Nat) (n : Nat) : (s.count island event tc n).laneOff = s.laneOff := by unfold State.count; first | rfl | (split <;> rfl)
@[simp] theorem State.count_fault (s : State) (island event : Nat) (tc : Option Nat) (n : Nat) : (s.count island event tc n).fault = s.fault := by unfold State.count; first | rfl | (split <;> rfl)
@[simp] theorem State.count_freeCtr (s : State) (island event : Nat) (tc : Option Nat) (n : Nat) : (s.count island event tc n).freeCtr = s.freeCtr := by unfold State.count; first | rfl | (split <;> rfl)
@[simp] theorem State.count_out (s : State) (island event : Nat) (tc : Option Nat) (n : Nat) : (s.count island event tc n).out = s.out := by unfold State.count; first | rfl | (split <;> rfl)
@[simp] theorem State.count_pending (s : State) (island event : Nat) (tc : Option Nat) (n : Nat) : (s.count island event tc n).pending = s.pending := by unfold State.count; first | rfl | (split <;> rfl)

/-! ### State.modCounters -/

@[simp] theorem State.modCounters_now (s : State) (h : Nat) (f : JobCounters → JobCounters) : (s.modCounters h f).now = s.now := rfl
@[simp] theorem State.modCounters_boot (s : State) (h : Nat) (f : JobCounters → JobCounters) : (s.modCounters h f).boot = s.boot := rfl
@[simp] theorem State.modCounters_fuses (s : State) (h : Nat) (f : JobCounters → JobCounters) : (s.modCounters h f).fuses = s.fuses := rfl
@[simp] theorem State.modCounters_life (s : State) (h : Nat) (f : JobCounters → JobCounters) : (s.modCounters h f).life = s.life := rfl
@[simp] theorem State.modCounters_kv (s : State) (h : Nat) (f : JobCounters → JobCounters) : (s.modCounters h f).kv = s.kv := rfl
@[simp] theorem State.modCounters_dg (s : State) (h : Nat) (f : JobCounters → JobCounters) : (s.modCounters h f).dg = s.dg := rfl
@[simp] theorem State.modCounters_att (s : State) (h : Nat) (f : JobCounters → JobCounters) : (s.modCounters h f).att = s.att := rfl
@[simp] theorem State.modCounters_sniby (s : State) (h : Nat) (f : JobCounters → JobCounters) : (s.modCounters h f).sniby = s.sniby := rfl
@[simp] theorem State.modCounters_parts (s : State) (h : Nat) (f : JobCounters → JobCounters) : (s.modCounters h f).parts = s.parts := rfl
@[simp] theorem State.modCounters_ctxs (s : State) (h : Nat) (f : JobCounters → JobCounters) : (s.modCounters h f).ctxs = s.ctxs := rfl
@[simp] theorem State.modCounters_regions (s : State) (h : Nat) (f : JobCounters → JobCounters) : (s.modCounters h f).regions = s.regions := rfl
@[simp] theorem State.modCounters_mem (s : State) (h : Nat) (f : JobCounters → JobCounters) : (s.modCounters h f).mem = s.mem := rfl
@[simp] theorem State.modCounters_courier (s : State) (h : Nat) (f : JobCounters → JobCounters) : (s.modCounters h f).courier = s.courier := rfl
@[simp] theorem State.modCounters_assocs (s : State) (h : Nat) (f : JobCounters → JobCounters) : (s.modCounters h f).assocs = s.assocs := rfl
@[simp] theorem State.modCounters_env (s : State) (h : Nat) (f : JobCounters → JobCounters) : (s.modCounters h f).env = s.env := rfl
@[simp] theorem State.modCounters_remote (s : State) (h : Nat) (f : JobCounters → JobCounters) : (s.modCounters h f).remote = s.remote := rfl
@[simp] theorem State.modCounters_red (s : State) (h : Nat) (f : JobCounters → JobCounters) : (s.modCounters h f).red = s.red := rfl
@[simp] theorem State.modCounters_reg (s : State) (h : Nat) (f : JobCounters → JobCounters) : (s.modCounters h f).reg = s.reg := rfl
@[simp] theorem State.modCounters_power (s : State) (h : Nat) (f : JobCounters → JobCounters) : (s.modCounters h f).power = s.power := rfl
@[simp] theorem State.modCounters_fault (s : State) (h : Nat) (f : JobCounters → JobCounters) : (s.modCounters h f).fault = s.fault := rfl
@[simp] theorem State.modCounters_trace (s : State) (h : Nat) (f : JobCounters → JobCounters) : (s.modCounters h f).trace = s.trace := rfl
@[simp] theorem State.modCounters_laneOff (s : State) (h : Nat) (f : JobCounters → JobCounters) : (s.modCounters h f).laneOff = s.laneOff := rfl
@[simp] theorem State.modCounters_freeCtr (s : State) (h : Nat) (f : JobCounters → JobCounters) : (s.modCounters h f).freeCtr = s.freeCtr := rfl
@[simp] theorem State.modCounters_out (s : State) (h : Nat) (f : JobCounters → JobCounters) : (s.modCounters h f).out = s.out := rfl
@[simp] theorem State.modCounters_pending (s : State) (h : Nat) (f : JobCounters → JobCounters) : (s.modCounters h f).pending = s.pending := rfl

/-! ### State.modDead -/

@[simp] theorem State.modDead_now (s : State) (f : DeadLetters → DeadLetters) : (s.modDead f).now = s.now := rfl
@[simp] theorem State.modDead_boot (s : State) (f : DeadLetters → DeadLetters) : (s.modDead f).boot = s.boot := rfl
@[simp] theorem State.modDead_fuses (s : State) (f : DeadLetters → DeadLetters) : (s.modDead f).fuses = s.fuses := rfl
@[simp] theorem State.modDead_life (s : State) (f : DeadLetters → DeadLetters) : (s.modDead f).life = s.life := rfl
@[simp] theorem State.modDead_kv (s : State) (f : DeadLetters → DeadLetters) : (s.modDead f).kv = s.kv := rfl
@[simp] theorem State.modDead_dg (s : State) (f : DeadLetters → DeadLetters) : (s.modDead f).dg = s.dg := rfl
@[simp] theorem State.modDead_att (s : State) (f : DeadLetters → DeadLetters) : (s.modDead f).att = s.att := rfl
@[simp] theorem State.modDead_sniby (s : State) (f : DeadLetters → DeadLetters) : (s.modDead f).sniby = s.sniby := rfl
@[simp] theorem State.modDead_parts (s : State) (f : DeadLetters → DeadLetters) : (s.modDead f).parts = s.parts := rfl
@[simp] theorem State.modDead_jobs (s : State) (f : DeadLetters → DeadLetters) : (s.modDead f).jobs = s.jobs := rfl
@[simp] theorem State.modDead_ctxs (s : State) (f : DeadLetters → DeadLetters) : (s.modDead f).ctxs = s.ctxs := rfl
@[simp] theorem State.modDead_regions (s : State) (f : DeadLetters → DeadLetters) : (s.modDead f).regions = s.regions := rfl
@[simp] theorem State.modDead_mem (s : State) (f : DeadLetters → DeadLetters) : (s.modDead f).mem = s.mem := rfl
@[simp] theorem State.modDead_courier (s : State) (f : DeadLetters → DeadLetters) : (s.modDead f).courier = s.courier := rfl
@[simp] theorem State.modDead_assocs (s : State) (f : DeadLetters → DeadLetters) : (s.modDead f).assocs = s.assocs := rfl
@[simp] theorem State.modDead_env (s : State) (f : DeadLetters → DeadLetters) : (s.modDead f).env = s.env := rfl
@[simp] theorem State.modDead_remote (s : State) (f : DeadLetters → DeadLetters) : (s.modDead f).remote = s.remote := rfl
@[simp] theorem State.modDead_red (s : State) (f : DeadLetters → DeadLetters) : (s.modDead f).red = s.red := rfl
@[simp] theorem State.modDead_reg (s : State) (f : DeadLetters → DeadLetters) : (s.modDead f).reg = s.reg := rfl
@[simp] theorem State.modDead_power (s : State) (f : DeadLetters → DeadLetters) : (s.modDead f).power = s.power := rfl
@[simp] theorem State.modDead_fault (s : State) (f : DeadLetters → DeadLetters) : (s.modDead f).fault = s.fault := rfl
@[simp] theorem State.modDead_freeCtr (s : State) (f : DeadLetters → DeadLetters) : (s.modDead f).freeCtr = s.freeCtr := rfl
@[simp] theorem State.modDead_out (s : State) (f : DeadLetters → DeadLetters) : (s.modDead f).out = s.out := rfl
@[simp] theorem State.modDead_pending (s : State) (f : DeadLetters → DeadLetters) : (s.modDead f).pending = s.pending := rfl

/-! ### State.modSession -/

@[simp] theorem State.modSession_now (s : State) (f : Session → Session) : (s.modSession f).now = s.now := rfl
@[simp] theorem State.modSession_boot (s : State) (f : Session → Session) : (s.modSession f).boot = s.boot := rfl
@[simp] theorem State.modSession_fuses (s : State) (f : Session → Session) : (s.modSession f).fuses = s.fuses := rfl
@[simp] theorem State.modSession_life (s : State) (f : Session → Session) : (s.modSession f).life = s.life := rfl
@[simp] theorem State.modSession_kv (s : State) (f : Session → Session) : (s.modSession f).kv = s.kv := rfl
@[simp] theorem State.modSession_dg (s : State) (f : Session → Session) : (s.modSession f).dg = s.dg := rfl
@[simp] theorem State.modSession_att (s : State) (f : Session → Session) : (s.modSession f).att = s.att := rfl
@[simp] theorem State.modSession_sniby (s : State) (f : Session → Session) : (s.modSession f).sniby = s.sniby := rfl
@[simp] theorem State.modSession_parts (s : State) (f : Session → Session) : (s.modSession f).parts = s.parts := rfl
@[simp] theorem State.modSession_jobs (s : State) (f : Session → Session) : (s.modSession f).jobs = s.jobs := rfl
@[simp] theorem State.modSession_ctxs (s : State) (f : Session → Session) : (s.modSession f).ctxs = s.ctxs := rfl
@[simp] theorem State.modSession_regions (s : State) (f : Session → Session) : (s.modSession f).regions = s.regions := rfl
@[simp] theorem State.modSession_mem (s : State) (f : Session → Session) : (s.modSession f).mem = s.mem := rfl
@[simp] theorem State.modSession_courier (s : State) (f : Session → Session) : (s.modSession f).courier = s.courier := rfl
@[simp] theorem State.modSession_assocs (s : State) (f : Session → Session) : (s.modSession f).assocs = s.assocs := rfl
@[simp] theorem State.modSession_env (s : State) (f : Session → Session) : (s.modSession f).env = s.env := rfl
@[simp] theorem State.modSession_remote (s : State) (f : Session → Session) : (s.modSession f).remote = s.remote := rfl
@[simp] theorem State.modSession_red (s : State) (f : Session → Session) : (s.modSession f).red = s.red := rfl
@[simp] theorem State.modSession_reg (s : State) (f : Session → Session) : (s.modSession f).reg = s.reg := rfl
@[simp] theorem State.modSession_power (s : State) (f : Session → Session) : (s.modSession f).power = s.power := rfl
@[simp] theorem State.modSession_laneOff (s : State) (f : Session → Session) : (s.modSession f).laneOff = s.laneOff := rfl
@[simp] theorem State.modSession_fault (s : State) (f : Session → Session) : (s.modSession f).fault = s.fault := rfl
@[simp] theorem State.modSession_freeCtr (s : State) (f : Session → Session) : (s.modSession f).freeCtr = s.freeCtr := rfl
@[simp] theorem State.modSession_out (s : State) (f : Session → Session) : (s.modSession f).out = s.out := rfl
@[simp] theorem State.modSession_pending (s : State) (f : Session → Session) : (s.modSession f).pending = s.pending := rfl

/-! ### State.modBuf -/

@[simp] theorem State.modBuf_now (s : State) (i : Nat) (f : TraceBuf → TraceBuf) : (s.modBuf i f).now = s.now := by unfold State.modBuf; first | rfl | (split <;> rfl)
@[simp] theorem State.modBuf_boot (s : State) (i : Nat) (f : TraceBuf → TraceBuf) : (s.modBuf i f).boot = s.boot := by unfold State.modBuf; first | rfl | (split <;> rfl)
@[simp] theorem State.modBuf_fuses (s : State) (i : Nat) (f : TraceBuf → TraceBuf) : (s.modBuf i f).fuses = s.fuses := by unfold State.modBuf; first | rfl | (split <;> rfl)
@[simp] theorem State.modBuf_life (s : State) (i : Nat) (f : TraceBuf → TraceBuf) : (s.modBuf i f).life = s.life := by unfold State.modBuf; first | rfl | (split <;> rfl)
@[simp] theorem State.modBuf_kv (s : State) (i : Nat) (f : TraceBuf → TraceBuf) : (s.modBuf i f).kv = s.kv := by unfold State.modBuf; first | rfl | (split <;> rfl)
@[simp] theorem State.modBuf_dg (s : State) (i : Nat) (f : TraceBuf → TraceBuf) : (s.modBuf i f).dg = s.dg := by unfold State.modBuf; first | rfl | (split <;> rfl)
@[simp] theorem State.modBuf_att (s : State) (i : Nat) (f : TraceBuf → TraceBuf) : (s.modBuf i f).att = s.att := by unfold State.modBuf; first | rfl | (split <;> rfl)
@[simp] theorem State.modBuf_sniby (s : State) (i : Nat) (f : TraceBuf → TraceBuf) : (s.modBuf i f).sniby = s.sniby := by unfold State.modBuf; first | rfl | (split <;> rfl)
@[simp] theorem State.modBuf_parts (s : State) (i : Nat) (f : TraceBuf → TraceBuf) : (s.modBuf i f).parts = s.parts := by unfold State.modBuf; first | rfl | (split <;> rfl)
@[simp] theorem State.modBuf_jobs (s : State) (i : Nat) (f : TraceBuf → TraceBuf) : (s.modBuf i f).jobs = s.jobs := by unfold State.modBuf; first | rfl | (split <;> rfl)
@[simp] theorem State.modBuf_ctxs (s : State) (i : Nat) (f : TraceBuf → TraceBuf) : (s.modBuf i f).ctxs = s.ctxs := by unfold State.modBuf; first | rfl | (split <;> rfl)
@[simp] theorem State.modBuf_regions (s : State) (i : Nat) (f : TraceBuf → TraceBuf) : (s.modBuf i f).regions = s.regions := by unfold State.modBuf; first | rfl | (split <;> rfl)
@[simp] theorem State.modBuf_mem (s : State) (i : Nat) (f : TraceBuf → TraceBuf) : (s.modBuf i f).mem = s.mem := by unfold State.modBuf; first | rfl | (split <;> rfl)
@[simp] theorem State.modBuf_courier (s : State) (i : Nat) (f : TraceBuf → TraceBuf) : (s.modBuf i f).courier = s.courier := by unfold State.modBuf; first | rfl | (split <;> rfl)
@[simp] theorem State.modBuf_assocs (s : State) (i : Nat) (f : TraceBuf → TraceBuf) : (s.modBuf i f).assocs = s.assocs := by unfold State.modBuf; first | rfl | (split <;> rfl)
@[simp] theorem State.modBuf_env (s : State) (i : Nat) (f : TraceBuf → TraceBuf) : (s.modBuf i f).env = s.env := by unfold State.modBuf; first | rfl | (split <;> rfl)
@[simp] theorem State.modBuf_remote (s : State) (i : Nat) (f : TraceBuf → TraceBuf) : (s.modBuf i f).remote = s.remote := by unfold State.modBuf; first | rfl | (split <;> rfl)
@[simp] theorem State.modBuf_red (s : State) (i : Nat) (f : TraceBuf → TraceBuf) : (s.modBuf i f).red = s.red := by unfold State.modBuf; first | rfl | (split <;> rfl)
@[simp] theorem State.modBuf_reg (s : State) (i : Nat) (f : TraceBuf → TraceBuf) : (s.modBuf i f).reg = s.reg := by unfold State.modBuf; first | rfl | (split <;> rfl)
@[simp] theorem State.modBuf_power (s : State) (i : Nat) (f : TraceBuf → TraceBuf) : (s.modBuf i f).power = s.power := by unfold State.modBuf; first | rfl | (split <;> rfl)
@[simp] theorem State.modBuf_laneOff (s : State) (i : Nat) (f : TraceBuf → TraceBuf) : (s.modBuf i f).laneOff = s.laneOff := by unfold State.modBuf; first | rfl | (split <;> rfl)
@[simp] theorem State.modBuf_fault (s : State) (i : Nat) (f : TraceBuf → TraceBuf) : (s.modBuf i f).fault = s.fault := by unfold State.modBuf; first | rfl | (split <;> rfl)
@[simp] theorem State.modBuf_freeCtr (s : State) (i : Nat) (f : TraceBuf → TraceBuf) : (s.modBuf i f).freeCtr = s.freeCtr := by unfold State.modBuf; first | rfl | (split <;> rfl)
@[simp] theorem State.modBuf_out (s : State) (i : Nat) (f : TraceBuf → TraceBuf) : (s.modBuf i f).out = s.out := by unfold State.modBuf; first | rfl | (split <;> rfl)
@[simp] theorem State.modBuf_pending (s : State) (i : Nat) (f : TraceBuf → TraceBuf) : (s.modBuf i f).pending = s.pending := by unfold State.modBuf; first | rfl | (split <;> rfl)

/-! ### State.modAssocs -/

@[simp] theorem State.modAssocs_now (s : State) (f : Assocs → Assocs) : (s.modAssocs f).now = s.now := rfl
@[simp] theorem State.modAssocs_boot (s : State) (f : Assocs → Assocs) : (s.modAssocs f).boot = s.boot := rfl
@[simp] theorem State.modAssocs_fuses (s : State) (f : Assocs → Assocs) : (s.modAssocs f).fuses = s.fuses := rfl
@[simp] theorem State.modAssocs_life (s : State) (f : Assocs → Assocs) : (s.modAssocs f).life = s.life := rfl
@[simp] theorem State.modAssocs_kv (s : State) (f : Assocs → Assocs) : (s.modAssocs f).kv = s.kv := rfl
@[simp] theorem State.modAssocs_dg (s : State) (f : Assocs → Assocs) : (s.modAssocs f).dg = s.dg := rfl
@[simp] theorem State.modAssocs_att (s : State) (f : Assocs → Assocs) : (s.modAssocs f).att = s.att := rfl
@[simp] theorem State.modAssocs_sniby (s : State) (f : Assocs → Assocs) : (s.modAssocs f).sniby = s.sniby := rfl
@[simp] theorem State.modAssocs_parts (s : State) (f : Assocs → Assocs) : (s.modAssocs f).parts = s.parts := rfl
@[simp] theorem State.modAssocs_jobs (s : State) (f : Assocs → Assocs) : (s.modAssocs f).jobs = s.jobs := rfl
@[simp] theorem State.modAssocs_ctxs (s : State) (f : Assocs → Assocs) : (s.modAssocs f).ctxs = s.ctxs := rfl
@[simp] theorem State.modAssocs_regions (s : State) (f : Assocs → Assocs) : (s.modAssocs f).regions = s.regions := rfl
@[simp] theorem State.modAssocs_mem (s : State) (f : Assocs → Assocs) : (s.modAssocs f).mem = s.mem := rfl
@[simp] theorem State.modAssocs_courier (s : State) (f : Assocs → Assocs) : (s.modAssocs f).courier = s.courier := rfl
@[simp] theorem State.modAssocs_env (s : State) (f : Assocs → Assocs) : (s.modAssocs f).env = s.env := rfl
@[simp] theorem State.modAssocs_remote (s : State) (f : Assocs → Assocs) : (s.modAssocs f).remote = s.remote := rfl
@[simp] theorem State.modAssocs_red (s : State) (f : Assocs → Assocs) : (s.modAssocs f).red = s.red := rfl
@[simp] theorem State.modAssocs_reg (s : State) (f : Assocs → Assocs) : (s.modAssocs f).reg = s.reg := rfl
@[simp] theorem State.modAssocs_power (s : State) (f : Assocs → Assocs) : (s.modAssocs f).power = s.power := rfl
@[simp] theorem State.modAssocs_fault (s : State) (f : Assocs → Assocs) : (s.modAssocs f).fault = s.fault := rfl
@[simp] theorem State.modAssocs_trace (s : State) (f : Assocs → Assocs) : (s.modAssocs f).trace = s.trace := rfl
@[simp] theorem State.modAssocs_laneOff (s : State) (f : Assocs → Assocs) : (s.modAssocs f).laneOff = s.laneOff := rfl
@[simp] theorem State.modAssocs_freeCtr (s : State) (f : Assocs → Assocs) : (s.modAssocs f).freeCtr = s.freeCtr := rfl
@[simp] theorem State.modAssocs_out (s : State) (f : Assocs → Assocs) : (s.modAssocs f).out = s.out := rfl
@[simp] theorem State.modAssocs_pending (s : State) (f : Assocs → Assocs) : (s.modAssocs f).pending = s.pending := rfl

/-! ### State.modAssoc -/

@[simp] theorem State.modAssoc_now (s : State) (h peer : Nat) (f : Assoc → Assoc) : (s.modAssoc h peer f).now = s.now := by unfold State.modAssoc; first | rfl | (split <;> rfl)
@[simp] theorem State.modAssoc_boot (s : State) (h peer : Nat) (f : Assoc → Assoc) : (s.modAssoc h peer f).boot = s.boot := by unfold State.modAssoc; first | rfl | (split <;> rfl)
@[simp] theorem State.modAssoc_fuses (s : State) (h peer : Nat) (f : Assoc → Assoc) : (s.modAssoc h peer f).fuses = s.fuses := by unfold State.modAssoc; first | rfl | (split <;> rfl)
@[simp] theorem State.modAssoc_life (s : State) (h peer : Nat) (f : Assoc → Assoc) : (s.modAssoc h peer f).life = s.life := by unfold State.modAssoc; first | rfl | (split <;> rfl)
@[simp] theorem State.modAssoc_kv (s : State) (h peer : Nat) (f : Assoc → Assoc) : (s.modAssoc h peer f).kv = s.kv := by unfold State.modAssoc; first | rfl | (split <;> rfl)
@[simp] theorem State.modAssoc_dg (s : State) (h peer : Nat) (f : Assoc → Assoc) : (s.modAssoc h peer f).dg = s.dg := by unfold State.modAssoc; first | rfl | (split <;> rfl)
@[simp] theorem State.modAssoc_att (s : State) (h peer : Nat) (f : Assoc → Assoc) : (s.modAssoc h peer f).att = s.att := by unfold State.modAssoc; first | rfl | (split <;> rfl)
@[simp] theorem State.modAssoc_sniby (s : State) (h peer : Nat) (f : Assoc → Assoc) : (s.modAssoc h peer f).sniby = s.sniby := by unfold State.modAssoc; first | rfl | (split <;> rfl)
@[simp] theorem State.modAssoc_parts (s : State) (h peer : Nat) (f : Assoc → Assoc) : (s.modAssoc h peer f).parts = s.parts := by unfold State.modAssoc; first | rfl | (split <;> rfl)
@[simp] theorem State.modAssoc_jobs (s : State) (h peer : Nat) (f : Assoc → Assoc) : (s.modAssoc h peer f).jobs = s.jobs := by unfold State.modAssoc; first | rfl | (split <;> rfl)
@[simp] theorem State.modAssoc_ctxs (s : State) (h peer : Nat) (f : Assoc → Assoc) : (s.modAssoc h peer f).ctxs = s.ctxs := by unfold State.modAssoc; first | rfl | (split <;> rfl)
@[simp] theorem State.modAssoc_regions (s : State) (h peer : Nat) (f : Assoc → Assoc) : (s.modAssoc h peer f).regions = s.regions := by unfold State.modAssoc; first | rfl | (split <;> rfl)
@[simp] theorem State.modAssoc_mem (s : State) (h peer : Nat) (f : Assoc → Assoc) : (s.modAssoc h peer f).mem = s.mem := by unfold State.modAssoc; first | rfl | (split <;> rfl)
@[simp] theorem State.modAssoc_courier (s : State) (h peer : Nat) (f : Assoc → Assoc) : (s.modAssoc h peer f).courier = s.courier := by unfold State.modAssoc; first | rfl | (split <;> rfl)
@[simp] theorem State.modAssoc_env (s : State) (h peer : Nat) (f : Assoc → Assoc) : (s.modAssoc h peer f).env = s.env := by unfold State.modAssoc; first | rfl | (split <;> rfl)
@[simp] theorem State.modAssoc_remote (s : State) (h peer : Nat) (f : Assoc → Assoc) : (s.modAssoc h peer f).remote = s.remote := by unfold State.modAssoc; first | rfl | (split <;> rfl)
@[simp] theorem State.modAssoc_red (s : State) (h peer : Nat) (f : Assoc → Assoc) : (s.modAssoc h peer f).red = s.red := by unfold State.modAssoc; first | rfl | (split <;> rfl)
@[simp] theorem State.modAssoc_reg (s : State) (h peer : Nat) (f : Assoc → Assoc) : (s.modAssoc h peer f).reg = s.reg := by unfold State.modAssoc; first | rfl | (split <;> rfl)
@[simp] theorem State.modAssoc_power (s : State) (h peer : Nat) (f : Assoc → Assoc) : (s.modAssoc h peer f).power = s.power := by unfold State.modAssoc; first | rfl | (split <;> rfl)
@[simp] theorem State.modAssoc_fault (s : State) (h peer : Nat) (f : Assoc → Assoc) : (s.modAssoc h peer f).fault = s.fault := by unfold State.modAssoc; first | rfl | (split <;> rfl)
@[simp] theorem State.modAssoc_trace (s : State) (h peer : Nat) (f : Assoc → Assoc) : (s.modAssoc h peer f).trace = s.trace := by unfold State.modAssoc; first | rfl | (split <;> rfl)
@[simp] theorem State.modAssoc_laneOff (s : State) (h peer : Nat) (f : Assoc → Assoc) : (s.modAssoc h peer f).laneOff = s.laneOff := by unfold State.modAssoc; first | rfl | (split <;> rfl)
@[simp] theorem State.modAssoc_freeCtr (s : State) (h peer : Nat) (f : Assoc → Assoc) : (s.modAssoc h peer f).freeCtr = s.freeCtr := by unfold State.modAssoc; first | rfl | (split <;> rfl)
@[simp] theorem State.modAssoc_out (s : State) (h peer : Nat) (f : Assoc → Assoc) : (s.modAssoc h peer f).out = s.out := by unfold State.modAssoc; first | rfl | (split <;> rfl)
@[simp] theorem State.modAssoc_pending (s : State) (h peer : Nat) (f : Assoc → Assoc) : (s.modAssoc h peer f).pending = s.pending := by unfold State.modAssoc; first | rfl | (split <;> rfl)

/-! ### State.modStream -/

@[simp] theorem State.modStream_now (s : State) (h peer tc : Nat) (f : StreamSt → StreamSt) : (s.modStream h peer tc f).now = s.now := by unfold State.modStream; first | rfl | (split <;> rfl)
@[simp] theorem State.modStream_boot (s : State) (h peer tc : Nat) (f : StreamSt → StreamSt) : (s.modStream h peer tc f).boot = s.boot := by unfold State.modStream; first | rfl | (split <;> rfl)
@[simp] theorem State.modStream_fuses (s : State) (h peer tc : Nat) (f : StreamSt → StreamSt) : (s.modStream h peer tc f).fuses = s.fuses := by unfold State.modStream; first | rfl | (split <;> rfl)
@[simp] theorem State.modStream_life (s : State) (h peer tc : Nat) (f : StreamSt → StreamSt) : (s.modStream h peer tc f).life = s.life := by unfold State.modStream; first | rfl | (split <;> rfl)
@[simp] theorem State.modStream_kv (s : State) (h peer tc : Nat) (f : StreamSt → StreamSt) : (s.modStream h peer tc f).kv = s.kv := by unfold State.modStream; first | rfl | (split <;> rfl)
@[simp] theorem State.modStream_dg (s : State) (h peer tc : Nat) (f : StreamSt → StreamSt) : (s.modStream h peer tc f).dg = s.dg := by unfold State.modStream; first | rfl | (split <;> rfl)
@[simp] theorem State.modStream_att (s : State) (h peer tc : Nat) (f : StreamSt → StreamSt) : (s.modStream h peer tc f).att = s.att := by unfold State.modStream; first | rfl | (split <;> rfl)
@[simp] theorem State.modStream_sniby (s : State) (h peer tc : Nat) (f : StreamSt → StreamSt) : (s.modStream h peer tc f).sniby = s.sniby := by unfold State.modStream; first | rfl | (split <;> rfl)
@[simp] theorem State.modStream_parts (s : State) (h peer tc : Nat) (f : StreamSt → StreamSt) : (s.modStream h peer tc f).parts = s.parts := by unfold State.modStream; first | rfl | (split <;> rfl)
@[simp] theorem State.modStream_jobs (s : State) (h peer tc : Nat) (f : StreamSt → StreamSt) : (s.modStream h peer tc f).jobs = s.jobs := by unfold State.modStream; first | rfl | (split <;> rfl)
@[simp] theorem State.modStream_ctxs (s : State) (h peer tc : Nat) (f : StreamSt → StreamSt) : (s.modStream h peer tc f).ctxs = s.ctxs := by unfold State.modStream; first | rfl | (split <;> rfl)
@[simp] theorem State.modStream_regions (s : State) (h peer tc : Nat) (f : StreamSt → StreamSt) : (s.modStream h peer tc f).regions = s.regions := by unfold State.modStream; first | rfl | (split <;> rfl)
@[simp] theorem State.modStream_mem (s : State) (h peer tc : Nat) (f : StreamSt → StreamSt) : (s.modStream h peer tc f).mem = s.mem := by unfold State.modStream; first | rfl | (split <;> rfl)
@[simp] theorem State.modStream_courier (s : State) (h peer tc : Nat) (f : StreamSt → StreamSt) : (s.modStream h peer tc f).courier = s.courier := by unfold State.modStream; first | rfl | (split <;> rfl)
@[simp] theorem State.modStream_env (s : State) (h peer tc : Nat) (f : StreamSt → StreamSt) : (s.modStream h peer tc f).env = s.env := by unfold State.modStream; first | rfl | (split <;> rfl)
@[simp] theorem State.modStream_remote (s : State) (h peer tc : Nat) (f : StreamSt → StreamSt) : (s.modStream h peer tc f).remote = s.remote := by unfold State.modStream; first | rfl | (split <;> rfl)
@[simp] theorem State.modStream_red (s : State) (h peer tc : Nat) (f : StreamSt → StreamSt) : (s.modStream h peer tc f).red = s.red := by unfold State.modStream; first | rfl | (split <;> rfl)
@[simp] theorem State.modStream_reg (s : State) (h peer tc : Nat) (f : StreamSt → StreamSt) : (s.modStream h peer tc f).reg = s.reg := by unfold State.modStream; first | rfl | (split <;> rfl)
@[simp] theorem State.modStream_power (s : State) (h peer tc : Nat) (f : StreamSt → StreamSt) : (s.modStream h peer tc f).power = s.power := by unfold State.modStream; first | rfl | (split <;> rfl)
@[simp] theorem State.modStream_fault (s : State) (h peer tc : Nat) (f : StreamSt → StreamSt) : (s.modStream h peer tc f).fault = s.fault := by unfold State.modStream; first | rfl | (split <;> rfl)
@[simp] theorem State.modStream_trace (s : State) (h peer tc : Nat) (f : StreamSt → StreamSt) : (s.modStream h peer tc f).trace = s.trace := by unfold State.modStream; first | rfl | (split <;> rfl)
@[simp] theorem State.modStream_laneOff (s : State) (h peer tc : Nat) (f : StreamSt → StreamSt) : (s.modStream h peer tc f).laneOff = s.laneOff := by unfold State.modStream; first | rfl | (split <;> rfl)
@[simp] theorem State.modStream_freeCtr (s : State) (h peer tc : Nat) (f : StreamSt → StreamSt) : (s.modStream h peer tc f).freeCtr = s.freeCtr := by unfold State.modStream; first | rfl | (split <;> rfl)
@[simp] theorem State.modStream_out (s : State) (h peer tc : Nat) (f : StreamSt → StreamSt) : (s.modStream h peer tc f).out = s.out := by unfold State.modStream; first | rfl | (split <;> rfl)
@[simp] theorem State.modStream_pending (s : State) (h peer tc : Nat) (f : StreamSt → StreamSt) : (s.modStream h peer tc f).pending = s.pending := by unfold State.modStream; first | rfl | (split <;> rfl)

/-! ### State.modRing -/

@[simp] theorem State.modRing_now (s : State) (link h : Nat) (f : EnvRing → EnvRing) : (s.modRing link h f).now = s.now := rfl
@[simp] theorem State.modRing_boot (s : State) (link h : Nat) (f : EnvRing → EnvRing) : (s.modRing link h f).boot = s.boot := rfl
@[simp] theorem State.modRing_fuses (s : State) (link h : Nat) (f : EnvRing → EnvRing) : (s.modRing link h f).fuses = s.fuses := rfl
@[simp] theorem State.modRing_life (s : State) (link h : Nat) (f : EnvRing → EnvRing) : (s.modRing link h f).life = s.life := rfl
@[simp] theorem State.modRing_kv (s : State) (link h : Nat) (f : EnvRing → EnvRing) : (s.modRing link h f).kv = s.kv := rfl
@[simp] theorem State.modRing_dg (s : State) (link h : Nat) (f : EnvRing → EnvRing) : (s.modRing link h f).dg = s.dg := rfl
@[simp] theorem State.modRing_att (s : State) (link h : Nat) (f : EnvRing → EnvRing) : (s.modRing link h f).att = s.att := rfl
@[simp] theorem State.modRing_sniby (s : State) (link h : Nat) (f : EnvRing → EnvRing) : (s.modRing link h f).sniby = s.sniby := rfl
@[simp] theorem State.modRing_parts (s : State) (link h : Nat) (f : EnvRing → EnvRing) : (s.modRing link h f).parts = s.parts := rfl
@[simp] theorem State.modRing_jobs (s : State) (link h : Nat) (f : EnvRing → EnvRing) : (s.modRing link h f).jobs = s.jobs := rfl
@[simp] theorem State.modRing_ctxs (s : State) (link h : Nat) (f : EnvRing → EnvRing) : (s.modRing link h f).ctxs = s.ctxs := rfl
@[simp] theorem State.modRing_regions (s : State) (link h : Nat) (f : EnvRing → EnvRing) : (s.modRing link h f).regions = s.regions := rfl
@[simp] theorem State.modRing_mem (s : State) (link h : Nat) (f : EnvRing → EnvRing) : (s.modRing link h f).mem = s.mem := rfl
@[simp] theorem State.modRing_courier (s : State) (link h : Nat) (f : EnvRing → EnvRing) : (s.modRing link h f).courier = s.courier := rfl
@[simp] theorem State.modRing_assocs (s : State) (link h : Nat) (f : EnvRing → EnvRing) : (s.modRing link h f).assocs = s.assocs := rfl
@[simp] theorem State.modRing_remote (s : State) (link h : Nat) (f : EnvRing → EnvRing) : (s.modRing link h f).remote = s.remote := rfl
@[simp] theorem State.modRing_red (s : State) (link h : Nat) (f : EnvRing → EnvRing) : (s.modRing link h f).red = s.red := rfl
@[simp] theorem State.modRing_reg (s : State) (link h : Nat) (f : EnvRing → EnvRing) : (s.modRing link h f).reg = s.reg := rfl
@[simp] theorem State.modRing_power (s : State) (link h : Nat) (f : EnvRing → EnvRing) : (s.modRing link h f).power = s.power := rfl
@[simp] theorem State.modRing_fault (s : State) (link h : Nat) (f : EnvRing → EnvRing) : (s.modRing link h f).fault = s.fault := rfl
@[simp] theorem State.modRing_trace (s : State) (link h : Nat) (f : EnvRing → EnvRing) : (s.modRing link h f).trace = s.trace := rfl
@[simp] theorem State.modRing_laneOff (s : State) (link h : Nat) (f : EnvRing → EnvRing) : (s.modRing link h f).laneOff = s.laneOff := rfl
@[simp] theorem State.modRing_freeCtr (s : State) (link h : Nat) (f : EnvRing → EnvRing) : (s.modRing link h f).freeCtr = s.freeCtr := rfl
@[simp] theorem State.modRing_out (s : State) (link h : Nat) (f : EnvRing → EnvRing) : (s.modRing link h f).out = s.out := rfl
@[simp] theorem State.modRing_pending (s : State) (link h : Nat) (f : EnvRing → EnvRing) : (s.modRing link h f).pending = s.pending := rfl

/-! ### State.modFault -/

@[simp] theorem State.modFault_now (s : State) (f : Faults → Faults) : (s.modFault f).now = s.now := rfl
@[simp] theorem State.modFault_boot (s : State) (f : Faults → Faults) : (s.modFault f).boot = s.boot := rfl
@[simp] theorem State.modFault_fuses (s : State) (f : Faults → Faults) : (s.modFault f).fuses = s.fuses := rfl
@[simp] theorem State.modFault_life (s : State) (f : Faults → Faults) : (s.modFault f).life = s.life := rfl
@[simp] theorem State.modFault_kv (s : State) (f : Faults → Faults) : (s.modFault f).kv = s.kv := rfl
@[simp] theorem State.modFault_dg (s : State) (f : Faults → Faults) : (s.modFault f).dg = s.dg := rfl
@[simp] theorem State.modFault_att (s : State) (f : Faults → Faults) : (s.modFault f).att = s.att := rfl
@[simp] theorem State.modFault_sniby (s : State) (f : Faults → Faults) : (s.modFault f).sniby = s.sniby := rfl
@[simp] theorem State.modFault_parts (s : State) (f : Faults → Faults) : (s.modFault f).parts = s.parts := rfl
@[simp] theorem State.modFault_jobs (s : State) (f : Faults → Faults) : (s.modFault f).jobs = s.jobs := rfl
@[simp] theorem State.modFault_ctxs (s : State) (f : Faults → Faults) : (s.modFault f).ctxs = s.ctxs := rfl
@[simp] theorem State.modFault_regions (s : State) (f : Faults → Faults) : (s.modFault f).regions = s.regions := rfl
@[simp] theorem State.modFault_mem (s : State) (f : Faults → Faults) : (s.modFault f).mem = s.mem := rfl
@[simp] theorem State.modFault_courier (s : State) (f : Faults → Faults) : (s.modFault f).courier = s.courier := rfl
@[simp] theorem State.modFault_assocs (s : State) (f : Faults → Faults) : (s.modFault f).assocs = s.assocs := rfl
@[simp] theorem State.modFault_env (s : State) (f : Faults → Faults) : (s.modFault f).env = s.env := rfl
@[simp] theorem State.modFault_remote (s : State) (f : Faults → Faults) : (s.modFault f).remote = s.remote := rfl
@[simp] theorem State.modFault_red (s : State) (f : Faults → Faults) : (s.modFault f).red = s.red := rfl
@[simp] theorem State.modFault_reg (s : State) (f : Faults → Faults) : (s.modFault f).reg = s.reg := rfl
@[simp] theorem State.modFault_power (s : State) (f : Faults → Faults) : (s.modFault f).power = s.power := rfl
@[simp] theorem State.modFault_trace (s : State) (f : Faults → Faults) : (s.modFault f).trace = s.trace := rfl
@[simp] theorem State.modFault_laneOff (s : State) (f : Faults → Faults) : (s.modFault f).laneOff = s.laneOff := rfl
@[simp] theorem State.modFault_freeCtr (s : State) (f : Faults → Faults) : (s.modFault f).freeCtr = s.freeCtr := rfl
@[simp] theorem State.modFault_out (s : State) (f : Faults → Faults) : (s.modFault f).out = s.out := rfl
@[simp] theorem State.modFault_pending (s : State) (f : Faults → Faults) : (s.modFault f).pending = s.pending := rfl

/-! ### State.modRemote -/

@[simp] theorem State.modRemote_now (s : State) (f : Remote → Remote) : (s.modRemote f).now = s.now := rfl
@[simp] theorem State.modRemote_boot (s : State) (f : Remote → Remote) : (s.modRemote f).boot = s.boot := rfl
@[simp] theorem State.modRemote_fuses (s : State) (f : Remote → Remote) : (s.modRemote f).fuses = s.fuses := rfl
@[simp] theorem State.modRemote_life (s : State) (f : Remote → Remote) : (s.modRemote f).life = s.life := rfl
@[simp] theorem State.modRemote_kv (s : State) (f : Remote → Remote) : (s.modRemote f).kv = s.kv := rfl
@[simp] theorem State.modRemote_dg (s : State) (f : Remote → Remote) : (s.modRemote f).dg = s.dg := rfl
@[simp] theorem State.modRemote_att (s : State) (f : Remote → Remote) : (s.modRemote f).att = s.att := rfl
@[simp] theorem State.modRemote_sniby (s : State) (f : Remote → Remote) : (s.modRemote f).sniby = s.sniby := rfl
@[simp] theorem State.modRemote_parts (s : State) (f : Remote → Remote) : (s.modRemote f).parts = s.parts := rfl
@[simp] theorem State.modRemote_jobs (s : State) (f : Remote → Remote) : (s.modRemote f).jobs = s.jobs := rfl
@[simp] theorem State.modRemote_ctxs (s : State) (f : Remote → Remote) : (s.modRemote f).ctxs = s.ctxs := rfl
@[simp] theorem State.modRemote_regions (s : State) (f : Remote → Remote) : (s.modRemote f).regions = s.regions := rfl
@[simp] theorem State.modRemote_mem (s : State) (f : Remote → Remote) : (s.modRemote f).mem = s.mem := rfl
@[simp] theorem State.modRemote_courier (s : State) (f : Remote → Remote) : (s.modRemote f).courier = s.courier := rfl
@[simp] theorem State.modRemote_assocs (s : State) (f : Remote → Remote) : (s.modRemote f).assocs = s.assocs := rfl
@[simp] theorem State.modRemote_env (s : State) (f : Remote → Remote) : (s.modRemote f).env = s.env := rfl
@[simp] theorem State.modRemote_red (s : State) (f : Remote → Remote) : (s.modRemote f).red = s.red := rfl
@[simp] theorem State.modRemote_reg (s : State) (f : Remote → Remote) : (s.modRemote f).reg = s.reg := rfl
@[simp] theorem State.modRemote_power (s : State) (f : Remote → Remote) : (s.modRemote f).power = s.power := rfl
@[simp] theorem State.modRemote_fault (s : State) (f : Remote → Remote) : (s.modRemote f).fault = s.fault := rfl
@[simp] theorem State.modRemote_trace (s : State) (f : Remote → Remote) : (s.modRemote f).trace = s.trace := rfl
@[simp] theorem State.modRemote_laneOff (s : State) (f : Remote → Remote) : (s.modRemote f).laneOff = s.laneOff := rfl
@[simp] theorem State.modRemote_freeCtr (s : State) (f : Remote → Remote) : (s.modRemote f).freeCtr = s.freeCtr := rfl
@[simp] theorem State.modRemote_out (s : State) (f : Remote → Remote) : (s.modRemote f).out = s.out := rfl
@[simp] theorem State.modRemote_pending (s : State) (f : Remote → Remote) : (s.modRemote f).pending = s.pending := rfl

/-! ### State.setRemote -/

@[simp] theorem State.setRemote_now (s : State) (q : RemReq) : (s.setRemote q).now = s.now := rfl
@[simp] theorem State.setRemote_boot (s : State) (q : RemReq) : (s.setRemote q).boot = s.boot := rfl
@[simp] theorem State.setRemote_fuses (s : State) (q : RemReq) : (s.setRemote q).fuses = s.fuses := rfl
@[simp] theorem State.setRemote_life (s : State) (q : RemReq) : (s.setRemote q).life = s.life := rfl
@[simp] theorem State.setRemote_kv (s : State) (q : RemReq) : (s.setRemote q).kv = s.kv := rfl
@[simp] theorem State.setRemote_dg (s : State) (q : RemReq) : (s.setRemote q).dg = s.dg := rfl
@[simp] theorem State.setRemote_att (s : State) (q : RemReq) : (s.setRemote q).att = s.att := rfl
@[simp] theorem State.setRemote_sniby (s : State) (q : RemReq) : (s.setRemote q).sniby = s.sniby := rfl
@[simp] theorem State.setRemote_parts (s : State) (q : RemReq) : (s.setRemote q).parts = s.parts := rfl
@[simp] theorem State.setRemote_jobs (s : State) (q : RemReq) : (s.setRemote q).jobs = s.jobs := rfl
@[simp] theorem State.setRemote_ctxs (s : State) (q : RemReq) : (s.setRemote q).ctxs = s.ctxs := rfl
@[simp] theorem State.setRemote_regions (s : State) (q : RemReq) : (s.setRemote q).regions = s.regions := rfl
@[simp] theorem State.setRemote_mem (s : State) (q : RemReq) : (s.setRemote q).mem = s.mem := rfl
@[simp] theorem State.setRemote_courier (s : State) (q : RemReq) : (s.setRemote q).courier = s.courier := rfl
@[simp] theorem State.setRemote_assocs (s : State) (q : RemReq) : (s.setRemote q).assocs = s.assocs := rfl
@[simp] theorem State.setRemote_env (s : State) (q : RemReq) : (s.setRemote q).env = s.env := rfl
@[simp] theorem State.setRemote_red (s : State) (q : RemReq) : (s.setRemote q).red = s.red := rfl
@[simp] theorem State.setRemote_reg (s : State) (q : RemReq) : (s.setRemote q).reg = s.reg := rfl
@[simp] theorem State.setRemote_power (s : State) (q : RemReq) : (s.setRemote q).power = s.power := rfl
@[simp] theorem State.setRemote_fault (s : State) (q : RemReq) : (s.setRemote q).fault = s.fault := rfl
@[simp] theorem State.setRemote_trace (s : State) (q : RemReq) : (s.setRemote q).trace = s.trace := rfl
@[simp] theorem State.setRemote_laneOff (s : State) (q : RemReq) : (s.setRemote q).laneOff = s.laneOff := rfl
@[simp] theorem State.setRemote_freeCtr (s : State) (q : RemReq) : (s.setRemote q).freeCtr = s.freeCtr := rfl
@[simp] theorem State.setRemote_out (s : State) (q : RemReq) : (s.setRemote q).out = s.out := rfl
@[simp] theorem State.setRemote_pending (s : State) (q : RemReq) : (s.setRemote q).pending = s.pending := rfl

/-! ### State.modRed -/

@[simp] theorem State.modRed_now (s : State) (f : Reduction → Reduction) : (s.modRed f).now = s.now := rfl
@[simp] theorem State.modRed_boot (s : State) (f : Reduction → Reduction) : (s.modRed f).boot = s.boot := rfl
@[simp] theorem State.modRed_fuses (s : State) (f : Reduction → Reduction) : (s.modRed f).fuses = s.fuses := rfl
@[simp] theorem State.modRed_life (s : State) (f : Reduction → Reduction) : (s.modRed f).life = s.life := rfl
@[simp] theorem State.modRed_kv (s : State) (f : Reduction → Reduction) : (s.modRed f).kv = s.kv := rfl
@[simp] theorem State.modRed_dg (s : State) (f : Reduction → Reduction) : (s.modRed f).dg = s.dg := rfl
@[simp] theorem State.modRed_att (s : State) (f : Reduction → Reduction) : (s.modRed f).att = s.att := rfl
@[simp] theorem State.modRed_sniby (s : State) (f : Reduction → Reduction) : (s.modRed f).sniby = s.sniby := rfl
@[simp] theorem State.modRed_parts (s : State) (f : Reduction → Reduction) : (s.modRed f).parts = s.parts := rfl
@[simp] theorem State.modRed_jobs (s : State) (f : Reduction → Reduction) : (s.modRed f).jobs = s.jobs := rfl
@[simp] theorem State.modRed_ctxs (s : State) (f : Reduction → Reduction) : (s.modRed f).ctxs = s.ctxs := rfl
@[simp] theorem State.modRed_regions (s : State) (f : Reduction → Reduction) : (s.modRed f).regions = s.regions := rfl
@[simp] theorem State.modRed_mem (s : State) (f : Reduction → Reduction) : (s.modRed f).mem = s.mem := rfl
@[simp] theorem State.modRed_courier (s : State) (f : Reduction → Reduction) : (s.modRed f).courier = s.courier := rfl
@[simp] theorem State.modRed_assocs (s : State) (f : Reduction → Reduction) : (s.modRed f).assocs = s.assocs := rfl
@[simp] theorem State.modRed_env (s : State) (f : Reduction → Reduction) : (s.modRed f).env = s.env := rfl
@[simp] theorem State.modRed_remote (s : State) (f : Reduction → Reduction) : (s.modRed f).remote = s.remote := rfl
@[simp] theorem State.modRed_reg (s : State) (f : Reduction → Reduction) : (s.modRed f).reg = s.reg := rfl
@[simp] theorem State.modRed_power (s : State) (f : Reduction → Reduction) : (s.modRed f).power = s.power := rfl
@[simp] theorem State.modRed_fault (s : State) (f : Reduction → Reduction) : (s.modRed f).fault = s.fault := rfl
@[simp] theorem State.modRed_trace (s : State) (f : Reduction → Reduction) : (s.modRed f).trace = s.trace := rfl
@[simp] theorem State.modRed_laneOff (s : State) (f : Reduction → Reduction) : (s.modRed f).laneOff = s.laneOff := rfl
@[simp] theorem State.modRed_freeCtr (s : State) (f : Reduction → Reduction) : (s.modRed f).freeCtr = s.freeCtr := rfl
@[simp] theorem State.modRed_out (s : State) (f : Reduction → Reduction) : (s.modRed f).out = s.out := rfl
@[simp] theorem State.modRed_pending (s : State) (f : Reduction → Reduction) : (s.modRed f).pending = s.pending := rfl

/-! ### State.modDesc -/

@[simp] theorem State.modDesc_now (s : State) (n : Nat) (f : Descriptor → Descriptor) : (s.modDesc n f).now = s.now := rfl
@[simp] theorem State.modDesc_boot (s : State) (n : Nat) (f : Descriptor → Descriptor) : (s.modDesc n f).boot = s.boot := rfl
@[simp] theorem State.modDesc_fuses (s : State) (n : Nat) (f : Descriptor → Descriptor) : (s.modDesc n f).fuses = s.fuses := rfl
@[simp] theorem State.modDesc_life (s : State) (n : Nat) (f : Descriptor → Descriptor) : (s.modDesc n f).life = s.life := rfl
@[simp] theorem State.modDesc_kv (s : State) (n : Nat) (f : Descriptor → Descriptor) : (s.modDesc n f).kv = s.kv := rfl
@[simp] theorem State.modDesc_dg (s : State) (n : Nat) (f : Descriptor → Descriptor) : (s.modDesc n f).dg = s.dg := rfl
@[simp] theorem State.modDesc_att (s : State) (n : Nat) (f : Descriptor → Descriptor) : (s.modDesc n f).att = s.att := rfl
@[simp] theorem State.modDesc_sniby (s : State) (n : Nat) (f : Descriptor → Descriptor) : (s.modDesc n f).sniby = s.sniby := rfl
@[simp] theorem State.modDesc_parts (s : State) (n : Nat) (f : Descriptor → Descriptor) : (s.modDesc n f).parts = s.parts := rfl
@[simp] theorem State.modDesc_jobs (s : State) (n : Nat) (f : Descriptor → Descriptor) : (s.modDesc n f).jobs = s.jobs := rfl
@[simp] theorem State.modDesc_ctxs (s : State) (n : Nat) (f : Descriptor → Descriptor) : (s.modDesc n f).ctxs = s.ctxs := rfl
@[simp] theorem State.modDesc_regions (s : State) (n : Nat) (f : Descriptor → Descriptor) : (s.modDesc n f).regions = s.regions := rfl
@[simp] theorem State.modDesc_mem (s : State) (n : Nat) (f : Descriptor → Descriptor) : (s.modDesc n f).mem = s.mem := rfl
@[simp] theorem State.modDesc_courier (s : State) (n : Nat) (f : Descriptor → Descriptor) : (s.modDesc n f).courier = s.courier := rfl
@[simp] theorem State.modDesc_assocs (s : State) (n : Nat) (f : Descriptor → Descriptor) : (s.modDesc n f).assocs = s.assocs := rfl
@[simp] theorem State.modDesc_env (s : State) (n : Nat) (f : Descriptor → Descriptor) : (s.modDesc n f).env = s.env := rfl
@[simp] theorem State.modDesc_remote (s : State) (n : Nat) (f : Descriptor → Descriptor) : (s.modDesc n f).remote = s.remote := rfl
@[simp] theorem State.modDesc_reg (s : State) (n : Nat) (f : Descriptor → Descriptor) : (s.modDesc n f).reg = s.reg := rfl
@[simp] theorem State.modDesc_power (s : State) (n : Nat) (f : Descriptor → Descriptor) : (s.modDesc n f).power = s.power := rfl
@[simp] theorem State.modDesc_fault (s : State) (n : Nat) (f : Descriptor → Descriptor) : (s.modDesc n f).fault = s.fault := rfl
@[simp] theorem State.modDesc_trace (s : State) (n : Nat) (f : Descriptor → Descriptor) : (s.modDesc n f).trace = s.trace := rfl
@[simp] theorem State.modDesc_laneOff (s : State) (n : Nat) (f : Descriptor → Descriptor) : (s.modDesc n f).laneOff = s.laneOff := rfl
@[simp] theorem State.modDesc_freeCtr (s : State) (n : Nat) (f : Descriptor → Descriptor) : (s.modDesc n f).freeCtr = s.freeCtr := rfl
@[simp] theorem State.modDesc_out (s : State) (n : Nat) (f : Descriptor → Descriptor) : (s.modDesc n f).out = s.out := rfl
@[simp] theorem State.modDesc_pending (s : State) (n : Nat) (f : Descriptor → Descriptor) : (s.modDesc n f).pending = s.pending := rfl

/-! ### State.putMaster -/

@[simp] theorem State.putMaster_now (s : State) (x : Master) : (s.putMaster x).now = s.now := by unfold State.putMaster; first | rfl | (split <;> rfl)
@[simp] theorem State.putMaster_boot (s : State) (x : Master) : (s.putMaster x).boot = s.boot := by unfold State.putMaster; first | rfl | (split <;> rfl)
@[simp] theorem State.putMaster_fuses (s : State) (x : Master) : (s.putMaster x).fuses = s.fuses := by unfold State.putMaster; first | rfl | (split <;> rfl)
@[simp] theorem State.putMaster_life (s : State) (x : Master) : (s.putMaster x).life = s.life := by unfold State.putMaster; first | rfl | (split <;> rfl)
@[simp] theorem State.putMaster_kv (s : State) (x : Master) : (s.putMaster x).kv = s.kv := by unfold State.putMaster; first | rfl | (split <;> rfl)
@[simp] theorem State.putMaster_dg (s : State) (x : Master) : (s.putMaster x).dg = s.dg := by unfold State.putMaster; first | rfl | (split <;> rfl)
@[simp] theorem State.putMaster_att (s : State) (x : Master) : (s.putMaster x).att = s.att := by unfold State.putMaster; first | rfl | (split <;> rfl)
@[simp] theorem State.putMaster_sniby (s : State) (x : Master) : (s.putMaster x).sniby = s.sniby := by unfold State.putMaster; first | rfl | (split <;> rfl)
@[simp] theorem State.putMaster_parts (s : State) (x : Master) : (s.putMaster x).parts = s.parts := by unfold State.putMaster; first | rfl | (split <;> rfl)
@[simp] theorem State.putMaster_jobs (s : State) (x : Master) : (s.putMaster x).jobs = s.jobs := by unfold State.putMaster; first | rfl | (split <;> rfl)
@[simp] theorem State.putMaster_ctxs (s : State) (x : Master) : (s.putMaster x).ctxs = s.ctxs := by unfold State.putMaster; first | rfl | (split <;> rfl)
@[simp] theorem State.putMaster_regions (s : State) (x : Master) : (s.putMaster x).regions = s.regions := by unfold State.putMaster; first | rfl | (split <;> rfl)
@[simp] theorem State.putMaster_mem (s : State) (x : Master) : (s.putMaster x).mem = s.mem := by unfold State.putMaster; first | rfl | (split <;> rfl)
@[simp] theorem State.putMaster_courier (s : State) (x : Master) : (s.putMaster x).courier = s.courier := by unfold State.putMaster; first | rfl | (split <;> rfl)
@[simp] theorem State.putMaster_assocs (s : State) (x : Master) : (s.putMaster x).assocs = s.assocs := by unfold State.putMaster; first | rfl | (split <;> rfl)
@[simp] theorem State.putMaster_env (s : State) (x : Master) : (s.putMaster x).env = s.env := by unfold State.putMaster; first | rfl | (split <;> rfl)
@[simp] theorem State.putMaster_remote (s : State) (x : Master) : (s.putMaster x).remote = s.remote := by unfold State.putMaster; first | rfl | (split <;> rfl)
@[simp] theorem State.putMaster_red (s : State) (x : Master) : (s.putMaster x).red = s.red := by unfold State.putMaster; first | rfl | (split <;> rfl)
@[simp] theorem State.putMaster_power (s : State) (x : Master) : (s.putMaster x).power = s.power := by unfold State.putMaster; first | rfl | (split <;> rfl)
@[simp] theorem State.putMaster_fault (s : State) (x : Master) : (s.putMaster x).fault = s.fault := by unfold State.putMaster; first | rfl | (split <;> rfl)
@[simp] theorem State.putMaster_trace (s : State) (x : Master) : (s.putMaster x).trace = s.trace := by unfold State.putMaster; first | rfl | (split <;> rfl)
@[simp] theorem State.putMaster_laneOff (s : State) (x : Master) : (s.putMaster x).laneOff = s.laneOff := by unfold State.putMaster; first | rfl | (split <;> rfl)
@[simp] theorem State.putMaster_freeCtr (s : State) (x : Master) : (s.putMaster x).freeCtr = s.freeCtr := by unfold State.putMaster; first | rfl | (split <;> rfl)
@[simp] theorem State.putMaster_out (s : State) (x : Master) : (s.putMaster x).out = s.out := by unfold State.putMaster; first | rfl | (split <;> rfl)
@[simp] theorem State.putMaster_pending (s : State) (x : Master) : (s.putMaster x).pending = s.pending := by unfold State.putMaster; first | rfl | (split <;> rfl)

/-! ### State.modPower -/

@[simp] theorem State.modPower_now (s : State) (f : Power → Power) : (s.modPower f).now = s.now := rfl
@[simp] theorem State.modPower_boot (s : State) (f : Power → Power) : (s.modPower f).boot = s.boot := rfl
@[simp] theorem State.modPower_fuses (s : State) (f : Power → Power) : (s.modPower f).fuses = s.fuses := rfl
@[simp] theorem State.modPower_life (s : State) (f : Power → Power) : (s.modPower f).life = s.life := rfl
@[simp] theorem State.modPower_kv (s : State) (f : Power → Power) : (s.modPower f).kv = s.kv := rfl
@[simp] theorem State.modPower_dg (s : State) (f : Power → Power) : (s.modPower f).dg = s.dg := rfl
@[simp] theorem State.modPower_att (s : State) (f : Power → Power) : (s.modPower f).att = s.att := rfl
@[simp] theorem State.modPower_sniby (s : State) (f : Power → Power) : (s.modPower f).sniby = s.sniby := rfl
@[simp] theorem State.modPower_parts (s : State) (f : Power → Power) : (s.modPower f).parts = s.parts := rfl
@[simp] theorem State.modPower_jobs (s : State) (f : Power → Power) : (s.modPower f).jobs = s.jobs := rfl
@[simp] theorem State.modPower_ctxs (s : State) (f : Power → Power) : (s.modPower f).ctxs = s.ctxs := rfl
@[simp] theorem State.modPower_regions (s : State) (f : Power → Power) : (s.modPower f).regions = s.regions := rfl
@[simp] theorem State.modPower_mem (s : State) (f : Power → Power) : (s.modPower f).mem = s.mem := rfl
@[simp] theorem State.modPower_courier (s : State) (f : Power → Power) : (s.modPower f).courier = s.courier := rfl
@[simp] theorem State.modPower_assocs (s : State) (f : Power → Power) : (s.modPower f).assocs = s.assocs := rfl
@[simp] theorem State.modPower_env (s : State) (f : Power → Power) : (s.modPower f).env = s.env := rfl
@[simp] theorem State.modPower_remote (s : State) (f : Power → Power) : (s.modPower f).remote = s.remote := rfl
@[simp] theorem State.modPower_red (s : State) (f : Power → Power) : (s.modPower f).red = s.red := rfl
@[simp] theorem State.modPower_reg (s : State) (f : Power → Power) : (s.modPower f).reg = s.reg := rfl
@[simp] theorem State.modPower_fault (s : State) (f : Power → Power) : (s.modPower f).fault = s.fault := rfl
@[simp] theorem State.modPower_trace (s : State) (f : Power → Power) : (s.modPower f).trace = s.trace := rfl
@[simp] theorem State.modPower_laneOff (s : State) (f : Power → Power) : (s.modPower f).laneOff = s.laneOff := rfl
@[simp] theorem State.modPower_freeCtr (s : State) (f : Power → Power) : (s.modPower f).freeCtr = s.freeCtr := rfl
@[simp] theorem State.modPower_out (s : State) (f : Power → Power) : (s.modPower f).out = s.out := rfl
@[simp] theorem State.modPower_pending (s : State) (f : Power → Power) : (s.modPower f).pending = s.pending := rfl

/-! ### State.modClk -/

@[simp] theorem State.modClk_now (s : State) (t : Nat) (f : TileClock → TileClock) : (s.modClk t f).now = s.now := rfl
@[simp] theorem State.modClk_boot (s : State) (t : Nat) (f : TileClock → TileClock) : (s.modClk t f).boot = s.boot := rfl
@[simp] theorem State.modClk_fuses (s : State) (t : Nat) (f : TileClock → TileClock) : (s.modClk t f).fuses = s.fuses := rfl
@[simp] theorem State.modClk_life (s : State) (t : Nat) (f : TileClock → TileClock) : (s.modClk t f).life = s.life := rfl
@[simp] theorem State.modClk_kv (s : State) (t : Nat) (f : TileClock → TileClock) : (s.modClk t f).kv = s.kv := rfl
@[simp] theorem State.modClk_dg (s : State) (t : Nat) (f : TileClock → TileClock) : (s.modClk t f).dg = s.dg := rfl
@[simp] theorem State.modClk_att (s : State) (t : Nat) (f : TileClock → TileClock) : (s.modClk t f).att = s.att := rfl
@[simp] theorem State.modClk_sniby (s : State) (t : Nat) (f : TileClock → TileClock) : (s.modClk t f).sniby = s.sniby := rfl
@[simp] theorem State.modClk_parts (s : State) (t : Nat) (f : TileClock → TileClock) : (s.modClk t f).parts = s.parts := rfl
@[simp] theorem State.modClk_jobs (s : State) (t : Nat) (f : TileClock → TileClock) : (s.modClk t f).jobs = s.jobs := rfl
@[simp] theorem State.modClk_ctxs (s : State) (t : Nat) (f : TileClock → TileClock) : (s.modClk t f).ctxs = s.ctxs := rfl
@[simp] theorem State.modClk_regions (s : State) (t : Nat) (f : TileClock → TileClock) : (s.modClk t f).regions = s.regions := rfl
@[simp] theorem State.modClk_mem (s : State) (t : Nat) (f : TileClock → TileClock) : (s.modClk t f).mem = s.mem := rfl
@[simp] theorem State.modClk_courier (s : State) (t : Nat) (f : TileClock → TileClock) : (s.modClk t f).courier = s.courier := rfl
@[simp] theorem State.modClk_assocs (s : State) (t : Nat) (f : TileClock → TileClock) : (s.modClk t f).assocs = s.assocs := rfl
@[simp] theorem State.modClk_env (s : State) (t : Nat) (f : TileClock → TileClock) : (s.modClk t f).env = s.env := rfl
@[simp] theorem State.modClk_remote (s : State) (t : Nat) (f : TileClock → TileClock) : (s.modClk t f).remote = s.remote := rfl
@[simp] theorem State.modClk_red (s : State) (t : Nat) (f : TileClock → TileClock) : (s.modClk t f).red = s.red := rfl
@[simp] theorem State.modClk_reg (s : State) (t : Nat) (f : TileClock → TileClock) : (s.modClk t f).reg = s.reg := rfl
@[simp] theorem State.modClk_fault (s : State) (t : Nat) (f : TileClock → TileClock) : (s.modClk t f).fault = s.fault := rfl
@[simp] theorem State.modClk_trace (s : State) (t : Nat) (f : TileClock → TileClock) : (s.modClk t f).trace = s.trace := rfl
@[simp] theorem State.modClk_laneOff (s : State) (t : Nat) (f : TileClock → TileClock) : (s.modClk t f).laneOff = s.laneOff := rfl
@[simp] theorem State.modClk_freeCtr (s : State) (t : Nat) (f : TileClock → TileClock) : (s.modClk t f).freeCtr = s.freeCtr := rfl
@[simp] theorem State.modClk_out (s : State) (t : Nat) (f : TileClock → TileClock) : (s.modClk t f).out = s.out := rfl
@[simp] theorem State.modClk_pending (s : State) (t : Nat) (f : TileClock → TileClock) : (s.modClk t f).pending = s.pending := rfl

/-! ### State.modRail -/

@[simp] theorem State.modRail_now (s : State) (r : Nat) (f : Rail → Rail) : (s.modRail r f).now = s.now := rfl
@[simp] theorem State.modRail_boot (s : State) (r : Nat) (f : Rail → Rail) : (s.modRail r f).boot = s.boot := rfl
@[simp] theorem State.modRail_fuses (s : State) (r : Nat) (f : Rail → Rail) : (s.modRail r f).fuses = s.fuses := rfl
@[simp] theorem State.modRail_life (s : State) (r : Nat) (f : Rail → Rail) : (s.modRail r f).life = s.life := rfl
@[simp] theorem State.modRail_kv (s : State) (r : Nat) (f : Rail → Rail) : (s.modRail r f).kv = s.kv := rfl
@[simp] theorem State.modRail_dg (s : State) (r : Nat) (f : Rail → Rail) : (s.modRail r f).dg = s.dg := rfl
@[simp] theorem State.modRail_att (s : State) (r : Nat) (f : Rail → Rail) : (s.modRail r f).att = s.att := rfl
@[simp] theorem State.modRail_sniby (s : State) (r : Nat) (f : Rail → Rail) : (s.modRail r f).sniby = s.sniby := rfl
@[simp] theorem State.modRail_parts (s : State) (r : Nat) (f : Rail → Rail) : (s.modRail r f).parts = s.parts := rfl
@[simp] theorem State.modRail_jobs (s : State) (r : Nat) (f : Rail → Rail) : (s.modRail r f).jobs = s.jobs := rfl
@[simp] theorem State.modRail_ctxs (s : State) (r : Nat) (f : Rail → Rail) : (s.modRail r f).ctxs = s.ctxs := rfl
@[simp] theorem State.modRail_regions (s : State) (r : Nat) (f : Rail → Rail) : (s.modRail r f).regions = s.regions := rfl
@[simp] theorem State.modRail_mem (s : State) (r : Nat) (f : Rail → Rail) : (s.modRail r f).mem = s.mem := rfl
@[simp] theorem State.modRail_courier (s : State) (r : Nat) (f : Rail → Rail) : (s.modRail r f).courier = s.courier := rfl
@[simp] theorem State.modRail_assocs (s : State) (r : Nat) (f : Rail → Rail) : (s.modRail r f).assocs = s.assocs := rfl
@[simp] theorem State.modRail_env (s : State) (r : Nat) (f : Rail → Rail) : (s.modRail r f).env = s.env := rfl
@[simp] theorem State.modRail_remote (s : State) (r : Nat) (f : Rail → Rail) : (s.modRail r f).remote = s.remote := rfl
@[simp] theorem State.modRail_red (s : State) (r : Nat) (f : Rail → Rail) : (s.modRail r f).red = s.red := rfl
@[simp] theorem State.modRail_reg (s : State) (r : Nat) (f : Rail → Rail) : (s.modRail r f).reg = s.reg := rfl
@[simp] theorem State.modRail_fault (s : State) (r : Nat) (f : Rail → Rail) : (s.modRail r f).fault = s.fault := rfl
@[simp] theorem State.modRail_trace (s : State) (r : Nat) (f : Rail → Rail) : (s.modRail r f).trace = s.trace := rfl
@[simp] theorem State.modRail_laneOff (s : State) (r : Nat) (f : Rail → Rail) : (s.modRail r f).laneOff = s.laneOff := rfl
@[simp] theorem State.modRail_freeCtr (s : State) (r : Nat) (f : Rail → Rail) : (s.modRail r f).freeCtr = s.freeCtr := rfl
@[simp] theorem State.modRail_out (s : State) (r : Nat) (f : Rail → Rail) : (s.modRail r f).out = s.out := rfl
@[simp] theorem State.modRail_pending (s : State) (r : Nat) (f : Rail → Rail) : (s.modRail r f).pending = s.pending := rfl

/-! ### State.modZone -/

@[simp] theorem State.modZone_now (s : State) (z : Nat) (f : Zone → Zone) : (s.modZone z f).now = s.now := rfl
@[simp] theorem State.modZone_boot (s : State) (z : Nat) (f : Zone → Zone) : (s.modZone z f).boot = s.boot := rfl
@[simp] theorem State.modZone_fuses (s : State) (z : Nat) (f : Zone → Zone) : (s.modZone z f).fuses = s.fuses := rfl
@[simp] theorem State.modZone_life (s : State) (z : Nat) (f : Zone → Zone) : (s.modZone z f).life = s.life := rfl
@[simp] theorem State.modZone_kv (s : State) (z : Nat) (f : Zone → Zone) : (s.modZone z f).kv = s.kv := rfl
@[simp] theorem State.modZone_dg (s : State) (z : Nat) (f : Zone → Zone) : (s.modZone z f).dg = s.dg := rfl
@[simp] theorem State.modZone_att (s : State) (z : Nat) (f : Zone → Zone) : (s.modZone z f).att = s.att := rfl
@[simp] theorem State.modZone_sniby (s : State) (z : Nat) (f : Zone → Zone) : (s.modZone z f).sniby = s.sniby := rfl
@[simp] theorem State.modZone_parts (s : State) (z : Nat) (f : Zone → Zone) : (s.modZone z f).parts = s.parts := rfl
@[simp] theorem State.modZone_jobs (s : State) (z : Nat) (f : Zone → Zone) : (s.modZone z f).jobs = s.jobs := rfl
@[simp] theorem State.modZone_ctxs (s : State) (z : Nat) (f : Zone → Zone) : (s.modZone z f).ctxs = s.ctxs := rfl
@[simp] theorem State.modZone_regions (s : State) (z : Nat) (f : Zone → Zone) : (s.modZone z f).regions = s.regions := rfl
@[simp] theorem State.modZone_mem (s : State) (z : Nat) (f : Zone → Zone) : (s.modZone z f).mem = s.mem := rfl
@[simp] theorem State.modZone_courier (s : State) (z : Nat) (f : Zone → Zone) : (s.modZone z f).courier = s.courier := rfl
@[simp] theorem State.modZone_assocs (s : State) (z : Nat) (f : Zone → Zone) : (s.modZone z f).assocs = s.assocs := rfl
@[simp] theorem State.modZone_env (s : State) (z : Nat) (f : Zone → Zone) : (s.modZone z f).env = s.env := rfl
@[simp] theorem State.modZone_remote (s : State) (z : Nat) (f : Zone → Zone) : (s.modZone z f).remote = s.remote := rfl
@[simp] theorem State.modZone_red (s : State) (z : Nat) (f : Zone → Zone) : (s.modZone z f).red = s.red := rfl
@[simp] theorem State.modZone_reg (s : State) (z : Nat) (f : Zone → Zone) : (s.modZone z f).reg = s.reg := rfl
@[simp] theorem State.modZone_fault (s : State) (z : Nat) (f : Zone → Zone) : (s.modZone z f).fault = s.fault := rfl
@[simp] theorem State.modZone_trace (s : State) (z : Nat) (f : Zone → Zone) : (s.modZone z f).trace = s.trace := rfl
@[simp] theorem State.modZone_laneOff (s : State) (z : Nat) (f : Zone → Zone) : (s.modZone z f).laneOff = s.laneOff := rfl
@[simp] theorem State.modZone_freeCtr (s : State) (z : Nat) (f : Zone → Zone) : (s.modZone z f).freeCtr = s.freeCtr := rfl
@[simp] theorem State.modZone_out (s : State) (z : Nat) (f : Zone → Zone) : (s.modZone z f).out = s.out := rfl
@[simp] theorem State.modZone_pending (s : State) (z : Nat) (f : Zone → Zone) : (s.modZone z f).pending = s.pending := rfl

/-! ### State.modTrace -/

@[simp] theorem State.modTrace_now (s : State) (f : Trace → Trace) : (s.modTrace f).now = s.now := rfl
@[simp] theorem State.modTrace_boot (s : State) (f : Trace → Trace) : (s.modTrace f).boot = s.boot := rfl
@[simp] theorem State.modTrace_fuses (s : State) (f : Trace → Trace) : (s.modTrace f).fuses = s.fuses := rfl
@[simp] theorem State.modTrace_life (s : State) (f : Trace → Trace) : (s.modTrace f).life = s.life := rfl
@[simp] theorem State.modTrace_kv (s : State) (f : Trace → Trace) : (s.modTrace f).kv = s.kv := rfl
@[simp] theorem State.modTrace_dg (s : State) (f : Trace → Trace) : (s.modTrace f).dg = s.dg := rfl
@[simp] theorem State.modTrace_att (s : State) (f : Trace → Trace) : (s.modTrace f).att = s.att := rfl
@[simp] theorem State.modTrace_sniby (s : State) (f : Trace → Trace) : (s.modTrace f).sniby = s.sniby := rfl
@[simp] theorem State.modTrace_parts (s : State) (f : Trace → Trace) : (s.modTrace f).parts = s.parts := rfl
@[simp] theorem State.modTrace_jobs (s : State) (f : Trace → Trace) : (s.modTrace f).jobs = s.jobs := rfl
@[simp] theorem State.modTrace_ctxs (s : State) (f : Trace → Trace) : (s.modTrace f).ctxs = s.ctxs := rfl
@[simp] theorem State.modTrace_regions (s : State) (f : Trace → Trace) : (s.modTrace f).regions = s.regions := rfl
@[simp] theorem State.modTrace_mem (s : State) (f : Trace → Trace) : (s.modTrace f).mem = s.mem := rfl
@[simp] theorem State.modTrace_courier (s : State) (f : Trace → Trace) : (s.modTrace f).courier = s.courier := rfl
@[simp] theorem State.modTrace_assocs (s : State) (f : Trace → Trace) : (s.modTrace f).assocs = s.assocs := rfl
@[simp] theorem State.modTrace_env (s : State) (f : Trace → Trace) : (s.modTrace f).env = s.env := rfl
@[simp] theorem State.modTrace_remote (s : State) (f : Trace → Trace) : (s.modTrace f).remote = s.remote := rfl
@[simp] theorem State.modTrace_red (s : State) (f : Trace → Trace) : (s.modTrace f).red = s.red := rfl
@[simp] theorem State.modTrace_reg (s : State) (f : Trace → Trace) : (s.modTrace f).reg = s.reg := rfl
@[simp] theorem State.modTrace_power (s : State) (f : Trace → Trace) : (s.modTrace f).power = s.power := rfl
@[simp] theorem State.modTrace_laneOff (s : State) (f : Trace → Trace) : (s.modTrace f).laneOff = s.laneOff := rfl
@[simp] theorem State.modTrace_fault (s : State) (f : Trace → Trace) : (s.modTrace f).fault = s.fault := rfl
@[simp] theorem State.modTrace_freeCtr (s : State) (f : Trace → Trace) : (s.modTrace f).freeCtr = s.freeCtr := rfl
@[simp] theorem State.modTrace_out (s : State) (f : Trace → Trace) : (s.modTrace f).out = s.out := rfl
@[simp] theorem State.modTrace_pending (s : State) (f : Trace → Trace) : (s.modTrace f).pending = s.pending := rfl

/-! ### State.setOp -/

@[simp] theorem State.setOp_now (s : State) (o : SecOp) : (s.setOp o).now = s.now := rfl
@[simp] theorem State.setOp_boot (s : State) (o : SecOp) : (s.setOp o).boot = s.boot := rfl
@[simp] theorem State.setOp_fuses (s : State) (o : SecOp) : (s.setOp o).fuses = s.fuses := rfl
@[simp] theorem State.setOp_life (s : State) (o : SecOp) : (s.setOp o).life = s.life := rfl
@[simp] theorem State.setOp_kv (s : State) (o : SecOp) : (s.setOp o).kv = s.kv := rfl
@[simp] theorem State.setOp_dg (s : State) (o : SecOp) : (s.setOp o).dg = s.dg := rfl
@[simp] theorem State.setOp_att (s : State) (o : SecOp) : (s.setOp o).att = s.att := rfl
@[simp] theorem State.setOp_sniby (s : State) (o : SecOp) : (s.setOp o).sniby = s.sniby := rfl
@[simp] theorem State.setOp_parts (s : State) (o : SecOp) : (s.setOp o).parts = s.parts := rfl
@[simp] theorem State.setOp_jobs (s : State) (o : SecOp) : (s.setOp o).jobs = s.jobs := rfl
@[simp] theorem State.setOp_ctxs (s : State) (o : SecOp) : (s.setOp o).ctxs = s.ctxs := rfl
@[simp] theorem State.setOp_regions (s : State) (o : SecOp) : (s.setOp o).regions = s.regions := rfl
@[simp] theorem State.setOp_courier (s : State) (o : SecOp) : (s.setOp o).courier = s.courier := rfl
@[simp] theorem State.setOp_assocs (s : State) (o : SecOp) : (s.setOp o).assocs = s.assocs := rfl
@[simp] theorem State.setOp_env (s : State) (o : SecOp) : (s.setOp o).env = s.env := rfl
@[simp] theorem State.setOp_remote (s : State) (o : SecOp) : (s.setOp o).remote = s.remote := rfl
@[simp] theorem State.setOp_red (s : State) (o : SecOp) : (s.setOp o).red = s.red := rfl
@[simp] theorem State.setOp_reg (s : State) (o : SecOp) : (s.setOp o).reg = s.reg := rfl
@[simp] theorem State.setOp_power (s : State) (o : SecOp) : (s.setOp o).power = s.power := rfl
@[simp] theorem State.setOp_fault (s : State) (o : SecOp) : (s.setOp o).fault = s.fault := rfl
@[simp] theorem State.setOp_trace (s : State) (o : SecOp) : (s.setOp o).trace = s.trace := rfl
@[simp] theorem State.setOp_laneOff (s : State) (o : SecOp) : (s.setOp o).laneOff = s.laneOff := rfl
@[simp] theorem State.setOp_freeCtr (s : State) (o : SecOp) : (s.setOp o).freeCtr = s.freeCtr := rfl
@[simp] theorem State.setOp_out (s : State) (o : SecOp) : (s.setOp o).out = s.out := rfl
@[simp] theorem State.setOp_pending (s : State) (o : SecOp) : (s.setOp o).pending = s.pending := rfl

/-! ### State.verifyLane -/

@[simp] theorem State.verifyLane_now (s : State) (fault : Bool) : (s.verifyLane fault).now = s.now := by cases fault <;> rfl
@[simp] theorem State.verifyLane_boot (s : State) (fault : Bool) : (s.verifyLane fault).boot = s.boot := by cases fault <;> rfl
@[simp] theorem State.verifyLane_fuses (s : State) (fault : Bool) : (s.verifyLane fault).fuses = s.fuses := by cases fault <;> rfl
@[simp] theorem State.verifyLane_life (s : State) (fault : Bool) : (s.verifyLane fault).life = s.life := by cases fault <;> rfl
@[simp] theorem State.verifyLane_kv (s : State) (fault : Bool) : (s.verifyLane fault).kv = s.kv := by cases fault <;> rfl
@[simp] theorem State.verifyLane_dg (s : State) (fault : Bool) : (s.verifyLane fault).dg = s.dg := by cases fault <;> rfl
@[simp] theorem State.verifyLane_att (s : State) (fault : Bool) : (s.verifyLane fault).att = s.att := by cases fault <;> rfl
@[simp] theorem State.verifyLane_sniby (s : State) (fault : Bool) : (s.verifyLane fault).sniby = s.sniby := by cases fault <;> rfl
@[simp] theorem State.verifyLane_parts (s : State) (fault : Bool) : (s.verifyLane fault).parts = s.parts := by cases fault <;> rfl
@[simp] theorem State.verifyLane_jobs (s : State) (fault : Bool) : (s.verifyLane fault).jobs = s.jobs := by cases fault <;> rfl
@[simp] theorem State.verifyLane_ctxs (s : State) (fault : Bool) : (s.verifyLane fault).ctxs = s.ctxs := by cases fault <;> rfl
@[simp] theorem State.verifyLane_regions (s : State) (fault : Bool) : (s.verifyLane fault).regions = s.regions := by cases fault <;> rfl
@[simp] theorem State.verifyLane_mem (s : State) (fault : Bool) : (s.verifyLane fault).mem = s.mem := by cases fault <;> rfl
@[simp] theorem State.verifyLane_courier (s : State) (fault : Bool) : (s.verifyLane fault).courier = s.courier := by cases fault <;> rfl
@[simp] theorem State.verifyLane_assocs (s : State) (fault : Bool) : (s.verifyLane fault).assocs = s.assocs := by cases fault <;> rfl
@[simp] theorem State.verifyLane_env (s : State) (fault : Bool) : (s.verifyLane fault).env = s.env := by cases fault <;> rfl
@[simp] theorem State.verifyLane_remote (s : State) (fault : Bool) : (s.verifyLane fault).remote = s.remote := by cases fault <;> rfl
@[simp] theorem State.verifyLane_red (s : State) (fault : Bool) : (s.verifyLane fault).red = s.red := by cases fault <;> rfl
@[simp] theorem State.verifyLane_reg (s : State) (fault : Bool) : (s.verifyLane fault).reg = s.reg := by cases fault <;> rfl
@[simp] theorem State.verifyLane_power (s : State) (fault : Bool) : (s.verifyLane fault).power = s.power := by cases fault <;> rfl
@[simp] theorem State.verifyLane_fault (s : State) (fault : Bool) : (s.verifyLane fault).fault = s.fault := by cases fault <;> rfl
@[simp] theorem State.verifyLane_trace (s : State) (fault : Bool) : (s.verifyLane fault).trace = s.trace := by cases fault <;> rfl
@[simp] theorem State.verifyLane_freeCtr (s : State) (fault : Bool) : (s.verifyLane fault).freeCtr = s.freeCtr := by cases fault <;> rfl
@[simp] theorem State.verifyLane_out (s : State) (fault : Bool) : (s.verifyLane fault).out = s.out := by cases fault <;> rfl
@[simp] theorem State.verifyLane_pending (s : State) (fault : Bool) : (s.verifyLane fault).pending = s.pending := by cases fault <;> rfl

/-! ### State.laneFound -/

@[simp] theorem State.laneFound_now (s : State) : (s.laneFound).now = s.now := rfl
@[simp] theorem State.laneFound_boot (s : State) : (s.laneFound).boot = s.boot := rfl
@[simp] theorem State.laneFound_fuses (s : State) : (s.laneFound).fuses = s.fuses := rfl
@[simp] theorem State.laneFound_life (s : State) : (s.laneFound).life = s.life := rfl
@[simp] theorem State.laneFound_kv (s : State) : (s.laneFound).kv = s.kv := rfl
@[simp] theorem State.laneFound_dg (s : State) : (s.laneFound).dg = s.dg := rfl
@[simp] theorem State.laneFound_att (s : State) : (s.laneFound).att = s.att := rfl
@[simp] theorem State.laneFound_sniby (s : State) : (s.laneFound).sniby = s.sniby := rfl
@[simp] theorem State.laneFound_parts (s : State) : (s.laneFound).parts = s.parts := rfl
@[simp] theorem State.laneFound_jobs (s : State) : (s.laneFound).jobs = s.jobs := rfl
@[simp] theorem State.laneFound_ctxs (s : State) : (s.laneFound).ctxs = s.ctxs := rfl
@[simp] theorem State.laneFound_regions (s : State) : (s.laneFound).regions = s.regions := rfl
@[simp] theorem State.laneFound_mem (s : State) : (s.laneFound).mem = s.mem := rfl
@[simp] theorem State.laneFound_courier (s : State) : (s.laneFound).courier = s.courier := rfl
@[simp] theorem State.laneFound_assocs (s : State) : (s.laneFound).assocs = s.assocs := rfl
@[simp] theorem State.laneFound_env (s : State) : (s.laneFound).env = s.env := rfl
@[simp] theorem State.laneFound_remote (s : State) : (s.laneFound).remote = s.remote := rfl
@[simp] theorem State.laneFound_red (s : State) : (s.laneFound).red = s.red := rfl
@[simp] theorem State.laneFound_reg (s : State) : (s.laneFound).reg = s.reg := rfl
@[simp] theorem State.laneFound_power (s : State) : (s.laneFound).power = s.power := rfl
@[simp] theorem State.laneFound_fault (s : State) : (s.laneFound).fault = s.fault := rfl
@[simp] theorem State.laneFound_trace (s : State) : (s.laneFound).trace = s.trace := rfl
@[simp] theorem State.laneFound_freeCtr (s : State) : (s.laneFound).freeCtr = s.freeCtr := rfl
@[simp] theorem State.laneFound_out (s : State) : (s.laneFound).out = s.out := rfl
@[simp] theorem State.laneFound_pending (s : State) : (s.laneFound).pending = s.pending := rfl

/-! ### State.dma -/

@[simp] theorem State.dma_now (s : State) (row tc link bytes : Nat) : (s.dma row tc link bytes).now = s.now := rfl
@[simp] theorem State.dma_boot (s : State) (row tc link bytes : Nat) : (s.dma row tc link bytes).boot = s.boot := rfl
@[simp] theorem State.dma_fuses (s : State) (row tc link bytes : Nat) : (s.dma row tc link bytes).fuses = s.fuses := rfl
@[simp] theorem State.dma_life (s : State) (row tc link bytes : Nat) : (s.dma row tc link bytes).life = s.life := rfl
@[simp] theorem State.dma_kv (s : State) (row tc link bytes : Nat) : (s.dma row tc link bytes).kv = s.kv := rfl
@[simp] theorem State.dma_dg (s : State) (row tc link bytes : Nat) : (s.dma row tc link bytes).dg = s.dg := rfl
@[simp] theorem State.dma_att (s : State) (row tc link bytes : Nat) : (s.dma row tc link bytes).att = s.att := rfl
@[simp] theorem State.dma_sniby (s : State) (row tc link bytes : Nat) : (s.dma row tc link bytes).sniby = s.sniby := rfl
@[simp] theorem State.dma_parts (s : State) (row tc link bytes : Nat) : (s.dma row tc link bytes).parts = s.parts := rfl
@[simp] theorem State.dma_jobs (s : State) (row tc link bytes : Nat) : (s.dma row tc link bytes).jobs = s.jobs := rfl
@[simp] theorem State.dma_ctxs (s : State) (row tc link bytes : Nat) : (s.dma row tc link bytes).ctxs = s.ctxs := rfl
@[simp] theorem State.dma_regions (s : State) (row tc link bytes : Nat) : (s.dma row tc link bytes).regions = s.regions := rfl
@[simp] theorem State.dma_mem (s : State) (row tc link bytes : Nat) : (s.dma row tc link bytes).mem = s.mem := rfl
@[simp] theorem State.dma_courier (s : State) (row tc link bytes : Nat) : (s.dma row tc link bytes).courier = s.courier := rfl
@[simp] theorem State.dma_assocs (s : State) (row tc link bytes : Nat) : (s.dma row tc link bytes).assocs = s.assocs := rfl
@[simp] theorem State.dma_env (s : State) (row tc link bytes : Nat) : (s.dma row tc link bytes).env = s.env := rfl
@[simp] theorem State.dma_remote (s : State) (row tc link bytes : Nat) : (s.dma row tc link bytes).remote = s.remote := rfl
@[simp] theorem State.dma_red (s : State) (row tc link bytes : Nat) : (s.dma row tc link bytes).red = s.red := rfl
@[simp] theorem State.dma_power (s : State) (row tc link bytes : Nat) : (s.dma row tc link bytes).power = s.power := rfl
@[simp] theorem State.dma_fault (s : State) (row tc link bytes : Nat) : (s.dma row tc link bytes).fault = s.fault := rfl
@[simp] theorem State.dma_trace (s : State) (row tc link bytes : Nat) : (s.dma row tc link bytes).trace = s.trace := rfl
@[simp] theorem State.dma_laneOff (s : State) (row tc link bytes : Nat) : (s.dma row tc link bytes).laneOff = s.laneOff := rfl
@[simp] theorem State.dma_freeCtr (s : State) (row tc link bytes : Nat) : (s.dma row tc link bytes).freeCtr = s.freeCtr := rfl
@[simp] theorem State.dma_out (s : State) (row tc link bytes : Nat) : (s.dma row tc link bytes).out = s.out := rfl
@[simp] theorem State.dma_pending (s : State) (row tc link bytes : Nat) : (s.dma row tc link bytes).pending = s.pending := rfl

/-! ### State.modLine -/

@[simp] theorem State.modLine_now (s : State) (p : Line → Bool) (f : Line → Line) : (s.modLine p f).now = s.now := rfl
@[simp] theorem State.modLine_boot (s : State) (p : Line → Bool) (f : Line → Line) : (s.modLine p f).boot = s.boot := rfl
@[simp] theorem State.modLine_fuses (s : State) (p : Line → Bool) (f : Line → Line) : (s.modLine p f).fuses = s.fuses := rfl
@[simp] theorem State.modLine_life (s : State) (p : Line → Bool) (f : Line → Line) : (s.modLine p f).life = s.life := rfl
@[simp] theorem State.modLine_kv (s : State) (p : Line → Bool) (f : Line → Line) : (s.modLine p f).kv = s.kv := rfl
@[simp] theorem State.modLine_dg (s : State) (p : Line → Bool) (f : Line → Line) : (s.modLine p f).dg = s.dg := rfl
@[simp] theorem State.modLine_att (s : State) (p : Line → Bool) (f : Line → Line) : (s.modLine p f).att = s.att := rfl
@[simp] theorem State.modLine_sniby (s : State) (p : Line → Bool) (f : Line → Line) : (s.modLine p f).sniby = s.sniby := rfl
@[simp] theorem State.modLine_parts (s : State) (p : Line → Bool) (f : Line → Line) : (s.modLine p f).parts = s.parts := rfl
@[simp] theorem State.modLine_jobs (s : State) (p : Line → Bool) (f : Line → Line) : (s.modLine p f).jobs = s.jobs := rfl
@[simp] theorem State.modLine_ctxs (s : State) (p : Line → Bool) (f : Line → Line) : (s.modLine p f).ctxs = s.ctxs := rfl
@[simp] theorem State.modLine_regions (s : State) (p : Line → Bool) (f : Line → Line) : (s.modLine p f).regions = s.regions := rfl
@[simp] theorem State.modLine_courier (s : State) (p : Line → Bool) (f : Line → Line) : (s.modLine p f).courier = s.courier := rfl
@[simp] theorem State.modLine_assocs (s : State) (p : Line → Bool) (f : Line → Line) : (s.modLine p f).assocs = s.assocs := rfl
@[simp] theorem State.modLine_env (s : State) (p : Line → Bool) (f : Line → Line) : (s.modLine p f).env = s.env := rfl
@[simp] theorem State.modLine_remote (s : State) (p : Line → Bool) (f : Line → Line) : (s.modLine p f).remote = s.remote := rfl
@[simp] theorem State.modLine_red (s : State) (p : Line → Bool) (f : Line → Line) : (s.modLine p f).red = s.red := rfl
@[simp] theorem State.modLine_reg (s : State) (p : Line → Bool) (f : Line → Line) : (s.modLine p f).reg = s.reg := rfl
@[simp] theorem State.modLine_power (s : State) (p : Line → Bool) (f : Line → Line) : (s.modLine p f).power = s.power := rfl
@[simp] theorem State.modLine_fault (s : State) (p : Line → Bool) (f : Line → Line) : (s.modLine p f).fault = s.fault := rfl
@[simp] theorem State.modLine_trace (s : State) (p : Line → Bool) (f : Line → Line) : (s.modLine p f).trace = s.trace := rfl
@[simp] theorem State.modLine_laneOff (s : State) (p : Line → Bool) (f : Line → Line) : (s.modLine p f).laneOff = s.laneOff := rfl
@[simp] theorem State.modLine_freeCtr (s : State) (p : Line → Bool) (f : Line → Line) : (s.modLine p f).freeCtr = s.freeCtr := rfl
@[simp] theorem State.modLine_out (s : State) (p : Line → Bool) (f : Line → Line) : (s.modLine p f).out = s.out := rfl
@[simp] theorem State.modLine_pending (s : State) (p : Line → Bool) (f : Line → Line) : (s.modLine p f).pending = s.pending := rfl

/-! ### State.dropSchedule -/

@[simp] theorem State.dropSchedule_now (s : State) (k : Schedule) : (s.dropSchedule k).now = s.now := rfl
@[simp] theorem State.dropSchedule_boot (s : State) (k : Schedule) : (s.dropSchedule k).boot = s.boot := rfl
@[simp] theorem State.dropSchedule_fuses (s : State) (k : Schedule) : (s.dropSchedule k).fuses = s.fuses := rfl
@[simp] theorem State.dropSchedule_life (s : State) (k : Schedule) : (s.dropSchedule k).life = s.life := rfl
@[simp] theorem State.dropSchedule_dg (s : State) (k : Schedule) : (s.dropSchedule k).dg = s.dg := rfl
@[simp] theorem State.dropSchedule_att (s : State) (k : Schedule) : (s.dropSchedule k).att = s.att := rfl
@[simp] theorem State.dropSchedule_sniby (s : State) (k : Schedule) : (s.dropSchedule k).sniby = s.sniby := rfl
@[simp] theorem State.dropSchedule_parts (s : State) (k : Schedule) : (s.dropSchedule k).parts = s.parts := rfl
@[simp] theorem State.dropSchedule_jobs (s : State) (k : Schedule) : (s.dropSchedule k).jobs = s.jobs := rfl
@[simp] theorem State.dropSchedule_ctxs (s : State) (k : Schedule) : (s.dropSchedule k).ctxs = s.ctxs := rfl
@[simp] theorem State.dropSchedule_regions (s : State) (k : Schedule) : (s.dropSchedule k).regions = s.regions := rfl
@[simp] theorem State.dropSchedule_mem (s : State) (k : Schedule) : (s.dropSchedule k).mem = s.mem := rfl
@[simp] theorem State.dropSchedule_courier (s : State) (k : Schedule) : (s.dropSchedule k).courier = s.courier := rfl
@[simp] theorem State.dropSchedule_assocs (s : State) (k : Schedule) : (s.dropSchedule k).assocs = s.assocs := rfl
@[simp] theorem State.dropSchedule_env (s : State) (k : Schedule) : (s.dropSchedule k).env = s.env := rfl
@[simp] theorem State.dropSchedule_remote (s : State) (k : Schedule) : (s.dropSchedule k).remote = s.remote := rfl
@[simp] theorem State.dropSchedule_red (s : State) (k : Schedule) : (s.dropSchedule k).red = s.red := rfl
@[simp] theorem State.dropSchedule_reg (s : State) (k : Schedule) : (s.dropSchedule k).reg = s.reg := rfl
@[simp] theorem State.dropSchedule_power (s : State) (k : Schedule) : (s.dropSchedule k).power = s.power := rfl
@[simp] theorem State.dropSchedule_fault (s : State) (k : Schedule) : (s.dropSchedule k).fault = s.fault := rfl
@[simp] theorem State.dropSchedule_trace (s : State) (k : Schedule) : (s.dropSchedule k).trace = s.trace := rfl
@[simp] theorem State.dropSchedule_laneOff (s : State) (k : Schedule) : (s.dropSchedule k).laneOff = s.laneOff := rfl
@[simp] theorem State.dropSchedule_freeCtr (s : State) (k : Schedule) : (s.dropSchedule k).freeCtr = s.freeCtr := rfl
@[simp] theorem State.dropSchedule_out (s : State) (k : Schedule) : (s.dropSchedule k).out = s.out := rfl
@[simp] theorem State.dropSchedule_pending (s : State) (k : Schedule) : (s.dropSchedule k).pending = s.pending := rfl

/-! ### State.useSchedule -/

@[simp] theorem State.useSchedule_now (s : State) (island h i g : Nat) : (s.useSchedule island h i g).now = s.now := rfl
@[simp] theorem State.useSchedule_boot (s : State) (island h i g : Nat) : (s.useSchedule island h i g).boot = s.boot := rfl
@[simp] theorem State.useSchedule_fuses (s : State) (island h i g : Nat) : (s.useSchedule island h i g).fuses = s.fuses := rfl
@[simp] theorem State.useSchedule_life (s : State) (island h i g : Nat) : (s.useSchedule island h i g).life = s.life := rfl
@[simp] theorem State.useSchedule_dg (s : State) (island h i g : Nat) : (s.useSchedule island h i g).dg = s.dg := rfl
@[simp] theorem State.useSchedule_att (s : State) (island h i g : Nat) : (s.useSchedule island h i g).att = s.att := rfl
@[simp] theorem State.useSchedule_sniby (s : State) (island h i g : Nat) : (s.useSchedule island h i g).sniby = s.sniby := rfl
@[simp] theorem State.useSchedule_parts (s : State) (island h i g : Nat) : (s.useSchedule island h i g).parts = s.parts := rfl
@[simp] theorem State.useSchedule_jobs (s : State) (island h i g : Nat) : (s.useSchedule island h i g).jobs = s.jobs := rfl
@[simp] theorem State.useSchedule_ctxs (s : State) (island h i g : Nat) : (s.useSchedule island h i g).ctxs = s.ctxs := rfl
@[simp] theorem State.useSchedule_regions (s : State) (island h i g : Nat) : (s.useSchedule island h i g).regions = s.regions := rfl
@[simp] theorem State.useSchedule_mem (s : State) (island h i g : Nat) : (s.useSchedule island h i g).mem = s.mem := rfl
@[simp] theorem State.useSchedule_courier (s : State) (island h i g : Nat) : (s.useSchedule island h i g).courier = s.courier := rfl
@[simp] theorem State.useSchedule_assocs (s : State) (island h i g : Nat) : (s.useSchedule island h i g).assocs = s.assocs := rfl
@[simp] theorem State.useSchedule_env (s : State) (island h i g : Nat) : (s.useSchedule island h i g).env = s.env := rfl
@[simp] theorem State.useSchedule_remote (s : State) (island h i g : Nat) : (s.useSchedule island h i g).remote = s.remote := rfl
@[simp] theorem State.useSchedule_red (s : State) (island h i g : Nat) : (s.useSchedule island h i g).red = s.red := rfl
@[simp] theorem State.useSchedule_reg (s : State) (island h i g : Nat) : (s.useSchedule island h i g).reg = s.reg := rfl
@[simp] theorem State.useSchedule_power (s : State) (island h i g : Nat) : (s.useSchedule island h i g).power = s.power := rfl
@[simp] theorem State.useSchedule_fault (s : State) (island h i g : Nat) : (s.useSchedule island h i g).fault = s.fault := rfl
@[simp] theorem State.useSchedule_trace (s : State) (island h i g : Nat) : (s.useSchedule island h i g).trace = s.trace := rfl
@[simp] theorem State.useSchedule_laneOff (s : State) (island h i g : Nat) : (s.useSchedule island h i g).laneOff = s.laneOff := rfl
@[simp] theorem State.useSchedule_freeCtr (s : State) (island h i g : Nat) : (s.useSchedule island h i g).freeCtr = s.freeCtr := rfl
@[simp] theorem State.useSchedule_out (s : State) (island h i g : Nat) : (s.useSchedule island h i g).out = s.out := rfl
@[simp] theorem State.useSchedule_pending (s : State) (island h i g : Nat) : (s.useSchedule island h i g).pending = s.pending := rfl

/-! ### State.modResume -/

@[simp] theorem State.modResume_now (s : State) (op : Nat) (f : ResumeRec → ResumeRec) : (s.modResume op f).now = s.now := rfl
@[simp] theorem State.modResume_boot (s : State) (op : Nat) (f : ResumeRec → ResumeRec) : (s.modResume op f).boot = s.boot := rfl
@[simp] theorem State.modResume_fuses (s : State) (op : Nat) (f : ResumeRec → ResumeRec) : (s.modResume op f).fuses = s.fuses := rfl
@[simp] theorem State.modResume_life (s : State) (op : Nat) (f : ResumeRec → ResumeRec) : (s.modResume op f).life = s.life := rfl
@[simp] theorem State.modResume_kv (s : State) (op : Nat) (f : ResumeRec → ResumeRec) : (s.modResume op f).kv = s.kv := rfl
@[simp] theorem State.modResume_dg (s : State) (op : Nat) (f : ResumeRec → ResumeRec) : (s.modResume op f).dg = s.dg := rfl
@[simp] theorem State.modResume_att (s : State) (op : Nat) (f : ResumeRec → ResumeRec) : (s.modResume op f).att = s.att := rfl
@[simp] theorem State.modResume_sniby (s : State) (op : Nat) (f : ResumeRec → ResumeRec) : (s.modResume op f).sniby = s.sniby := rfl
@[simp] theorem State.modResume_parts (s : State) (op : Nat) (f : ResumeRec → ResumeRec) : (s.modResume op f).parts = s.parts := rfl
@[simp] theorem State.modResume_jobs (s : State) (op : Nat) (f : ResumeRec → ResumeRec) : (s.modResume op f).jobs = s.jobs := rfl
@[simp] theorem State.modResume_ctxs (s : State) (op : Nat) (f : ResumeRec → ResumeRec) : (s.modResume op f).ctxs = s.ctxs := rfl
@[simp] theorem State.modResume_regions (s : State) (op : Nat) (f : ResumeRec → ResumeRec) : (s.modResume op f).regions = s.regions := rfl
@[simp] theorem State.modResume_courier (s : State) (op : Nat) (f : ResumeRec → ResumeRec) : (s.modResume op f).courier = s.courier := rfl
@[simp] theorem State.modResume_assocs (s : State) (op : Nat) (f : ResumeRec → ResumeRec) : (s.modResume op f).assocs = s.assocs := rfl
@[simp] theorem State.modResume_env (s : State) (op : Nat) (f : ResumeRec → ResumeRec) : (s.modResume op f).env = s.env := rfl
@[simp] theorem State.modResume_remote (s : State) (op : Nat) (f : ResumeRec → ResumeRec) : (s.modResume op f).remote = s.remote := rfl
@[simp] theorem State.modResume_red (s : State) (op : Nat) (f : ResumeRec → ResumeRec) : (s.modResume op f).red = s.red := rfl
@[simp] theorem State.modResume_reg (s : State) (op : Nat) (f : ResumeRec → ResumeRec) : (s.modResume op f).reg = s.reg := rfl
@[simp] theorem State.modResume_power (s : State) (op : Nat) (f : ResumeRec → ResumeRec) : (s.modResume op f).power = s.power := rfl
@[simp] theorem State.modResume_fault (s : State) (op : Nat) (f : ResumeRec → ResumeRec) : (s.modResume op f).fault = s.fault := rfl
@[simp] theorem State.modResume_trace (s : State) (op : Nat) (f : ResumeRec → ResumeRec) : (s.modResume op f).trace = s.trace := rfl
@[simp] theorem State.modResume_laneOff (s : State) (op : Nat) (f : ResumeRec → ResumeRec) : (s.modResume op f).laneOff = s.laneOff := rfl
@[simp] theorem State.modResume_freeCtr (s : State) (op : Nat) (f : ResumeRec → ResumeRec) : (s.modResume op f).freeCtr = s.freeCtr := rfl
@[simp] theorem State.modResume_out (s : State) (op : Nat) (f : ResumeRec → ResumeRec) : (s.modResume op f).out = s.out := rfl
@[simp] theorem State.modResume_pending (s : State) (op : Nat) (f : ResumeRec → ResumeRec) : (s.modResume op f).pending = s.pending := rfl

/-! ### State.waitAtCp -/

@[simp] theorem State.waitAtCp_now (s : State) (c : Cmd) : (s.waitAtCp c).now = s.now := rfl
@[simp] theorem State.waitAtCp_boot (s : State) (c : Cmd) : (s.waitAtCp c).boot = s.boot := rfl
@[simp] theorem State.waitAtCp_fuses (s : State) (c : Cmd) : (s.waitAtCp c).fuses = s.fuses := rfl
@[simp] theorem State.waitAtCp_life (s : State) (c : Cmd) : (s.waitAtCp c).life = s.life := rfl
@[simp] theorem State.waitAtCp_kv (s : State) (c : Cmd) : (s.waitAtCp c).kv = s.kv := rfl
@[simp] theorem State.waitAtCp_dg (s : State) (c : Cmd) : (s.waitAtCp c).dg = s.dg := rfl
@[simp] theorem State.waitAtCp_att (s : State) (c : Cmd) : (s.waitAtCp c).att = s.att := rfl
@[simp] theorem State.waitAtCp_parts (s : State) (c : Cmd) : (s.waitAtCp c).parts = s.parts := rfl
@[simp] theorem State.waitAtCp_jobs (s : State) (c : Cmd) : (s.waitAtCp c).jobs = s.jobs := rfl
@[simp] theorem State.waitAtCp_ctxs (s : State) (c : Cmd) : (s.waitAtCp c).ctxs = s.ctxs := rfl
@[simp] theorem State.waitAtCp_regions (s : State) (c : Cmd) : (s.waitAtCp c).regions = s.regions := rfl
@[simp] theorem State.waitAtCp_mem (s : State) (c : Cmd) : (s.waitAtCp c).mem = s.mem := rfl
@[simp] theorem State.waitAtCp_courier (s : State) (c : Cmd) : (s.waitAtCp c).courier = s.courier := rfl
@[simp] theorem State.waitAtCp_assocs (s : State) (c : Cmd) : (s.waitAtCp c).assocs = s.assocs := rfl
@[simp] theorem State.waitAtCp_env (s : State) (c : Cmd) : (s.waitAtCp c).env = s.env := rfl
@[simp] theorem State.waitAtCp_remote (s : State) (c : Cmd) : (s.waitAtCp c).remote = s.remote := rfl
@[simp] theorem State.waitAtCp_red (s : State) (c : Cmd) : (s.waitAtCp c).red = s.red := rfl
@[simp] theorem State.waitAtCp_reg (s : State) (c : Cmd) : (s.waitAtCp c).reg = s.reg := rfl
@[simp] theorem State.waitAtCp_power (s : State) (c : Cmd) : (s.waitAtCp c).power = s.power := rfl
@[simp] theorem State.waitAtCp_fault (s : State) (c : Cmd) : (s.waitAtCp c).fault = s.fault := rfl
@[simp] theorem State.waitAtCp_trace (s : State) (c : Cmd) : (s.waitAtCp c).trace = s.trace := rfl
@[simp] theorem State.waitAtCp_laneOff (s : State) (c : Cmd) : (s.waitAtCp c).laneOff = s.laneOff := rfl
@[simp] theorem State.waitAtCp_freeCtr (s : State) (c : Cmd) : (s.waitAtCp c).freeCtr = s.freeCtr := rfl
@[simp] theorem State.waitAtCp_out (s : State) (c : Cmd) : (s.waitAtCp c).out = s.out := rfl
@[simp] theorem State.waitAtCp_pending (s : State) (c : Cmd) : (s.waitAtCp c).pending = s.pending := rfl

/-! ### State.block -/

@[simp] theorem State.block_now (s : State) (c : Cmd) (op : Nat) (nonce : Option (BitVec 64)) : (s.block c op nonce).now = s.now := rfl
@[simp] theorem State.block_boot (s : State) (c : Cmd) (op : Nat) (nonce : Option (BitVec 64)) : (s.block c op nonce).boot = s.boot := rfl
@[simp] theorem State.block_fuses (s : State) (c : Cmd) (op : Nat) (nonce : Option (BitVec 64)) : (s.block c op nonce).fuses = s.fuses := rfl
@[simp] theorem State.block_life (s : State) (c : Cmd) (op : Nat) (nonce : Option (BitVec 64)) : (s.block c op nonce).life = s.life := rfl
@[simp] theorem State.block_kv (s : State) (c : Cmd) (op : Nat) (nonce : Option (BitVec 64)) : (s.block c op nonce).kv = s.kv := rfl
@[simp] theorem State.block_dg (s : State) (c : Cmd) (op : Nat) (nonce : Option (BitVec 64)) : (s.block c op nonce).dg = s.dg := rfl
@[simp] theorem State.block_att (s : State) (c : Cmd) (op : Nat) (nonce : Option (BitVec 64)) : (s.block c op nonce).att = s.att := rfl
@[simp] theorem State.block_parts (s : State) (c : Cmd) (op : Nat) (nonce : Option (BitVec 64)) : (s.block c op nonce).parts = s.parts := rfl
@[simp] theorem State.block_jobs (s : State) (c : Cmd) (op : Nat) (nonce : Option (BitVec 64)) : (s.block c op nonce).jobs = s.jobs := rfl
@[simp] theorem State.block_ctxs (s : State) (c : Cmd) (op : Nat) (nonce : Option (BitVec 64)) : (s.block c op nonce).ctxs = s.ctxs := rfl
@[simp] theorem State.block_regions (s : State) (c : Cmd) (op : Nat) (nonce : Option (BitVec 64)) : (s.block c op nonce).regions = s.regions := rfl
@[simp] theorem State.block_mem (s : State) (c : Cmd) (op : Nat) (nonce : Option (BitVec 64)) : (s.block c op nonce).mem = s.mem := rfl
@[simp] theorem State.block_courier (s : State) (c : Cmd) (op : Nat) (nonce : Option (BitVec 64)) : (s.block c op nonce).courier = s.courier := rfl
@[simp] theorem State.block_assocs (s : State) (c : Cmd) (op : Nat) (nonce : Option (BitVec 64)) : (s.block c op nonce).assocs = s.assocs := rfl
@[simp] theorem State.block_env (s : State) (c : Cmd) (op : Nat) (nonce : Option (BitVec 64)) : (s.block c op nonce).env = s.env := rfl
@[simp] theorem State.block_remote (s : State) (c : Cmd) (op : Nat) (nonce : Option (BitVec 64)) : (s.block c op nonce).remote = s.remote := rfl
@[simp] theorem State.block_red (s : State) (c : Cmd) (op : Nat) (nonce : Option (BitVec 64)) : (s.block c op nonce).red = s.red := rfl
@[simp] theorem State.block_reg (s : State) (c : Cmd) (op : Nat) (nonce : Option (BitVec 64)) : (s.block c op nonce).reg = s.reg := rfl
@[simp] theorem State.block_power (s : State) (c : Cmd) (op : Nat) (nonce : Option (BitVec 64)) : (s.block c op nonce).power = s.power := rfl
@[simp] theorem State.block_fault (s : State) (c : Cmd) (op : Nat) (nonce : Option (BitVec 64)) : (s.block c op nonce).fault = s.fault := rfl
@[simp] theorem State.block_trace (s : State) (c : Cmd) (op : Nat) (nonce : Option (BitVec 64)) : (s.block c op nonce).trace = s.trace := rfl
@[simp] theorem State.block_laneOff (s : State) (c : Cmd) (op : Nat) (nonce : Option (BitVec 64)) : (s.block c op nonce).laneOff = s.laneOff := rfl
@[simp] theorem State.block_freeCtr (s : State) (c : Cmd) (op : Nat) (nonce : Option (BitVec 64)) : (s.block c op nonce).freeCtr = s.freeCtr := rfl
@[simp] theorem State.block_out (s : State) (c : Cmd) (op : Nat) (nonce : Option (BitVec 64)) : (s.block c op nonce).out = s.out := rfl
@[simp] theorem State.block_pending (s : State) (c : Cmd) (op : Nat) (nonce : Option (BitVec 64)) : (s.block c op nonce).pending = s.pending := rfl

/-! ### State.stamped -/

@[simp] theorem State.stamped_now (s : State) (island : Nat) : (s.stamped island).now = s.now := rfl
@[simp] theorem State.stamped_boot (s : State) (island : Nat) : (s.stamped island).boot = s.boot := rfl
@[simp] theorem State.stamped_fuses (s : State) (island : Nat) : (s.stamped island).fuses = s.fuses := rfl
@[simp] theorem State.stamped_life (s : State) (island : Nat) : (s.stamped island).life = s.life := rfl
@[simp] theorem State.stamped_kv (s : State) (island : Nat) : (s.stamped island).kv = s.kv := rfl
@[simp] theorem State.stamped_dg (s : State) (island : Nat) : (s.stamped island).dg = s.dg := rfl
@[simp] theorem State.stamped_att (s : State) (island : Nat) : (s.stamped island).att = s.att := rfl
@[simp] theorem State.stamped_sniby (s : State) (island : Nat) : (s.stamped island).sniby = s.sniby := rfl
@[simp] theorem State.stamped_parts (s : State) (island : Nat) : (s.stamped island).parts = s.parts := rfl
@[simp] theorem State.stamped_jobs (s : State) (island : Nat) : (s.stamped island).jobs = s.jobs := rfl
@[simp] theorem State.stamped_ctxs (s : State) (island : Nat) : (s.stamped island).ctxs = s.ctxs := rfl
@[simp] theorem State.stamped_regions (s : State) (island : Nat) : (s.stamped island).regions = s.regions := rfl
@[simp] theorem State.stamped_mem (s : State) (island : Nat) : (s.stamped island).mem = s.mem := rfl
@[simp] theorem State.stamped_courier (s : State) (island : Nat) : (s.stamped island).courier = s.courier := rfl
@[simp] theorem State.stamped_assocs (s : State) (island : Nat) : (s.stamped island).assocs = s.assocs := rfl
@[simp] theorem State.stamped_env (s : State) (island : Nat) : (s.stamped island).env = s.env := rfl
@[simp] theorem State.stamped_remote (s : State) (island : Nat) : (s.stamped island).remote = s.remote := rfl
@[simp] theorem State.stamped_red (s : State) (island : Nat) : (s.stamped island).red = s.red := rfl
@[simp] theorem State.stamped_reg (s : State) (island : Nat) : (s.stamped island).reg = s.reg := rfl
@[simp] theorem State.stamped_power (s : State) (island : Nat) : (s.stamped island).power = s.power := rfl
@[simp] theorem State.stamped_fault (s : State) (island : Nat) : (s.stamped island).fault = s.fault := rfl
@[simp] theorem State.stamped_laneOff (s : State) (island : Nat) : (s.stamped island).laneOff = s.laneOff := rfl
@[simp] theorem State.stamped_freeCtr (s : State) (island : Nat) : (s.stamped island).freeCtr = s.freeCtr := rfl
@[simp] theorem State.stamped_out (s : State) (island : Nat) : (s.stamped island).out = s.out := rfl
@[simp] theorem State.stamped_pending (s : State) (island : Nat) : (s.stamped island).pending = s.pending := rfl

/-! ### What the entry that was updated reads -/

@[simp] theorem State.box_modBox_self (s : State) (lb : Nat) (f : Lbx → Lbx) : (s.modBox lb f).box lb = f (s.box lb) :=
  tgetD_tmodD_self ..
theorem State.box_modBox_of_ne (s : State) {lb j : Nat} (f : Lbx → Lbx) (h : j ≠ lb) : (s.modBox lb f).box j = s.box j :=
  tgetD_tmodD_of_ne _ _ _ h
@[simp] theorem State.job_modJob_self (s : State) (h : Nat) (f : Job → Job) : (s.modJob h f).job h = (s.job h).map f :=
  tget_tmod_self ..
theorem State.job_modJob_of_ne (s : State) {h j : Nat} (f : Job → Job) (n : j ≠ h) : (s.modJob h f).job j = s.job j :=
  tget_tmod_of_ne _ _ n
@[simp] theorem State.ctx_modCtx_self (s : State) (c : Nat) (f : Ctx → Ctx) : (s.modCtx c f).ctx c = f (s.ctx c) :=
  tgetD_tmodD_self ..
theorem State.ctx_modCtx_of_ne (s : State) {c j : Nat} (f : Ctx → Ctx) (h : j ≠ c) : (s.modCtx c f).ctx j = s.ctx j :=
  tgetD_tmodD_of_ne _ _ _ h
@[simp] theorem State.part_modPart_self (s : State) (p : Nat) (f : Partition → Partition) :
    (s.modPart p f).part p = f (s.part p) := tgetD_tmodD_self ..
theorem State.part_modPart_of_ne (s : State) {p j : Nat} (f : Partition → Partition) (h : j ≠ p) :
    (s.modPart p f).part j = s.part j := tgetD_tmodD_of_ne _ _ _ h
@[simp] theorem State.region_modRegion_self (s : State) (r : Nat) (f : Region → Region) :
    (s.modRegion r f).region r = f (s.region r) := tgetD_tmodD_self ..
theorem State.region_modRegion_of_ne (s : State) {r j : Nat} (f : Region → Region) (h : j ≠ r) :
    (s.modRegion r f).region j = s.region j := tgetD_tmodD_of_ne _ _ _ h

@[simp] theorem State.verifyLane_laneOff (s : State) (fault : Bool) : (s.verifyLane fault).laneOff = (fault || s.laneOff) := by
  cases fault <;> rfl
@[simp] theorem State.laneFound_laneOff (s : State) : s.laneFound.laneOff = false := rfl

@[simp] theorem State.reach_live (s : State) (t : Nat) : (s.reach t).live = s.live := by
  unfold State.live; rw [State.reach_boot]
@[simp] theorem State.reach_now (s : State) (t : Nat) (h : s.live = true) : (s.reach t).now = max s.now t := by
  simp only [State.reach, h, if_true]

end Machine
end Sys2Proof
end

