-- ==== Sys2Proof/Laws/Apart.lean ====
section
/-!
SUPPORT. Laws/Apart.lean: what answers a command, posts a notice or writes a trace record leaves `State.apartCp` as it was, and
a block at rest does nothing of itself.
-/

-- One theorem after another: side by side, each holds a thread (NOTES.md).
set_option Elab.async false

namespace Sys2Proof
namespace Machine

/-- No packet waits in a letterbox (R63). -/
def State.noneWaiting (s : State) : Bool := s.sniby.boxes.all (fun e => e.2.waiting.isEmpty)

/-- `State.apart`, and with it what waits at the CP, and whether no packet waits in a letterbox. -/
def State.apartCp (s : State) : State × Bool :=
  ({ s.apart with sniby := { s.apart.sniby with atCp := s.sniby.atCp, blocked := s.sniby.blocked } }, s.noneWaiting)

theorem State.apart_of_apartCp {s t : State} (h : t.apartCp = s.apartCp) : t.apart = s.apart :=
  congrArg (fun x => { x.1 with sniby := { x.1.sniby with atCp := [], blocked := none } }) h

theorem State.atCp_of_apartCp {s t : State} (h : t.apartCp = s.apartCp) : t.sniby.atCp = s.sniby.atCp :=
  congrArg (fun x => x.1.sniby.atCp) h

theorem State.blocked_of_apartCp {s t : State} (h : t.apartCp = s.apartCp) : t.sniby.blocked = s.sniby.blocked :=
  congrArg (fun x => x.1.sniby.blocked) h

theorem State.noneWaiting_of_apartCp {s t : State} (h : t.apartCp = s.apartCp) : t.noneWaiting = s.noneWaiting :=
  congrArg (fun x => x.2) h

/-- Writing at a key what has its test makes no difference to a test of all entries, where an absent entry passes it. -/
theorem all_tput {α : Type} (q : α → Bool) (d : α) (hd : q d = true) (v : α) (k : Nat) (l : Table α)
    (hv : q v = q (tgetD l k d)) : (tput l k v).all (fun e => q e.2) = l.all (fun e => q e.2) := by
  induction l with
  | nil =>
    have hq : q v = true := hv.trans hd
    simp [tput, hq]
  | cons e l ih =>
    obtain ⟨k', v'⟩ := e
    unfold tput
    split
    · have hin : (((k', v') :: l).all (fun e => q e.2) && q v) = ((k', v') :: l).all (fun e => q e.2) := by
        cases hg : tget ((k', v') :: l) k with
        | none => rw [hv, tgetD, hg]; simp [hd]
        | some x =>
          have hm : ∀ m : Table α, tget m k = some x → (m.all (fun e => q e.2) && q x) = m.all (fun e => q e.2) := by
            intro m
            induction m with
            | nil => intro h; cases h
            | cons a m ihm =>
              obtain ⟨ka, va⟩ := a
              intro h
              unfold tget at h
              split at h
              · cases h; simp only [List.all_cons]; cases q x <;> simp
              · simp only [List.all_cons, Bool.and_assoc, ihm h]
          rw [hv, tgetD, hg]
          exact hm _ hg
      rw [List.all_cons, Bool.and_comm]
      exact hin
    · split
      · rename_i hk
        subst hk
        have : q v = q v' := by simpa [tgetD, tget] using hv
        simp only [List.all_cons, this]
      · rename_i hk
        have hv' : q v = q (tgetD l k d) := by
          rw [hv]; unfold tgetD tget; rw [if_neg (fun h => hk h.symm)]; cases l <;> rfl
        simp only [List.all_cons, ih hv']

theorem foldl_apartCp {α : Type} (f : State → α → State) (l : List α) (s : State)
    (h : ∀ s a, (f s a).apartCp = s.apartCp) : (l.foldl f s).apartCp = s.apartCp := by
  induction l generalizing s with
  | nil => rfl
  | cons a l ih => exact (ih (f s a)).trans (h s a)

@[simp] theorem State.emit_apartCp (s : State) (i : Item) : (s.emit i).apartCp = s.apartCp := rfl
theorem State.modBox_apartCp (s : State) (lb : Nat) (f : Lbx → Lbx)
    (h : ∀ b, (f b).waiting = b.waiting := by intro b; rfl) : (s.modBox lb f).apartCp = s.apartCp :=
  congrArg (Prod.mk (s.apartCp).1) (all_tput (fun b : Lbx => b.waiting.isEmpty) {} rfl _ _ _
    (congrArg List.isEmpty (h (tgetD s.sniby.boxes lb {}))))
@[simp] theorem State.draw_apartCp (s : State) (w : Nat) : (s.draw w).2.apartCp = s.apartCp := rfl
@[simp] theorem State.calls_apartCp (s : State) (n : Nat) (kv : Bool) : (s.calls n kv).apartCp = s.apartCp := rfl
@[simp] theorem State.modSession_apartCp (s : State) (f : Session → Session) : (s.modSession f).apartCp = s.apartCp := rfl
@[simp] theorem State.modBuf_apartCp (s : State) (i : Nat) (f : TraceBuf → TraceBuf) : (s.modBuf i f).apartCp = s.apartCp := rfl
@[simp] theorem State.dropRec_apartCp (s : State) (i mark : Nat) : (s.dropRec i mark).apartCp = s.apartCp := rfl

/-- Counting an event changes values of counters alone. -/
theorem State.count_apartCp (s : State) (i e : Nat) (tc : Option Nat) (n : Nat) : (s.count i e tc n).apartCp = s.apartCp := by
  have hc : tmap (s.count i e tc n).trace.counters (fun _ c => { c with value := 0 })
      = tmap s.trace.counters (fun _ c => { c with value := 0 }) := by
    unfold State.count
    split
    · unfold tmap
      rw [List.map_map]
      refine List.map_congr_left (fun c _ => ?_)
      simp only [Function.comp_apply]
      repeat' (first | rfl | split)
    · rfl
  unfold State.apartCp State.apart
  rw [hc]
  unfold State.count
  split <;> rfl

@[simp] theorem State.emitPort_apartCp (s : State) (port : Nat) (i : Item) : (s.emitPort port i).apartCp = s.apartCp := by
  rcases State.emitPort_cases s port i with h | h | ⟨x, h⟩ <;> rw [h]
  · exact State.count_apartCp ..
  · rfl

/-- A master's record is that master's. -/
theorem State.master_handle (s : State) (m tc kind target : Nat) : (s.master m tc kind target).handle = m := by
  unfold State.master
  cases h : s.reg.masters.find? (fun x => x.handle == m && x.tc == tc && x.targetKind == kind && x.target == target) with
  | none => rfl
  | some x =>
    have hx := List.find?_some h
    simp only [Bool.and_eq_true, beq_iff_eq] at hx
    exact hx.1.1.1

/-- Only the records of a handle from `n` up change, so those below are as they were. -/
theorem filter_low {l : List Master} {x : Master} {n : Nat} (h : n ≤ x.handle) (same : Master → Bool)
    (hs : ∀ y, same y = true → y.handle = x.handle) :
    (l.map (fun y => if same y then x else y)).filter (fun y => decide (y.handle < n))
      = l.filter (fun y => decide (y.handle < n)) := by
  have hx : ¬ x.handle < n := Nat.not_lt.mpr h
  induction l with
  | nil => rfl
  | cons y l ih =>
    rw [List.map_cons, List.filter_cons, List.filter_cons, ih]
    split
    · rename_i hy
      have hy : ¬ y.handle < n := by rw [hs y hy]; exact hx
      simp only [hx, hy, decide_false, Bool.false_eq_true, if_false]
    · rfl

/-- A record of an internal master of DMA lies outside `State.apartCp`. -/
theorem State.putMaster_apartCp (s : State) (x : Master) (h : 256 + 5 ≤ x.handle) : (s.putMaster x).apartCp = s.apartCp := by
  have hf : (s.putMaster x).reg.masters.filter (fun y => decide (y.handle < 256 + 5))
      = s.reg.masters.filter (fun y => decide (y.handle < 256 + 5)) := by
    unfold State.putMaster
    dsimp only
    split
    · refine filter_low h _ (fun y hy => ?_)
      simp only [Bool.and_eq_true, beq_iff_eq] at hy
      exact hy.1.1.1
    · rw [List.filter_append]
      simp only [List.filter_cons, List.filter_nil, decide_eq_true_eq, Nat.not_lt.mpr h, if_false, List.append_nil]
  unfold State.apartCp State.apart
  rw [hf]
  rfl

/-- Aethok's own DMA over a host link: rows 5 to 7 of R369. -/
theorem State.dma_apartCp (s : State) (row tc link bytes : Nat) (h : 5 ≤ row) : (s.dma row tc link bytes).apartCp = s.apartCp :=
  State.putMaster_apartCp _ _ (by rw [Master.done, State.master_handle]; omega)

@[simp] theorem State.dma5_apartCp (s : State) (tc link bytes : Nat) : (s.dma 5 tc link bytes).apartCp = s.apartCp :=
  State.dma_apartCp _ _ _ _ _ (Nat.le_refl 5)

@[simp] theorem State.limitsMet_apartCp (s : State) : s.limitsMet.apartCp = s.apartCp := by
  unfold State.limitsMet; dsimp only; split <;> rfl

@[simp] theorem State.stamped_apartCp (s : State) (island : Nat) : (s.stamped island).apartCp = s.apartCp := rfl

@[simp] theorem State.trigger_apartCp (s : State) (mark : Nat) : (s.trigger mark).apartCp = s.apartCp := by
  unfold State.trigger
  split
  · exact (State.limitsMet_apartCp _).trans rfl
  · rfl
  · rfl

@[simp] theorem State.bufferRec_apartCp (s : State) (r : TraceRec) : (s.bufferRec r).apartCp = s.apartCp := by
  unfold State.bufferRec
  repeat' first
    | with_reducible rfl
    | simp only [State.modBuf_apartCp, State.dropRec_apartCp, State.modSession_apartCp]
    | split

@[simp] theorem State.traceAt_apartCp (s : State) (mark island kind : Nat) (handle ctx : Option Nat) (payload : List (Nat × Nat)) :
    (s.traceAt mark island kind handle ctx payload).apartCp = s.apartCp := by
  unfold State.traceAt
  repeat' first
    | with_reducible rfl
    | simp only [State.limitsMet_apartCp, State.stamped_apartCp, State.bufferRec_apartCp, State.trigger_apartCp, State.modSession_apartCp]
    | split

@[simp] theorem State.traceRec_apartCp (s : State) (island kind : Nat) (handle ctx : Option Nat) (payload : List (Nat × Nat)) :
    (s.traceRec island kind handle ctx payload).apartCp = s.apartCp := State.traceAt_apartCp ..

@[simp] theorem State.raise_apartCp (s : State) (link vector : Nat) : (s.raise link vector).apartCp = s.apartCp := by
  unfold State.raise; dsimp only; split <;> rfl

@[simp] theorem State.raiseBox_apartCp (s : State) (lb : Nat) : (s.raiseBox lb).apartCp = s.apartCp := by
  unfold State.raiseBox
  repeat' first
    | with_reducible rfl
    | simp only [State.raise_apartCp]
    | split

@[simp] theorem State.writeNotice_apartCp (s : State) (lb : Nat) (dest : Option (Nat × Nat)) (n : Notice) :
    (s.writeNotice lb dest n).apartCp = s.apartCp := by
  unfold State.writeNotice
  split
  · rfl
  · simp only [State.traceAt_apartCp, State.raiseBox_apartCp, State.calls_apartCp]
    split
    · simp only [State.emitPort_apartCp, State.modBox_apartCp, implies_true]
    · rw [State.emit_apartCp]
      split
      · rw [State.dma5_apartCp]; exact State.modBox_apartCp ..
      · exact State.modBox_apartCp ..

@[simp] theorem State.deliver_apartCp (s : State) (lb : Nat) (node : Option Nat) (n : Notice) :
    (s.deliver lb node n).apartCp = s.apartCp := by
  unfold State.deliver
  repeat' first
    | with_reducible rfl
    | simp only [State.writeNotice_apartCp, State.modBox_apartCp, implies_true]
    | split

@[simp] theorem State.flushHeld_apartCp (s : State) (lb : Nat) : (s.flushHeld lb).apartCp = s.apartCp := by
  unfold State.flushHeld
  dsimp only
  split
  · exact (foldl_apartCp _ _ _ (fun _ _ => State.deliver_apartCp ..)).trans (State.modBox_apartCp ..)
  · rfl

@[simp] theorem State.eventTo_apartCp (s : State) (lb : Nat) (n : Notice) : (s.eventTo lb n).apartCp = s.apartCp := by
  unfold State.eventTo
  dsimp only
  split
  · exact State.deliver_apartCp ..
  · exact State.modBox_apartCp ..

@[simp] theorem State.noticeSeen_apartCp (s : State) (mark type : Nat) (jobs : List Nat) :
    (s.noticeSeen mark type jobs).apartCp = s.apartCp := by
  unfold State.noticeSeen
  dsimp only
  split
  · exact State.trigger_apartCp ..
  · rfl

@[simp] theorem State.postAt_apartCp (s : State) (mark type : Nat) (status : Status) (object : BitVec 64) (payload : BitVec 128)
    (jobs directed : List Nat) : (s.postAt mark type status object payload jobs directed).apartCp = s.apartCp := by
  unfold State.postAt
  split
  · dsimp only
    split
    · exact State.noticeSeen_apartCp ..
    · exact (foldl_apartCp _ _ _ (fun _ _ => State.eventTo_apartCp ..)).trans (State.noticeSeen_apartCp ..)
  · rfl

@[simp] theorem State.post_apartCp (s : State) (type : Nat) (status : Status) (object payload : List (Nat × Nat))
    (jobs : List Nat) : (s.post type status object payload jobs).apartCp = s.apartCp := State.postAt_apartCp ..

@[simp] theorem State.replied_apartCp (s : State) (c : Cmd) (st : Status) : (s.replied c st).apartCp = s.apartCp := by
  unfold State.replied
  dsimp only
  rw [State.traceRec_apartCp, State.raiseBox_apartCp]
  split
  · exact State.modBox_apartCp ..
  · rfl

@[simp] theorem State.emitReply_apartCp (s : State) (c : Cmd) (r : Reply) : (s.emitReply c r).apartCp = s.apartCp := by
  unfold State.emitReply
  split
  · exact (State.emit_apartCp ..).trans (State.dma5_apartCp ..)
  · exact State.emitPort_apartCp ..

@[simp] theorem State.unauth_apartCp (s : State) (c : Cmd) (st : Status) : (s.unauth c st).apartCp = s.apartCp :=
  (State.replied_apartCp ..).trans (State.emitReply_apartCp ..)

@[simp] theorem State.retryAfter_apartCp (s : State) (e : Nat) : (s.retryAfter e).2.apartCp = s.apartCp := rfl

@[simp] theorem State.replyWith_apartCp (s : State) (c : Cmd) (key : Key) (nonce : BitVec 64) (a : Ans) :
    (s.replyWith c key nonce a).apartCp = s.apartCp := by
  unfold State.replyWith
  dsimp only
  rw [State.replied_apartCp, State.calls_apartCp, State.emitReply_apartCp]
  split
  · exact State.retryAfter_apartCp ..
  · rfl

@[simp] theorem State.checkFailed_apartCp (s : State) (c : Cmd) (key : Key) : (s.checkFailed c key).apartCp = s.apartCp := by
  unfold State.checkFailed
  dsimp only
  split
  · rw [State.post_apartCp]; exact (State.modBox_apartCp ..).trans (State.replyWith_apartCp ..)
  · exact (State.modBox_apartCp ..).trans (State.replyWith_apartCp ..)

@[simp] theorem State.noteNode_apartCp (s : State) (c : Cmd) : (s.noteNode c).apartCp = s.apartCp := by
  unfold State.noteNode
  split
  · rfl
  · rename_i port node _
    exact (State.flushHeld_apartCp ..).trans
      (State.modBox_apartCp s c.lb (fun b => { b with lastNode := some (port, node) }))

theorem State.takeToken_apartCp {s u : State} {lb : Nat} (h : s.takeToken lb = .ok u) : u.apartCp = s.apartCp := by
  unfold State.takeToken at h
  split at h
  · cases h; rfl
  · dsimp only at h
    split at h
    · cases h
    · cases h; exact State.modBox_apartCp ..

@[simp] theorem State.announceTrigger_apartCp (s : State) : s.announceTrigger.apartCp = s.apartCp := by
  unfold State.announceTrigger
  split
  · rfl
  · exact (State.postAt_apartCp ..).trans (State.modSession_apartCp ..)

@[simp] theorem State.takeNext_apartCp (s : State) (lb : Nat) (via : Via) : (s.takeNext lb via).apartCp = s.apartCp := by
  unfold State.takeNext
  dsimp only
  split
  · rw [State.emit_apartCp, State.dma5_apartCp]; split <;> rfl
  · split <;> rfl

/-- With no place of the poste restante, the CP takes none before a command. -/
theorem State.ahead_of_no_place {s : State} (h : s.placeWaits = false) (lb : Nat) : s.ahead lb = s := by
  unfold State.ahead State.takeDue
  simp only [h, Bool.false_eq_true, false_and, if_false, ite_self]

/-! ### A block at rest -/

/-- What `State.atRest` says, but for the trigger, of a state that shares `State.apart` with one at rest. -/
theorem State.rest_of_apart {s u : State} (hr : s.atRest = true) (h : u.apart = s.apart) :
    u.mem.finished = [] ∧ (∀ e ∈ u.regions, e.2.sealOp = none) ∧ u.courier.passes = []
      ∧ (∀ e ∈ u.remote.fences, e.2.state ≠ .armed) ∧ u.mem.lostChunks = [] ∧ u.red.descs = []
      ∧ u.power.lastLimit = u.packageLimit ∧ u.power.lastScale = u.shareScale ∧ u.trace.counters = []
      ∧ u.countersOpen = !u.trace.held ∧ u.sniby.ready = [] ∧ (∀ q ∈ u.remote.reqs, q.parked = false)
      ∧ (u.quarantined = false ∨ ∀ r ∈ u.fault.runs, (r.reset && r.step == 9) = false) := by
  have hm : u.mem = s.mem := congrArg (fun x => x.mem) h
  have hg : u.regions = s.regions := congrArg (fun x => x.regions) h
  have hc : u.courier = s.courier := congrArg (fun x => x.courier) h
  have hf : u.remote = s.remote := congrArg (fun x => x.remote) h
  have hd : u.red = s.red := congrArg (fun x => x.red) h
  have hp : u.power = s.power := congrArg (fun x => x.power) h
  have ht : u.trace.counters = [] ↔ s.trace.counters = [] := by
    have := congrArg (fun x => x.trace.counters.isEmpty) h
    simp only [State.apart, tmap, List.isEmpty_map] at this
    rw [← List.isEmpty_iff, this, List.isEmpty_iff]
  have hq : u.quarantined = s.quarantined := congrArg (fun x => x.quarantined) h
  have hz : u.fault = s.fault := congrArg (fun x => x.fault) h
  have hh : u.trace.held = s.trace.held := congrArg (fun x => x.trace.held) h
  have hs : u.sniby.ready = s.sniby.ready := congrArg (fun x => x.sniby.ready) h
  have hl : u.packageLimit = s.packageLimit := congrArg (fun x => x.packageLimit) h
  have hx : u.shareScale = s.shareScale := congrArg (fun x => x.shareScale) h
  have ho : u.countersOpen = s.countersOpen := congrArg (fun x => x.countersOpen) h
  simp only [State.atRest, Bool.and_eq_true, List.isEmpty_iff, List.all_eq_true, Option.isNone_iff_eq_none, bne_iff_ne,
    beq_iff_eq, Bool.not_eq_true'] at hr
  obtain ⟨⟨⟨⟨⟨⟨⟨⟨⟨⟨⟨⟨⟨⟨⟨⟨⟨⟨⟨h1, h2⟩, h3⟩, h4⟩, h5⟩, h6⟩, h7⟩, h8⟩, h9⟩, h10⟩, -⟩, h11⟩, -⟩, -⟩, -⟩, -⟩, -⟩, h12⟩, -⟩, h13⟩ := hr
  rw [hm, hg, hc, hf, hd, hp, hh, hs, hl, hx, ho, hq, hz]
  exact ⟨h1, h2, h3, h4, h5, h6, h7, h8, ht.mpr h9, h10, h11, h12,
    by simpa only [Bool.or_eq_true, Bool.not_eq_true', List.all_eq_true] using h13⟩

/-- At rest no guarantee window of a master that is not one of DMA counts on waiting, so the marks stand. -/
theorem State.waitMarks_apart {s u : State} (hr : s.atRest = true) (h : u.apart = s.apart) : u.waitMarks.apart = u.apart := by
  have hall : ∀ x ∈ s.reg.masters, x.waitedAll = false := by
    simp only [State.atRest, Bool.and_eq_true, List.all_eq_true, Bool.not_eq_true'] at hr
    exact hr.1.2
  have hm : u.reg.masters.filter (fun x => decide (x.handle < 256 + 5)) = s.reg.masters.filter (fun x => decide (x.handle < 256 + 5)) :=
    congrArg (fun x => x.reg.masters) h
  have hw : (u.waitMarks.reg.masters).filter (fun x => decide (x.handle < 256 + 5))
      = u.reg.masters.filter (fun x => decide (x.handle < 256 + 5)) := by
    unfold State.waitMarks
    dsimp only
    rw [List.filter_map]
    have hf : ((fun x : Master => decide (x.handle < 256 + 5)) ∘ fun x => { x with waitedAll := x.waitedAll && u.masterWaits x })
        = fun x : Master => decide (x.handle < 256 + 5) := rfl
    rw [hf]
    refine (List.map_congr_left (fun x hx => ?_)).trans (List.map_id _)
    rw [hm] at hx
    rw [hall x (List.mem_filter.mp hx).1, Bool.false_and, ← hall x (List.mem_filter.mp hx).1]
    rfl
  unfold State.apart
  rw [hw]
  rfl

@[simp] theorem State.wakes_apart (s : State) : s.wakes.apart = s.apart := by
  unfold State.wakes; split <;> rfl

theorem foldl_same {α β : Type} (f : β → α → β) (l : List α) (s : β) (h : ∀ a ∈ l, f s a = s) : l.foldl f s = s := by
  induction l with
  | nil => rfl
  | cons a l ih => rw [List.foldl_cons, h a (by simp)]; exact ih (fun b hb => h b (by simp [hb]))

/-- At rest the block does nothing of itself but announce a trigger. -/
theorem State.settled_of_rest {s u : State} (hr : s.atRest = true) (h : u.apart = s.apart) :
    u.settled = if u.live then u.announceTrigger else u := by
  obtain ⟨h1, h2, h3, h4, h5, h6, h7, h8, h9, h10, -, h11, h12⟩ := State.rest_of_apart hr h
  unfold State.settled
  split
  · have e1 : State.handOverAll 256 u = u := by
      unfold State.handOverAll; simp only [h1]
    have ep : u.probesEnd = u := by
      unfold State.probesEnd
      split
      · rename_i hq
        rcases h12 with h12 | h12
        · rw [h12] at hq; cases hq
        · rw [List.filter_eq_nil_iff.mpr (fun r hr => by simp only [h12 r hr]; decide)]; rfl
      · rfl
    have e0 : u.parkedSettle = u := by
      unfold State.parkedSettle
      rw [List.filter_eq_nil_iff.mpr (fun q hq => by rw [h11 q hq]; decide)]
      rfl
    have ew : u.walksEnd = u := by unfold State.walksEnd; rw [h3]; rfl
    have e2 : u.sealsEnd = u := foldl_same _ _ _ (fun e he => by simp only [h2 e he])
    have e3 : u.passesRun = u := by unfold State.passesRun; rw [h3]; rfl
    have e4 : u.fencesSettle = u := foldl_same _ _ _ (fun e he => by simp only [h4 e he, if_false])
    have e5 : u.redSettle = u := by
      unfold State.redSettle
      simp only [h5, h6, List.foldl_nil, List.map_nil, List.eraseDups_nil]
      rw [← h5]
    have e6 : u.limitSettle = u := by unfold State.limitSettle; rw [if_pos ⟨h7, h8⟩]
    have e7 : u.cyclesSettle = u := by
      unfold State.cyclesSettle
      simp only [h9, tmap, List.map_nil]
      cases u
      simp only at h9
      rw [← h9]
    have e8 : u.countersSettle = u := by unfold State.countersSettle; rw [if_pos h10]
    rw [e1, ep, e0, e2, ew, e3, e4, e5, e6, e7, e8]
  · rfl

theorem tget_mem {α : Type} {l : Table α} {k : Nat} {x : α} (h : tget l k = some x) : (k, x) ∈ l := by
  induction l with
  | nil => cases h
  | cons a l ih =>
    obtain ⟨ka, va⟩ := a
    unfold tget at h
    split at h
    · rename_i hk; cases h; subst hk; exact List.mem_cons_self ..
    · exact List.mem_cons_of_mem _ (ih h)

/-- With no packet that waits, the CP takes none. -/
theorem State.nextAtCp_none {s : State} (ha : s.sniby.atCp = []) (hn : s.noneWaiting = true) : s.nextAtCp = none := by
  have hb : ∀ lb, (s.box lb).waiting = [] := by
    intro lb
    unfold State.box tgetD
    cases hg : tget s.sniby.boxes lb with
    | none => rfl
    | some x =>
      have := List.all_eq_true.mp hn (lb, x) (tget_mem hg)
      exact List.isEmpty_iff.mp this
  unfold State.nextAtCp
  refine List.findSome?_eq_none_iff.mpr (fun lb _ => ?_)
  unfold State.turnAt
  simp only [hb, ha, List.filter_nil, List.foldl_nil, List.find?_nil, ite_self, Option.or_none]

/-- What ends a command leaves a block at rest so, where the command holds the CP no longer, and nothing waits at it but on a CP that
is halted. -/
theorem State.ended_apart {s u : State} (hr : s.atRest = true) (h : u.apart = s.apart) (hb : u.sniby.blocked = none)
    (ha : (u.sniby.atCp = [] ∧ u.noneWaiting = true) ∨ u.boot.cpHalted = true) : u.ended.apart = s.apart := by
  have hs : u.settled.apartCp = u.apartCp := by
    rw [State.settled_of_rest hr h]
    split
    · exact State.announceTrigger_apartCp u
    · rfl
  have ht : u.settled.apart = s.apart := (State.apart_of_apartCp hs).trans h
  have hready : u.settled.sniby.ready = [] := (State.rest_of_apart hr ht).2.2.2.2.2.2.2.2.2.2.1
  have hblocked : u.settled.sniby.blocked = none := (State.blocked_of_apartCp hs).trans hb
  have hu : (if u.settled.boot.cpHalted then u.settled else u.settled.unblock handlerFor) = u.settled := by
    unfold State.unblock
    simp only [hblocked, ite_self]
  have hstart : State.startReady handlerFor u.settled.sniby.ready.length u.settled = u.settled := by rw [hready]; rfl
  have hw : State.takeWaiting handlerFor State.takeDue u.settled.waitCount u.settled = u.settled := by
    rcases ha with ⟨ha, hn⟩ | ha
    · have hn := (State.noneWaiting_of_apartCp hs).trans hn
      have hnone : u.settled.nextAtCp = none := State.nextAtCp_none ((State.atCp_of_apartCp hs).trans ha) hn
      cases u.settled.waitCount with
      | zero => rfl
      | succ n =>
        unfold State.takeWaiting
        split
        · rfl
        · simp only [hnone]
    · have hh : u.settled.boot.cpHalted = u.boot.cpHalted := congrArg (fun x => x.1.boot.cpHalted) hs
      have hc : u.settled.cpBusy = true := by unfold State.cpBusy; rw [hh, ha]; rfl
      cases u.settled.waitCount with
      | zero => rfl
      | succ n => unfold State.takeWaiting; rw [if_pos hc]
  unfold State.ended State.finish
  simp only [hblocked, Option.map_none]
  rw [hu, hstart, hw, State.waitMarks_apart hr ((State.wakes_apart _).trans ht), State.wakes_apart, ht]

end Machine
end Sys2Proof
end

