-- ==== Sys2Proof/Laws/Lasting.lean ====
section
/-!
SUPPORT. Laws/Lasting.lean: how `State.lasting` passes through record updates and folds.
-/

-- One theorem after another: side by side, each holds a thread (NOTES.md).
set_option Elab.async false

namespace Sys2Proof
namespace Machine

theorem Lasting.of_mk (now : Nat) (boot : Boot) (fuses : Fuses) (life : Life) (kv : Vault) (dg : Digest) (att : Attest)
    (sniby : Sniby) (parts : Table Partition) (jobs : Table Job) (ctxs : Table Ctx) (regions : Table Region) (mem : Mem)
    (courier : Courier) (assocs : Assocs) (env : Table EnvRing) (remote : Remote) (red : Reduction) (reg : Regulation)
    (power : Power) (fault : Faults) (trace : Trace) (laneOff : Bool) (freeCtr : Nat) (out : List Item) (pending : List Instr) :
    (State.mk now boot fuses life kv dg att sniby parts jobs ctxs regions mem courier assocs env remote red reg power
      fault trace laneOff freeCtr out pending).lasting
      = { pending := pending, fuses := fuses, powered := boot.powered, inReset := boot.inReset,
          tamperHeld := boot.tamperHeld } := rfl

theorem Lasting.eta (s : State) :
    ({ pending := s.pending, fuses := s.fuses, powered := s.boot.powered, inReset := s.boot.inReset,
       tamperHeld := s.boot.tamperHeld } : Lasting) = s.lasting := rfl

theorem lasting_ite (c : Prop) [Decidable c] (a b : State) :
    (if c then a else b).lasting = if c then a.lasting else b.lasting := by split <;> rfl

theorem snd_ite {α β : Type} (c : Prop) [Decidable c] (a b : α × β) :
    (if c then a else b).2 = if c then a.2 else b.2 := by split <;> rfl

theorem fst_ite {α β : Type} (c : Prop) [Decidable c] (a b : α × β) :
    (if c then a else b).1 = if c then a.1 else b.1 := by split <;> rfl

/-- A fold of an operation that touches nothing lasting touches nothing lasting. -/
theorem foldl_lasting {α : Type} (f : State → α → State) (l : List α) (s : State)
    (h : ∀ s a, (f s a).lasting = s.lasting) : (l.foldl f s).lasting = s.lasting := by
  induction l generalizing s with
  | nil => rfl
  | cons a l ih => exact (ih (f s a)).trans (h s a)

/-- The same for a fold that carries a value beside the state. -/
theorem foldl_fst_lasting {α β : Type} (f : State × β → α → State × β) (l : List α) (q : State × β)
    (h : ∀ q a, (f q a).1.lasting = q.1.lasting) : (l.foldl f q).1.lasting = q.1.lasting := by
  induction l generalizing q with
  | nil => rfl
  | cons a l ih => exact (ih (f q a)).trans (h q a)

theorem foldl_snd_lasting {α β : Type} (f : β × State → α → β × State) (l : List α) (q : β × State)
    (h : ∀ q a, (f q a).2.lasting = q.2.lasting) : (l.foldl f q).2.lasting = q.2.lasting := by
  induction l generalizing q with
  | nil => rfl
  | cons a l ih => exact (ih (f q a)).trans (h q a)

end Machine
end Sys2Proof
end

