-- ==== Sys2Proof/Laws/LastingOps.lean ====
section
/-!
SUPPORT. Laws/LastingOps.lean: no operation of Machine/Ops.lean touches the queue, the fuse array, power, the reset or the
TAMPER_HELD latch.
-/

-- One theorem after another: side by side, each holds a thread (NOTES.md).
set_option Elab.async false

namespace Sys2Proof
namespace Machine

set_option linter.unusedSimpArgs false

@[simp] theorem State.verifyLane_lasting (s : State) (fault : Bool) :
    (State.verifyLane s fault).lasting = s.lasting := by
  unfold State.verifyLane
  repeat' first
    | with_reducible rfl
    | simp only [foldl_lasting, foldl_fst_lasting, foldl_snd_lasting, implies_true, Lasting.of_mk, Lasting.eta, lasting_ite, snd_ite, fst_ite, ite_self]
    | (with_reducible refine (foldl_lasting _ _ _ ?_).trans ?_)
    | (with_reducible refine (foldl_fst_lasting _ _ _ ?_).trans ?_)
    | intro _
    | split

@[simp] theorem State.laneFound_lasting (s : State) :
    (State.laneFound s).lasting = s.lasting := by
  unfold State.laneFound
  repeat' first
    | with_reducible rfl
    | simp only [foldl_lasting, foldl_fst_lasting, foldl_snd_lasting, implies_true, Lasting.of_mk, Lasting.eta, lasting_ite, snd_ite, fst_ite, ite_self]
    | (with_reducible refine (foldl_lasting _ _ _ ?_).trans ?_)
    | (with_reducible refine (foldl_fst_lasting _ _ _ ?_).trans ?_)
    | intro _
    | split

@[simp] theorem State.emit_lasting (s : State) (i : Item) :
    (State.emit s i).lasting = s.lasting := by
  unfold State.emit
  repeat' first
    | with_reducible rfl
    | simp only [foldl_lasting, foldl_fst_lasting, foldl_snd_lasting, implies_true, Lasting.of_mk, Lasting.eta, lasting_ite, snd_ite, fst_ite, ite_self]
    | (with_reducible refine (foldl_lasting _ _ _ ?_).trans ?_)
    | (with_reducible refine (foldl_fst_lasting _ _ _ ?_).trans ?_)
    | intro _
    | split

@[simp] theorem State.emitMem_lasting (s : State) (stack : Nat) (i : Item) :
    (State.emitMem s stack i).lasting = s.lasting := by
  unfold State.emitMem
  repeat' first
    | with_reducible rfl
    | simp only [State.emit_lasting, foldl_lasting, foldl_fst_lasting, foldl_snd_lasting, implies_true, Lasting.of_mk, Lasting.eta, lasting_ite, snd_ite, fst_ite, ite_self]
    | (with_reducible refine (foldl_lasting _ _ _ ?_).trans ?_)
    | (with_reducible refine (foldl_fst_lasting _ _ _ ?_).trans ?_)
    | intro _
    | split

@[simp] theorem State.putMaster_lasting (s : State) (x : Master) :
    (State.putMaster s x).lasting = s.lasting := by
  unfold State.putMaster
  repeat' first
    | with_reducible rfl
    | simp only [foldl_lasting, foldl_fst_lasting, foldl_snd_lasting, implies_true, Lasting.of_mk, Lasting.eta, lasting_ite, snd_ite, fst_ite, ite_self]
    | (with_reducible refine (foldl_lasting _ _ _ ?_).trans ?_)
    | (with_reducible refine (foldl_fst_lasting _ _ _ ?_).trans ?_)
    | intro _
    | split

@[simp] theorem State.release_lasting (s : State) (m tc kind target accepted bytes : Nat) (within : Bool) :
    (State.release s m tc kind target accepted bytes within).lasting = s.lasting := by
  unfold State.release
  repeat' first
    | with_reducible rfl
    | simp only [State.putMaster_lasting, foldl_lasting, foldl_fst_lasting, foldl_snd_lasting, implies_true, Lasting.of_mk, Lasting.eta, lasting_ite, snd_ite, fst_ite, ite_self]
    | (with_reducible refine (foldl_lasting _ _ _ ?_).trans ?_)
    | (with_reducible refine (foldl_fst_lasting _ _ _ ?_).trans ?_)
    | intro _
    | split

@[simp] theorem State.dma_lasting (s : State) (row tc link bytes : Nat) :
    (State.dma s row tc link bytes).lasting = s.lasting := by
  unfold State.dma
  repeat' first
    | with_reducible rfl
    | simp only [State.putMaster_lasting, foldl_lasting, foldl_fst_lasting, foldl_snd_lasting, implies_true, Lasting.of_mk, Lasting.eta, lasting_ite, snd_ite, fst_ite, ite_self]
    | (with_reducible refine (foldl_lasting _ _ _ ?_).trans ?_)
    | (with_reducible refine (foldl_fst_lasting _ _ _ ?_).trans ?_)
    | intro _
    | split

@[simp] theorem State.modBox_lasting (s : State) (lb : Nat) (f : Lbx → Lbx) :
    (State.modBox s lb f).lasting = s.lasting := by
  unfold State.modBox
  repeat' first
    | with_reducible rfl
    | simp only [foldl_lasting, foldl_fst_lasting, foldl_snd_lasting, implies_true, Lasting.of_mk, Lasting.eta, lasting_ite, snd_ite, fst_ite, ite_self]
    | (with_reducible refine (foldl_lasting _ _ _ ?_).trans ?_)
    | (with_reducible refine (foldl_fst_lasting _ _ _ ?_).trans ?_)
    | intro _
    | split

@[simp] theorem State.modJob_lasting (s : State) (h : Nat) (f : Job → Job) :
    (State.modJob s h f).lasting = s.lasting := by
  unfold State.modJob
  repeat' first
    | with_reducible rfl
    | simp only [foldl_lasting, foldl_fst_lasting, foldl_snd_lasting, implies_true, Lasting.of_mk, Lasting.eta, lasting_ite, snd_ite, fst_ite, ite_self]
    | (with_reducible refine (foldl_lasting _ _ _ ?_).trans ?_)
    | (with_reducible refine (foldl_fst_lasting _ _ _ ?_).trans ?_)
    | intro _
    | split

@[simp] theorem State.modCtx_lasting (s : State) (c : Nat) (f : Ctx → Ctx) :
    (State.modCtx s c f).lasting = s.lasting := by
  unfold State.modCtx
  repeat' first
    | with_reducible rfl
    | simp only [foldl_lasting, foldl_fst_lasting, foldl_snd_lasting, implies_true, Lasting.of_mk, Lasting.eta, lasting_ite, snd_ite, fst_ite, ite_self]
    | (with_reducible refine (foldl_lasting _ _ _ ?_).trans ?_)
    | (with_reducible refine (foldl_fst_lasting _ _ _ ?_).trans ?_)
    | intro _
    | split

@[simp] theorem State.modPart_lasting (s : State) (p : Nat) (f : Partition → Partition) :
    (State.modPart s p f).lasting = s.lasting := by
  unfold State.modPart
  repeat' first
    | with_reducible rfl
    | simp only [foldl_lasting, foldl_fst_lasting, foldl_snd_lasting, implies_true, Lasting.of_mk, Lasting.eta, lasting_ite, snd_ite, fst_ite, ite_self]
    | (with_reducible refine (foldl_lasting _ _ _ ?_).trans ?_)
    | (with_reducible refine (foldl_fst_lasting _ _ _ ?_).trans ?_)
    | intro _
    | split

@[simp] theorem State.modRegion_lasting (s : State) (r : Nat) (f : Region → Region) :
    (State.modRegion s r f).lasting = s.lasting := by
  unfold State.modRegion
  repeat' first
    | with_reducible rfl
    | simp only [foldl_lasting, foldl_fst_lasting, foldl_snd_lasting, implies_true, Lasting.of_mk, Lasting.eta, lasting_ite, snd_ite, fst_ite, ite_self]
    | (with_reducible refine (foldl_lasting _ _ _ ?_).trans ?_)
    | (with_reducible refine (foldl_fst_lasting _ _ _ ?_).trans ?_)
    | intro _
    | split

@[simp] theorem State.draw_lasting (s : State) (w : Nat) :
    (State.draw s w).2.lasting = s.lasting := by
  unfold State.draw
  repeat' first
    | with_reducible rfl
    | simp only [foldl_lasting, foldl_fst_lasting, foldl_snd_lasting, implies_true, Lasting.of_mk, Lasting.eta, lasting_ite, snd_ite, fst_ite, ite_self]
    | (with_reducible refine (foldl_lasting _ _ _ ?_).trans ?_)
    | (with_reducible refine (foldl_fst_lasting _ _ _ ?_).trans ?_)
    | intro _
    | split

@[simp] theorem State.free_lasting (s : State) (w : Nat) :
    (State.free s w).2.lasting = s.lasting := by
  unfold State.free
  repeat' first
    | with_reducible rfl
    | simp only [foldl_lasting, foldl_fst_lasting, foldl_snd_lasting, implies_true, Lasting.of_mk, Lasting.eta, lasting_ite, snd_ite, fst_ite, ite_self]
    | (with_reducible refine (foldl_lasting _ _ _ ?_).trans ?_)
    | (with_reducible refine (foldl_fst_lasting _ _ _ ?_).trans ?_)
    | intro _
    | split

@[simp] theorem State.calls_lasting (s : State) (n : Nat) (kv : Bool) :
    (State.calls s n kv).lasting = s.lasting := by
  unfold State.calls
  repeat' first
    | with_reducible rfl
    | simp only [foldl_lasting, foldl_fst_lasting, foldl_snd_lasting, implies_true, Lasting.of_mk, Lasting.eta, lasting_ite, snd_ite, fst_ite, ite_self]
    | (with_reducible refine (foldl_lasting _ _ _ ?_).trans ?_)
    | (with_reducible refine (foldl_fst_lasting _ _ _ ?_).trans ?_)
    | intro _
    | split

@[simp] theorem State.modSession_lasting (s : State) (f : Session → Session) :
    (State.modSession s f).lasting = s.lasting := by
  unfold State.modSession
  repeat' first
    | with_reducible rfl
    | simp only [foldl_lasting, foldl_fst_lasting, foldl_snd_lasting, implies_true, Lasting.of_mk, Lasting.eta, lasting_ite, snd_ite, fst_ite, ite_self]
    | (with_reducible refine (foldl_lasting _ _ _ ?_).trans ?_)
    | (with_reducible refine (foldl_fst_lasting _ _ _ ?_).trans ?_)
    | intro _
    | split

@[simp] theorem State.modBuf_lasting (s : State) (i : Nat) (f : TraceBuf → TraceBuf) :
    (State.modBuf s i f).lasting = s.lasting := by
  unfold State.modBuf
  repeat' first
    | with_reducible rfl
    | simp only [foldl_lasting, foldl_fst_lasting, foldl_snd_lasting, implies_true, Lasting.of_mk, Lasting.eta, lasting_ite, snd_ite, fst_ite, ite_self]
    | (with_reducible refine (foldl_lasting _ _ _ ?_).trans ?_)
    | (with_reducible refine (foldl_fst_lasting _ _ _ ?_).trans ?_)
    | intro _
    | split

@[simp] theorem State.dropRec_lasting (s : State) (i mark : Nat) :
    (State.dropRec s i mark).lasting = s.lasting := by
  unfold State.dropRec
  repeat' first
    | with_reducible rfl
    | simp only [State.modBuf_lasting, State.modSession_lasting, foldl_lasting, foldl_fst_lasting, foldl_snd_lasting, implies_true, Lasting.of_mk, Lasting.eta, lasting_ite, snd_ite, fst_ite, ite_self]
    | (with_reducible refine (foldl_lasting _ _ _ ?_).trans ?_)
    | (with_reducible refine (foldl_fst_lasting _ _ _ ?_).trans ?_)
    | intro _
    | split

@[simp] theorem State.limitsMet_lasting (s : State) :
    (State.limitsMet s).lasting = s.lasting := by
  unfold State.limitsMet
  repeat' first
    | with_reducible rfl
    | simp only [State.modSession_lasting, foldl_lasting, foldl_fst_lasting, foldl_snd_lasting, implies_true, Lasting.of_mk, Lasting.eta, lasting_ite, snd_ite, fst_ite, ite_self]
    | (with_reducible refine (foldl_lasting _ _ _ ?_).trans ?_)
    | (with_reducible refine (foldl_fst_lasting _ _ _ ?_).trans ?_)
    | intro _
    | split

@[simp] theorem State.trigger_lasting (s : State) (mark : Nat) :
    (State.trigger s mark).lasting = s.lasting := by
  unfold State.trigger
  repeat' first
    | with_reducible rfl
    | simp only [State.limitsMet_lasting, State.modSession_lasting, foldl_lasting, foldl_fst_lasting, foldl_snd_lasting, implies_true, Lasting.of_mk, Lasting.eta, lasting_ite, snd_ite, fst_ite, ite_self]
    | (with_reducible refine (foldl_lasting _ _ _ ?_).trans ?_)
    | (with_reducible refine (foldl_fst_lasting _ _ _ ?_).trans ?_)
    | intro _
    | split

@[simp] theorem State.bufferRec_lasting (s : State) (r : TraceRec) :
    (State.bufferRec s r).lasting = s.lasting := by
  unfold State.bufferRec
  repeat' first
    | with_reducible rfl
    | simp only [State.dropRec_lasting, State.modBuf_lasting, State.modSession_lasting, foldl_lasting, foldl_fst_lasting, foldl_snd_lasting, implies_true, Lasting.of_mk, Lasting.eta, lasting_ite, snd_ite, fst_ite, ite_self]
    | (with_reducible refine (foldl_lasting _ _ _ ?_).trans ?_)
    | (with_reducible refine (foldl_fst_lasting _ _ _ ?_).trans ?_)
    | intro _
    | split

@[simp] theorem State.stamped_lasting (s : State) (island : Nat) :
    (State.stamped s island).lasting = s.lasting := by
  unfold State.stamped
  repeat' first
    | with_reducible rfl
    | simp only [foldl_lasting, foldl_fst_lasting, foldl_snd_lasting, implies_true, Lasting.of_mk, Lasting.eta, lasting_ite, snd_ite, fst_ite, ite_self]
    | (with_reducible refine (foldl_lasting _ _ _ ?_).trans ?_)
    | (with_reducible refine (foldl_fst_lasting _ _ _ ?_).trans ?_)
    | intro _
    | split

@[simp] theorem State.traceAt_lasting (s : State) (mark island kind : Nat) (handle ctx : Option Nat) (payload : List (Nat × Nat)) :
    (State.traceAt s mark island kind handle ctx payload).lasting = s.lasting := by
  unfold State.traceAt
  repeat' first
    | with_reducible rfl
    | simp only [State.bufferRec_lasting, State.limitsMet_lasting, State.stamped_lasting, State.trigger_lasting, foldl_lasting, foldl_fst_lasting, foldl_snd_lasting, implies_true, Lasting.of_mk, Lasting.eta, lasting_ite, snd_ite, fst_ite, ite_self]
    | (with_reducible refine (foldl_lasting _ _ _ ?_).trans ?_)
    | (with_reducible refine (foldl_fst_lasting _ _ _ ?_).trans ?_)
    | intro _
    | split

@[simp] theorem State.traceLater_lasting (s : State) (delay island kind : Nat) (handle ctx : Option Nat) (payload : List (Nat × Nat)) :
    (State.traceLater s delay island kind handle ctx payload).lasting = s.lasting := by
  unfold State.traceLater
  repeat' first
    | with_reducible rfl
    | simp only [State.traceAt_lasting, foldl_lasting, foldl_fst_lasting, foldl_snd_lasting, implies_true, Lasting.of_mk, Lasting.eta, lasting_ite, snd_ite, fst_ite, ite_self]
    | (with_reducible refine (foldl_lasting _ _ _ ?_).trans ?_)
    | (with_reducible refine (foldl_fst_lasting _ _ _ ?_).trans ?_)
    | intro _
    | split

@[simp] theorem State.traceRec_lasting (s : State) (island kind : Nat) (handle ctx : Option Nat) (payload : List (Nat × Nat)) :
    (State.traceRec s island kind handle ctx payload).lasting = s.lasting := by
  unfold State.traceRec
  repeat' first
    | with_reducible rfl
    | simp only [State.traceAt_lasting, foldl_lasting, foldl_fst_lasting, foldl_snd_lasting, implies_true, Lasting.of_mk, Lasting.eta, lasting_ite, snd_ite, fst_ite, ite_self]
    | (with_reducible refine (foldl_lasting _ _ _ ?_).trans ?_)
    | (with_reducible refine (foldl_fst_lasting _ _ _ ?_).trans ?_)
    | intro _
    | split

@[simp] theorem State.count_lasting (s : State) (island event : Nat) (tc : Option Nat) (n : Nat) :
    (State.count s island event tc n).lasting = s.lasting := by
  unfold State.count
  repeat' first
    | with_reducible rfl
    | simp only [foldl_lasting, foldl_fst_lasting, foldl_snd_lasting, implies_true, Lasting.of_mk, Lasting.eta, lasting_ite, snd_ite, fst_ite, ite_self]
    | (with_reducible refine (foldl_lasting _ _ _ ?_).trans ?_)
    | (with_reducible refine (foldl_fst_lasting _ _ _ ?_).trans ?_)
    | intro _
    | split

@[simp] theorem State.cyclesSettle_lasting (s : State) :
    (State.cyclesSettle s).lasting = s.lasting := by
  unfold State.cyclesSettle
  repeat' first
    | with_reducible rfl
    | simp only [foldl_lasting, foldl_fst_lasting, foldl_snd_lasting, implies_true, Lasting.of_mk, Lasting.eta, lasting_ite, snd_ite, fst_ite, ite_self]
    | (with_reducible refine (foldl_lasting _ _ _ ?_).trans ?_)
    | (with_reducible refine (foldl_fst_lasting _ _ _ ?_).trans ?_)
    | intro _
    | split

@[simp] theorem State.modCounters_lasting (s : State) (h : Nat) (f : JobCounters → JobCounters) :
    (State.modCounters s h f).lasting = s.lasting := by
  unfold State.modCounters
  repeat' first
    | with_reducible rfl
    | simp only [State.modJob_lasting, foldl_lasting, foldl_fst_lasting, foldl_snd_lasting, implies_true, Lasting.of_mk, Lasting.eta, lasting_ite, snd_ite, fst_ite, ite_self]
    | (with_reducible refine (foldl_lasting _ _ _ ?_).trans ?_)
    | (with_reducible refine (foldl_fst_lasting _ _ _ ?_).trans ?_)
    | intro _
    | split

@[simp] theorem State.conclude_lasting (s : State) (job : Option Nat) (m tc kind target accepted bytes : Nat) (within : Bool) :
    (State.conclude s job m tc kind target accepted bytes within).lasting = s.lasting := by
  unfold State.conclude
  repeat' first
    | with_reducible rfl
    | simp only [State.modCounters_lasting, State.release_lasting, foldl_lasting, foldl_fst_lasting, foldl_snd_lasting, implies_true, Lasting.of_mk, Lasting.eta, lasting_ite, snd_ite, fst_ite, ite_self]
    | (with_reducible refine (foldl_lasting _ _ _ ?_).trans ?_)
    | (with_reducible refine (foldl_fst_lasting _ _ _ ?_).trans ?_)
    | intro _
    | split

@[simp] theorem State.modDead_lasting (s : State) (f : DeadLetters → DeadLetters) :
    (State.modDead s f).lasting = s.lasting := by
  unfold State.modDead
  repeat' first
    | with_reducible rfl
    | simp only [foldl_lasting, foldl_fst_lasting, foldl_snd_lasting, implies_true, Lasting.of_mk, Lasting.eta, lasting_ite, snd_ite, fst_ite, ite_self]
    | (with_reducible refine (foldl_lasting _ _ _ ?_).trans ?_)
    | (with_reducible refine (foldl_fst_lasting _ _ _ ?_).trans ?_)
    | intro _
    | split

@[simp] theorem State.deadCtx_lasting (s : State) (c : Nat) :
    (State.deadCtx s c).lasting = s.lasting := by
  unfold State.deadCtx
  repeat' first
    | with_reducible rfl
    | simp only [State.modCounters_lasting, foldl_lasting, foldl_fst_lasting, foldl_snd_lasting, implies_true, Lasting.of_mk, Lasting.eta, lasting_ite, snd_ite, fst_ite, ite_self]
    | (with_reducible refine (foldl_lasting _ _ _ ?_).trans ?_)
    | (with_reducible refine (foldl_fst_lasting _ _ _ ?_).trans ?_)
    | intro _
    | split

@[simp] theorem State.packetRec_lasting (s : State) (port kind : Nat) (h : Option Nat) (epoch : Nat) (p : MsgPacket) :
    (State.packetRec s port kind h epoch p).lasting = s.lasting := by
  unfold State.packetRec
  repeat' first
    | with_reducible rfl
    | simp only [State.traceRec_lasting, foldl_lasting, foldl_fst_lasting, foldl_snd_lasting, implies_true, Lasting.of_mk, Lasting.eta, lasting_ite, snd_ite, fst_ite, ite_self]
    | (with_reducible refine (foldl_lasting _ _ _ ?_).trans ?_)
    | (with_reducible refine (foldl_fst_lasting _ _ _ ?_).trans ?_)
    | intro _
    | split

@[simp] theorem State.serveHeld_lasting (s : State) (x : Held) :
    (State.serveHeld s x).lasting = s.lasting := by
  unfold State.serveHeld
  repeat' first
    | with_reducible rfl
    | simp only [State.count_lasting, State.emit_lasting, State.packetRec_lasting, foldl_lasting, foldl_fst_lasting, foldl_snd_lasting, implies_true, Lasting.of_mk, Lasting.eta, lasting_ite, snd_ite, fst_ite, ite_self]
    | (with_reducible refine (foldl_lasting _ _ _ ?_).trans ?_)
    | (with_reducible refine (foldl_fst_lasting _ _ _ ?_).trans ?_)
    | intro _
    | split

@[simp] theorem State.emitPort_lasting (s : State) (port : Nat) (i : Item) :
    (State.emitPort s port i).lasting = s.lasting := by
  unfold State.emitPort
  repeat' first
    | with_reducible rfl
    | simp only [State.serveHeld_lasting, foldl_lasting, foldl_fst_lasting, foldl_snd_lasting, implies_true, Lasting.of_mk, Lasting.eta, lasting_ite, snd_ite, fst_ite, ite_self]
    | (with_reducible refine (foldl_lasting _ _ _ ?_).trans ?_)
    | (with_reducible refine (foldl_fst_lasting _ _ _ ?_).trans ?_)
    | intro _
    | split

@[simp] theorem State.emitPacket_lasting (s : State) (port : Nat) (h : Option Nat) (epoch : Nat) (stamp : Option Stamp) (p : MsgPacket) :
    (State.emitPacket s port h epoch stamp p).lasting = s.lasting := by
  unfold State.emitPacket
  repeat' first
    | with_reducible rfl
    | simp only [State.serveHeld_lasting, foldl_lasting, foldl_fst_lasting, foldl_snd_lasting, implies_true, Lasting.of_mk, Lasting.eta, lasting_ite, snd_ite, fst_ite, ite_self]
    | (with_reducible refine (foldl_lasting _ _ _ ?_).trans ?_)
    | (with_reducible refine (foldl_fst_lasting _ _ _ ?_).trans ?_)
    | intro _
    | split

@[simp] theorem State.raise_lasting (s : State) (link vector : Nat) :
    (State.raise s link vector).lasting = s.lasting := by
  unfold State.raise
  repeat' first
    | with_reducible rfl
    | simp only [foldl_lasting, foldl_fst_lasting, foldl_snd_lasting, implies_true, Lasting.of_mk, Lasting.eta, lasting_ite, snd_ite, fst_ite, ite_self]
    | (with_reducible refine (foldl_lasting _ _ _ ?_).trans ?_)
    | (with_reducible refine (foldl_fst_lasting _ _ _ ?_).trans ?_)
    | intro _
    | split

@[simp] theorem State.statusChanged_lasting (s : State) :
    (State.statusChanged s).lasting = s.lasting := by
  unfold State.statusChanged
  repeat' first
    | with_reducible rfl
    | simp only [State.raise_lasting, foldl_lasting, foldl_fst_lasting, foldl_snd_lasting, implies_true, Lasting.of_mk, Lasting.eta, lasting_ite, snd_ite, fst_ite, ite_self]
    | (with_reducible refine (foldl_lasting _ _ _ ?_).trans ?_)
    | (with_reducible refine (foldl_fst_lasting _ _ _ ?_).trans ?_)
    | intro _
    | split

@[simp] theorem State.setBootCode_lasting (s : State) (code : Nat) :
    (State.setBootCode s code).lasting = s.lasting := by
  unfold State.setBootCode
  repeat' first
    | with_reducible rfl
    | simp only [State.statusChanged_lasting, foldl_lasting, foldl_fst_lasting, foldl_snd_lasting, implies_true, Lasting.of_mk, Lasting.eta, lasting_ite, snd_ite, fst_ite, ite_self]
    | (with_reducible refine (foldl_lasting _ _ _ ?_).trans ?_)
    | (with_reducible refine (foldl_fst_lasting _ _ _ ?_).trans ?_)
    | intro _
    | split

@[simp] theorem State.setBlock_lasting (s : State) (b : BlockState) :
    (State.setBlock s b).lasting = s.lasting := by
  unfold State.setBlock
  repeat' first
    | with_reducible rfl
    | simp only [State.statusChanged_lasting, foldl_lasting, foldl_fst_lasting, foldl_snd_lasting, implies_true, Lasting.of_mk, Lasting.eta, lasting_ite, snd_ite, fst_ite, ite_self]
    | (with_reducible refine (foldl_lasting _ _ _ ?_).trans ?_)
    | (with_reducible refine (foldl_fst_lasting _ _ _ ?_).trans ?_)
    | intro _
    | split

@[simp] theorem State.raiseBox_lasting (s : State) (lb : Nat) :
    (State.raiseBox s lb).lasting = s.lasting := by
  unfold State.raiseBox
  repeat' first
    | with_reducible rfl
    | simp only [State.raise_lasting, foldl_lasting, foldl_fst_lasting, foldl_snd_lasting, implies_true, Lasting.of_mk, Lasting.eta, lasting_ite, snd_ite, fst_ite, ite_self]
    | (with_reducible refine (foldl_lasting _ _ _ ?_).trans ?_)
    | (with_reducible refine (foldl_fst_lasting _ _ _ ?_).trans ?_)
    | intro _
    | split

@[simp] theorem State.writeNotice_lasting (s : State) (lb : Nat) (dest : Option (Nat × Nat)) (n : Notice) :
    (State.writeNotice s lb dest n).lasting = s.lasting := by
  unfold State.writeNotice
  repeat' first
    | with_reducible rfl
    | simp only [State.calls_lasting, State.dma_lasting, State.emit_lasting, State.emitPort_lasting, State.modBox_lasting, State.raiseBox_lasting, State.traceAt_lasting, foldl_lasting, foldl_fst_lasting, foldl_snd_lasting, implies_true, Lasting.of_mk, Lasting.eta, lasting_ite, snd_ite, fst_ite, ite_self]
    | (with_reducible refine (foldl_lasting _ _ _ ?_).trans ?_)
    | (with_reducible refine (foldl_fst_lasting _ _ _ ?_).trans ?_)
    | intro _
    | split

@[simp] theorem State.deliver_lasting (s : State) (lb : Nat) (node : Option Nat) (n : Notice) :
    (State.deliver s lb node n).lasting = s.lasting := by
  unfold State.deliver
  repeat' first
    | with_reducible rfl
    | simp only [State.modBox_lasting, State.writeNotice_lasting, foldl_lasting, foldl_fst_lasting, foldl_snd_lasting, implies_true, Lasting.of_mk, Lasting.eta, lasting_ite, snd_ite, fst_ite, ite_self]
    | (with_reducible refine (foldl_lasting _ _ _ ?_).trans ?_)
    | (with_reducible refine (foldl_fst_lasting _ _ _ ?_).trans ?_)
    | intro _
    | split

@[simp] theorem State.flushHeld_lasting (s : State) (lb : Nat) :
    (State.flushHeld s lb).lasting = s.lasting := by
  unfold State.flushHeld
  repeat' first
    | with_reducible rfl
    | simp only [State.deliver_lasting, State.modBox_lasting, foldl_lasting, foldl_fst_lasting, foldl_snd_lasting, implies_true, Lasting.of_mk, Lasting.eta, lasting_ite, snd_ite, fst_ite, ite_self]
    | (with_reducible refine (foldl_lasting _ _ _ ?_).trans ?_)
    | (with_reducible refine (foldl_fst_lasting _ _ _ ?_).trans ?_)
    | intro _
    | split

@[simp] theorem State.eventTo_lasting (s : State) (lb : Nat) (n : Notice) :
    (State.eventTo s lb n).lasting = s.lasting := by
  unfold State.eventTo
  repeat' first
    | with_reducible rfl
    | simp only [State.deliver_lasting, State.modBox_lasting, foldl_lasting, foldl_fst_lasting, foldl_snd_lasting, implies_true, Lasting.of_mk, Lasting.eta, lasting_ite, snd_ite, fst_ite, ite_self]
    | (with_reducible refine (foldl_lasting _ _ _ ?_).trans ?_)
    | (with_reducible refine (foldl_fst_lasting _ _ _ ?_).trans ?_)
    | intro _
    | split

@[simp] theorem State.noticeSeen_lasting (s : State) (mark type : Nat) (jobs : List Nat) :
    (State.noticeSeen s mark type jobs).lasting = s.lasting := by
  unfold State.noticeSeen
  repeat' first
    | with_reducible rfl
    | simp only [State.trigger_lasting, foldl_lasting, foldl_fst_lasting, foldl_snd_lasting, implies_true, Lasting.of_mk, Lasting.eta, lasting_ite, snd_ite, fst_ite, ite_self]
    | (with_reducible refine (foldl_lasting _ _ _ ?_).trans ?_)
    | (with_reducible refine (foldl_fst_lasting _ _ _ ?_).trans ?_)
    | intro _
    | split

@[simp] theorem State.postAt_lasting (s : State) (mark type : Nat) (status : Status) (object : BitVec 64) (payload : BitVec 128) (jobs : List Nat) (directed : List Nat) :
    (State.postAt s mark type status object payload jobs directed).lasting = s.lasting := by
  unfold State.postAt
  repeat' first
    | with_reducible rfl
    | simp only [State.eventTo_lasting, State.noticeSeen_lasting, foldl_lasting, foldl_fst_lasting, foldl_snd_lasting, implies_true, Lasting.of_mk, Lasting.eta, lasting_ite, snd_ite, fst_ite, ite_self]
    | (with_reducible refine (foldl_lasting _ _ _ ?_).trans ?_)
    | (with_reducible refine (foldl_fst_lasting _ _ _ ?_).trans ?_)
    | intro _
    | split

@[simp] theorem State.post_lasting (s : State) (type : Nat) (status : Status) (object : List (Nat × Nat)) (payload : List (Nat × Nat)) (jobs : List Nat) :
    (State.post s type status object payload jobs).lasting = s.lasting := by
  unfold State.post
  repeat' first
    | with_reducible rfl
    | simp only [State.postAt_lasting, foldl_lasting, foldl_fst_lasting, foldl_snd_lasting, implies_true, Lasting.of_mk, Lasting.eta, lasting_ite, snd_ite, fst_ite, ite_self]
    | (with_reducible refine (foldl_lasting _ _ _ ?_).trans ?_)
    | (with_reducible refine (foldl_fst_lasting _ _ _ ?_).trans ?_)
    | intro _
    | split

@[simp] theorem State.postLimited_lasting (s : State) (units type key : Nat) (status : Status) (object : List (Nat × Nat)) (payload : List (Nat × Nat)) (jobs : List Nat) (directed : List Nat) :
    (State.postLimited s units type key status object payload jobs directed).lasting = s.lasting := by
  unfold State.postLimited
  repeat' first
    | with_reducible rfl
    | simp only [State.postAt_lasting, foldl_lasting, foldl_fst_lasting, foldl_snd_lasting, implies_true, Lasting.of_mk, Lasting.eta, lasting_ite, snd_ite, fst_ite, ite_self]
    | (with_reducible refine (foldl_lasting _ _ _ ?_).trans ?_)
    | (with_reducible refine (foldl_fst_lasting _ _ _ ?_).trans ?_)
    | intro _
    | split

@[simp] theorem State.setBound_lasting (s : State) (id : Nat) (b : Option Nat) :
    (State.setBound s id b).lasting = s.lasting := by
  unfold State.setBound
  repeat' first
    | with_reducible rfl
    | simp only [foldl_lasting, foldl_fst_lasting, foldl_snd_lasting, implies_true, Lasting.of_mk, Lasting.eta, lasting_ite, snd_ite, fst_ite, ite_self]
    | (with_reducible refine (foldl_lasting _ _ _ ?_).trans ?_)
    | (with_reducible refine (foldl_fst_lasting _ _ _ ?_).trans ?_)
    | intro _
    | split

@[simp] theorem State.complete_lasting (s : State) (id : Nat) (status : Status) (payload : List (Nat × Nat)) :
    (State.complete s id status payload).lasting = s.lasting := by
  unfold State.complete
  repeat' first
    | with_reducible rfl
    | simp only [State.deliver_lasting, State.noticeSeen_lasting, foldl_lasting, foldl_fst_lasting, foldl_snd_lasting, implies_true, Lasting.of_mk, Lasting.eta, lasting_ite, snd_ite, fst_ite, ite_self]
    | (with_reducible refine (foldl_lasting _ _ _ ?_).trans ?_)
    | (with_reducible refine (foldl_fst_lasting _ _ _ ?_).trans ?_)
    | intro _
    | split

@[simp] theorem State.completeOpt_lasting (s : State) (id : Option Nat) (status : Status) (payload : List (Nat × Nat)) :
    (State.completeOpt s id status payload).lasting = s.lasting := by
  unfold State.completeOpt
  repeat' first
    | with_reducible rfl
    | simp only [State.complete_lasting, foldl_lasting, foldl_fst_lasting, foldl_snd_lasting, implies_true, Lasting.of_mk, Lasting.eta, lasting_ite, snd_ite, fst_ite, ite_self]
    | (with_reducible refine (foldl_lasting _ _ _ ?_).trans ?_)
    | (with_reducible refine (foldl_fst_lasting _ _ _ ?_).trans ?_)
    | intro _
    | split

@[simp] theorem State.closeEnded_lasting (s : State) (c : Closable) (ok : Bool) :
    (State.closeEnded s c ok).lasting = s.lasting := by
  unfold State.closeEnded
  repeat' first
    | with_reducible rfl
    | simp only [State.complete_lasting, foldl_lasting, foldl_fst_lasting, foldl_snd_lasting, implies_true, Lasting.of_mk, Lasting.eta, lasting_ite, snd_ite, fst_ite, ite_self]
    | (with_reducible refine (foldl_lasting _ _ _ ?_).trans ?_)
    | (with_reducible refine (foldl_fst_lasting _ _ _ ?_).trans ?_)
    | intro _
    | split

@[simp] theorem State.squashHeld_lasting (s : State) (p : Closable → HeldCmd → Bool) :
    (State.squashHeld s p).lasting = s.lasting := by
  unfold State.squashHeld
  repeat' first
    | with_reducible rfl
    | simp only [State.complete_lasting, foldl_lasting, foldl_fst_lasting, foldl_snd_lasting, implies_true, Lasting.of_mk, Lasting.eta, lasting_ite, snd_ite, fst_ite, ite_self]
    | (with_reducible refine (foldl_lasting _ _ _ ?_).trans ?_)
    | (with_reducible refine (foldl_fst_lasting _ _ _ ?_).trans ?_)
    | intro _
    | split

@[simp] theorem State.ringHead_lasting (s : State) (ended : Bool) :
    (State.ringHead s ended).lasting = s.lasting := by
  unfold State.ringHead
  repeat' first
    | with_reducible rfl
    | simp only [State.dma_lasting, State.emit_lasting, foldl_lasting, foldl_fst_lasting, foldl_snd_lasting, implies_true, Lasting.of_mk, Lasting.eta, lasting_ite, snd_ite, fst_ite, ite_self]
    | (with_reducible refine (foldl_lasting _ _ _ ?_).trans ?_)
    | (with_reducible refine (foldl_fst_lasting _ _ _ ?_).trans ?_)
    | intro _
    | split

@[simp] theorem State.endSession_lasting (s : State) (status : Status) (writeHead : Bool) :
    (State.endSession s status writeHead).lasting = s.lasting := by
  unfold State.endSession
  repeat' first
    | with_reducible rfl
    | simp only [State.completeOpt_lasting, State.modSession_lasting, State.post_lasting, State.ringHead_lasting, foldl_lasting, foldl_fst_lasting, foldl_snd_lasting, implies_true, Lasting.of_mk, Lasting.eta, lasting_ite, snd_ite, fst_ite, ite_self]
    | (with_reducible refine (foldl_lasting _ _ _ ?_).trans ?_)
    | (with_reducible refine (foldl_fst_lasting _ _ _ ?_).trans ?_)
    | intro _
    | split

@[simp] theorem State.rightsEnd_lasting (s : State) (p : Permit) :
    (State.rightsEnd s p).lasting = s.lasting := by
  unfold State.rightsEnd
  repeat' first
    | with_reducible rfl
    | simp only [State.complete_lasting, State.modSession_lasting, foldl_lasting, foldl_fst_lasting, foldl_snd_lasting, implies_true, Lasting.of_mk, Lasting.eta, lasting_ite, snd_ite, fst_ite, ite_self]
    | (with_reducible refine (foldl_lasting _ _ _ ?_).trans ?_)
    | (with_reducible refine (foldl_fst_lasting _ _ _ ?_).trans ?_)
    | intro _
    | split

@[simp] theorem State.closePermit_lasting (s : State) :
    (State.closePermit s).lasting = s.lasting := by
  unfold State.closePermit
  repeat' first
    | with_reducible rfl
    | simp only [State.post_lasting, State.rightsEnd_lasting, foldl_lasting, foldl_fst_lasting, foldl_snd_lasting, implies_true, Lasting.of_mk, Lasting.eta, lasting_ite, snd_ite, fst_ite, ite_self]
    | (with_reducible refine (foldl_lasting _ _ _ ?_).trans ?_)
    | (with_reducible refine (foldl_fst_lasting _ _ _ ?_).trans ?_)
    | intro _
    | split

@[simp] theorem State.raiseFault_lasting (s : State) (island ctx type reason : Nat) (units key : Nat) (status : Status) (object payload : List (Nat × Nat)) :
    (State.raiseFault s island ctx type reason units key status object payload).lasting = s.lasting := by
  unfold State.raiseFault
  repeat' first
    | with_reducible rfl
    | simp only [State.deadCtx_lasting, State.modCounters_lasting, State.modCtx_lasting, State.modDead_lasting, State.postLimited_lasting, State.traceRec_lasting, foldl_lasting, foldl_fst_lasting, foldl_snd_lasting, implies_true, Lasting.of_mk, Lasting.eta, lasting_ite, snd_ite, fst_ite, ite_self]
    | (with_reducible refine (foldl_lasting _ _ _ ?_).trans ?_)
    | (with_reducible refine (foldl_fst_lasting _ _ _ ?_).trans ?_)
    | intro _
    | split

@[simp] theorem State.tileAnswer_lasting (s : State) (t : Nat) (ctx : Option Nat) (r : TileResponse) :
    (State.tileAnswer s t ctx r).lasting = s.lasting := by
  unfold State.tileAnswer
  repeat' first
    | with_reducible rfl
    | simp only [State.deadCtx_lasting, State.emit_lasting, State.modDead_lasting, foldl_lasting, foldl_fst_lasting, foldl_snd_lasting, implies_true, Lasting.of_mk, Lasting.eta, lasting_ite, snd_ite, fst_ite, ite_self]
    | (with_reducible refine (foldl_lasting _ _ _ ?_).trans ?_)
    | (with_reducible refine (foldl_fst_lasting _ _ _ ?_).trans ?_)
    | intro _
    | split

@[simp] theorem State.isolate_lasting (s : State) (cause : Nat) :
    (State.isolate s cause).lasting = s.lasting := by
  unfold State.isolate
  repeat' first
    | with_reducible rfl
    | simp only [State.post_lasting, foldl_lasting, foldl_fst_lasting, foldl_snd_lasting, implies_true, Lasting.of_mk, Lasting.eta, lasting_ite, snd_ite, fst_ite, ite_self]
    | (with_reducible refine (foldl_lasting _ _ _ ?_).trans ?_)
    | (with_reducible refine (foldl_fst_lasting _ _ _ ?_).trans ?_)
    | intro _
    | split

@[simp] theorem State.completeRec_lasting (s : State) (q : Req) (st : Status) :
    (State.completeRec s q st).lasting = s.lasting := by
  unfold State.completeRec
  repeat' first
    | with_reducible rfl
    | simp only [State.traceRec_lasting, foldl_lasting, foldl_fst_lasting, foldl_snd_lasting, implies_true, Lasting.of_mk, Lasting.eta, lasting_ite, snd_ite, fst_ite, ite_self]
    | (with_reducible refine (foldl_lasting _ _ _ ?_).trans ?_)
    | (with_reducible refine (foldl_fst_lasting _ _ _ ?_).trans ?_)
    | intro _
    | split

@[simp] theorem State.failAll_lasting (s : State) (st : Status) :
    (State.failAll s st).lasting = s.lasting := by
  unfold State.failAll
  repeat' first
    | with_reducible rfl
    | simp only [State.complete_lasting, State.completeRec_lasting, State.conclude_lasting, State.emit_lasting, State.tileAnswer_lasting, foldl_lasting, foldl_fst_lasting, foldl_snd_lasting, implies_true, Lasting.of_mk, Lasting.eta, lasting_ite, snd_ite, fst_ite, ite_self]
    | (with_reducible refine (foldl_lasting _ _ _ ?_).trans ?_)
    | (with_reducible refine (foldl_fst_lasting _ _ _ ?_).trans ?_)
    | intro _
    | split

@[simp] theorem State.clearJobKeys_lasting (s : State) :
    (State.clearJobKeys s).lasting = s.lasting := by
  unfold State.clearJobKeys
  repeat' first
    | with_reducible rfl
    | simp only [foldl_lasting, foldl_fst_lasting, foldl_snd_lasting, implies_true, Lasting.of_mk, Lasting.eta, lasting_ite, snd_ite, fst_ite, ite_self]
    | (with_reducible refine (foldl_lasting _ _ _ ?_).trans ?_)
    | (with_reducible refine (foldl_fst_lasting _ _ _ ?_).trans ?_)
    | intro _
    | split

@[simp] theorem State.hardFault_lasting (s : State) (cause island : Nat) :
    (State.hardFault s cause island).lasting = s.lasting := by
  unfold State.hardFault
  repeat' first
    | with_reducible rfl
    | simp only [State.clearJobKeys_lasting, State.closePermit_lasting, State.complete_lasting, State.endSession_lasting, State.failAll_lasting, State.isolate_lasting, State.post_lasting, State.setBlock_lasting, State.traceRec_lasting, foldl_lasting, foldl_fst_lasting, foldl_snd_lasting, implies_true, Lasting.of_mk, Lasting.eta, lasting_ite, snd_ite, fst_ite, ite_self]
    | (with_reducible refine (foldl_lasting _ _ _ ?_).trans ?_)
    | (with_reducible refine (foldl_fst_lasting _ _ _ ?_).trans ?_)
    | intro _
    | split

@[simp] theorem State.tamperClear_lasting (s : State) :
    (State.tamperClear s).lasting = s.lasting := by
  unfold State.tamperClear
  repeat' first
    | with_reducible rfl
    | simp only [State.clearJobKeys_lasting, State.rightsEnd_lasting, foldl_lasting, foldl_fst_lasting, foldl_snd_lasting, implies_true, Lasting.of_mk, Lasting.eta, lasting_ite, snd_ite, fst_ite, ite_self]
    | (with_reducible refine (foldl_lasting _ _ _ ?_).trans ?_)
    | (with_reducible refine (foldl_fst_lasting _ _ _ ?_).trans ?_)
    | intro _
    | split

end Machine
end Sys2Proof
end

