-- ==== Sys2Proof/Laws/LastingKeys.lean ====
section
/-!
SUPPORT. Laws/LastingKeys.lean: no operation of Machine/Keys.lean touches the queue, the fuse array, power, the reset or the
TAMPER_HELD latch.
-/

-- One theorem after another: side by side, each holds a thread (NOTES.md).
set_option Elab.async false

namespace Sys2Proof
namespace Machine

set_option linter.unusedSimpArgs false

@[simp] theorem State.derived_lasting (s : State) (calls : Nat) :
    (State.derived s calls).lasting = s.lasting := by
  unfold State.derived
  repeat' first
    | with_reducible rfl
    | simp only [State.calls_lasting, foldl_lasting, foldl_fst_lasting, foldl_snd_lasting, implies_true, Lasting.of_mk, Lasting.eta, lasting_ite, snd_ite, fst_ite, ite_self]
    | (with_reducible refine (foldl_lasting _ _ _ ?_).trans ?_)
    | (with_reducible refine (foldl_fst_lasting _ _ _ ?_).trans ?_)
    | intro _
    | split

@[simp] theorem State.keyHeldBy_lasting (s : State) (h island : Nat) :
    (State.keyHeldBy s h island).lasting = s.lasting := by
  unfold State.keyHeldBy
  repeat' first
    | with_reducible rfl
    | simp only [foldl_lasting, foldl_fst_lasting, foldl_snd_lasting, implies_true, Lasting.of_mk, Lasting.eta, lasting_ite, snd_ite, fst_ite, ite_self]
    | (with_reducible refine (foldl_lasting _ _ _ ?_).trans ?_)
    | (with_reducible refine (foldl_fst_lasting _ _ _ ?_).trans ?_)
    | intro _
    | split

@[simp] theorem State.keysReported_lasting (s : State) (h : Nat) :
    (State.keysReported s h).lasting = s.lasting := by
  unfold State.keysReported
  repeat' first
    | with_reducible rfl
    | simp only [foldl_lasting, foldl_fst_lasting, foldl_snd_lasting, implies_true, Lasting.of_mk, Lasting.eta, lasting_ite, snd_ite, fst_ite, ite_self]
    | (with_reducible refine (foldl_lasting _ _ _ ?_).trans ?_)
    | (with_reducible refine (foldl_fst_lasting _ _ _ ?_).trans ?_)
    | intro _
    | split

@[simp] theorem State.zeroiseSlot_lasting (s : State) (h : Nat) :
    (State.zeroiseSlot s h).lasting = s.lasting := by
  unfold State.zeroiseSlot
  repeat' first
    | with_reducible rfl
    | simp only [State.hardFault_lasting, foldl_lasting, foldl_fst_lasting, foldl_snd_lasting, implies_true, Lasting.of_mk, Lasting.eta, lasting_ite, snd_ite, fst_ite, ite_self]
    | (with_reducible refine (foldl_lasting _ _ _ ?_).trans ?_)
    | (with_reducible refine (foldl_fst_lasting _ _ _ ?_).trans ?_)
    | intro _
    | split

@[simp] theorem State.cacheInsert_lasting (s : State) (h index gen : Nat) (key : Key) :
    (State.cacheInsert s h index gen key).lasting = s.lasting := by
  unfold State.cacheInsert
  repeat' first
    | with_reducible rfl
    | simp only [foldl_lasting, foldl_fst_lasting, foldl_snd_lasting, implies_true, Lasting.of_mk, Lasting.eta, lasting_ite, snd_ite, fst_ite, ite_self]
    | (with_reducible refine (foldl_lasting _ _ _ ?_).trans ?_)
    | (with_reducible refine (foldl_fst_lasting _ _ _ ?_).trans ?_)
    | intro _
    | split

@[simp] theorem State.purgeIndex_lasting (s : State) (h index gen : Nat) :
    (State.purgeIndex s h index gen).lasting = s.lasting := by
  unfold State.purgeIndex
  repeat' first
    | with_reducible rfl
    | simp only [foldl_lasting, foldl_fst_lasting, foldl_snd_lasting, implies_true, Lasting.of_mk, Lasting.eta, lasting_ite, snd_ite, fst_ite, ite_self]
    | (with_reducible refine (foldl_lasting _ _ _ ?_).trans ?_)
    | (with_reducible refine (foldl_fst_lasting _ _ _ ?_).trans ?_)
    | intro _
    | split

@[simp] theorem State.purgeJob_lasting (s : State) (h : Nat) :
    (State.purgeJob s h).lasting = s.lasting := by
  unfold State.purgeJob
  repeat' first
    | with_reducible rfl
    | simp only [foldl_lasting, foldl_fst_lasting, foldl_snd_lasting, implies_true, Lasting.of_mk, Lasting.eta, lasting_ite, snd_ite, fst_ite, ite_self]
    | (with_reducible refine (foldl_lasting _ _ _ ?_).trans ?_)
    | (with_reducible refine (foldl_fst_lasting _ _ _ ?_).trans ?_)
    | intro _
    | split

@[simp] theorem State.schedule_lasting (s : State) :
    (State.schedule s).lasting = s.lasting := by
  unfold State.schedule
  repeat' first
    | with_reducible rfl
    | simp only [foldl_lasting, foldl_fst_lasting, foldl_snd_lasting, implies_true, Lasting.of_mk, Lasting.eta, lasting_ite, snd_ite, fst_ite, ite_self]
    | (with_reducible refine (foldl_lasting _ _ _ ?_).trans ?_)
    | (with_reducible refine (foldl_fst_lasting _ _ _ ?_).trans ?_)
    | intro _
    | split

@[simp] theorem State.openStream_lasting (s : State) (prio calls : Nat) (what : StreamFor) (key : Key) :
    (State.openStream s prio calls what key).lasting = s.lasting := by
  unfold State.openStream
  repeat' first
    | with_reducible rfl
    | simp only [State.calls_lasting, State.schedule_lasting, foldl_lasting, foldl_fst_lasting, foldl_snd_lasting, implies_true, Lasting.of_mk, Lasting.eta, lasting_ite, snd_ite, fst_ite, ite_self]
    | (with_reducible refine (foldl_lasting _ _ _ ?_).trans ?_)
    | (with_reducible refine (foldl_fst_lasting _ _ _ ?_).trans ?_)
    | intro _
    | split

@[simp] theorem State.keyRequest_lasting (s : State) (island h : Nat) (kind : KeyKind) :
    (State.keyRequest s island h kind).lasting = s.lasting := by
  unfold State.keyRequest
  repeat' first
    | with_reducible rfl
    | simp only [State.hardFault_lasting, State.openStream_lasting, foldl_lasting, foldl_fst_lasting, foldl_snd_lasting, implies_true, Lasting.of_mk, Lasting.eta, lasting_ite, snd_ite, fst_ite, ite_self]
    | (with_reducible refine (foldl_lasting _ _ _ ?_).trans ?_)
    | (with_reducible refine (foldl_fst_lasting _ _ _ ?_).trans ?_)
    | intro _
    | split

@[simp] theorem State.streamDone_lasting (s : State) (what : StreamFor) :
    (State.streamDone s what).lasting = s.lasting := by
  unfold State.streamDone
  repeat' first
    | with_reducible rfl
    | simp only [State.cacheInsert_lasting, State.derived_lasting, foldl_lasting, foldl_fst_lasting, foldl_snd_lasting, implies_true, Lasting.of_mk, Lasting.eta, lasting_ite, snd_ite, fst_ite, ite_self]
    | (with_reducible refine (foldl_lasting _ _ _ ?_).trans ?_)
    | (with_reducible refine (foldl_fst_lasting _ _ _ ?_).trans ?_)
    | intro _
    | split

@[simp] theorem State.compareFailure_lasting (s : State) (pair : Nat) (kat : List Bool) :
    (State.compareFailure s pair kat).lasting = s.lasting := by
  unfold State.compareFailure
  repeat' first
    | with_reducible rfl
    | simp only [State.calls_lasting, State.hardFault_lasting, State.statusChanged_lasting, foldl_lasting, foldl_fst_lasting, foldl_snd_lasting, implies_true, Lasting.of_mk, Lasting.eta, lasting_ite, snd_ite, fst_ite, ite_self]
    | (with_reducible refine (foldl_lasting _ _ _ ?_).trans ?_)
    | (with_reducible refine (foldl_fst_lasting _ _ _ ?_).trans ?_)
    | intro _
    | split

@[simp] theorem State.callFails_lasting (s : State) (pair : Nat) (kat : List Bool) :
    (State.callFails s pair kat).lasting = s.lasting := by
  unfold State.callFails
  repeat' first
    | with_reducible rfl
    | simp only [State.calls_lasting, State.compareFailure_lasting, foldl_lasting, foldl_fst_lasting, foldl_snd_lasting, implies_true, Lasting.of_mk, Lasting.eta, lasting_ite, snd_ite, fst_ite, ite_self]
    | (with_reducible refine (foldl_lasting _ _ _ ?_).trans ?_)
    | (with_reducible refine (foldl_fst_lasting _ _ _ ?_).trans ?_)
    | intro _
    | split

@[simp] theorem State.callEnd_lasting (s : State) (pair : Nat) (equal : Bool) (kat : List Bool) :
    (State.callEnd s pair equal kat).lasting = s.lasting := by
  unfold State.callEnd
  repeat' first
    | with_reducible rfl
    | simp only [State.callFails_lasting, State.calls_lasting, State.schedule_lasting, State.streamDone_lasting, foldl_lasting, foldl_fst_lasting, foldl_snd_lasting, implies_true, Lasting.of_mk, Lasting.eta, lasting_ite, snd_ite, fst_ite, ite_self]
    | (with_reducible refine (foldl_lasting _ _ _ ?_).trans ?_)
    | (with_reducible refine (foldl_fst_lasting _ _ _ ?_).trans ?_)
    | intro _
    | split

@[simp] theorem State.digestWatchdog_lasting (s : State) (pair : Nat) (kat : List Bool) :
    (State.digestWatchdog s pair kat).lasting = s.lasting := by
  unfold State.digestWatchdog
  repeat' first
    | with_reducible rfl
    | simp only [State.callFails_lasting, foldl_lasting, foldl_fst_lasting, foldl_snd_lasting, implies_true, Lasting.of_mk, Lasting.eta, lasting_ite, snd_ite, fst_ite, ite_self]
    | (with_reducible refine (foldl_lasting _ _ _ ?_).trans ?_)
    | (with_reducible refine (foldl_fst_lasting _ _ _ ?_).trans ?_)
    | intro _
    | split

@[simp] theorem State.selfTest_lasting (s : State) (kat : List Bool) :
    (State.selfTest s kat).lasting = s.lasting := by
  unfold State.selfTest
  repeat' first
    | with_reducible rfl
    | simp only [State.calls_lasting, foldl_lasting, foldl_fst_lasting, foldl_snd_lasting, implies_true, Lasting.of_mk, Lasting.eta, lasting_ite, snd_ite, fst_ite, ite_self]
    | (with_reducible refine (foldl_lasting _ _ _ ?_).trans ?_)
    | (with_reducible refine (foldl_fst_lasting _ _ _ ?_).trans ?_)
    | intro _
    | split

end Machine
end Sys2Proof
end

