-- ==== Sys2Proof/Laws/LastingLetterbox.lean ====
section
/-!
SUPPORT. Laws/LastingLetterbox.lean: no operation of Machine/Letterbox.lean touches the queue, the fuse array, power, the reset or the
TAMPER_HELD latch.
-/

-- One theorem after another: side by side, each holds a thread (NOTES.md).
set_option Elab.async false

namespace Sys2Proof
namespace Machine

set_option linter.unusedSimpArgs false

@[simp] theorem State.replied_lasting (s : State) (c : Cmd) (st : Status) :
    (State.replied s c st).lasting = s.lasting := by
  unfold State.replied
  repeat' first
    | with_reducible rfl
    | simp only [State.modBox_lasting, State.raiseBox_lasting, State.traceRec_lasting, foldl_lasting, foldl_fst_lasting, foldl_snd_lasting, implies_true, Lasting.of_mk, Lasting.eta, lasting_ite, snd_ite, fst_ite, ite_self]
    | (with_reducible refine (foldl_lasting _ _ _ ?_).trans ?_)
    | (with_reducible refine (foldl_fst_lasting _ _ _ ?_).trans ?_)
    | intro _
    | split

@[simp] theorem State.emitReply_lasting (s : State) (c : Cmd) (r : Reply) :
    (State.emitReply s c r).lasting = s.lasting := by
  unfold State.emitReply
  repeat' first
    | with_reducible rfl
    | simp only [State.dma_lasting, State.emit_lasting, State.emitPort_lasting, foldl_lasting, foldl_fst_lasting, foldl_snd_lasting, implies_true, Lasting.of_mk, Lasting.eta, lasting_ite, snd_ite, fst_ite, ite_self]
    | (with_reducible refine (foldl_lasting _ _ _ ?_).trans ?_)
    | (with_reducible refine (foldl_fst_lasting _ _ _ ?_).trans ?_)
    | intro _
    | split

@[simp] theorem State.unauth_lasting (s : State) (c : Cmd) (st : Status) :
    (State.unauth s c st).lasting = s.lasting := by
  unfold State.unauth
  repeat' first
    | with_reducible rfl
    | simp only [State.emitReply_lasting, State.replied_lasting, foldl_lasting, foldl_fst_lasting, foldl_snd_lasting, implies_true, Lasting.of_mk, Lasting.eta, lasting_ite, snd_ite, fst_ite, ite_self]
    | (with_reducible refine (foldl_lasting _ _ _ ?_).trans ?_)
    | (with_reducible refine (foldl_fst_lasting _ _ _ ?_).trans ?_)
    | intro _
    | split

@[simp] theorem State.retryAfter_lasting (s : State) (e : Nat) : (s.retryAfter e).2.lasting = s.lasting := rfl

/-- What a handler answers touches nothing lasting. -/
def Verdict.keeps (s : State) : Verdict → Prop
  | .stop _ => True
  | .reply _ t after => t.lasting = s.lasting ∧ ∀ u, (after u).lasting = u.lasting
  | .accept _ _ start spent => (spent s).lasting = s.lasting ∧ ∀ id u, (start id u).lasting = u.lasting
  | .behind _ _ => True
  | .wait t => t.lasting = s.lasting

/-- A handler touches nothing lasting. -/
def Handler.keeps (h : Handler) : Prop := ∀ s c, (h.run s c).keeps s

@[simp] theorem State.replyWith_lasting (s : State) (c : Cmd) (key : Key) (nonce : BitVec 64) (a : Ans) :
    (s.replyWith c key nonce a).lasting = s.lasting := by
  unfold State.replyWith
  by_cases h : a.status = .busy
  · simp only [h, if_true, State.replied_lasting, State.calls_lasting, State.emitReply_lasting, State.retryAfter_lasting]
  · simp only [h, if_false, State.replied_lasting, State.calls_lasting, State.emitReply_lasting]

@[simp] theorem State.checkFailed_lasting (s : State) (c : Cmd) (key : Key) :
    (State.checkFailed s c key).lasting = s.lasting := by
  unfold State.checkFailed
  repeat' first
    | with_reducible rfl
    | simp only [State.modBox_lasting, State.post_lasting, State.replyWith_lasting, foldl_lasting, foldl_fst_lasting, foldl_snd_lasting, implies_true, Lasting.of_mk, Lasting.eta, lasting_ite, snd_ite, fst_ite, ite_self]
    | (with_reducible refine (foldl_lasting _ _ _ ?_).trans ?_)
    | (with_reducible refine (foldl_fst_lasting _ _ _ ?_).trans ?_)
    | intro _
    | split

theorem State.takeToken_lasting {s t : State} {lb : Nat} (h : s.takeToken lb = .ok t) : t.lasting = s.lasting := by
  unfold State.takeToken at h
  split at h
  · cases h; rfl
  · dsimp only at h
    split at h
    · cases h
    · cases h; simp only [State.modBox_lasting]

@[simp] theorem State.newOp_lasting (s : State) (c : Cmd) (bound : Option Nat) :
    (State.newOp s c bound).2.lasting = s.lasting := by
  unfold State.newOp
  repeat' first
    | with_reducible rfl
    | simp only [foldl_lasting, foldl_fst_lasting, foldl_snd_lasting, implies_true, Lasting.of_mk, Lasting.eta, lasting_ite, snd_ite, fst_ite, ite_self]
    | (with_reducible refine (foldl_lasting _ _ _ ?_).trans ?_)
    | (with_reducible refine (foldl_fst_lasting _ _ _ ?_).trans ?_)
    | intro _
    | split

@[simp] theorem State.block_lasting (s : State) (c : Cmd) (op : Nat) (nonce : Option (BitVec 64)) :
    (State.block s c op nonce).lasting = s.lasting := by
  unfold State.block
  repeat' first
    | with_reducible rfl
    | simp only [foldl_lasting, foldl_fst_lasting, foldl_snd_lasting, implies_true, Lasting.of_mk, Lasting.eta, lasting_ite, snd_ite, fst_ite, ite_self]
    | (with_reducible refine (foldl_lasting _ _ _ ?_).trans ?_)
    | (with_reducible refine (foldl_fst_lasting _ _ _ ?_).trans ?_)
    | intro _
    | split

theorem State.decideCmd_lasting (s : State) (h : Option Handler) (c : Cmd) (key : Key) (nonce : BitVec 64)
    (hk : ∀ x, h = some x → x.keeps) : (s.decideCmd h c key nonce).lasting = s.lasting := by
  unfold State.decideCmd
  dsimp only
  split
  · exact State.replyWith_lasting ..
  · split
    · rfl
    · rename_i x _
      have hx := hk x rfl s c
      split
      · split
        · exact State.replyWith_lasting ..
        · split
          · exact State.replyWith_lasting ..
          · simp only [State.replyWith_lasting, Lasting.of_mk, State.newOp]; rfl
      · split
        · exact State.replyWith_lasting ..
        · split
          · exact State.replyWith_lasting ..
          · split
            · exact State.replyWith_lasting ..
            · simp only [State.replyWith_lasting, Lasting.of_mk, State.newOp]; rfl
        · rename_i hr
          rw [hr] at hx
          exact (State.block_lasting ..).trans hx
        · rename_i hr
          rw [hr] at hx
          obtain ⟨hx1, hx2⟩ := hx
          split
          · exact State.replyWith_lasting ..
          · rename_i ht
            have ht := State.takeToken_lasting ht
            split
            · exact State.replyWith_lasting ..
            · rw [hx2, State.replyWith_lasting, ht, hx1]
        · rename_i hr
          rw [hr] at hx
          obtain ⟨hx1, hx2⟩ := hx
          split
          · rw [State.replyWith_lasting, hx1]
          · rename_i ht
            have ht := State.takeToken_lasting ht
            split
            · rw [State.replyWith_lasting, ht, hx1]
            · split
              · rw [State.replyWith_lasting, ht, hx1]
              · rw [hx2, State.replyWith_lasting]; exact ht.trans hx1

@[simp] theorem State.keepPacket_lasting (s : State) (c : Cmd) :
    (State.keepPacket s c).lasting = s.lasting := by
  unfold State.keepPacket
  repeat' first
    | with_reducible rfl
    | simp only [State.modBox_lasting, foldl_lasting, foldl_fst_lasting, foldl_snd_lasting, implies_true, Lasting.of_mk, Lasting.eta, lasting_ite, snd_ite, fst_ite, ite_self]
    | (with_reducible refine (foldl_lasting _ _ _ ?_).trans ?_)
    | (with_reducible refine (foldl_fst_lasting _ _ _ ?_).trans ?_)
    | intro _
    | split

@[simp] theorem State.noteNode_lasting (s : State) (c : Cmd) :
    (State.noteNode s c).lasting = s.lasting := by
  unfold State.noteNode
  repeat' first
    | with_reducible rfl
    | simp only [State.flushHeld_lasting, State.modBox_lasting, foldl_lasting, foldl_fst_lasting, foldl_snd_lasting, implies_true, Lasting.of_mk, Lasting.eta, lasting_ite, snd_ite, fst_ite, ite_self]
    | (with_reducible refine (foldl_lasting _ _ _ ?_).trans ?_)
    | (with_reducible refine (foldl_fst_lasting _ _ _ ?_).trans ?_)
    | intro _
    | split

theorem State.taken_lasting (s : State) (h : Option Handler) (c : Cmd) (key : Key) (nonce : BitVec 64)
    (hk : ∀ x, h = some x → x.keeps) : (s.taken h c key nonce).lasting = s.lasting := by
  unfold State.taken
  split
  · rw [State.replyWith_lasting]; rfl
  · exact State.decideCmd_lasting _ _ _ _ _ hk

theorem State.verified_lasting (s : State) (h : Option Handler) (c : Cmd) (key : Key)
    (hk : ∀ x, h = some x → x.keeps) : (s.verified h c key).lasting = s.lasting := by
  unfold State.verified
  dsimp only
  repeat' split
  all_goals simp only [State.taken_lasting _ _ _ _ _ hk, State.replyWith_lasting, State.keepPacket_lasting,
    State.modBox_lasting, State.noteNode_lasting]

@[simp] theorem State.answerKept_lasting (s : State) (c : Cmd) (a : Ans) :
    (State.answerKept s c a).lasting = s.lasting := by
  unfold State.answerKept
  repeat' first
    | with_reducible rfl
    | simp only [State.replyWith_lasting, State.unauth_lasting, foldl_lasting, foldl_fst_lasting, foldl_snd_lasting, implies_true, Lasting.of_mk, Lasting.eta, lasting_ite, snd_ite, fst_ite, ite_self]
    | (with_reducible refine (foldl_lasting _ _ _ ?_).trans ?_)
    | (with_reducible refine (foldl_fst_lasting _ _ _ ?_).trans ?_)
    | intro _
    | split

@[simp] theorem State.answerWaiting_lasting (s : State) :
    (State.answerWaiting s).lasting = s.lasting := by
  unfold State.answerWaiting
  repeat' first
    | with_reducible rfl
    | simp only [State.modBox_lasting, State.unauth_lasting, foldl_lasting, foldl_fst_lasting, foldl_snd_lasting, implies_true, Lasting.of_mk, Lasting.eta, lasting_ite, snd_ite, fst_ite, ite_self]
    | (with_reducible refine (foldl_lasting _ _ _ ?_).trans ?_)
    | (with_reducible refine (foldl_fst_lasting _ _ _ ?_).trans ?_)
    | intro _
    | split

theorem State.serve_lasting (s : State) (h : Option Handler) (c : Cmd)
    (hk : ∀ x, h = some x → x.keeps) : (s.serve h c).lasting = s.lasting := by
  unfold State.serve
  dsimp only
  repeat' split
  all_goals simp only [State.verified_lasting _ _ _ _ hk, State.unauth_lasting, State.checkFailed_lasting,
    State.calls_lasting, State.answerKept_lasting, State.compareFailure_lasting]

@[simp] theorem State.takeNext_lasting (s : State) (lb : Nat) (via : Via) :
    (State.takeNext s lb via).lasting = s.lasting := by
  unfold State.takeNext
  repeat' first
    | with_reducible rfl
    | simp only [State.dma_lasting, State.emit_lasting, foldl_lasting, foldl_fst_lasting, foldl_snd_lasting, implies_true, Lasting.of_mk, Lasting.eta, lasting_ite, snd_ite, fst_ite, ite_self]
    | (with_reducible refine (foldl_lasting _ _ _ ?_).trans ?_)
    | (with_reducible refine (foldl_fst_lasting _ _ _ ?_).trans ?_)
    | intro _
    | split

@[simp] theorem State.waitAtCp_lasting (s : State) (c : Cmd) :
    (State.waitAtCp s c).lasting = s.lasting := by
  unfold State.waitAtCp
  repeat' first
    | with_reducible rfl
    | simp only [foldl_lasting, foldl_fst_lasting, foldl_snd_lasting, implies_true, Lasting.of_mk, Lasting.eta, lasting_ite, snd_ite, fst_ite, ite_self]
    | (with_reducible refine (foldl_lasting _ _ _ ?_).trans ?_)
    | (with_reducible refine (foldl_fst_lasting _ _ _ ?_).trans ?_)
    | intro _
    | split

@[simp] theorem State.waitPacket_lasting (s : State) (c : Cmd) :
    (State.waitPacket s c).lasting = s.lasting := by
  unfold State.waitPacket
  repeat' first
    | with_reducible rfl
    | simp only [State.answerKept_lasting, State.waitAtCp_lasting, foldl_lasting, foldl_fst_lasting, foldl_snd_lasting, implies_true, Lasting.of_mk, Lasting.eta, lasting_ite, snd_ite, fst_ite, ite_self]
    | (with_reducible refine (foldl_lasting _ _ _ ?_).trans ?_)
    | (with_reducible refine (foldl_fst_lasting _ _ _ ?_).trans ?_)
    | intro _
    | split

theorem State.arrive_lasting (table : Nat → Option Handler) (op lb : Nat) (via : Via) (p : Packet) (s : State)
    (hk : ∀ op x, table op = some x → x.keeps) : (State.arrive table op lb via p s).lasting = s.lasting := by
  unfold State.arrive
  dsimp only
  repeat' split
  all_goals first
    | rfl
    | simp only [State.serve_lasting _ _ _ (hk _), State.modDead_lasting,
        State.keepPacket_lasting, State.answerKept_lasting, State.waitAtCp_lasting, State.waitPacket_lasting,
        State.takeNext_lasting]

theorem State.startHeld_lasting (s : State) (h : Option Handler) (k : HeldCmd) (recheck : Bool)
    (hk : ∀ x, h = some x → x.keeps) : (s.startHeld h k recheck).lasting = s.lasting := by
  unfold State.startHeld
  dsimp only
  split
  · rfl
  split
  · exact State.complete_lasting ..
  · rename_i x
    have hx := hk x rfl s k.cmd
    split
    · exact State.complete_lasting ..
    · split
      · exact State.complete_lasting ..
      · split
        · exact State.complete_lasting ..
        · rfl
      · rename_i hr
        rw [hr] at hx
        exact (State.block_lasting ..).trans hx
      · rename_i hr
        rw [hr] at hx
        obtain ⟨hx1, hx2⟩ := hx
        split
        · exact State.complete_lasting ..
        · rename_i ht
          rw [hx2, State.complete_lasting, State.takeToken_lasting ht, hx1]
      · rename_i hr
        rw [hr] at hx
        obtain ⟨hx1, hx2⟩ := hx
        split
        · rw [State.complete_lasting, hx1]
        · rename_i ht
          rw [hx2, State.setBound_lasting, State.takeToken_lasting ht, hx1]

theorem State.startReady_lasting (table : Nat → Option Handler) (n : Nat) (s : State)
    (hk : ∀ op x, table op = some x → x.keeps) : (State.startReady table n s).lasting = s.lasting := by
  induction n generalizing s with
  | zero => rfl
  | succ n ih =>
    unfold State.startReady
    split
    · rfl
    · rfl
    · rw [ih, State.startHeld_lasting _ _ _ _ (hk _)]; rfl

@[simp] theorem State.unqueue_lasting (s : State) (k : HeldCmd) :
    (State.unqueue s k).lasting = s.lasting := by
  unfold State.unqueue
  repeat' first
    | with_reducible rfl
    | simp only [foldl_lasting, foldl_fst_lasting, foldl_snd_lasting, implies_true, Lasting.of_mk, Lasting.eta, lasting_ite, snd_ite, fst_ite, ite_self]
    | (with_reducible refine (foldl_lasting _ _ _ ?_).trans ?_)
    | (with_reducible refine (foldl_fst_lasting _ _ _ ?_).trans ?_)
    | intro _
    | split

theorem State.takeWaiting_lasting (table : Nat → Option Handler) (due : State → State) (n : Nat) (s : State)
    (hk : ∀ op x, table op = some x → x.keeps) (hd : ∀ u, (due u).lasting = u.lasting) :
    (State.takeWaiting table due n s).lasting = s.lasting := by
  induction n generalizing s with
  | zero => rfl
  | succ n ih =>
    unfold State.takeWaiting
    dsimp only
    split
    · rfl
    · split
      · rfl
      · rename_i k _
        have hdue : (if k.lb = 1 then s else due s).lasting = s.lasting := by
          split
          · rfl
          · exact hd s
        generalize (if k.lb = 1 then s else due s) = u at hdue ⊢
        split
        · exact hdue
        · rw [ih, State.arrive_lasting _ _ _ _ _ _ hk, State.unqueue_lasting, hdue]

theorem State.unblock_lasting (table : Nat → Option Handler) (s : State)
    (hk : ∀ op x, table op = some x → x.keeps) : (State.unblock table s).lasting = s.lasting := by
  unfold State.unblock
  dsimp only
  split
  · rfl
  · split
    all_goals
      rw [lasting_ite]
      simp only [Lasting.of_mk, Lasting.eta, ite_self]
      first
        | (rw [State.answerKept_lasting]; rfl)
        | (split
           · first
               | (rw [State.startHeld_lasting _ _ _ _ (hk _)]; rfl)
               | (rw [State.answerKept_lasting]; rfl)
           · first
               | rfl
               | (rw [State.decideCmd_lasting _ _ _ _ _ (hk _)]; rfl))

@[simp] theorem State.idleAfter_lasting (s : State) (lb : Nat) :
    (State.idleAfter s lb).lasting = s.lasting := by
  unfold State.idleAfter
  repeat' first
    | with_reducible rfl
    | simp only [State.modBox_lasting, foldl_lasting, foldl_fst_lasting, foldl_snd_lasting, implies_true, Lasting.of_mk, Lasting.eta, lasting_ite, snd_ite, fst_ite, ite_self]
    | (with_reducible refine (foldl_lasting _ _ _ ?_).trans ?_)
    | (with_reducible refine (foldl_fst_lasting _ _ _ ?_).trans ?_)
    | intro _
    | split

theorem State.finish_lasting (table : Nat → Option Handler) (due : State → State) (s : State)
    (hk : ∀ op x, table op = some x → x.keeps) (hd : ∀ u, (due u).lasting = u.lasting) :
    (State.finish table due s).lasting = s.lasting := by
  unfold State.finish
  dsimp only
  rw [State.takeWaiting_lasting _ _ _ _ hk hd, State.startReady_lasting _ _ _ hk]
  split
  · rw [State.idleAfter_lasting]
    split
    · rfl
    · exact State.unblock_lasting _ _ hk
  · split
    · rfl
    · exact State.unblock_lasting _ _ hk

end Machine
end Sys2Proof
end

