-- ==== Sys2Proof/Laws/LastingLifeCycle.lean ====
section
/-!
SUPPORT. Laws/LastingLifeCycle.lean: no operation of Machine/LifeCycle.lean touches the queue, the fuse array, power, the reset or the
TAMPER_HELD latch.
-/

-- One theorem after another: side by side, each holds a thread (NOTES.md).
set_option Elab.async false

namespace Sys2Proof
namespace Machine

set_option linter.unusedSimpArgs false

@[simp] theorem State.endTransition_lasting (s : State) (t : Transition) (st : Status) :
    (State.endTransition s t st).lasting = s.lasting := by
  unfold State.endTransition
  repeat' first
    | with_reducible rfl
    | simp only [State.completeOpt_lasting, foldl_lasting, foldl_fst_lasting, foldl_snd_lasting, implies_true, Lasting.of_mk, Lasting.eta, lasting_ite, snd_ite, fst_ite, ite_self]
    | (with_reducible refine (foldl_lasting _ _ _ ?_).trans ?_)
    | (with_reducible refine (foldl_fst_lasting _ _ _ ?_).trans ?_)
    | intro _
    | split

@[simp] theorem State.nextSlot_lasting (s : State) :
    (State.nextSlot s).lasting = s.lasting := by
  unfold State.nextSlot
  repeat' first
    | with_reducible rfl
    | simp only [State.endTransition_lasting, foldl_lasting, foldl_fst_lasting, foldl_snd_lasting, implies_true, Lasting.of_mk, Lasting.eta, lasting_ite, snd_ite, fst_ite, ite_self]
    | (with_reducible refine (foldl_lasting _ _ _ ?_).trans ?_)
    | (with_reducible refine (foldl_fst_lasting _ _ _ ?_).trans ?_)
    | intro _
    | split

@[simp] theorem State.seedDrbg_lasting (s : State) (root : Option Key) :
    (State.seedDrbg s root).lasting = s.lasting := by
  unfold State.seedDrbg
  repeat' first
    | with_reducible rfl
    | simp only [State.calls_lasting, foldl_lasting, foldl_fst_lasting, foldl_snd_lasting, implies_true, Lasting.of_mk, Lasting.eta, lasting_ite, snd_ite, fst_ite, ite_self]
    | (with_reducible refine (foldl_lasting _ _ _ ?_).trans ?_)
    | (with_reducible refine (foldl_fst_lasting _ _ _ ?_).trans ?_)
    | intro _
    | split

@[simp] theorem State.fillDeviceSlots_lasting (s : State) (es : Key) :
    (State.fillDeviceSlots s es).lasting = s.lasting := by
  unfold State.fillDeviceSlots
  repeat' first
    | with_reducible rfl
    | simp only [State.calls_lasting, foldl_lasting, foldl_fst_lasting, foldl_snd_lasting, implies_true, Lasting.of_mk, Lasting.eta, lasting_ite, snd_ite, fst_ite, ite_self]
    | (with_reducible refine (foldl_lasting _ _ _ ?_).trans ?_)
    | (with_reducible refine (foldl_fst_lasting _ _ _ ?_).trans ?_)
    | intro _
    | split

@[simp] theorem State.readSecrets_lasting (s : State) :
    (State.readSecrets s).lasting = s.lasting := by
  unfold State.readSecrets
  repeat' first
    | with_reducible rfl
    | simp only [State.calls_lasting, State.fillDeviceSlots_lasting, State.hardFault_lasting, State.seedDrbg_lasting, foldl_lasting, foldl_fst_lasting, foldl_snd_lasting, implies_true, Lasting.of_mk, Lasting.eta, lasting_ite, snd_ite, fst_ite, ite_self]
    | (with_reducible refine (foldl_lasting _ _ _ ?_).trans ?_)
    | (with_reducible refine (foldl_fst_lasting _ _ _ ?_).trans ?_)
    | intro _
    | split

@[simp] theorem State.beginTransition_lasting (s : State) (t : Transition) (step id : Nat) :
    (State.beginTransition s t step id).lasting = s.lasting := by
  unfold State.beginTransition
  repeat' first
    | with_reducible rfl
    | simp only [foldl_lasting, foldl_fst_lasting, foldl_snd_lasting, implies_true, Lasting.of_mk, Lasting.eta, lasting_ite, snd_ite, fst_ite, ite_self]
    | (with_reducible refine (foldl_lasting _ _ _ ?_).trans ?_)
    | (with_reducible refine (foldl_fst_lasting _ _ _ ?_).trans ?_)
    | intro _
    | split

end Machine
end Sys2Proof
end

