-- ==== Sys2Proof/Laws/LastingGeneral.lean ====
section
/-!
SUPPORT. Laws/LastingGeneral.lean: no operation of Machine/General.lean touches the queue, the fuse array, power, the reset or the
TAMPER_HELD latch.
-/

-- One theorem after another: side by side, each holds a thread (NOTES.md).
set_option Elab.async false

namespace Sys2Proof
namespace Machine

set_option linter.unusedSimpArgs false

@[simp] theorem State.moveRoot_lasting (s : State) (link : Nat) :
    (State.moveRoot s link).lasting = s.lasting := by
  unfold State.moveRoot
  repeat' first
    | with_reducible rfl
    | simp only [State.modBox_lasting, foldl_lasting, foldl_fst_lasting, foldl_snd_lasting, implies_true, Lasting.of_mk, Lasting.eta, lasting_ite, snd_ite, fst_ite, ite_self]
    | (with_reducible refine (foldl_lasting _ _ _ ?_).trans ?_)
    | (with_reducible refine (foldl_fst_lasting _ _ _ ?_).trans ?_)
    | intro _
    | split

@[simp] theorem State.lbxControl_lasting (s : State) (link lb v : Nat) :
    (State.lbxControl s link lb v).lasting = s.lasting := by
  unfold State.lbxControl
  repeat' first
    | with_reducible rfl
    | simp only [State.flushHeld_lasting, State.idleAfter_lasting, State.modBox_lasting, foldl_lasting, foldl_fst_lasting, foldl_snd_lasting, implies_true, Lasting.of_mk, Lasting.eta, lasting_ite, snd_ite, fst_ite, ite_self]
    | (with_reducible refine (foldl_lasting _ _ _ ?_).trans ?_)
    | (with_reducible refine (foldl_fst_lasting _ _ _ ?_).trans ?_)
    | intro _
    | split

@[simp] theorem State.deadDoorbell_lasting (s : State) :
    (State.deadDoorbell s).lasting = s.lasting := by
  unfold State.deadDoorbell
  repeat' first
    | with_reducible rfl
    | simp only [State.modDead_lasting, foldl_lasting, foldl_fst_lasting, foldl_snd_lasting, implies_true, Lasting.of_mk, Lasting.eta, lasting_ite, snd_ite, fst_ite, ite_self]
    | (with_reducible refine (foldl_lasting _ _ _ ?_).trans ?_)
    | (with_reducible refine (foldl_fst_lasting _ _ _ ?_).trans ?_)
    | intro _
    | split

@[simp] theorem State.lbxDoorbell_lasting (s : State) (link lb v : Nat) :
    (State.lbxDoorbell s link lb v).lasting = s.lasting := by
  unfold State.lbxDoorbell
  repeat' first
    | with_reducible rfl
    | simp only [State.count_lasting, State.deadDoorbell_lasting, State.modBox_lasting, foldl_lasting, foldl_fst_lasting, foldl_snd_lasting, implies_true, Lasting.of_mk, Lasting.eta, lasting_ite, snd_ite, fst_ite, ite_self]
    | (with_reducible refine (foldl_lasting _ _ _ ?_).trans ?_)
    | (with_reducible refine (foldl_fst_lasting _ _ _ ?_).trans ?_)
    | intro _
    | split

@[simp] theorem State.lbxRegister_lasting (s : State) (link lb off v : Nat) :
    (State.lbxRegister s link lb off v).lasting = s.lasting := by
  unfold State.lbxRegister
  repeat' first
    | with_reducible rfl
    | simp only [State.lbxControl_lasting, State.lbxDoorbell_lasting, State.modBox_lasting, foldl_lasting, foldl_fst_lasting, foldl_snd_lasting, implies_true, Lasting.of_mk, Lasting.eta, lasting_ite, snd_ite, fst_ite, ite_self]
    | (with_reducible refine (foldl_lasting _ _ _ ?_).trans ?_)
    | (with_reducible refine (foldl_fst_lasting _ _ _ ?_).trans ?_)
    | intro _
    | split

@[simp] theorem State.throttleEnd_lasting (s : State) (lb : Nat) :
    (State.throttleEnd s lb).lasting = s.lasting := by
  unfold State.throttleEnd
  repeat' first
    | with_reducible rfl
    | simp only [State.modBox_lasting, foldl_lasting, foldl_fst_lasting, foldl_snd_lasting, implies_true, Lasting.of_mk, Lasting.eta, lasting_ite, snd_ite, fst_ite, ite_self]
    | (with_reducible refine (foldl_lasting _ _ _ ?_).trans ?_)
    | (with_reducible refine (foldl_fst_lasting _ _ _ ?_).trans ?_)
    | intro _
    | split

@[simp] theorem State.gapTimeout_lasting (s : State) (lb : Nat) (q : BitVec 32) :
    (State.gapTimeout s lb q).lasting = s.lasting := by
  unfold State.gapTimeout
  repeat' first
    | with_reducible rfl
    | simp only [State.answerKept_lasting, State.modBox_lasting, foldl_lasting, foldl_fst_lasting, foldl_snd_lasting, implies_true, Lasting.of_mk, Lasting.eta, lasting_ite, snd_ite, fst_ite, ite_self]
    | (with_reducible refine (foldl_lasting _ _ _ ?_).trans ?_)
    | (with_reducible refine (foldl_fst_lasting _ _ _ ?_).trans ?_)
    | intro _
    | split

@[simp] theorem State.linkAck_lasting (s : State) (lb seq : Nat) :
    (State.linkAck s lb seq).lasting = s.lasting := by
  unfold State.linkAck
  repeat' first
    | with_reducible rfl
    | simp only [State.modBox_lasting, foldl_lasting, foldl_fst_lasting, foldl_snd_lasting, implies_true, Lasting.of_mk, Lasting.eta, lasting_ite, snd_ite, fst_ite, ite_self]
    | (with_reducible refine (foldl_lasting _ _ _ ?_).trans ?_)
    | (with_reducible refine (foldl_fst_lasting _ _ _ ?_).trans ?_)
    | intro _
    | split

@[simp] theorem State.quietEnd_lasting (s : State) (link vector : Nat) :
    (State.quietEnd s link vector).lasting = s.lasting := by
  unfold State.quietEnd
  repeat' first
    | with_reducible rfl
    | simp only [State.raise_lasting, foldl_lasting, foldl_fst_lasting, foldl_snd_lasting, implies_true, Lasting.of_mk, Lasting.eta, lasting_ite, snd_ite, fst_ite, ite_self]
    | (with_reducible refine (foldl_lasting _ _ _ ?_).trans ?_)
    | (with_reducible refine (foldl_fst_lasting _ _ _ ?_).trans ?_)
    | intro _
    | split

end Machine
end Sys2Proof
end

