-- ==== Sys2Proof/Laws/LastingAttest.lean ====
section
/-!
SUPPORT. Laws/LastingAttest.lean: no operation of Machine/Attest.lean touches the queue, the fuse array, power, the reset or the
TAMPER_HELD latch.
-/

-- One theorem after another: side by side, each holds a thread (NOTES.md).
set_option Elab.async false

namespace Sys2Proof
namespace Machine

set_option linter.unusedSimpArgs false

@[simp] theorem State.extend_lasting (s : State) (code : Nat) (digest : Key) :
    (State.extend s code digest).lasting = s.lasting := by
  unfold State.extend
  repeat' first
    | with_reducible rfl
    | simp only [State.calls_lasting, foldl_lasting, foldl_fst_lasting, foldl_snd_lasting, implies_true, Lasting.of_mk, Lasting.eta, lasting_ite, snd_ite, fst_ite, ite_self]
    | (with_reducible refine (foldl_lasting _ _ _ ?_).trans ?_)
    | (with_reducible refine (foldl_fst_lasting _ _ _ ?_).trans ?_)
    | intro _
    | split

@[simp] theorem State.issueNonce_lasting (s : State) (purpose : Nat) :
    (State.issueNonce s purpose).2.lasting = s.lasting := by
  unfold State.issueNonce
  repeat' first
    | with_reducible rfl
    | simp only [State.draw_lasting, foldl_lasting, foldl_fst_lasting, foldl_snd_lasting, implies_true, Lasting.of_mk, Lasting.eta, lasting_ite, snd_ite, fst_ite, ite_self]
    | (with_reducible refine (foldl_lasting _ _ _ ?_).trans ?_)
    | (with_reducible refine (foldl_fst_lasting _ _ _ ?_).trans ?_)
    | intro _
    | split

@[simp] theorem State.takeNonce_lasting (s : State) (v : BitVec 128) (purpose : Nat) :
    (State.takeNonce s v purpose).2.lasting = s.lasting := by
  unfold State.takeNonce
  repeat' first
    | with_reducible rfl
    | simp only [foldl_lasting, foldl_fst_lasting, foldl_snd_lasting, implies_true, Lasting.of_mk, Lasting.eta, lasting_ite, snd_ite, fst_ite, ite_self]
    | (with_reducible refine (foldl_lasting _ _ _ ?_).trans ?_)
    | (with_reducible refine (foldl_fst_lasting _ _ _ ?_).trans ?_)
    | intro _
    | split

@[simp] theorem State.openToken_lasting (s : State) (t : Bytes) (manifest : Key) :
    (State.openToken s t manifest).2.lasting = s.lasting := by
  have h := State.takeNonce_lasting s (BitVec.ofNat 128 (field t 24 16)) 1
  unfold State.openToken
  simp only [State.takeNonce_lasting, State.calls_lasting, Lasting.of_mk, Lasting.eta, lasting_ite, snd_ite, ite_self]
  generalize s.takeNonce (BitVec.ofNat 128 (field t 24 16)) 1 = q at *
  cases q.2.kv.transport <;> simp only [h, State.calls_lasting, lasting_ite, snd_ite, ite_self]

@[simp] theorem State.expirePermit_lasting (s : State) :
    (State.expirePermit s).lasting = s.lasting := by
  unfold State.expirePermit
  repeat' first
    | with_reducible rfl
    | simp only [State.closePermit_lasting, foldl_lasting, foldl_fst_lasting, foldl_snd_lasting, implies_true, Lasting.of_mk, Lasting.eta, lasting_ite, snd_ite, fst_ite, ite_self]
    | (with_reducible refine (foldl_lasting _ _ _ ?_).trans ?_)
    | (with_reducible refine (foldl_fst_lasting _ _ _ ?_).trans ?_)
    | intro _
    | split

@[simp] theorem State.presentPermit_lasting (s : State) (b : Bytes) :
    (State.presentPermit s b).2.lasting = s.lasting := by
  unfold State.presentPermit
  repeat' first
    | with_reducible rfl
    | simp only [State.calls_lasting, State.expirePermit_lasting, State.extend_lasting, State.takeNonce_lasting, foldl_lasting, foldl_fst_lasting, foldl_snd_lasting, implies_true, Lasting.of_mk, Lasting.eta, lasting_ite, snd_ite, fst_ite, ite_self]
    | (with_reducible refine (foldl_lasting _ _ _ ?_).trans ?_)
    | (with_reducible refine (foldl_fst_lasting _ _ _ ?_).trans ?_)
    | intro _
    | split

end Machine
end Sys2Proof
end

