-- ==== Sys2Proof/Laws/LastingKeyTable.lean ====
section
/-!
SUPPORT. Laws/LastingKeyTable.lean: no operation of Machine/KeyTable.lean touches the queue, the fuse array, power, the reset or the
TAMPER_HELD latch.
-/

-- One theorem after another: side by side, each holds a thread (NOTES.md).
set_option Elab.async false

namespace Sys2Proof
namespace Machine

set_option linter.unusedSimpArgs false

@[simp] theorem State.metaRefused_lasting (s : State) (h : Nat) :
    (State.metaRefused s h).lasting = s.lasting := by
  unfold State.metaRefused
  repeat' first
    | with_reducible rfl
    | simp only [State.hardFault_lasting, foldl_lasting, foldl_fst_lasting, foldl_snd_lasting, implies_true, Lasting.of_mk, Lasting.eta, lasting_ite, snd_ite, fst_ite, ite_self]
    | (with_reducible refine (foldl_lasting _ _ _ ?_).trans ?_)
    | (with_reducible refine (foldl_fst_lasting _ _ _ ?_).trans ?_)
    | intro _
    | split

@[simp] theorem State.setEntry_lasting (s : State) (h i : Nat) (e : KeyEntry) :
    (State.setEntry s h i e).lasting = s.lasting := by
  unfold State.setEntry
  repeat' first
    | with_reducible rfl
    | simp only [State.modJob_lasting, foldl_lasting, foldl_fst_lasting, foldl_snd_lasting, implies_true, Lasting.of_mk, Lasting.eta, lasting_ite, snd_ite, fst_ite, ite_self]
    | (with_reducible refine (foldl_lasting _ _ _ ?_).trans ?_)
    | (with_reducible refine (foldl_fst_lasting _ _ _ ?_).trans ?_)
    | intro _
    | split

@[simp] theorem State.modLine_lasting (s : State) (p : Line → Bool) (f : Line → Line) :
    (State.modLine s p f).lasting = s.lasting := by
  unfold State.modLine
  repeat' first
    | with_reducible rfl
    | simp only [foldl_lasting, foldl_fst_lasting, foldl_snd_lasting, implies_true, Lasting.of_mk, Lasting.eta, lasting_ite, snd_ite, fst_ite, ite_self]
    | (with_reducible refine (foldl_lasting _ _ _ ?_).trans ?_)
    | (with_reducible refine (foldl_fst_lasting _ _ _ ?_).trans ?_)
    | intro _
    | split

@[simp] theorem State.dropLine_lasting (s : State) (l : Line) :
    (State.dropLine s l).lasting = s.lasting := by
  unfold State.dropLine
  repeat' first
    | with_reducible rfl
    | simp only [foldl_lasting, foldl_fst_lasting, foldl_snd_lasting, implies_true, Lasting.of_mk, Lasting.eta, lasting_ite, snd_ite, fst_ite, ite_self]
    | (with_reducible refine (foldl_lasting _ _ _ ?_).trans ?_)
    | (with_reducible refine (foldl_fst_lasting _ _ _ ?_).trans ?_)
    | intro _
    | split

@[simp] theorem State.dropSchedule_lasting (s : State) (k : Schedule) :
    (State.dropSchedule s k).lasting = s.lasting := by
  unfold State.dropSchedule
  repeat' first
    | with_reducible rfl
    | simp only [foldl_lasting, foldl_fst_lasting, foldl_snd_lasting, implies_true, Lasting.of_mk, Lasting.eta, lasting_ite, snd_ite, fst_ite, ite_self]
    | (with_reducible refine (foldl_lasting _ _ _ ?_).trans ?_)
    | (with_reducible refine (foldl_fst_lasting _ _ _ ?_).trans ?_)
    | intro _
    | split

@[simp] theorem State.evict_lasting (island want : Nat) (n : Nat) (s : State) :
    (State.evict island want n s).lasting = s.lasting := by
  induction n generalizing s with
  | zero => rfl
  | succ n ih =>
    unfold State.evict
    split
    · rfl
    · split <;> simp only [ih, lasting_ite, State.dropLine_lasting, State.dropSchedule_lasting, ite_self]

@[simp] theorem State.putLine_lasting (s : State) (island : Nat) (key : LineKey) (val : LineVal) :
    (State.putLine s island key val).lasting = s.lasting := by
  unfold State.putLine
  repeat' first
    | with_reducible rfl
    | simp only [State.evict_lasting, foldl_lasting, foldl_fst_lasting, foldl_snd_lasting, implies_true, Lasting.of_mk, Lasting.eta, lasting_ite, snd_ite, fst_ite, ite_self]
    | (with_reducible refine (foldl_lasting _ _ _ ?_).trans ?_)
    | (with_reducible refine (foldl_fst_lasting _ _ _ ?_).trans ?_)
    | intro _
    | split

@[simp] theorem State.useLine_lasting (s : State) (island : Nat) (key : LineKey) :
    (State.useLine s island key).lasting = s.lasting := by
  unfold State.useLine
  repeat' first
    | with_reducible rfl
    | simp only [State.modLine_lasting, foldl_lasting, foldl_fst_lasting, foldl_snd_lasting, implies_true, Lasting.of_mk, Lasting.eta, lasting_ite, snd_ite, fst_ite, ite_self]
    | (with_reducible refine (foldl_lasting _ _ _ ?_).trans ?_)
    | (with_reducible refine (foldl_fst_lasting _ _ _ ?_).trans ?_)
    | intro _
    | split

@[simp] theorem State.useSchedule_lasting (s : State) (island h i g : Nat) :
    (State.useSchedule s island h i g).lasting = s.lasting := by
  unfold State.useSchedule
  repeat' first
    | with_reducible rfl
    | simp only [foldl_lasting, foldl_fst_lasting, foldl_snd_lasting, implies_true, Lasting.of_mk, Lasting.eta, lasting_ite, snd_ite, fst_ite, ite_self]
    | (with_reducible refine (foldl_lasting _ _ _ ?_).trans ?_)
    | (with_reducible refine (foldl_fst_lasting _ _ _ ?_).trans ?_)
    | intro _
    | split

@[simp] theorem State.tableRec_lasting (s : State) (delay island h sec operation : Nat) :
    (State.tableRec s delay island h sec operation).lasting = s.lasting := by
  unfold State.tableRec
  repeat' first
    | with_reducible rfl
    | simp only [State.traceLater_lasting, foldl_lasting, foldl_fst_lasting, foldl_snd_lasting, implies_true, Lasting.of_mk, Lasting.eta, lasting_ite, snd_ite, fst_ite, ite_self]
    | (with_reducible refine (foldl_lasting _ _ _ ?_).trans ?_)
    | (with_reducible refine (foldl_fst_lasting _ _ _ ?_).trans ?_)
    | intro _
    | split

@[simp] theorem State.storeTable_lasting (s : State) (h : Nat) (secs : List (Nat × Node)) (charged : Bool := false) :
    (State.storeTable s h secs charged).lasting = s.lasting := by
  unfold State.storeTable
  repeat' first
    | with_reducible rfl
    | simp only [State.count_lasting, State.emitMem_lasting, State.hardFault_lasting, State.laneFound_lasting, State.metaRefused_lasting, State.tableRec_lasting, foldl_lasting, foldl_fst_lasting, foldl_snd_lasting, implies_true, Lasting.of_mk, Lasting.eta, lasting_ite, snd_ite, fst_ite, ite_self]
    | (with_reducible refine (foldl_lasting _ _ _ ?_).trans ?_)
    | (with_reducible refine (foldl_fst_lasting _ _ _ ?_).trans ?_)
    | intro _
    | split

@[simp] theorem State.tableRoom_lasting (s : State) (j : Job) :
    (State.tableRoom s j).2.lasting = s.lasting := by
  unfold State.tableRoom
  repeat' first
    | with_reducible rfl
    | simp only [State.evict_lasting, foldl_lasting, foldl_fst_lasting, foldl_snd_lasting, implies_true, Lasting.of_mk, Lasting.eta, lasting_ite, snd_ite, fst_ite, ite_self]
    | (with_reducible refine (foldl_lasting _ _ _ ?_).trans ?_)
    | (with_reducible refine (foldl_fst_lasting _ _ _ ?_).trans ?_)
    | intro _
    | split

@[simp] theorem State.setupTable_lasting (s : State) (h : Nat) :
    (State.setupTable s h).lasting = s.lasting := by
  unfold State.setupTable
  repeat' first
    | with_reducible rfl
    | simp only [State.storeTable_lasting, foldl_lasting, foldl_fst_lasting, foldl_snd_lasting, implies_true, Lasting.of_mk, Lasting.eta, lasting_ite, snd_ite, fst_ite, ite_self]
    | (with_reducible refine (foldl_lasting _ _ _ ?_).trans ?_)
    | (with_reducible refine (foldl_fst_lasting _ _ _ ?_).trans ?_)
    | intro _
    | split

end Machine
end Sys2Proof
end

