-- ==== Sys2Proof/Laws/LastingJobs.lean ====
section
/-!
SUPPORT. Laws/LastingJobs.lean: no operation of Machine/Jobs.lean touches the queue, the fuse array, power, the reset or the
TAMPER_HELD latch.
-/

-- One theorem after another: side by side, each holds a thread (NOTES.md).
set_option Elab.async false

namespace Sys2Proof
namespace Machine

set_option linter.unusedSimpArgs false

@[simp] theorem State.endSweep_lasting (s : State) (p : Nat) :
    (State.endSweep s p).lasting = s.lasting := by
  unfold State.endSweep
  repeat' first
    | with_reducible rfl
    | simp only [foldl_lasting, foldl_fst_lasting, foldl_snd_lasting, implies_true, Lasting.of_mk, Lasting.eta, lasting_ite, snd_ite, fst_ite, ite_self]
    | (with_reducible refine (foldl_lasting _ _ _ ?_).trans ?_)
    | (with_reducible refine (foldl_fst_lasting _ _ _ ?_).trans ?_)
    | intro _
    | split

@[simp] theorem State.testEnable_lasting (s : State) (tiles : List Nat) (on : Bool) :
    (State.testEnable s tiles on).lasting = s.lasting := by
  unfold State.testEnable
  repeat' first
    | with_reducible rfl
    | simp only [State.emit_lasting, foldl_lasting, foldl_fst_lasting, foldl_snd_lasting, implies_true, Lasting.of_mk, Lasting.eta, lasting_ite, snd_ite, fst_ite, ite_self]
    | (with_reducible refine (foldl_lasting _ _ _ ?_).trans ?_)
    | (with_reducible refine (foldl_fst_lasting _ _ _ ?_).trans ?_)
    | intro _
    | split

@[simp] theorem State.createJob_lasting (s : State) (h id : Nat) (m : Manifest) (r : Placement) (jrk : Key) (digest : Key) :
    (State.createJob s h id m r jrk digest).lasting = s.lasting := by
  unfold State.createJob
  repeat' first
    | with_reducible rfl
    | simp only [foldl_lasting, foldl_fst_lasting, foldl_snd_lasting, implies_true, Lasting.of_mk, Lasting.eta, lasting_ite, snd_ite, fst_ite, ite_self]
    | (with_reducible refine (foldl_lasting _ _ _ ?_).trans ?_)
    | (with_reducible refine (foldl_fst_lasting _ _ _ ?_).trans ?_)
    | intro _
    | split

@[simp] theorem State.issueBox_lasting (s : State) (lb : Nat) (binding : Nat) (key : Key) :
    (State.issueBox s lb binding key).lasting = s.lasting := by
  unfold State.issueBox
  repeat' first
    | with_reducible rfl
    | simp only [State.draw_lasting, foldl_lasting, foldl_fst_lasting, foldl_snd_lasting, implies_true, Lasting.of_mk, Lasting.eta, lasting_ite, snd_ite, fst_ite, ite_self]
    | (with_reducible refine (foldl_lasting _ _ _ ?_).trans ?_)
    | (with_reducible refine (foldl_fst_lasting _ _ _ ?_).trans ?_)
    | intro _
    | split

@[simp] theorem State.dropJob_lasting (s : State) (h : Nat) :
    (State.dropJob s h).lasting = s.lasting := by
  unfold State.dropJob
  repeat' first
    | with_reducible rfl
    | simp only [foldl_lasting, foldl_fst_lasting, foldl_snd_lasting, implies_true, Lasting.of_mk, Lasting.eta, lasting_ite, snd_ite, fst_ite, ite_self]
    | (with_reducible refine (foldl_lasting _ _ _ ?_).trans ?_)
    | (with_reducible refine (foldl_fst_lasting _ _ _ ?_).trans ?_)
    | intro _
    | split

@[simp] theorem State.undoAdmission_lasting (s : State) (h : Nat) (st : Status) :
    (State.undoAdmission s h st).lasting = s.lasting := by
  unfold State.undoAdmission
  repeat' first
    | with_reducible rfl
    | simp only [State.completeOpt_lasting, State.dropJob_lasting, State.purgeJob_lasting, foldl_lasting, foldl_fst_lasting, foldl_snd_lasting, implies_true, Lasting.of_mk, Lasting.eta, lasting_ite, snd_ite, fst_ite, ite_self]
    | (with_reducible refine (foldl_lasting _ _ _ ?_).trans ?_)
    | (with_reducible refine (foldl_fst_lasting _ _ _ ?_).trans ?_)
    | intro _
    | split

@[simp] theorem State.admissionProgress_lasting (s : State) (h : Nat) (good : Bool) :
    (State.admissionProgress s h good).lasting = s.lasting := by
  unfold State.admissionProgress
  repeat' first
    | with_reducible rfl
    | simp only [State.calls_lasting, State.completeOpt_lasting, State.derived_lasting, State.draw_lasting, State.hardFault_lasting, State.issueBox_lasting, State.modJob_lasting, State.setupTable_lasting, State.tableRoom_lasting, State.undoAdmission_lasting, foldl_lasting, foldl_fst_lasting, foldl_snd_lasting, implies_true, Lasting.of_mk, Lasting.eta, lasting_ite, snd_ite, fst_ite, ite_self]
    | (with_reducible refine (foldl_lasting _ _ _ ?_).trans ?_)
    | (with_reducible refine (foldl_fst_lasting _ _ _ ?_).trans ?_)
    | intro _
    | split

@[simp] theorem State.partitionResizeProgress_lasting (s : State) (p : Nat) :
    (State.partitionResizeProgress s p).lasting = s.lasting := by
  unfold State.partitionResizeProgress
  repeat' first
    | with_reducible rfl
    | simp only [State.completeOpt_lasting, State.modPart_lasting, State.testEnable_lasting, foldl_lasting, foldl_fst_lasting, foldl_snd_lasting, implies_true, Lasting.of_mk, Lasting.eta, lasting_ite, snd_ite, fst_ite, ite_self]
    | (with_reducible refine (foldl_lasting _ _ _ ?_).trans ?_)
    | (with_reducible refine (foldl_fst_lasting _ _ _ ?_).trans ?_)
    | intro _
    | split

end Machine
end Sys2Proof
end

