-- ==== Sys2Proof/Laws/LastingRegulation.lean ====
section
/-!
SUPPORT. Laws/LastingRegulation.lean: no operation of Machine/Regulation.lean touches the queue, the fuse array, power, the reset or the
TAMPER_HELD latch.
-/

-- One theorem after another: side by side, each holds a thread (NOTES.md).
set_option Elab.async false

namespace Sys2Proof
namespace Machine

set_option linter.unusedSimpArgs false

@[simp] theorem State.reclass_lasting (s : State) (h tc : Nat) :
    (State.reclass s h tc).2.lasting = s.lasting := by
  unfold State.reclass
  repeat' first
    | with_reducible rfl
    | simp only [foldl_lasting, foldl_fst_lasting, foldl_snd_lasting, implies_true, Lasting.of_mk, Lasting.eta, lasting_ite, snd_ite, fst_ite, ite_self]
    | (with_reducible refine (foldl_lasting _ _ _ ?_).trans ?_)
    | (with_reducible refine (foldl_fst_lasting _ _ _ ?_).trans ?_)
    | intro _
    | split

@[simp] theorem State.charge_lasting (s : State) (ctx : Option Nat) (m tc kind target bytes : Nat) (count : Option Nat) :
    (State.charge s ctx m tc kind target bytes count).2.lasting = s.lasting := by
  unfold State.charge
  repeat' first
    | with_reducible rfl
    | simp only [State.count_lasting, State.putMaster_lasting, foldl_lasting, foldl_fst_lasting, foldl_snd_lasting, implies_true, Lasting.of_mk, Lasting.eta, lasting_ite, snd_ite, fst_ite, ite_self]
    | (with_reducible refine (foldl_lasting _ _ _ ?_).trans ?_)
    | (with_reducible refine (foldl_fst_lasting _ _ _ ?_).trans ?_)
    | intro _
    | split

@[simp] theorem State.raiseStream_lasting (s : State) (mine : Req → Bool) (level : Nat) :
    (State.raiseStream s mine level).lasting = s.lasting := by
  unfold State.raiseStream
  repeat' first
    | with_reducible rfl
    | simp only [foldl_lasting, foldl_fst_lasting, foldl_snd_lasting, implies_true, Lasting.of_mk, Lasting.eta, lasting_ite, snd_ite, fst_ite, ite_self]
    | (with_reducible refine (foldl_lasting _ _ _ ?_).trans ?_)
    | (with_reducible refine (foldl_fst_lasting _ _ _ ?_).trans ?_)
    | intro _
    | split

@[simp] theorem State.raiseAged_lasting (s : State) (id since : Nat) :
    (State.raiseAged s id since).lasting = s.lasting := by
  unfold State.raiseAged
  repeat' first
    | with_reducible rfl
    | simp only [foldl_lasting, foldl_fst_lasting, foldl_snd_lasting, implies_true, Lasting.of_mk, Lasting.eta, lasting_ite, snd_ite, fst_ite, ite_self]
    | (with_reducible refine (foldl_lasting _ _ _ ?_).trans ?_)
    | (with_reducible refine (foldl_fst_lasting _ _ _ ?_).trans ?_)
    | intro _
    | split

@[simp] theorem State.ageing_lasting (s : State) (id : Nat) :
    (State.ageing s id).lasting = s.lasting := by
  unfold State.ageing
  repeat' first
    | with_reducible rfl
    | simp only [State.count_lasting, State.putMaster_lasting, State.raiseAged_lasting, foldl_lasting, foldl_fst_lasting, foldl_snd_lasting, implies_true, Lasting.of_mk, Lasting.eta, lasting_ite, snd_ite, fst_ite, ite_self]
    | (with_reducible refine (foldl_lasting _ _ _ ?_).trans ?_)
    | (with_reducible refine (foldl_fst_lasting _ _ _ ?_).trans ?_)
    | intro _
    | split

@[simp] theorem State.waitMarks_lasting (s : State) :
    (State.waitMarks s).lasting = s.lasting := by
  unfold State.waitMarks
  repeat' first
    | with_reducible rfl
    | simp only [foldl_lasting, foldl_fst_lasting, foldl_snd_lasting, implies_true, Lasting.of_mk, Lasting.eta, lasting_ite, snd_ite, fst_ite, ite_self]
    | (with_reducible refine (foldl_lasting _ _ _ ?_).trans ?_)
    | (with_reducible refine (foldl_fst_lasting _ _ _ ?_).trans ?_)
    | intro _
    | split

@[simp] theorem State.masterNotice_lasting (s : State) (x : Master) (type : Nat) (st : Status) :
    (State.masterNotice s x type st).lasting = s.lasting := by
  unfold State.masterNotice
  repeat' first
    | with_reducible rfl
    | simp only [State.postLimited_lasting, foldl_lasting, foldl_fst_lasting, foldl_snd_lasting, implies_true, Lasting.of_mk, Lasting.eta, lasting_ite, snd_ite, fst_ite, ite_self]
    | (with_reducible refine (foldl_lasting _ _ _ ?_).trans ?_)
    | (with_reducible refine (foldl_fst_lasting _ _ _ ?_).trans ?_)
    | intro _
    | split

@[simp] theorem State.boostMaster_lasting (s : State) (x : Master) :
    (State.boostMaster s x).lasting = s.lasting := by
  unfold State.boostMaster
  repeat' first
    | with_reducible rfl
    | simp only [State.masterNotice_lasting, State.putMaster_lasting, foldl_lasting, foldl_fst_lasting, foldl_snd_lasting, implies_true, Lasting.of_mk, Lasting.eta, lasting_ite, snd_ite, fst_ite, ite_self]
    | (with_reducible refine (foldl_lasting _ _ _ ?_).trans ?_)
    | (with_reducible refine (foldl_fst_lasting _ _ _ ?_).trans ?_)
    | intro _
    | split

@[simp] theorem State.boostUpdate_lasting (s : State) :
    (State.boostUpdate s).lasting = s.lasting := by
  unfold State.boostUpdate
  repeat' first
    | with_reducible rfl
    | simp only [State.boostMaster_lasting, foldl_lasting, foldl_fst_lasting, foldl_snd_lasting, implies_true, Lasting.of_mk, Lasting.eta, lasting_ite, snd_ite, fst_ite, ite_self]
    | (with_reducible refine (foldl_lasting _ _ _ ?_).trans ?_)
    | (with_reducible refine (foldl_fst_lasting _ _ _ ?_).trans ?_)
    | intro _
    | split

@[simp] theorem State.windowMaster_lasting (s : State) (x : Master) :
    (State.windowMaster s x).lasting = s.lasting := by
  unfold State.windowMaster
  repeat' first
    | with_reducible rfl
    | simp only [State.masterNotice_lasting, State.putMaster_lasting, foldl_lasting, foldl_fst_lasting, foldl_snd_lasting, implies_true, Lasting.of_mk, Lasting.eta, lasting_ite, snd_ite, fst_ite, ite_self]
    | (with_reducible refine (foldl_lasting _ _ _ ?_).trans ?_)
    | (with_reducible refine (foldl_fst_lasting _ _ _ ?_).trans ?_)
    | intro _
    | split

@[simp] theorem State.guaranteeWindow_lasting (s : State) :
    (State.guaranteeWindow s).lasting = s.lasting := by
  unfold State.guaranteeWindow
  repeat' first
    | with_reducible rfl
    | simp only [State.windowMaster_lasting, foldl_lasting, foldl_fst_lasting, foldl_snd_lasting, implies_true, Lasting.of_mk, Lasting.eta, lasting_ite, snd_ite, fst_ite, ite_self]
    | (with_reducible refine (foldl_lasting _ _ _ ?_).trans ?_)
    | (with_reducible refine (foldl_fst_lasting _ _ _ ?_).trans ?_)
    | intro _
    | split

end Machine
end Sys2Proof
end

