-- ==== Sys2Proof/Laws/LastingTree.lean ====
section
/-!
SUPPORT. Laws/LastingTree.lean: no operation of Machine/Tree.lean touches the queue, the fuse array, power, the reset or the
TAMPER_HELD latch.
-/

-- One theorem after another: side by side, each holds a thread (NOTES.md).
set_option Elab.async false

namespace Sys2Proof
namespace Machine

set_option linter.unusedSimpArgs false

@[simp] theorem State.modTree_lasting (s : State) (tree : Nat) (f : Tree → Tree) :
    (State.modTree s tree f).lasting = s.lasting := by
  unfold State.modTree
  repeat' first
    | with_reducible rfl
    | simp only [State.modJob_lasting, State.modRegion_lasting, foldl_lasting, foldl_fst_lasting, foldl_snd_lasting, implies_true, Lasting.of_mk, Lasting.eta, lasting_ite, snd_ite, fst_ite, ite_self]
    | (with_reducible refine (foldl_lasting _ _ _ ?_).trans ?_)
    | (with_reducible refine (foldl_fst_lasting _ _ _ ?_).trans ?_)
    | intro _
    | split

@[simp] theorem State.issueFetch_lasting (s : State) (island : Nat) (key : LineKey) (copyB ahead : Bool) (tc failed : Nat) :
    (State.issueFetch s island key copyB ahead tc failed).lasting = s.lasting := by
  unfold State.issueFetch
  repeat' first
    | with_reducible rfl
    | simp only [State.count_lasting, State.emit_lasting, foldl_lasting, foldl_fst_lasting, foldl_snd_lasting, implies_true, Lasting.of_mk, Lasting.eta, lasting_ite, snd_ite, fst_ite, ite_self]
    | (with_reducible refine (foldl_lasting _ _ _ ?_).trans ?_)
    | (with_reducible refine (foldl_fst_lasting _ _ _ ?_).trans ?_)
    | intro _
    | split

@[simp] theorem State.maintain_lasting (s : State) (island bytes : Nat) :
    (State.maintain s island bytes).lasting = s.lasting := by
  unfold State.maintain
  repeat' first
    | with_reducible rfl
    | simp only [State.charge_lasting, foldl_lasting, foldl_fst_lasting, foldl_snd_lasting, implies_true, Lasting.of_mk, Lasting.eta, lasting_ite, snd_ite, fst_ite, ite_self]
    | (with_reducible refine (foldl_lasting _ _ _ ?_).trans ?_)
    | (with_reducible refine (foldl_fst_lasting _ _ _ ?_).trans ?_)
    | intro _
    | split

@[simp] theorem State.maintained_lasting (s : State) (island since bytes : Nat) :
    (State.maintained s island since bytes).lasting = s.lasting := by
  unfold State.maintained
  repeat' first
    | with_reducible rfl
    | simp only [State.release_lasting, foldl_lasting, foldl_fst_lasting, foldl_snd_lasting, implies_true, Lasting.of_mk, Lasting.eta, lasting_ite, snd_ite, fst_ite, ite_self]
    | (with_reducible refine (foldl_lasting _ _ _ ?_).trans ?_)
    | (with_reducible refine (foldl_fst_lasting _ _ _ ?_).trans ?_)
    | intro _
    | split

@[simp] theorem State.fetchDone_lasting (s : State) (f : Fetch) :
    (State.fetchDone s f).lasting = s.lasting := by
  unfold State.fetchDone
  repeat' first
    | with_reducible rfl
    | simp only [State.maintained_lasting, State.release_lasting, foldl_lasting, foldl_fst_lasting, foldl_snd_lasting, implies_true, Lasting.of_mk, Lasting.eta, lasting_ite, snd_ite, fst_ite, ite_self]
    | (with_reducible refine (foldl_lasting _ _ _ ?_).trans ?_)
    | (with_reducible refine (foldl_fst_lasting _ _ _ ?_).trans ?_)
    | intro _
    | split

@[simp] theorem State.endFetches_lasting (s : State) (p : Fetch → Bool) :
    (State.endFetches s p).lasting = s.lasting := by
  unfold State.endFetches
  repeat' first
    | with_reducible rfl
    | simp only [State.fetchDone_lasting, foldl_lasting, foldl_fst_lasting, foldl_snd_lasting, implies_true, Lasting.of_mk, Lasting.eta, lasting_ite, snd_ite, fst_ite, ite_self]
    | (with_reducible refine (foldl_lasting _ _ _ ?_).trans ?_)
    | (with_reducible refine (foldl_fst_lasting _ _ _ ?_).trans ?_)
    | intro _
    | split

@[simp] theorem State.predicted_lasting (s : State) (first : Nat) :
    (State.predicted s first).lasting = s.lasting := by
  unfold State.predicted
  repeat' first
    | with_reducible rfl
    | simp only [State.charge_lasting, foldl_lasting, foldl_fst_lasting, foldl_snd_lasting, implies_true, Lasting.of_mk, Lasting.eta, lasting_ite, snd_ite, fst_ite, ite_self]
    | (with_reducible refine (foldl_lasting _ _ _ ?_).trans ?_)
    | (with_reducible refine (foldl_fst_lasting _ _ _ ?_).trans ?_)
    | intro _
    | split

@[simp] theorem State.upkeepFetches_lasting (s : State) (first : Nat) :
    (State.upkeepFetches s first).lasting = s.lasting := by
  unfold State.upkeepFetches
  repeat' first
    | with_reducible rfl
    | simp only [State.maintain_lasting, foldl_lasting, foldl_fst_lasting, foldl_snd_lasting, implies_true, Lasting.of_mk, Lasting.eta, lasting_ite, snd_ite, fst_ite, ite_self]
    | (with_reducible refine (foldl_lasting _ _ _ ?_).trans ?_)
    | (with_reducible refine (foldl_fst_lasting _ _ _ ?_).trans ?_)
    | intro _
    | split

@[simp] theorem State.chargedLike_lasting (s : State) (f : Fetch) (first : Nat) :
    (State.chargedLike s f first).lasting = s.lasting := by
  unfold State.chargedLike
  repeat' first
    | with_reducible rfl
    | simp only [State.predicted_lasting, State.upkeepFetches_lasting, foldl_lasting, foldl_fst_lasting, foldl_snd_lasting, implies_true, Lasting.of_mk, Lasting.eta, lasting_ite, snd_ite, fst_ite, ite_self]
    | (with_reducible refine (foldl_lasting _ _ _ ?_).trans ?_)
    | (with_reducible refine (foldl_fst_lasting _ _ _ ?_).trans ?_)
    | intro _
    | split

@[simp] theorem State.fetchMeta_lasting (s : State) (island : Nat) (key : LineKey) (ahead : Bool) (tc : Nat) :
    (State.fetchMeta s island key ahead tc).lasting = s.lasting := by
  unfold State.fetchMeta
  repeat' first
    | with_reducible rfl
    | simp only [State.issueFetch_lasting, foldl_lasting, foldl_fst_lasting, foldl_snd_lasting, implies_true, Lasting.of_mk, Lasting.eta, lasting_ite, snd_ite, fst_ite, ite_self]
    | (with_reducible refine (foldl_lasting _ _ _ ?_).trans ?_)
    | (with_reducible refine (foldl_fst_lasting _ _ _ ?_).trans ?_)
    | intro _
    | split

@[simp] theorem State.fetchNodes_lasting (s : State) (island tree : Nat) (nodes : List (Nat × Nat)) :
    (State.fetchNodes s island tree nodes).lasting = s.lasting := by
  unfold State.fetchNodes
  repeat' first
    | with_reducible rfl
    | simp only [State.fetchMeta_lasting, State.upkeepFetches_lasting, foldl_lasting, foldl_fst_lasting, foldl_snd_lasting, implies_true, Lasting.of_mk, Lasting.eta, lasting_ite, snd_ite, fst_ite, ite_self]
    | (with_reducible refine (foldl_lasting _ _ _ ?_).trans ?_)
    | (with_reducible refine (foldl_fst_lasting _ _ _ ?_).trans ?_)
    | intro _
    | split

@[simp] theorem State.holdPath_lasting (s : State) (tree leaf : Nat) :
    (State.holdPath s tree leaf).lasting = s.lasting := by
  unfold State.holdPath
  repeat' first
    | with_reducible rfl
    | simp only [State.putLine_lasting, foldl_lasting, foldl_fst_lasting, foldl_snd_lasting, implies_true, Lasting.of_mk, Lasting.eta, lasting_ite, snd_ite, fst_ite, ite_self]
    | (with_reducible refine (foldl_lasting _ _ _ ?_).trans ?_)
    | (with_reducible refine (foldl_fst_lasting _ _ _ ?_).trans ?_)
    | intro _
    | split

@[simp] theorem State.modNode_lasting (s : State) (tree lvl idx : Nat) (f : Node → Node) :
    (State.modNode s tree lvl idx f).lasting = s.lasting := by
  unfold State.modNode
  repeat' first
    | with_reducible rfl
    | simp only [State.modLine_lasting, State.modTree_lasting, foldl_lasting, foldl_fst_lasting, foldl_snd_lasting, implies_true, Lasting.of_mk, Lasting.eta, lasting_ite, snd_ite, fst_ite, ite_self]
    | (with_reducible refine (foldl_lasting _ _ _ ?_).trans ?_)
    | (with_reducible refine (foldl_fst_lasting _ _ _ ?_).trans ?_)
    | intro _
    | split

@[simp] theorem State.takeFloor_lasting (s : State) (tree : Nat) :
    (State.takeFloor s tree).2.lasting = s.lasting := by
  unfold State.takeFloor
  repeat' first
    | with_reducible rfl
    | simp only [State.modRegion_lasting, State.modTree_lasting, foldl_lasting, foldl_fst_lasting, foldl_snd_lasting, implies_true, Lasting.of_mk, Lasting.eta, lasting_ite, snd_ite, fst_ite, ite_self]
    | (with_reducible refine (foldl_lasting _ _ _ ?_).trans ?_)
    | (with_reducible refine (foldl_fst_lasting _ _ _ ?_).trans ?_)
    | intro _
    | split

@[simp] theorem State.writeTo_lasting (s : State) (via : Option Nat) (pooled : Bool) (id address : Nat) (b : Bytes) :
    (State.writeTo s via pooled id address b).lasting = s.lasting := by
  unfold State.writeTo
  repeat' first
    | with_reducible rfl
    | simp only [State.emitMem_lasting, State.emitPort_lasting, foldl_lasting, foldl_fst_lasting, foldl_snd_lasting, implies_true, Lasting.of_mk, Lasting.eta, lasting_ite, snd_ite, fst_ite, ite_self]
    | (with_reducible refine (foldl_lasting _ _ _ ?_).trans ?_)
    | (with_reducible refine (foldl_fst_lasting _ _ _ ?_).trans ?_)
    | intro _
    | split

@[simp] theorem State.writeNode_lasting (s : State) (pooled : Bool) (id address : Nat) (b : Bytes) :
    (State.writeNode s pooled id address b).lasting = s.lasting := by
  unfold State.writeNode
  repeat' first
    | with_reducible rfl
    | simp only [State.count_lasting, State.maintain_lasting, State.writeTo_lasting, foldl_lasting, foldl_fst_lasting, foldl_snd_lasting, implies_true, Lasting.of_mk, Lasting.eta, lasting_ite, snd_ite, fst_ite, ite_self]
    | (with_reducible refine (foldl_lasting _ _ _ ?_).trans ?_)
    | (with_reducible refine (foldl_fst_lasting _ _ _ ?_).trans ?_)
    | intro _
    | split

@[simp] theorem State.takeResume_lasting (s : State) (island region op : Nat) (writes : List (Nat × Bytes)) :
    (State.takeResume s island region op writes).lasting = s.lasting := by
  unfold State.takeResume
  repeat' first
    | with_reducible rfl
    | simp only [foldl_lasting, foldl_fst_lasting, foldl_snd_lasting, implies_true, Lasting.of_mk, Lasting.eta, lasting_ite, snd_ite, fst_ite, ite_self]
    | (with_reducible refine (foldl_lasting _ _ _ ?_).trans ?_)
    | (with_reducible refine (foldl_fst_lasting _ _ _ ?_).trans ?_)
    | intro _
    | split

@[simp] theorem State.modResume_lasting (s : State) (op : Nat) (f : ResumeRec → ResumeRec) :
    (State.modResume s op f).lasting = s.lasting := by
  unfold State.modResume
  repeat' first
    | with_reducible rfl
    | simp only [foldl_lasting, foldl_fst_lasting, foldl_snd_lasting, implies_true, Lasting.of_mk, Lasting.eta, lasting_ite, snd_ite, fst_ite, ite_self]
    | (with_reducible refine (foldl_lasting _ _ _ ?_).trans ?_)
    | (with_reducible refine (foldl_fst_lasting _ _ _ ?_).trans ?_)
    | intro _
    | split

@[simp] theorem State.recordAck_lasting (s : State) (via : Option Nat) (port nth op : Nat) :
    (State.recordAck s via port nth op).lasting = s.lasting := by
  unfold State.recordAck
  repeat' first
    | with_reducible rfl
    | simp only [State.maintain_lasting, State.modResume_lasting, State.writeTo_lasting, foldl_lasting, foldl_fst_lasting, foldl_snd_lasting, implies_true, Lasting.of_mk, Lasting.eta, lasting_ite, snd_ite, fst_ite, ite_self]
    | (with_reducible refine (foldl_lasting _ _ _ ?_).trans ?_)
    | (with_reducible refine (foldl_fst_lasting _ _ _ ?_).trans ?_)
    | intro _
    | split

@[simp] theorem State.freeResume_lasting (s : State) (op : Nat) :
    (State.freeResume s op).lasting = s.lasting := by
  unfold State.freeResume
  repeat' first
    | with_reducible rfl
    | simp only [foldl_lasting, foldl_fst_lasting, foldl_snd_lasting, implies_true, Lasting.of_mk, Lasting.eta, lasting_ite, snd_ite, fst_ite, ite_self]
    | (with_reducible refine (foldl_lasting _ _ _ ?_).trans ?_)
    | (with_reducible refine (foldl_fst_lasting _ _ _ ?_).trans ?_)
    | intro _
    | split

@[simp] theorem State.wrapRoom_lasting (s : State) (tree lvl idx : Nat) :
    (State.wrapRoom s tree lvl idx).2.lasting = s.lasting := by
  unfold State.wrapRoom
  repeat' first
    | with_reducible rfl
    | simp only [State.evict_lasting, foldl_lasting, foldl_fst_lasting, foldl_snd_lasting, implies_true, Lasting.of_mk, Lasting.eta, lasting_ite, snd_ite, fst_ite, ite_self]
    | (with_reducible refine (foldl_lasting _ _ _ ?_).trans ?_)
    | (with_reducible refine (foldl_fst_lasting _ _ _ ?_).trans ?_)
    | intro _
    | split

@[simp] theorem State.interiorWrap_lasting (s : State) (tree lvl idx : Nat) :
    (State.interiorWrap s tree lvl idx).lasting = s.lasting := by
  unfold State.interiorWrap
  repeat' first
    | with_reducible rfl
    | simp only [State.modLine_lasting, State.modNode_lasting, State.modTree_lasting, State.takeFloor_lasting, foldl_lasting, foldl_fst_lasting, foldl_snd_lasting, implies_true, Lasting.of_mk, Lasting.eta, lasting_ite, snd_ite, fst_ite, ite_self]
    | (with_reducible refine (foldl_lasting _ _ _ ?_).trans ?_)
    | (with_reducible refine (foldl_fst_lasting _ _ _ ?_).trans ?_)
    | intro _
    | split

/-- hand -/
@[simp] theorem State.writeBack_lasting (s : State) (tree lvl idx : Nat) :
    (State.writeBack s tree lvl idx).2.lasting = s.lasting := by
  unfold State.writeBack
  split
  · split
    · rfl
    · split
      · rfl
      · split
        · simp only [State.hardFault_lasting, State.laneFound_lasting]
        · split
          · dsimp only
            repeat' split
            all_goals first
              | rfl
              | simp only [State.fetchNodes_lasting, State.hardFault_lasting, State.interiorWrap_lasting, State.laneFound_lasting, State.metaRefused_lasting, State.modLine_lasting, State.modNode_lasting, State.takeResume_lasting, State.wrapRoom_lasting, State.writeNode_lasting, foldl_lasting, foldl_fst_lasting, foldl_snd_lasting, implies_true, Lasting.of_mk, Lasting.eta, lasting_ite, snd_ite, fst_ite, ite_self]
          · simp only [State.metaRefused_lasting]
          · rfl
  · rfl

@[simp] theorem State.runBacks_lasting (s : State) :
    (State.runBacks s).lasting = s.lasting := by
  unfold State.runBacks
  repeat' first
    | with_reducible rfl
    | simp only [State.writeBack_lasting, foldl_lasting, foldl_fst_lasting, foldl_snd_lasting, implies_true, Lasting.of_mk, Lasting.eta, lasting_ite, snd_ite, fst_ite, ite_self]
    | (with_reducible refine (foldl_lasting _ _ _ ?_).trans ?_)
    | (with_reducible refine (foldl_fst_lasting _ _ _ ?_).trans ?_)
    | intro _
    | split

@[simp] theorem State.askBack_lasting (s : State) (tree lvl idx : Nat) :
    (State.askBack s tree lvl idx).lasting = s.lasting := by
  unfold State.askBack
  repeat' first
    | with_reducible rfl
    | simp only [State.runBacks_lasting, foldl_lasting, foldl_fst_lasting, foldl_snd_lasting, implies_true, Lasting.of_mk, Lasting.eta, lasting_ite, snd_ite, fst_ite, ite_self]
    | (with_reducible refine (foldl_lasting _ _ _ ?_).trans ?_)
    | (with_reducible refine (foldl_fst_lasting _ _ _ ?_).trans ?_)
    | intro _
    | split

@[simp] theorem State.upkeepAccepted_lasting (s : State) (island id : Nat) :
    (State.upkeepAccepted s island id).lasting = s.lasting := by
  unfold State.upkeepAccepted
  repeat' first
    | with_reducible rfl
    | simp only [State.maintained_lasting, foldl_lasting, foldl_fst_lasting, foldl_snd_lasting, implies_true, Lasting.of_mk, Lasting.eta, lasting_ite, snd_ite, fst_ite, ite_self]
    | (with_reducible refine (foldl_lasting _ _ _ ?_).trans ?_)
    | (with_reducible refine (foldl_fst_lasting _ _ _ ?_).trans ?_)
    | intro _
    | split

@[simp] theorem State.backAccepted_lasting (s : State) (island nth id : Nat) :
    (State.backAccepted s island nth id).lasting = s.lasting := by
  unfold State.backAccepted
  repeat' first
    | with_reducible rfl
    | simp only [State.freeResume_lasting, State.modLine_lasting, State.recordAck_lasting, foldl_lasting, foldl_fst_lasting, foldl_snd_lasting, implies_true, Lasting.of_mk, Lasting.eta, lasting_ite, snd_ite, fst_ite, ite_self]
    | (with_reducible refine (foldl_lasting _ _ _ ?_).trans ?_)
    | (with_reducible refine (foldl_fst_lasting _ _ _ ?_).trans ?_)
    | intro _
    | split

@[simp] theorem State.wipe_lasting (s : State) (h stack address left : Nat) :
    (State.wipe s h stack address left).lasting = s.lasting := by
  unfold State.wipe
  repeat' first
    | with_reducible rfl
    | simp only [State.emit_lasting, foldl_lasting, foldl_fst_lasting, foldl_snd_lasting, implies_true, Lasting.of_mk, Lasting.eta, lasting_ite, snd_ite, fst_ite, ite_self]
    | (with_reducible refine (foldl_lasting _ _ _ ?_).trans ?_)
    | (with_reducible refine (foldl_fst_lasting _ _ _ ?_).trans ?_)
    | intro _
    | split

@[simp] theorem State.wipeAccepted_lasting (s : State) (stack id : Nat) :
    (State.wipeAccepted s stack id).lasting = s.lasting := by
  unfold State.wipeAccepted
  repeat' first
    | with_reducible rfl
    | simp only [State.wipe_lasting, foldl_lasting, foldl_fst_lasting, foldl_snd_lasting, implies_true, Lasting.of_mk, Lasting.eta, lasting_ite, snd_ite, fst_ite, ite_self]
    | (with_reducible refine (foldl_lasting _ _ _ ?_).trans ?_)
    | (with_reducible refine (foldl_fst_lasting _ _ _ ?_).trans ?_)
    | intro _
    | split

@[simp] theorem State.readBFirst_lasting (s : State) (island : Nat) (key : LineKey) :
    (State.readBFirst s island key).lasting = s.lasting := by
  unfold State.readBFirst
  repeat' first
    | with_reducible rfl
    | simp only [foldl_lasting, foldl_fst_lasting, foldl_snd_lasting, implies_true, Lasting.of_mk, Lasting.eta, lasting_ite, snd_ite, fst_ite, ite_self]
    | (with_reducible refine (foldl_lasting _ _ _ ?_).trans ?_)
    | (with_reducible refine (foldl_fst_lasting _ _ _ ?_).trans ?_)
    | intro _
    | split

@[simp] theorem State.repairNode_lasting (s : State) (island tree lvl idx : Nat) (copyB : Bool) (code : Nat) (b : Bytes) :
    (State.repairNode s island tree lvl idx copyB code b).lasting = s.lasting := by
  unfold State.repairNode
  repeat' first
    | with_reducible rfl
    | simp only [State.modTree_lasting, State.postLimited_lasting, State.readBFirst_lasting, State.writeNode_lasting, foldl_lasting, foldl_fst_lasting, foldl_snd_lasting, implies_true, Lasting.of_mk, Lasting.eta, lasting_ite, snd_ite, fst_ite, ite_self]
    | (with_reducible refine (foldl_lasting _ _ _ ?_).trans ?_)
    | (with_reducible refine (foldl_fst_lasting _ _ _ ?_).trans ?_)
    | intro _
    | split

@[simp] theorem State.loseNode_lasting (s : State) (island : Nat) (tree lvl idx code : Nat) :
    (State.loseNode s island tree lvl idx code).lasting = s.lasting := by
  unfold State.loseNode
  repeat' first
    | with_reducible rfl
    | simp only [State.post_lasting, foldl_lasting, foldl_fst_lasting, foldl_snd_lasting, implies_true, Lasting.of_mk, Lasting.eta, lasting_ite, snd_ite, fst_ite, ite_self]
    | (with_reducible refine (foldl_lasting _ _ _ ?_).trans ?_)
    | (with_reducible refine (foldl_fst_lasting _ _ _ ?_).trans ?_)
    | intro _
    | split

@[simp] theorem State.loseRoot_lasting (s : State) (tree : Nat) :
    (State.loseRoot s tree).lasting = s.lasting := by
  unfold State.loseRoot
  repeat' first
    | with_reducible rfl
    | simp only [State.modTree_lasting, State.post_lasting, foldl_lasting, foldl_fst_lasting, foldl_snd_lasting, implies_true, Lasting.of_mk, Lasting.eta, lasting_ite, snd_ite, fst_ite, ite_self]
    | (with_reducible refine (foldl_lasting _ _ _ ?_).trans ?_)
    | (with_reducible refine (foldl_fst_lasting _ _ _ ?_).trans ?_)
    | intro _
    | split

@[simp] theorem State.notLost_lasting (s : State) (gone : LineKey → Bool) :
    (State.notLost s gone).lasting = s.lasting := by
  unfold State.notLost
  repeat' first
    | with_reducible rfl
    | simp only [foldl_lasting, foldl_fst_lasting, foldl_snd_lasting, implies_true, Lasting.of_mk, Lasting.eta, lasting_ite, snd_ite, fst_ite, ite_self]
    | (with_reducible refine (foldl_lasting _ _ _ ?_).trans ?_)
    | (with_reducible refine (foldl_fst_lasting _ _ _ ?_).trans ?_)
    | intro _
    | split

end Machine
end Sys2Proof
end

