-- ==== Sys2Proof/Laws/LastingSectors.lean ====
section
/-!
SUPPORT. Laws/LastingSectors.lean: no operation of Machine/Sectors.lean touches the queue, the fuse array, power, the reset or the
TAMPER_HELD latch.
-/

-- One theorem after another: side by side, each holds a thread (NOTES.md).
set_option Elab.async false

namespace Sys2Proof
namespace Machine

set_option linter.unusedSimpArgs false

@[simp] theorem State.sectorFault_lasting (s : State) (island n h : Nat) (ctx : Option Nat) (type reason lbn key : Nat) :
    (State.sectorFault s island n h ctx type reason lbn key).lasting = s.lasting := by
  unfold State.sectorFault
  repeat' first
    | with_reducible rfl
    | simp only [State.free_lasting, State.modRegion_lasting, State.postLimited_lasting, State.raiseFault_lasting, foldl_lasting, foldl_fst_lasting, foldl_snd_lasting, implies_true, Lasting.of_mk, Lasting.eta, lasting_ite, snd_ite, fst_ite, ite_self]
    | (with_reducible refine (foldl_lasting _ _ _ ?_).trans ?_)
    | (with_reducible refine (foldl_fst_lasting _ _ _ ?_).trans ?_)
    | intro _
    | split

@[simp] theorem State.reqDone_lasting (s : State) (q : Req) :
    (State.reqDone s q).lasting = s.lasting := by
  unfold State.reqDone
  repeat' first
    | with_reducible rfl
    | simp only [State.completeRec_lasting, State.conclude_lasting, State.emit_lasting, State.tileAnswer_lasting, foldl_lasting, foldl_fst_lasting, foldl_snd_lasting, implies_true, Lasting.of_mk, Lasting.eta, lasting_ite, snd_ite, fst_ite, ite_self]
    | (with_reducible refine (foldl_lasting _ _ _ ?_).trans ?_)
    | (with_reducible refine (foldl_fst_lasting _ _ _ ?_).trans ?_)
    | intro _
    | split

@[simp] theorem State.pieceDone_lasting (s : State) (id : Nat) (f : Req → Req) :
    (State.pieceDone s id f).lasting = s.lasting := by
  unfold State.pieceDone
  repeat' first
    | with_reducible rfl
    | simp only [State.reqDone_lasting, foldl_lasting, foldl_fst_lasting, foldl_snd_lasting, implies_true, Lasting.of_mk, Lasting.eta, lasting_ite, snd_ite, fst_ite, ite_self]
    | (with_reducible refine (foldl_lasting _ _ _ ?_).trans ?_)
    | (with_reducible refine (foldl_fst_lasting _ _ _ ?_).trans ?_)
    | intro _
    | split

@[simp] theorem State.setOp_lasting (s : State) (o : SecOp) :
    (State.setOp s o).lasting = s.lasting := by
  unfold State.setOp
  repeat' first
    | with_reducible rfl
    | simp only [foldl_lasting, foldl_fst_lasting, foldl_snd_lasting, implies_true, Lasting.of_mk, Lasting.eta, lasting_ite, snd_ite, fst_ite, ite_self]
    | (with_reducible refine (foldl_lasting _ _ _ ?_).trans ?_)
    | (with_reducible refine (foldl_fst_lasting _ _ _ ?_).trans ?_)
    | intro _
    | split

@[simp] theorem State.walkedOff_lasting (s : State) (island since bytes level : Nat) :
    (State.walkedOff s island since bytes level).lasting = s.lasting := by
  unfold State.walkedOff
  repeat' first
    | with_reducible rfl
    | simp only [State.release_lasting, foldl_lasting, foldl_fst_lasting, foldl_snd_lasting, implies_true, Lasting.of_mk, Lasting.eta, lasting_ite, snd_ite, fst_ite, ite_self]
    | (with_reducible refine (foldl_lasting _ _ _ ?_).trans ?_)
    | (with_reducible refine (foldl_fst_lasting _ _ _ ?_).trans ?_)
    | intro _
    | split

@[simp] theorem State.dropOp_lasting (s : State) (id : Nat) :
    (State.dropOp s id).lasting = s.lasting := by
  unfold State.dropOp
  repeat' first
    | with_reducible rfl
    | simp only [State.freeResume_lasting, State.maintained_lasting, State.walkedOff_lasting, foldl_lasting, foldl_fst_lasting, foldl_snd_lasting, implies_true, Lasting.of_mk, Lasting.eta, lasting_ite, snd_ite, fst_ite, ite_self]
    | (with_reducible refine (foldl_lasting _ _ _ ?_).trans ?_)
    | (with_reducible refine (foldl_fst_lasting _ _ _ ?_).trans ?_)
    | intro _
    | split

@[simp] theorem State.addOp_lasting (s : State) (o : SecOp) (before : Option Nat) :
    (State.addOp s o before).lasting = s.lasting := by
  unfold State.addOp
  repeat' first
    | with_reducible rfl
    | simp only [foldl_lasting, foldl_fst_lasting, foldl_snd_lasting, implies_true, Lasting.of_mk, Lasting.eta, lasting_ite, snd_ite, fst_ite, ite_self]
    | (with_reducible refine (foldl_lasting _ _ _ ?_).trans ?_)
    | (with_reducible refine (foldl_fst_lasting _ _ _ ?_).trans ?_)
    | intro _
    | split

@[simp] theorem State.mergeLost_lasting (s : State) (o : SecOp) (reason : Nat) :
    (State.mergeLost s o reason).lasting = s.lasting := by
  unfold State.mergeLost
  repeat' first
    | with_reducible rfl
    | simp only [State.modRegion_lasting, State.sectorFault_lasting, foldl_lasting, foldl_fst_lasting, foldl_snd_lasting, implies_true, Lasting.of_mk, Lasting.eta, lasting_ite, snd_ite, fst_ite, ite_self]
    | (with_reducible refine (foldl_lasting _ _ _ ?_).trans ?_)
    | (with_reducible refine (foldl_fst_lasting _ _ _ ?_).trans ?_)
    | intro _
    | split

@[simp] theorem State.failOp_lasting (s : State) (o : SecOp) (type reason : Nat) :
    (State.failOp s o type reason).lasting = s.lasting := by
  unfold State.failOp
  repeat' first
    | with_reducible rfl
    | simp only [State.dropOp_lasting, State.mergeLost_lasting, State.pieceDone_lasting, State.sectorFault_lasting, foldl_lasting, foldl_fst_lasting, foldl_snd_lasting, implies_true, Lasting.of_mk, Lasting.eta, lasting_ite, snd_ite, fst_ite, ite_self]
    | (with_reducible refine (foldl_lasting _ _ _ ?_).trans ?_)
    | (with_reducible refine (foldl_fst_lasting _ _ _ ?_).trans ?_)
    | intro _
    | split

@[simp] theorem State.failWaiting_lasting (s : State) (p : SecOp → Bool) (type reason : Nat) :
    (State.failWaiting s p type reason).lasting = s.lasting := by
  unfold State.failWaiting
  repeat' first
    | with_reducible rfl
    | simp only [State.failOp_lasting, foldl_lasting, foldl_fst_lasting, foldl_snd_lasting, implies_true, Lasting.of_mk, Lasting.eta, lasting_ite, snd_ite, fst_ite, ite_self]
    | (with_reducible refine (foldl_lasting _ _ _ ?_).trans ?_)
    | (with_reducible refine (foldl_fst_lasting _ _ _ ?_).trans ?_)
    | intro _
    | split

@[simp] theorem State.laneMismatch_lasting (s : State) (o : SecOp) :
    (State.laneMismatch s o).lasting = s.lasting := by
  unfold State.laneMismatch
  repeat' first
    | with_reducible rfl
    | simp only [State.hardFault_lasting, State.laneFound_lasting, State.mergeLost_lasting, foldl_lasting, foldl_fst_lasting, foldl_snd_lasting, implies_true, Lasting.of_mk, Lasting.eta, lasting_ite, snd_ite, fst_ite, ite_self]
    | (with_reducible refine (foldl_lasting _ _ _ ?_).trans ?_)
    | (with_reducible refine (foldl_fst_lasting _ _ _ ?_).trans ?_)
    | intro _
    | split

@[simp] theorem State.deliverTo_lasting (s : State) (o : SecOp) (pt : Bytes) :
    (State.deliverTo s o pt).lasting = s.lasting := by
  unfold State.deliverTo
  repeat' first
    | with_reducible rfl
    | simp only [State.pieceDone_lasting, foldl_lasting, foldl_fst_lasting, foldl_snd_lasting, implies_true, Lasting.of_mk, Lasting.eta, lasting_ite, snd_ite, fst_ite, ite_self]
    | (with_reducible refine (foldl_lasting _ _ _ ?_).trans ?_)
    | (with_reducible refine (foldl_fst_lasting _ _ _ ?_).trans ?_)
    | intro _
    | split

@[simp] theorem State.sectorRec_lasting (s : State) (o : SecOp) (operation : Nat) (delay : Nat := 0) :
    (State.sectorRec s o operation delay).lasting = s.lasting := by
  unfold State.sectorRec
  repeat' first
    | with_reducible rfl
    | simp only [State.traceLater_lasting, foldl_lasting, foldl_fst_lasting, foldl_snd_lasting, implies_true, Lasting.of_mk, Lasting.eta, lasting_ite, snd_ite, fst_ite, ite_self]
    | (with_reducible refine (foldl_lasting _ _ _ ?_).trans ?_)
    | (with_reducible refine (foldl_fst_lasting _ _ _ ?_).trans ?_)
    | intro _
    | split

@[simp] theorem State.islandCount_lasting (s : State) (o : SecOp) (event n : Nat) :
    (State.islandCount s o event n).lasting = s.lasting := by
  unfold State.islandCount
  repeat' first
    | with_reducible rfl
    | simp only [State.count_lasting, foldl_lasting, foldl_fst_lasting, foldl_snd_lasting, implies_true, Lasting.of_mk, Lasting.eta, lasting_ite, snd_ite, fst_ite, ite_self]
    | (with_reducible refine (foldl_lasting _ _ _ ?_).trans ?_)
    | (with_reducible refine (foldl_fst_lasting _ _ _ ?_).trans ?_)
    | intro _
    | split

@[simp] theorem State.countSeals_lasting (s : State) (h i n : Nat) :
    (State.countSeals s h i n).lasting = s.lasting := by
  unfold State.countSeals
  repeat' first
    | with_reducible rfl
    | simp only [State.setEntry_lasting, foldl_lasting, foldl_fst_lasting, foldl_snd_lasting, implies_true, Lasting.of_mk, Lasting.eta, lasting_ite, snd_ite, fst_ite, ite_self]
    | (with_reducible refine (foldl_lasting _ _ _ ?_).trans ?_)
    | (with_reducible refine (foldl_fst_lasting _ _ _ ?_).trans ?_)
    | intro _
    | split

@[simp] theorem State.limitReached_lasting (s : State) (h i : Nat) :
    (State.limitReached s h i).lasting = s.lasting := by
  unfold State.limitReached
  repeat' first
    | with_reducible rfl
    | simp only [State.post_lasting, foldl_lasting, foldl_fst_lasting, foldl_snd_lasting, implies_true, Lasting.of_mk, Lasting.eta, lasting_ite, snd_ite, fst_ite, ite_self]
    | (with_reducible refine (foldl_lasting _ _ _ ?_).trans ?_)
    | (with_reducible refine (foldl_fst_lasting _ _ _ ?_).trans ?_)
    | intro _
    | split

@[simp] theorem State.writeSealed_lasting (s : State) (o : SecOp) (k : Nat) (dk : Key) (version : Nat) (pt : Bytes) (later : Bool := false) :
    (State.writeSealed s o k dk version pt later).1.lasting = s.lasting := by
  unfold State.writeSealed
  repeat' first
    | with_reducible rfl
    | simp only [State.count_lasting, State.modLine_lasting, State.writeTo_lasting, foldl_lasting, foldl_fst_lasting, foldl_snd_lasting, implies_true, Lasting.of_mk, Lasting.eta, lasting_ite, snd_ite, fst_ite, ite_self]
    | (with_reducible refine (foldl_lasting _ _ _ ?_).trans ?_)
    | (with_reducible refine (foldl_fst_lasting _ _ _ ?_).trans ?_)
    | intro _
    | split

@[simp] theorem State.sealNow_lasting (s : State) (o : SecOp) (pt : Bytes) (dk : Key) :
    (State.sealNow s o pt dk).lasting = s.lasting := by
  unfold State.sealNow
  repeat' first
    | with_reducible rfl
    | simp only [State.countSeals_lasting, State.holdPath_lasting, State.islandCount_lasting, State.modNode_lasting, State.sectorRec_lasting, State.setOp_lasting, State.takeResume_lasting, State.writeSealed_lasting, foldl_lasting, foldl_fst_lasting, foldl_snd_lasting, implies_true, Lasting.of_mk, Lasting.eta, lasting_ite, snd_ite, fst_ite, ite_self]
    | (with_reducible refine (foldl_lasting _ _ _ ?_).trans ?_)
    | (with_reducible refine (foldl_fst_lasting _ _ _ ?_).trans ?_)
    | intro _
    | split

@[simp] theorem State.sealOp_lasting (s : State) (o : SecOp) (pt : Bytes) :
    (State.sealOp s o pt).lasting = s.lasting := by
  unfold State.sealOp
  repeat' first
    | with_reducible rfl
    | simp only [State.failOp_lasting, State.holdPath_lasting, State.keyRequest_lasting, State.laneMismatch_lasting, State.limitReached_lasting, State.schedule_lasting, State.sealNow_lasting, State.setOp_lasting, foldl_lasting, foldl_fst_lasting, foldl_snd_lasting, implies_true, Lasting.of_mk, Lasting.eta, lasting_ite, snd_ite, fst_ite, ite_self]
    | (with_reducible refine (foldl_lasting _ _ _ ?_).trans ?_)
    | (with_reducible refine (foldl_fst_lasting _ _ _ ?_).trans ?_)
    | intro _
    | split

@[simp] theorem State.gotPlain_lasting (s : State) (o : SecOp) (pt : Bytes) :
    (State.gotPlain s o pt).lasting = s.lasting := by
  unfold State.gotPlain
  repeat' first
    | with_reducible rfl
    | simp only [State.deliverTo_lasting, State.dropOp_lasting, State.islandCount_lasting, State.sealOp_lasting, State.sectorRec_lasting, State.setOp_lasting, foldl_lasting, foldl_fst_lasting, foldl_snd_lasting, implies_true, Lasting.of_mk, Lasting.eta, lasting_ite, snd_ite, fst_ite, ite_self]
    | (with_reducible refine (foldl_lasting _ _ _ ?_).trans ?_)
    | (with_reducible refine (foldl_fst_lasting _ _ _ ?_).trans ?_)
    | intro _
    | split

@[simp] theorem State.fetchAll_lasting (s : State) (h : Nat) (missing : List (Nat × LineKey)) (ahead : Bool) (tc : Nat) :
    (State.fetchAll s h missing ahead tc).lasting = s.lasting := by
  unfold State.fetchAll
  repeat' first
    | with_reducible rfl
    | simp only [State.fetchMeta_lasting, State.keyRequest_lasting, State.schedule_lasting, foldl_lasting, foldl_fst_lasting, foldl_snd_lasting, implies_true, Lasting.of_mk, Lasting.eta, lasting_ite, snd_ite, fst_ite, ite_self]
    | (with_reducible refine (foldl_lasting _ _ _ ?_).trans ?_)
    | (with_reducible refine (foldl_fst_lasting _ _ _ ?_).trans ?_)
    | intro _
    | split

@[simp] theorem State.firstLook_lasting (s : State) (o : SecOp) (all missing : Nat) :
    (State.firstLook s o all missing).lasting = s.lasting := by
  unfold State.firstLook
  repeat' first
    | with_reducible rfl
    | simp only [State.islandCount_lasting, State.setOp_lasting, foldl_lasting, foldl_fst_lasting, foldl_snd_lasting, implies_true, Lasting.of_mk, Lasting.eta, lasting_ite, snd_ite, fst_ite, ite_self]
    | (with_reducible refine (foldl_lasting _ _ _ ?_).trans ?_)
    | (with_reducible refine (foldl_fst_lasting _ _ _ ?_).trans ?_)
    | intro _
    | split

@[simp] theorem State.lookAhead_lasting (s : State) (o : SecOp) :
    (State.lookAhead s o).lasting = s.lasting := by
  unfold State.lookAhead
  repeat' first
    | with_reducible rfl
    | simp only [State.fetchAll_lasting, State.firstLook_lasting, foldl_lasting, foldl_fst_lasting, foldl_snd_lasting, implies_true, Lasting.of_mk, Lasting.eta, lasting_ite, snd_ite, fst_ite, ite_self]
    | (with_reducible refine (foldl_lasting _ _ _ ?_).trans ?_)
    | (with_reducible refine (foldl_fst_lasting _ _ _ ?_).trans ?_)
    | intro _
    | split

@[simp] theorem State.lookMeta_lasting (s : State) (o : SecOp) (ready : Bool) :
    (State.lookMeta s o ready).2.lasting = s.lasting := by
  unfold State.lookMeta
  repeat' first
    | with_reducible rfl
    | simp only [State.fetchAll_lasting, State.firstLook_lasting, State.islandCount_lasting, State.setOp_lasting, State.useLine_lasting, foldl_lasting, foldl_fst_lasting, foldl_snd_lasting, implies_true, Lasting.of_mk, Lasting.eta, lasting_ite, snd_ite, fst_ite, ite_self]
    | (with_reducible refine (foldl_lasting _ _ _ ?_).trans ?_)
    | (with_reducible refine (foldl_fst_lasting _ _ _ ?_).trans ?_)
    | intro _
    | split

@[simp] theorem State.refuseKey_lasting (s : State) (o : SecOp) (reason : Nat) :
    (State.refuseKey s o reason).lasting = s.lasting := by
  unfold State.refuseKey
  repeat' first
    | with_reducible rfl
    | simp only [State.failOp_lasting, State.limitReached_lasting, foldl_lasting, foldl_fst_lasting, foldl_snd_lasting, implies_true, Lasting.of_mk, Lasting.eta, lasting_ite, snd_ite, fst_ite, ite_self]
    | (with_reducible refine (foldl_lasting _ _ _ ?_).trans ?_)
    | (with_reducible refine (foldl_fst_lasting _ _ _ ?_).trans ?_)
    | intro _
    | split

@[simp] theorem State.openSector_lasting (n : Nat) (s : State) (a : SecOp) (b : SectorData) :
    (State.openSector n s a b).lasting = s.lasting := by
  induction n generalizing s a b with
  | zero => rfl
  | succ n ih =>
    unfold State.openSector
    repeat' first
      | with_reducible rfl
      | simp only [ih, State.failOp_lasting, State.gotPlain_lasting, State.keyRequest_lasting, State.schedule_lasting, State.setOp_lasting, State.useSchedule_lasting, foldl_lasting, foldl_fst_lasting, foldl_snd_lasting, implies_true, Lasting.of_mk, Lasting.eta, lasting_ite, snd_ite, fst_ite, ite_self]
      | (with_reducible refine (foldl_lasting _ _ _ ?_).trans ?_)
      | (with_reducible refine (foldl_fst_lasting _ _ _ ?_).trans ?_)
      | intro _
      | split

@[simp] theorem State.openStep_lasting (s : State) (o : SecOp) :
    (State.openStep s o).lasting = s.lasting := by
  unfold State.openStep
  repeat' first
    | with_reducible rfl
    | simp only [State.failOp_lasting, State.lookMeta_lasting, State.openSector_lasting, State.refuseKey_lasting, foldl_lasting, foldl_fst_lasting, foldl_snd_lasting, implies_true, Lasting.of_mk, Lasting.eta, lasting_ite, snd_ite, fst_ite, ite_self]
    | (with_reducible refine (foldl_lasting _ _ _ ?_).trans ?_)
    | (with_reducible refine (foldl_fst_lasting _ _ _ ?_).trans ?_)
    | intro _
    | split

@[simp] theorem State.issueRead_lasting (s : State) (o : SecOp) :
    (State.issueRead s o).lasting = s.lasting := by
  unfold State.issueRead
  repeat' first
    | with_reducible rfl
    | simp only [State.count_lasting, State.emit_lasting, State.emitPort_lasting, State.setOp_lasting, foldl_lasting, foldl_fst_lasting, foldl_snd_lasting, implies_true, Lasting.of_mk, Lasting.eta, lasting_ite, snd_ite, fst_ite, ite_self]
    | (with_reducible refine (foldl_lasting _ _ _ ?_).trans ?_)
    | (with_reducible refine (foldl_fst_lasting _ _ _ ?_).trans ?_)
    | intro _
    | split

@[simp] theorem State.openWrite_lasting (s : State) (o : SecOp) (bytes : List (Option Byte)) :
    (State.openWrite s o bytes).lasting = s.lasting := by
  unfold State.openWrite
  repeat' first
    | with_reducible rfl
    | simp only [State.count_lasting, State.dropOp_lasting, State.emit_lasting, State.islandCount_lasting, State.pieceDone_lasting, State.sectorRec_lasting, State.setOp_lasting, State.writeTo_lasting, foldl_lasting, foldl_fst_lasting, foldl_snd_lasting, implies_true, Lasting.of_mk, Lasting.eta, lasting_ite, snd_ite, fst_ite, ite_self]
    | (with_reducible refine (foldl_lasting _ _ _ ?_).trans ?_)
    | (with_reducible refine (foldl_fst_lasting _ _ _ ?_).trans ?_)
    | intro _
    | split

@[simp] theorem State.mergeRuns_lasting (s : State) (o : SecOp) :
    (State.mergeRuns s o).lasting = s.lasting := by
  unfold State.mergeRuns
  repeat' first
    | with_reducible rfl
    | simp only [State.islandCount_lasting, State.modCounters_lasting, State.modRegion_lasting, foldl_lasting, foldl_fst_lasting, foldl_snd_lasting, implies_true, Lasting.of_mk, Lasting.eta, lasting_ite, snd_ite, fst_ite, ite_self]
    | (with_reducible refine (foldl_lasting _ _ _ ?_).trans ?_)
    | (with_reducible refine (foldl_fst_lasting _ _ _ ?_).trans ?_)
    | intro _
    | split

@[simp] theorem State.mergeCharge_lasting (s : State) (o : SecOp) :
    (State.mergeCharge s o).lasting = s.lasting := by
  unfold State.mergeCharge
  repeat' first
    | with_reducible rfl
    | simp only [State.putMaster_lasting, foldl_lasting, foldl_fst_lasting, foldl_snd_lasting, implies_true, Lasting.of_mk, Lasting.eta, lasting_ite, snd_ite, fst_ite, ite_self]
    | (with_reducible refine (foldl_lasting _ _ _ ?_).trans ?_)
    | (with_reducible refine (foldl_fst_lasting _ _ _ ?_).trans ?_)
    | intro _
    | split

@[simp] theorem State.goOn_lasting (s : State) (o : SecOp) :
    (State.goOn s o).lasting = s.lasting := by
  unfold State.goOn
  repeat' first
    | with_reducible rfl
    | simp only [State.failOp_lasting, State.gotPlain_lasting, State.issueRead_lasting, State.keyRequest_lasting, State.mergeCharge_lasting, State.mergeRuns_lasting, State.refuseKey_lasting, State.schedule_lasting, State.sealOp_lasting, State.useSchedule_lasting, foldl_lasting, foldl_fst_lasting, foldl_snd_lasting, implies_true, Lasting.of_mk, Lasting.eta, lasting_ite, snd_ite, fst_ite, ite_self]
    | (with_reducible refine (foldl_lasting _ _ _ ?_).trans ?_)
    | (with_reducible refine (foldl_fst_lasting _ _ _ ?_).trans ?_)
    | intro _
    | split

@[simp] theorem State.start_lasting (s : State) (o : SecOp) :
    (State.start s o).lasting = s.lasting := by
  unfold State.start
  repeat' first
    | with_reducible rfl
    | simp only [State.failOp_lasting, State.goOn_lasting, State.issueRead_lasting, State.lookMeta_lasting, State.mergeCharge_lasting, State.mergeRuns_lasting, State.openWrite_lasting, foldl_lasting, foldl_fst_lasting, foldl_snd_lasting, implies_true, Lasting.of_mk, Lasting.eta, lasting_ite, snd_ite, fst_ite, ite_self]
    | (with_reducible refine (foldl_lasting _ _ _ ?_).trans ?_)
    | (with_reducible refine (foldl_fst_lasting _ _ _ ?_).trans ?_)
    | intro _
    | split

@[simp] theorem State.dropEntry_lasting (s : State) (e : WcEntry) :
    (State.dropEntry s e).lasting = s.lasting := by
  unfold State.dropEntry
  repeat' first
    | with_reducible rfl
    | simp only [foldl_lasting, foldl_fst_lasting, foldl_snd_lasting, implies_true, Lasting.of_mk, Lasting.eta, lasting_ite, snd_ite, fst_ite, ite_self]
    | (with_reducible refine (foldl_lasting _ _ _ ?_).trans ?_)
    | (with_reducible refine (foldl_fst_lasting _ _ _ ?_).trans ?_)
    | intro _
    | split

@[simp] theorem State.flushEntry_lasting (s : State) (e : WcEntry) :
    (State.flushEntry s e).lasting = s.lasting := by
  unfold State.flushEntry
  repeat' first
    | with_reducible rfl
    | simp only [State.addOp_lasting, State.dropEntry_lasting, foldl_lasting, foldl_fst_lasting, foldl_snd_lasting, implies_true, Lasting.of_mk, Lasting.eta, lasting_ite, snd_ite, fst_ite, ite_self]
    | (with_reducible refine (foldl_lasting _ _ _ ?_).trans ?_)
    | (with_reducible refine (foldl_fst_lasting _ _ _ ?_).trans ?_)
    | intro _
    | split

@[simp] theorem State.makeRoom_lasting (island : Nat) (new : Nat × Nat) (n : Nat) (s : State) :
    (State.makeRoom island new n s).lasting = s.lasting := by
  induction n generalizing s with
  | zero => rfl
  | succ n ih =>
    unfold State.makeRoom
    repeat' first
      | with_reducible rfl
      | simp only [ih, State.flushEntry_lasting, foldl_lasting, foldl_fst_lasting, foldl_snd_lasting, implies_true, Lasting.of_mk, Lasting.eta, lasting_ite, snd_ite, fst_ite, ite_self]
      | (with_reducible refine (foldl_lasting _ _ _ ?_).trans ?_)
      | (with_reducible refine (foldl_fst_lasting _ _ _ ?_).trans ?_)
      | intro _
      | split

@[simp] theorem State.intoBuffer_lasting (s : State) (o : SecOp) :
    (State.intoBuffer s o).lasting = s.lasting := by
  unfold State.intoBuffer
  repeat' first
    | with_reducible rfl
    | simp only [State.dropEntry_lasting, State.dropOp_lasting, State.flushEntry_lasting, State.islandCount_lasting, State.makeRoom_lasting, State.modRegion_lasting, State.pieceDone_lasting, State.setOp_lasting, foldl_lasting, foldl_fst_lasting, foldl_snd_lasting, implies_true, Lasting.of_mk, Lasting.eta, lasting_ite, snd_ite, fst_ite, ite_self]
    | (with_reducible refine (foldl_lasting _ _ _ ?_).trans ?_)
    | (with_reducible refine (foldl_fst_lasting _ _ _ ?_).trans ?_)
    | intro _
    | split

@[simp] theorem State.bufferWrite_lasting (s : State) (o : SecOp) :
    (State.bufferWrite s o).lasting = s.lasting := by
  unfold State.bufferWrite
  repeat' first
    | with_reducible rfl
    | simp only [State.failOp_lasting, State.intoBuffer_lasting, State.lookMeta_lasting, State.refuseKey_lasting, foldl_lasting, foldl_fst_lasting, foldl_snd_lasting, implies_true, Lasting.of_mk, Lasting.eta, lasting_ite, snd_ite, fst_ite, ite_self]
    | (with_reducible refine (foldl_lasting _ _ _ ?_).trans ?_)
    | (with_reducible refine (foldl_fst_lasting _ _ _ ?_).trans ?_)
    | intro _
    | split

@[simp] theorem State.advance_lasting (s : State) (id : Nat) :
    (State.advance s id).lasting = s.lasting := by
  unfold State.advance
  repeat' first
    | with_reducible rfl
    | simp only [State.bufferWrite_lasting, State.dropEntry_lasting, State.flushEntry_lasting, State.openStep_lasting, State.setOp_lasting, State.start_lasting, foldl_lasting, foldl_fst_lasting, foldl_snd_lasting, implies_true, Lasting.of_mk, Lasting.eta, lasting_ite, snd_ite, fst_ite, ite_self]
    | (with_reducible refine (foldl_lasting _ _ _ ?_).trans ?_)
    | (with_reducible refine (foldl_fst_lasting _ _ _ ?_).trans ?_)
    | intro _
    | split

@[simp] theorem State.pump_lasting (n : Nat) (s : State) :
    (State.pump n s).lasting = s.lasting := by
  induction n generalizing s with
  | zero => rfl
  | succ n ih =>
    unfold State.pump
    repeat' first
      | with_reducible rfl
      | simp only [ih, State.advance_lasting, foldl_lasting, foldl_fst_lasting, foldl_snd_lasting, implies_true, Lasting.of_mk, Lasting.eta, lasting_ite, snd_ite, fst_ite, ite_self]
      | (with_reducible refine (foldl_lasting _ _ _ ?_).trans ?_)
      | (with_reducible refine (foldl_fst_lasting _ _ _ ?_).trans ?_)
      | intro _
      | split

@[simp] theorem State.prefetch_lasting (s : State) (island n key k : Nat) :
    (State.prefetch s island n key k).lasting = s.lasting := by
  unfold State.prefetch
  repeat' first
    | with_reducible rfl
    | simp only [State.fetchAll_lasting, State.predicted_lasting, foldl_lasting, foldl_fst_lasting, foldl_snd_lasting, implies_true, Lasting.of_mk, Lasting.eta, lasting_ite, snd_ite, fst_ite, ite_self]
    | (with_reducible refine (foldl_lasting _ _ _ ?_).trans ?_)
    | (with_reducible refine (foldl_fst_lasting _ _ _ ?_).trans ?_)
    | intro _
    | split

@[simp] theorem State.predict_lasting (s : State) (t : Tracker) :
    (State.predict s t).lasting = s.lasting := by
  unfold State.predict
  repeat' first
    | with_reducible rfl
    | simp only [State.prefetch_lasting, foldl_lasting, foldl_fst_lasting, foldl_snd_lasting, implies_true, Lasting.of_mk, Lasting.eta, lasting_ite, snd_ite, fst_ite, ite_self]
    | (with_reducible refine (foldl_lasting _ _ _ ?_).trans ?_)
    | (with_reducible refine (foldl_fst_lasting _ _ _ ?_).trans ?_)
    | intro _
    | split

@[simp] theorem State.newTracker_lasting (s : State) (t : Tracker) :
    (State.newTracker s t).lasting = s.lasting := by
  unfold State.newTracker
  repeat' first
    | with_reducible rfl
    | simp only [foldl_lasting, foldl_fst_lasting, foldl_snd_lasting, implies_true, Lasting.of_mk, Lasting.eta, lasting_ite, snd_ite, fst_ite, ite_self]
    | (with_reducible refine (foldl_lasting _ _ _ ?_).trans ?_)
    | (with_reducible refine (foldl_fst_lasting _ _ _ ?_).trans ?_)
    | intro _
    | split

@[simp] theorem State.track_lasting (s : State) (island n key ctx k : Nat) :
    (State.track s island n key ctx k).lasting = s.lasting := by
  unfold State.track
  repeat' first
    | with_reducible rfl
    | simp only [State.newTracker_lasting, foldl_lasting, foldl_fst_lasting, foldl_snd_lasting, implies_true, Lasting.of_mk, Lasting.eta, lasting_ite, snd_ite, fst_ite, ite_self]
    | (with_reducible refine (foldl_lasting _ _ _ ?_).trans ?_)
    | (with_reducible refine (foldl_fst_lasting _ _ _ ?_).trans ?_)
    | intro _
    | split

@[simp] theorem State.trackerExpired_lasting (s : State) (island k : Nat) :
    (State.trackerExpired s island k).lasting = s.lasting := by
  unfold State.trackerExpired
  repeat' first
    | with_reducible rfl
    | simp only [foldl_lasting, foldl_fst_lasting, foldl_snd_lasting, implies_true, Lasting.of_mk, Lasting.eta, lasting_ite, snd_ite, fst_ite, ite_self]
    | (with_reducible refine (foldl_lasting _ _ _ ?_).trans ?_)
    | (with_reducible refine (foldl_fst_lasting _ _ _ ?_).trans ?_)
    | intro _
    | split

@[simp] theorem State.runAhead_lasting (s : State) :
    (State.runAhead s).lasting = s.lasting := by
  unfold State.runAhead
  repeat' first
    | with_reducible rfl
    | simp only [State.lookAhead_lasting, State.predict_lasting, foldl_lasting, foldl_fst_lasting, foldl_snd_lasting, implies_true, Lasting.of_mk, Lasting.eta, lasting_ite, snd_ite, fst_ite, ite_self]
    | (with_reducible refine (foldl_lasting _ _ _ ?_).trans ?_)
    | (with_reducible refine (foldl_fst_lasting _ _ _ ?_).trans ?_)
    | intro _
    | split

@[simp] theorem State.turn_lasting (s : State) :
    (State.turn s).lasting = s.lasting := by
  unfold State.turn
  repeat' first
    | with_reducible rfl
    | simp only [State.pump_lasting, State.runAhead_lasting, State.runBacks_lasting, foldl_lasting, foldl_fst_lasting, foldl_snd_lasting, implies_true, Lasting.of_mk, Lasting.eta, lasting_ite, snd_ite, fst_ite, ite_self]
    | (with_reducible refine (foldl_lasting _ _ _ ?_).trans ?_)
    | (with_reducible refine (foldl_fst_lasting _ _ _ ?_).trans ?_)
    | intro _
    | split

@[simp] theorem State.noteRequest_lasting (s : State) (a : Ask) (handle kind code tc level : Nat) :
    (State.noteRequest s a handle kind code tc level).lasting = s.lasting := by
  unfold State.noteRequest
  repeat' first
    | with_reducible rfl
    | simp only [State.count_lasting, State.traceRec_lasting, foldl_lasting, foldl_fst_lasting, foldl_snd_lasting, implies_true, Lasting.of_mk, Lasting.eta, lasting_ite, snd_ite, fst_ite, ite_self]
    | (with_reducible refine (foldl_lasting _ _ _ ?_).trans ?_)
    | (with_reducible refine (foldl_fst_lasting _ _ _ ?_).trans ?_)
    | intro _
    | split

@[simp] theorem State.addPart_lasting (s : State) (a : Ask) (r : Region) (island id tc : Nat) (e : Nat × Nat × Nat × Nat) :
    (State.addPart s a r island id tc e).lasting = s.lasting := by
  unfold State.addPart
  repeat' first
    | with_reducible rfl
    | simp only [State.addOp_lasting, State.islandCount_lasting, foldl_lasting, foldl_fst_lasting, foldl_snd_lasting, implies_true, Lasting.of_mk, Lasting.eta, lasting_ite, snd_ite, fst_ite, ite_self]
    | (with_reducible refine (foldl_lasting _ _ _ ?_).trans ?_)
    | (with_reducible refine (foldl_fst_lasting _ _ _ ?_).trans ?_)
    | intro _
    | split

@[simp] theorem State.inParts_lasting (s : State) (a : Ask) (r : Region) (island id tc : Nat) (secs : List (Nat × Nat × Nat × Nat)) :
    (State.inParts s a r island id tc secs).lasting = s.lasting := by
  unfold State.inParts
  repeat' first
    | with_reducible rfl
    | simp only [State.addPart_lasting, State.pieceDone_lasting, State.sectorFault_lasting, State.track_lasting, State.turn_lasting, foldl_lasting, foldl_fst_lasting, foldl_snd_lasting, implies_true, Lasting.of_mk, Lasting.eta, lasting_ite, snd_ite, fst_ite, ite_self]
    | (with_reducible refine (foldl_lasting _ _ _ ?_).trans ?_)
    | (with_reducible refine (foldl_fst_lasting _ _ _ ?_).trans ?_)
    | intro _
    | split

@[simp] theorem State.submit_lasting (s : State) (a : Ask) :
    (State.submit s a).lasting = s.lasting := by
  unfold State.submit
  repeat' first
    | with_reducible rfl
    | simp only [State.charge_lasting, State.inParts_lasting, State.modCounters_lasting, State.noteRequest_lasting, State.raiseStream_lasting, State.reclass_lasting, foldl_lasting, foldl_fst_lasting, foldl_snd_lasting, implies_true, Lasting.of_mk, Lasting.eta, lasting_ite, snd_ite, fst_ite, ite_self]
    | (with_reducible refine (foldl_lasting _ _ _ ?_).trans ?_)
    | (with_reducible refine (foldl_fst_lasting _ _ _ ?_).trans ?_)
    | intro _
    | split

@[simp] theorem State.cameBack_lasting (s : State) (island id : Nat) (d : SectorData) :
    (State.cameBack s island id d).lasting = s.lasting := by
  unfold State.cameBack
  repeat' first
    | with_reducible rfl
    | simp only [State.deliverTo_lasting, State.dropOp_lasting, State.failOp_lasting, State.islandCount_lasting, State.openStep_lasting, State.openWrite_lasting, State.sectorRec_lasting, State.setOp_lasting, State.turn_lasting, foldl_lasting, foldl_fst_lasting, foldl_snd_lasting, implies_true, Lasting.of_mk, Lasting.eta, lasting_ite, snd_ite, fst_ite, ite_self]
    | (with_reducible refine (foldl_lasting _ _ _ ?_).trans ?_)
    | (with_reducible refine (foldl_fst_lasting _ _ _ ?_).trans ?_)
    | intro _
    | split

@[simp] theorem State.memoryData_lasting (s : State) (stack id : Nat) (d : SectorData) :
    (State.memoryData s stack id d).lasting = s.lasting := by
  unfold State.memoryData
  repeat' first
    | with_reducible rfl
    | simp only [State.cameBack_lasting, foldl_lasting, foldl_fst_lasting, foldl_snd_lasting, implies_true, Lasting.of_mk, Lasting.eta, lasting_ite, snd_ite, fst_ite, ite_self]
    | (with_reducible refine (foldl_lasting _ _ _ ?_).trans ?_)
    | (with_reducible refine (foldl_fst_lasting _ _ _ ?_).trans ?_)
    | intro _
    | split

@[simp] theorem State.trayData_lasting (s : State) (port id : Nat) (d : SectorData) :
    (State.trayData s port id d).lasting = s.lasting := by
  unfold State.trayData
  repeat' first
    | with_reducible rfl
    | simp only [State.cameBack_lasting, State.count_lasting, foldl_lasting, foldl_fst_lasting, foldl_snd_lasting, implies_true, Lasting.of_mk, Lasting.eta, lasting_ite, snd_ite, fst_ite, ite_self]
    | (with_reducible refine (foldl_lasting _ _ _ ?_).trans ?_)
    | (with_reducible refine (foldl_fst_lasting _ _ _ ?_).trans ?_)
    | intro _
    | split

@[simp] theorem State.written_lasting (s : State) (o : SecOp) :
    (State.written s o).lasting = s.lasting := by
  unfold State.written
  repeat' first
    | with_reducible rfl
    | simp only [State.dropOp_lasting, State.pieceDone_lasting, foldl_lasting, foldl_fst_lasting, foldl_snd_lasting, implies_true, Lasting.of_mk, Lasting.eta, lasting_ite, snd_ite, fst_ite, ite_self]
    | (with_reducible refine (foldl_lasting _ _ _ ?_).trans ?_)
    | (with_reducible refine (foldl_fst_lasting _ _ _ ?_).trans ?_)
    | intro _
    | split

@[simp] theorem State.tableStored_lasting (s : State) (h : Nat) (secs : List (Nat × Node)) (charged : Bool := false) :
    (State.tableStored s h secs charged).lasting = s.lasting := by
  unfold State.tableStored
  repeat' first
    | with_reducible rfl
    | simp only [State.chargedLike_lasting, State.endFetches_lasting, State.issueFetch_lasting, State.maintain_lasting, State.storeTable_lasting, foldl_lasting, foldl_fst_lasting, foldl_snd_lasting, implies_true, Lasting.of_mk, Lasting.eta, lasting_ite, snd_ite, fst_ite, ite_self]
    | (with_reducible refine (foldl_lasting _ _ _ ?_).trans ?_)
    | (with_reducible refine (foldl_fst_lasting _ _ _ ?_).trans ?_)
    | intro _
    | split

@[simp] theorem State.tableWrite_lasting (s : State) (h sec : Nat) :
    (State.tableWrite s h sec).lasting = s.lasting := by
  unfold State.tableWrite
  repeat' first
    | with_reducible rfl
    | simp only [State.fetchMeta_lasting, State.holdPath_lasting, State.keyRequest_lasting, State.modJob_lasting, State.modNode_lasting, State.modTree_lasting, State.schedule_lasting, State.tableStored_lasting, State.takeFloor_lasting, foldl_lasting, foldl_fst_lasting, foldl_snd_lasting, implies_true, Lasting.of_mk, Lasting.eta, lasting_ite, snd_ite, fst_ite, ite_self]
    | (with_reducible refine (foldl_lasting _ _ _ ?_).trans ?_)
    | (with_reducible refine (foldl_fst_lasting _ _ _ ?_).trans ?_)
    | intro _
    | split

@[simp] theorem State.tablesWritten_lasting (s : State) :
    (State.tablesWritten s).lasting = s.lasting := by
  unfold State.tablesWritten
  repeat' first
    | with_reducible rfl
    | simp only [State.tableWrite_lasting, foldl_lasting, foldl_fst_lasting, foldl_snd_lasting, implies_true, Lasting.of_mk, Lasting.eta, lasting_ite, snd_ite, fst_ite, ite_self]
    | (with_reducible refine (foldl_lasting _ _ _ ?_).trans ?_)
    | (with_reducible refine (foldl_fst_lasting _ _ _ ?_).trans ?_)
    | intro _
    | split

@[simp] theorem State.tableTouch_lasting (s : State) (h sec : Nat) :
    (State.tableTouch s h sec).lasting = s.lasting := by
  unfold State.tableTouch
  repeat' first
    | with_reducible rfl
    | simp only [State.modJob_lasting, State.tableWrite_lasting, foldl_lasting, foldl_fst_lasting, foldl_snd_lasting, implies_true, Lasting.of_mk, Lasting.eta, lasting_ite, snd_ite, fst_ite, ite_self]
    | (with_reducible refine (foldl_lasting _ _ _ ?_).trans ?_)
    | (with_reducible refine (foldl_fst_lasting _ _ _ ?_).trans ?_)
    | intro _
    | split

@[simp] theorem State.tableReset_lasting (s : State) (h level index : Nat) (leaf : Node) :
    (State.tableReset s h level index leaf).lasting = s.lasting := by
  unfold State.tableReset
  repeat' first
    | with_reducible rfl
    | simp only [State.count_lasting, State.modJob_lasting, State.setEntry_lasting, State.tableStored_lasting, foldl_lasting, foldl_fst_lasting, foldl_snd_lasting, implies_true, Lasting.of_mk, Lasting.eta, lasting_ite, snd_ite, fst_ite, ite_self]
    | (with_reducible refine (foldl_lasting _ _ _ ?_).trans ?_)
    | (with_reducible refine (foldl_fst_lasting _ _ _ ?_).trans ?_)
    | intro _
    | split

@[simp] theorem State.setRun_lasting (s : State) (r : SubtreeRun) :
    (State.setRun s r).lasting = s.lasting := by
  unfold State.setRun
  repeat' first
    | with_reducible rfl
    | simp only [foldl_lasting, foldl_fst_lasting, foldl_snd_lasting, implies_true, Lasting.of_mk, Lasting.eta, lasting_ite, snd_ite, fst_ite, ite_self]
    | (with_reducible refine (foldl_lasting _ _ _ ?_).trans ?_)
    | (with_reducible refine (foldl_fst_lasting _ _ _ ?_).trans ?_)
    | intro _
    | split

@[simp] theorem State.putNode_lasting (s : State) (r : SubtreeRun) (dk : Key) (lvl idx counter : Nat) (n : Node) :
    (State.putNode s r dk lvl idx counter n).1.lasting = s.lasting := by
  unfold State.putNode
  repeat' first
    | with_reducible rfl
    | simp only [State.writeNode_lasting, foldl_lasting, foldl_fst_lasting, foldl_snd_lasting, implies_true, Lasting.of_mk, Lasting.eta, lasting_ite, snd_ite, fst_ite, ite_self]
    | (with_reducible refine (foldl_lasting _ _ _ ?_).trans ?_)
    | (with_reducible refine (foldl_fst_lasting _ _ _ ?_).trans ?_)
    | intro _
    | split

@[simp] theorem State.rewrite_lasting (s : State) (r : SubtreeRun) :
    (State.rewrite s r).lasting = s.lasting := by
  unfold State.rewrite
  repeat' first
    | with_reducible rfl
    | simp only [State.askBack_lasting, State.hardFault_lasting, State.interiorWrap_lasting, State.laneFound_lasting, State.metaRefused_lasting, State.modNode_lasting, State.putNode_lasting, State.setRun_lasting, State.tableReset_lasting, State.takeFloor_lasting, foldl_lasting, foldl_fst_lasting, foldl_snd_lasting, implies_true, Lasting.of_mk, Lasting.eta, lasting_ite, snd_ite, fst_ite, ite_self]
    | (with_reducible refine (foldl_lasting _ _ _ ?_).trans ?_)
    | (with_reducible refine (foldl_fst_lasting _ _ _ ?_).trans ?_)
    | intro _
    | split

@[simp] theorem State.rewriteDue_lasting (s : State) (r : SubtreeRun) :
    (State.rewriteDue s r).lasting = s.lasting := by
  unfold State.rewriteDue
  repeat' first
    | with_reducible rfl
    | simp only [State.complete_lasting, State.fetchNodes_lasting, State.holdPath_lasting, State.rewrite_lasting, State.wrapRoom_lasting, foldl_lasting, foldl_fst_lasting, foldl_snd_lasting, implies_true, Lasting.of_mk, Lasting.eta, lasting_ite, snd_ite, fst_ite, ite_self]
    | (with_reducible refine (foldl_lasting _ _ _ ?_).trans ?_)
    | (with_reducible refine (foldl_fst_lasting _ _ _ ?_).trans ?_)
    | intro _
    | split

@[simp] theorem State.subtreesEnd_lasting (s : State) :
    (State.subtreesEnd s).lasting = s.lasting := by
  unfold State.subtreesEnd
  repeat' first
    | with_reducible rfl
    | simp only [State.complete_lasting, State.notLost_lasting, foldl_lasting, foldl_fst_lasting, foldl_snd_lasting, implies_true, Lasting.of_mk, Lasting.eta, lasting_ite, snd_ite, fst_ite, ite_self]
    | (with_reducible refine (foldl_lasting _ _ _ ?_).trans ?_)
    | (with_reducible refine (foldl_fst_lasting _ _ _ ?_).trans ?_)
    | intro _
    | split

@[simp] theorem State.subtreesRun_lasting (s : State) :
    (State.subtreesRun s).lasting = s.lasting := by
  unfold State.subtreesRun
  repeat' first
    | with_reducible rfl
    | simp only [State.rewriteDue_lasting, State.subtreesEnd_lasting, foldl_lasting, foldl_fst_lasting, foldl_snd_lasting, implies_true, Lasting.of_mk, Lasting.eta, lasting_ite, snd_ite, fst_ite, ite_self]
    | (with_reducible refine (foldl_lasting _ _ _ ?_).trans ?_)
    | (with_reducible refine (foldl_fst_lasting _ _ _ ?_).trans ?_)
    | intro _
    | split

@[simp] theorem State.reread_lasting (s : State) (r : SubtreeRun) (copyB : Bool) (code : Nat) (b : Bytes) :
    (State.reread s r copyB code b).lasting = s.lasting := by
  unfold State.reread
  repeat' first
    | with_reducible rfl
    | simp only [State.complete_lasting, State.notLost_lasting, State.putLine_lasting, State.repairNode_lasting, State.setRun_lasting, foldl_lasting, foldl_fst_lasting, foldl_snd_lasting, implies_true, Lasting.of_mk, Lasting.eta, lasting_ite, snd_ite, fst_ite, ite_self]
    | (with_reducible refine (foldl_lasting _ _ _ ?_).trans ?_)
    | (with_reducible refine (foldl_fst_lasting _ _ _ ?_).trans ?_)
    | intro _
    | split

@[simp] theorem State.subtreeAccepted_lasting (s : State) (id : Nat) :
    (State.subtreeAccepted s id).lasting = s.lasting := by
  unfold State.subtreeAccepted
  repeat' first
    | with_reducible rfl
    | simp only [foldl_lasting, foldl_fst_lasting, foldl_snd_lasting, implies_true, Lasting.of_mk, Lasting.eta, lasting_ite, snd_ite, fst_ite, ite_self]
    | (with_reducible refine (foldl_lasting _ _ _ ?_).trans ?_)
    | (with_reducible refine (foldl_fst_lasting _ _ _ ?_).trans ?_)
    | intro _
    | split

@[simp] theorem State.unpause_lasting (s : State) :
    (State.unpause s).lasting = s.lasting := by
  unfold State.unpause
  repeat' first
    | with_reducible rfl
    | simp only [foldl_lasting, foldl_fst_lasting, foldl_snd_lasting, implies_true, Lasting.of_mk, Lasting.eta, lasting_ite, snd_ite, fst_ite, ite_self]
    | (with_reducible refine (foldl_lasting _ _ _ ?_).trans ?_)
    | (with_reducible refine (foldl_fst_lasting _ _ _ ?_).trans ?_)
    | intro _
    | split

@[simp] theorem State.resumeStops_lasting (s : State) (n : Nat) :
    (State.resumeStops s n).lasting = s.lasting := by
  unfold State.resumeStops
  repeat' first
    | with_reducible rfl
    | simp only [State.maintained_lasting, foldl_lasting, foldl_fst_lasting, foldl_snd_lasting, implies_true, Lasting.of_mk, Lasting.eta, lasting_ite, snd_ite, fst_ite, ite_self]
    | (with_reducible refine (foldl_lasting _ _ _ ?_).trans ?_)
    | (with_reducible refine (foldl_fst_lasting _ _ _ ?_).trans ?_)
    | intro _
    | split

@[simp] theorem State.resumed_lasting (s : State) (n : Nat) :
    (State.resumed s n).lasting = s.lasting := by
  unfold State.resumed
  repeat' first
    | with_reducible rfl
    | simp only [State.completeOpt_lasting, State.modRegion_lasting, State.post_lasting, State.runBacks_lasting, State.unpause_lasting, foldl_lasting, foldl_fst_lasting, foldl_snd_lasting, implies_true, Lasting.of_mk, Lasting.eta, lasting_ite, snd_ite, fst_ite, ite_self]
    | (with_reducible refine (foldl_lasting _ _ _ ?_).trans ?_)
    | (with_reducible refine (foldl_fst_lasting _ _ _ ?_).trans ?_)
    | intro _
    | split

@[simp] theorem State.resumeAck_lasting (s : State) (port nth id : Nat) :
    (State.resumeAck s port nth id).lasting = s.lasting := by
  unfold State.resumeAck
  repeat' first
    | with_reducible rfl
    | simp only [State.maintained_lasting, State.modLine_lasting, State.recordAck_lasting, State.resumed_lasting, foldl_lasting, foldl_fst_lasting, foldl_snd_lasting, implies_true, Lasting.of_mk, Lasting.eta, lasting_ite, snd_ite, fst_ite, ite_self]
    | (with_reducible refine (foldl_lasting _ _ _ ?_).trans ?_)
    | (with_reducible refine (foldl_fst_lasting _ _ _ ?_).trans ?_)
    | intro _
    | split

@[simp] theorem State.installed_lasting (s : State) (f : Fetch) (val : LineVal) :
    (State.installed s f val).lasting = s.lasting := by
  unfold State.installed
  repeat' first
    | with_reducible rfl
    | simp only [State.endFetches_lasting, State.putLine_lasting, foldl_lasting, foldl_fst_lasting, foldl_snd_lasting, implies_true, Lasting.of_mk, Lasting.eta, lasting_ite, snd_ite, fst_ite, ite_self]
    | (with_reducible refine (foldl_lasting _ _ _ ?_).trans ?_)
    | (with_reducible refine (foldl_fst_lasting _ _ _ ?_).trans ?_)
    | intro _
    | split

@[simp] theorem State.keySectorFails_lasting (s : State) (island h sec : Nat) :
    (State.keySectorFails s island h sec).lasting = s.lasting := by
  unfold State.keySectorFails
  repeat' first
    | with_reducible rfl
    | simp only [State.failWaiting_lasting, foldl_lasting, foldl_fst_lasting, foldl_snd_lasting, implies_true, Lasting.of_mk, Lasting.eta, lasting_ite, snd_ite, fst_ite, ite_self]
    | (with_reducible refine (foldl_lasting _ _ _ ?_).trans ?_)
    | (with_reducible refine (foldl_fst_lasting _ _ _ ?_).trans ?_)
    | intro _
    | split

@[simp] theorem State.cutOff_lasting (s : State) (tree l i reason : Nat) :
    (State.cutOff s tree l i reason).lasting = s.lasting := by
  unfold State.cutOff
  repeat' first
    | with_reducible rfl
    | simp only [State.complete_lasting, State.endFetches_lasting, State.failWaiting_lasting, foldl_lasting, foldl_fst_lasting, foldl_snd_lasting, implies_true, Lasting.of_mk, Lasting.eta, lasting_ite, snd_ite, fst_ite, ite_self]
    | (with_reducible refine (foldl_lasting _ _ _ ?_).trans ?_)
    | (with_reducible refine (foldl_fst_lasting _ _ _ ?_).trans ?_)
    | intro _
    | split

@[simp] theorem State.nodeCame_lasting (s : State) (f : Fetch) (tree l i : Nat) (good : Option Node) (code : Nat) (b : Bytes) :
    (State.nodeCame s f tree l i good code b).lasting = s.lasting := by
  unfold State.nodeCame
  repeat' first
    | with_reducible rfl
    | simp only [State.chargedLike_lasting, State.cutOff_lasting, State.endFetches_lasting, State.installed_lasting, State.issueFetch_lasting, State.loseNode_lasting, State.notLost_lasting, State.repairNode_lasting, foldl_lasting, foldl_fst_lasting, foldl_snd_lasting, implies_true, Lasting.of_mk, Lasting.eta, lasting_ite, snd_ite, fst_ite, ite_self]
    | (with_reducible refine (foldl_lasting _ _ _ ?_).trans ?_)
    | (with_reducible refine (foldl_fst_lasting _ _ _ ?_).trans ?_)
    | intro _
    | split

@[simp] theorem State.settle_lasting (s : State) (f : Fetch) (b : Bytes) (ue : Bool) :
    (State.settle s f b ue).lasting = s.lasting := by
  unfold State.settle
  repeat' first
    | with_reducible rfl
    | simp only [State.complete_lasting, State.cutOff_lasting, State.endFetches_lasting, State.failWaiting_lasting, State.fetchMeta_lasting, State.free_lasting, State.installed_lasting, State.keyRequest_lasting, State.keySectorFails_lasting, State.modJob_lasting, State.nodeCame_lasting, State.reread_lasting, State.schedule_lasting, State.tableRec_lasting, foldl_lasting, foldl_fst_lasting, foldl_snd_lasting, implies_true, Lasting.of_mk, Lasting.eta, lasting_ite, snd_ite, fst_ite, ite_self]
    | (with_reducible refine (foldl_lasting _ _ _ ?_).trans ?_)
    | (with_reducible refine (foldl_fst_lasting _ _ _ ?_).trans ?_)
    | intro _
    | split

@[simp] theorem State.settleAll_lasting (n : Nat) (s : State) :
    (State.settleAll n s).lasting = s.lasting := by
  induction n generalizing s with
  | zero => exact State.tablesWritten_lasting s
  | succ n ih =>
  unfold State.settleAll
  repeat' first
    | with_reducible rfl
    | simp only [ih, State.settle_lasting, foldl_lasting, foldl_fst_lasting, foldl_snd_lasting, implies_true, Lasting.of_mk, Lasting.eta, lasting_ite, snd_ite, fst_ite, ite_self]
    | (with_reducible refine (foldl_lasting _ _ _ ?_).trans ?_)
    | (with_reducible refine (foldl_fst_lasting _ _ _ ?_).trans ?_)
    | intro _
    | split

@[simp] theorem State.accepted_lasting (s : State) (island nth id : Nat) :
    (State.accepted s island nth id).lasting = s.lasting := by
  unfold State.accepted
  repeat' first
    | with_reducible rfl
    | simp only [State.backAccepted_lasting, State.evict_lasting, State.recordAck_lasting, State.runBacks_lasting, State.setOp_lasting, State.settleAll_lasting, State.subtreeAccepted_lasting, State.subtreesRun_lasting, State.turn_lasting, State.upkeepAccepted_lasting, State.wipeAccepted_lasting, State.written_lasting, foldl_lasting, foldl_fst_lasting, foldl_snd_lasting, implies_true, Lasting.of_mk, Lasting.eta, lasting_ite, snd_ite, fst_ite, ite_self]
    | (with_reducible refine (foldl_lasting _ _ _ ?_).trans ?_)
    | (with_reducible refine (foldl_fst_lasting _ _ _ ?_).trans ?_)
    | intro _
    | split

@[simp] theorem State.memoryAccepted_lasting (s : State) (stack id : Nat) :
    (State.memoryAccepted s stack id).lasting = s.lasting := by
  unfold State.memoryAccepted
  repeat' first
    | with_reducible rfl
    | simp only [State.accepted_lasting, foldl_lasting, foldl_fst_lasting, foldl_snd_lasting, implies_true, Lasting.of_mk, Lasting.eta, lasting_ite, snd_ite, fst_ite, ite_self]
    | (with_reducible refine (foldl_lasting _ _ _ ?_).trans ?_)
    | (with_reducible refine (foldl_fst_lasting _ _ _ ?_).trans ?_)
    | intro _
    | split

@[simp] theorem State.trayAck_lasting (s : State) (port nth id : Nat) :
    (State.trayAck s port nth id).lasting = s.lasting := by
  unfold State.trayAck
  repeat' first
    | with_reducible rfl
    | simp only [State.accepted_lasting, State.count_lasting, State.resumeAck_lasting, foldl_lasting, foldl_fst_lasting, foldl_snd_lasting, implies_true, Lasting.of_mk, Lasting.eta, lasting_ite, snd_ite, fst_ite, ite_self]
    | (with_reducible refine (foldl_lasting _ _ _ ?_).trans ?_)
    | (with_reducible refine (foldl_fst_lasting _ _ _ ?_).trans ?_)
    | intro _
    | split

@[simp] theorem State.suspend_lasting (s : State) (n : Nat) :
    (State.suspend s n).lasting = s.lasting := by
  unfold State.suspend
  repeat' first
    | with_reducible rfl
    | simp only [State.dropOp_lasting, State.modRegion_lasting, State.pieceDone_lasting, State.post_lasting, foldl_lasting, foldl_fst_lasting, foldl_snd_lasting, implies_true, Lasting.of_mk, Lasting.eta, lasting_ite, snd_ite, fst_ite, ite_self]
    | (with_reducible refine (foldl_lasting _ _ _ ?_).trans ?_)
    | (with_reducible refine (foldl_fst_lasting _ _ _ ?_).trans ?_)
    | intro _
    | split

@[simp] theorem State.resumeFails_lasting (s : State) (n : Nat) :
    (State.resumeFails s n).lasting = s.lasting := by
  unfold State.resumeFails
  repeat' first
    | with_reducible rfl
    | simp only [State.complete_lasting, State.modRegion_lasting, State.resumeStops_lasting, foldl_lasting, foldl_fst_lasting, foldl_snd_lasting, implies_true, Lasting.of_mk, Lasting.eta, lasting_ite, snd_ite, fst_ite, ite_self]
    | (with_reducible refine (foldl_lasting _ _ _ ?_).trans ?_)
    | (with_reducible refine (foldl_fst_lasting _ _ _ ?_).trans ?_)
    | intro _
    | split

@[simp] theorem State.rootFails_lasting (s : State) (key : LineKey) :
    (State.rootFails s key).lasting = s.lasting := by
  unfold State.rootFails
  repeat' first
    | with_reducible rfl
    | simp only [State.cutOff_lasting, State.loseRoot_lasting, State.resumeFails_lasting, State.suspend_lasting, foldl_lasting, foldl_fst_lasting, foldl_snd_lasting, implies_true, Lasting.of_mk, Lasting.eta, lasting_ite, snd_ite, fst_ite, ite_self]
    | (with_reducible refine (foldl_lasting _ _ _ ?_).trans ?_)
    | (with_reducible refine (foldl_fst_lasting _ _ _ ?_).trans ?_)
    | intro _
    | split

@[simp] theorem State.metaReturn_lasting (s : State) (island id : Nat) (b : Bytes) (ue rootError : Bool) :
    (State.metaReturn s island id b ue rootError).lasting = s.lasting := by
  unfold State.metaReturn
  repeat' first
    | with_reducible rfl
    | simp only [State.count_lasting, State.rootFails_lasting, State.runBacks_lasting, State.settleAll_lasting, State.subtreesRun_lasting, State.turn_lasting, foldl_lasting, foldl_fst_lasting, foldl_snd_lasting, implies_true, Lasting.of_mk, Lasting.eta, lasting_ite, snd_ite, fst_ite, ite_self]
    | (with_reducible refine (foldl_lasting _ _ _ ?_).trans ?_)
    | (with_reducible refine (foldl_fst_lasting _ _ _ ?_).trans ?_)
    | intro _
    | split

@[simp] theorem State.scheduleRoom_lasting (s : State) (island : Nat) :
    (State.scheduleRoom s island).2.lasting = s.lasting := by
  unfold State.scheduleRoom
  repeat' first
    | with_reducible rfl
    | simp only [State.evict_lasting, foldl_lasting, foldl_fst_lasting, foldl_snd_lasting, implies_true, Lasting.of_mk, Lasting.eta, lasting_ite, snd_ite, fst_ite, ite_self]
    | (with_reducible refine (foldl_lasting _ _ _ ?_).trans ?_)
    | (with_reducible refine (foldl_fst_lasting _ _ _ ?_).trans ?_)
    | intro _
    | split

@[simp] theorem State.dataKeyDelivered_lasting (s : State) (r : KeyReq) (index gen : Nat) :
    (State.dataKeyDelivered s r index gen).lasting = s.lasting := by
  unfold State.dataKeyDelivered
  repeat' first
    | with_reducible rfl
    | simp only [State.runBacks_lasting, State.settleAll_lasting, State.subtreesRun_lasting, State.turn_lasting, foldl_lasting, foldl_fst_lasting, foldl_snd_lasting, implies_true, Lasting.of_mk, Lasting.eta, lasting_ite, snd_ite, fst_ite, ite_self]
    | (with_reducible refine (foldl_lasting _ _ _ ?_).trans ?_)
    | (with_reducible refine (foldl_fst_lasting _ _ _ ?_).trans ?_)
    | intro _
    | split

@[simp] theorem State.windowExpired_lasting (s : State) (island region sector : Nat) :
    (State.windowExpired s island region sector).lasting = s.lasting := by
  unfold State.windowExpired
  repeat' first
    | with_reducible rfl
    | simp only [State.flushEntry_lasting, State.turn_lasting, foldl_lasting, foldl_fst_lasting, foldl_snd_lasting, implies_true, Lasting.of_mk, Lasting.eta, lasting_ite, snd_ite, fst_ite, ite_self]
    | (with_reducible refine (foldl_lasting _ _ _ ?_).trans ?_)
    | (with_reducible refine (foldl_fst_lasting _ _ _ ?_).trans ?_)
    | intro _
    | split

@[simp] theorem State.flushWhere_lasting (s : State) (p : WcEntry → Bool) :
    (State.flushWhere s p).lasting = s.lasting := by
  unfold State.flushWhere
  repeat' first
    | with_reducible rfl
    | simp only [State.flushEntry_lasting, State.turn_lasting, foldl_lasting, foldl_fst_lasting, foldl_snd_lasting, implies_true, Lasting.of_mk, Lasting.eta, lasting_ite, snd_ite, fst_ite, ite_self]
    | (with_reducible refine (foldl_lasting _ _ _ ?_).trans ?_)
    | (with_reducible refine (foldl_fst_lasting _ _ _ ?_).trans ?_)
    | intro _
    | split

@[simp] theorem State.wrapLeaf_lasting (s : State) (island region leaf : Nat) (data : List SectorData) (o : SecOp) (old : Node) (dk : Key) :
    (State.wrapLeaf s island region leaf data o old dk).lasting = s.lasting := by
  unfold State.wrapLeaf
  repeat' first
    | with_reducible rfl
    | simp only [State.countSeals_lasting, State.maintain_lasting, State.modNode_lasting, State.modTree_lasting, State.post_lasting, State.sectorRec_lasting, State.setOp_lasting, State.takeFloor_lasting, State.takeResume_lasting, State.turn_lasting, State.writeSealed_lasting, State.writeTo_lasting, foldl_lasting, foldl_fst_lasting, foldl_snd_lasting, implies_true, Lasting.of_mk, Lasting.eta, lasting_ite, snd_ite, fst_ite, ite_self]
    | (with_reducible refine (foldl_lasting _ _ _ ?_).trans ?_)
    | (with_reducible refine (foldl_fst_lasting _ _ _ ?_).trans ?_)
    | intro _
    | split

@[simp] theorem State.leafWrap_lasting (s : State) (island region leaf : Nat) (data : List SectorData) :
    (State.leafWrap s island region leaf data).lasting = s.lasting := by
  unfold State.leafWrap
  repeat' first
    | with_reducible rfl
    | simp only [State.failOp_lasting, State.holdPath_lasting, State.keyRequest_lasting, State.laneMismatch_lasting, State.refuseKey_lasting, State.runBacks_lasting, State.schedule_lasting, State.turn_lasting, State.wrapLeaf_lasting, foldl_lasting, foldl_fst_lasting, foldl_snd_lasting, implies_true, Lasting.of_mk, Lasting.eta, lasting_ite, snd_ite, fst_ite, ite_self]
    | (with_reducible refine (foldl_lasting _ _ _ ?_).trans ?_)
    | (with_reducible refine (foldl_fst_lasting _ _ _ ?_).trans ?_)
    | intro _
    | split

end Machine
end Sys2Proof
end

