-- ==== Sys2Proof/Laws/LastingSectorCommands.lean ====
section
/-!
SUPPORT. Laws/LastingSectorCommands.lean: no operation of Machine/SectorCommands.lean touches the queue, the fuse array, power, the reset or the
TAMPER_HELD latch.
-/

-- One theorem after another: side by side, each holds a thread (NOTES.md).
set_option Elab.async false

namespace Sys2Proof
namespace Machine

set_option linter.unusedSimpArgs false

@[simp] theorem State.sealsEnd_lasting (s : State) :
    (State.sealsEnd s).lasting = s.lasting := by
  unfold State.sealsEnd
  repeat' first
    | with_reducible rfl
    | simp only [State.complete_lasting, State.modRegion_lasting, State.sealOp_lasting, foldl_lasting, foldl_fst_lasting, foldl_snd_lasting, implies_true, Lasting.of_mk, Lasting.eta, lasting_ite, snd_ite, fst_ite, ite_self]
    | (with_reducible refine (foldl_lasting _ _ _ ?_).trans ?_)
    | (with_reducible refine (foldl_fst_lasting _ _ _ ?_).trans ?_)
    | intro _
    | split

@[simp] theorem State.readEntry_lasting (s : State) (h i : Nat) :
    (State.readEntry s h i).lasting = s.lasting := by
  unfold State.readEntry
  repeat' first
    | with_reducible rfl
    | simp only [State.fetchAll_lasting, foldl_lasting, foldl_fst_lasting, foldl_snd_lasting, implies_true, Lasting.of_mk, Lasting.eta, lasting_ite, snd_ite, fst_ite, ite_self]
    | (with_reducible refine (foldl_lasting _ _ _ ?_).trans ?_)
    | (with_reducible refine (foldl_fst_lasting _ _ _ ?_).trans ?_)
    | intro _
    | split

@[simp] theorem State.zeroEnd_lasting (s : State) (z : ZeroRun) (st : Status) :
    (State.zeroEnd s z st).lasting = s.lasting := by
  unfold State.zeroEnd
  repeat' first
    | with_reducible rfl
    | simp only [State.complete_lasting, State.written_lasting, foldl_lasting, foldl_fst_lasting, foldl_snd_lasting, implies_true, Lasting.of_mk, Lasting.eta, lasting_ite, snd_ite, fst_ite, ite_self]
    | (with_reducible refine (foldl_lasting _ _ _ ?_).trans ?_)
    | (with_reducible refine (foldl_fst_lasting _ _ _ ?_).trans ?_)
    | intro _
    | split

@[simp] theorem State.zeroNext_lasting (s : State) (op : Nat) :
    (State.zeroNext s op).lasting = s.lasting := by
  unfold State.zeroNext
  repeat' first
    | with_reducible rfl
    | simp only [State.submit_lasting, State.zeroEnd_lasting, foldl_lasting, foldl_fst_lasting, foldl_snd_lasting, implies_true, Lasting.of_mk, Lasting.eta, lasting_ite, snd_ite, fst_ite, ite_self]
    | (with_reducible refine (foldl_lasting _ _ _ ?_).trans ?_)
    | (with_reducible refine (foldl_fst_lasting _ _ _ ?_).trans ?_)
    | intro _
    | split

@[simp] theorem State.zeroDone_lasting (s : State) (op : Nat) (failure : Option (Status × Nat × Nat)) :
    (State.zeroDone s op failure).lasting = s.lasting := by
  unfold State.zeroDone
  repeat' first
    | with_reducible rfl
    | simp only [State.written_lasting, State.zeroEnd_lasting, State.zeroNext_lasting, foldl_lasting, foldl_fst_lasting, foldl_snd_lasting, implies_true, Lasting.of_mk, Lasting.eta, lasting_ite, snd_ite, fst_ite, ite_self]
    | (with_reducible refine (foldl_lasting _ _ _ ?_).trans ?_)
    | (with_reducible refine (foldl_fst_lasting _ _ _ ?_).trans ?_)
    | intro _
    | split

@[simp] theorem State.abandon_lasting (s : State) (h i : Nat) :
    (State.abandon s h i).lasting = s.lasting := by
  unfold State.abandon
  repeat' first
    | with_reducible rfl
    | simp only [State.complete_lasting, State.modRegion_lasting, foldl_lasting, foldl_fst_lasting, foldl_snd_lasting, implies_true, Lasting.of_mk, Lasting.eta, lasting_ite, snd_ite, fst_ite, ite_self]
    | (with_reducible refine (foldl_lasting _ _ _ ?_).trans ?_)
    | (with_reducible refine (foldl_fst_lasting _ _ _ ?_).trans ?_)
    | intro _
    | split

@[simp] theorem State.uncacheEntry_lasting (s : State) (h i : Nat) :
    (State.uncacheEntry s h i).lasting = s.lasting := by
  unfold State.uncacheEntry
  repeat' first
    | with_reducible rfl
    | simp only [State.tableTouch_lasting, foldl_lasting, foldl_fst_lasting, foldl_snd_lasting, implies_true, Lasting.of_mk, Lasting.eta, lasting_ite, snd_ite, fst_ite, ite_self]
    | (with_reducible refine (foldl_lasting _ _ _ ?_).trans ?_)
    | (with_reducible refine (foldl_fst_lasting _ _ _ ?_).trans ?_)
    | intro _
    | split

@[simp] theorem State.passEnd_lasting (s : State) (p : Pass) :
    (State.passEnd s p).lasting = s.lasting := by
  unfold State.passEnd
  repeat' first
    | with_reducible rfl
    | simp only [State.complete_lasting, State.post_lasting, State.purgeIndex_lasting, foldl_lasting, foldl_fst_lasting, foldl_snd_lasting, implies_true, Lasting.of_mk, Lasting.eta, lasting_ite, snd_ite, fst_ite, ite_self]
    | (with_reducible refine (foldl_lasting _ _ _ ?_).trans ?_)
    | (with_reducible refine (foldl_fst_lasting _ _ _ ?_).trans ?_)
    | intro _
    | split

@[simp] theorem State.passesRun_lasting (s : State) :
    (State.passesRun s).lasting = s.lasting := by
  unfold State.passesRun
  repeat' first
    | with_reducible rfl
    | simp only [State.passEnd_lasting, State.post_lasting, foldl_lasting, foldl_fst_lasting, foldl_snd_lasting, implies_true, Lasting.of_mk, Lasting.eta, lasting_ite, snd_ite, fst_ite, ite_self]
    | (with_reducible refine (foldl_lasting _ _ _ ?_).trans ?_)
    | (with_reducible refine (foldl_fst_lasting _ _ _ ?_).trans ?_)
    | intro _
    | split

@[simp] theorem State.passStart_lasting (s : State) :
    (State.passStart s).lasting = s.lasting := by
  unfold State.passStart
  repeat' first
    | with_reducible rfl
    | simp only [State.modRegion_lasting, State.passesRun_lasting, State.setEntry_lasting, State.uncacheEntry_lasting, foldl_lasting, foldl_fst_lasting, foldl_snd_lasting, implies_true, Lasting.of_mk, Lasting.eta, lasting_ite, snd_ite, fst_ite, ite_self]
    | (with_reducible refine (foldl_lasting _ _ _ ?_).trans ?_)
    | (with_reducible refine (foldl_fst_lasting _ _ _ ?_).trans ?_)
    | intro _
    | split

@[simp] theorem State.walkEnd_lasting (s : State) (p : Pass) (n : Nat) :
    (State.walkEnd s p n).lasting = s.lasting := by
  unfold State.walkEnd
  repeat' first
    | with_reducible rfl
    | simp only [State.modRegion_lasting, State.passEnd_lasting, foldl_lasting, foldl_fst_lasting, foldl_snd_lasting, implies_true, Lasting.of_mk, Lasting.eta, lasting_ite, snd_ite, fst_ite, ite_self]
    | (with_reducible refine (foldl_lasting _ _ _ ?_).trans ?_)
    | (with_reducible refine (foldl_fst_lasting _ _ _ ?_).trans ?_)
    | intro _
    | split

@[simp] theorem State.passStep_lasting (s : State) (n k : Nat) :
    (State.passStep s n k).lasting = s.lasting := by
  unfold State.passStep
  repeat' first
    | with_reducible rfl
    | simp only [State.modRegion_lasting, foldl_lasting, foldl_fst_lasting, foldl_snd_lasting, implies_true, Lasting.of_mk, Lasting.eta, lasting_ite, snd_ite, fst_ite, ite_self]
    | (with_reducible refine (foldl_lasting _ _ _ ?_).trans ?_)
    | (with_reducible refine (foldl_fst_lasting _ _ _ ?_).trans ?_)
    | intro _
    | split

@[simp] theorem State.walksEnd_lasting (s : State) :
    (State.walksEnd s).lasting = s.lasting := by
  unfold State.walksEnd
  repeat' first
    | with_reducible rfl
    | simp only [State.walkEnd_lasting, foldl_lasting, foldl_fst_lasting, foldl_snd_lasting, implies_true, Lasting.of_mk, Lasting.eta, lasting_ite, snd_ite, fst_ite, ite_self]
    | (with_reducible refine (foldl_lasting _ _ _ ?_).trans ?_)
    | (with_reducible refine (foldl_fst_lasting _ _ _ ?_).trans ?_)
    | intro _
    | split

@[simp] theorem State.walkedOn_lasting (s : State) (r : Region) (island : Nat) :
    (State.walkedOn s r island).2.lasting = s.lasting := by
  unfold State.walkedOn
  repeat' first
    | with_reducible rfl
    | simp only [State.charge_lasting, foldl_lasting, foldl_fst_lasting, foldl_snd_lasting, implies_true, Lasting.of_mk, Lasting.eta, lasting_ite, snd_ite, fst_ite, ite_self]
    | (with_reducible refine (foldl_lasting _ _ _ ?_).trans ?_)
    | (with_reducible refine (foldl_fst_lasting _ _ _ ?_).trans ?_)
    | intro _
    | split

@[simp] theorem State.passSector_lasting (s : State) (n k island level : Nat) (c : CourierField) (plain : Bytes) (new : Key) (v : Nat) :
    (State.passSector s n k island level c plain new v).lasting = s.lasting := by
  unfold State.passSector
  repeat' first
    | with_reducible rfl
    | simp only [State.addOp_lasting, State.countSeals_lasting, State.passStep_lasting, State.sectorRec_lasting, State.setOp_lasting, State.takeResume_lasting, State.writeSealed_lasting, foldl_lasting, foldl_fst_lasting, foldl_snd_lasting, implies_true, Lasting.of_mk, Lasting.eta, lasting_ite, snd_ite, fst_ite, ite_self]
    | (with_reducible refine (foldl_lasting _ _ _ ?_).trans ?_)
    | (with_reducible refine (foldl_fst_lasting _ _ _ ?_).trans ?_)
    | intro _
    | split

@[simp] theorem State.courierStep_lasting (s : State) (n : Nat) (d : SectorData) :
    (State.courierStep s n d).lasting = s.lasting := by
  unfold State.courierStep
  repeat' first
    | with_reducible rfl
    | simp only [State.fetchAll_lasting, State.hardFault_lasting, State.keyRequest_lasting, State.laneFound_lasting, State.passSector_lasting, State.passStep_lasting, State.schedule_lasting, State.walkedOff_lasting, State.walkedOn_lasting, foldl_lasting, foldl_fst_lasting, foldl_snd_lasting, implies_true, Lasting.of_mk, Lasting.eta, lasting_ite, snd_ite, fst_ite, ite_self]
    | (with_reducible refine (foldl_lasting _ _ _ ?_).trans ?_)
    | (with_reducible refine (foldl_fst_lasting _ _ _ ?_).trans ?_)
    | intro _
    | split

@[simp] theorem State.retireStart_lasting (s : State) (h i : Nat) (op : Option Nat) :
    (State.retireStart s h i op).lasting = s.lasting := by
  unfold State.retireStart
  repeat' first
    | with_reducible rfl
    | simp only [State.abandon_lasting, foldl_lasting, foldl_fst_lasting, foldl_snd_lasting, implies_true, Lasting.of_mk, Lasting.eta, lasting_ite, snd_ite, fst_ite, ite_self]
    | (with_reducible refine (foldl_lasting _ _ _ ?_).trans ?_)
    | (with_reducible refine (foldl_fst_lasting _ _ _ ?_).trans ?_)
    | intro _
    | split

@[simp] theorem State.removed_lasting (s : State) (h i : Nat) :
    (State.removed s h i).lasting = s.lasting := by
  unfold State.removed
  repeat' first
    | with_reducible rfl
    | simp only [State.completeOpt_lasting, State.modJob_lasting, foldl_lasting, foldl_fst_lasting, foldl_snd_lasting, implies_true, Lasting.of_mk, Lasting.eta, lasting_ite, snd_ite, fst_ite, ite_self]
    | (with_reducible refine (foldl_lasting _ _ _ ?_).trans ?_)
    | (with_reducible refine (foldl_fst_lasting _ _ _ ?_).trans ?_)
    | intro _
    | split

@[simp] theorem State.retireEnd_lasting (s : State) (r : Retirement) :
    (State.retireEnd s r).lasting = s.lasting := by
  unfold State.retireEnd
  repeat' first
    | with_reducible rfl
    | simp only [State.completeOpt_lasting, State.count_lasting, State.purgeIndex_lasting, State.removed_lasting, State.setEntry_lasting, State.uncacheEntry_lasting, foldl_lasting, foldl_fst_lasting, foldl_snd_lasting, implies_true, Lasting.of_mk, Lasting.eta, lasting_ite, snd_ite, fst_ite, ite_self]
    | (with_reducible refine (foldl_lasting _ _ _ ?_).trans ?_)
    | (with_reducible refine (foldl_fst_lasting _ _ _ ?_).trans ?_)
    | intro _
    | split

@[simp] theorem State.retirementProgress_lasting (s : State) (h i : Nat) :
    (State.retirementProgress s h i).lasting = s.lasting := by
  unfold State.retirementProgress
  repeat' first
    | with_reducible rfl
    | simp only [State.count_lasting, State.removed_lasting, State.retireEnd_lasting, State.retireStart_lasting, State.setEntry_lasting, State.uncacheEntry_lasting, foldl_lasting, foldl_fst_lasting, foldl_snd_lasting, implies_true, Lasting.of_mk, Lasting.eta, lasting_ite, snd_ite, fst_ite, ite_self]
    | (with_reducible refine (foldl_lasting _ _ _ ?_).trans ?_)
    | (with_reducible refine (foldl_fst_lasting _ _ _ ?_).trans ?_)
    | intro _
    | split

@[simp] theorem State.resetSubtree_lasting (s : State) (tree lvl idx id : Nat) :
    (State.resetSubtree s tree lvl idx id).lasting = s.lasting := by
  unfold State.resetSubtree
  repeat' first
    | with_reducible rfl
    | simp only [State.complete_lasting, State.endFetches_lasting, State.issueFetch_lasting, State.keyRequest_lasting, State.schedule_lasting, State.subtreesRun_lasting, State.upkeepFetches_lasting, foldl_lasting, foldl_fst_lasting, foldl_snd_lasting, implies_true, Lasting.of_mk, Lasting.eta, lasting_ite, snd_ite, fst_ite, ite_self]
    | (with_reducible refine (foldl_lasting _ _ _ ?_).trans ?_)
    | (with_reducible refine (foldl_fst_lasting _ _ _ ?_).trans ?_)
    | intro _
    | split

@[simp] theorem State.resumeStart_lasting (s : State) (n id : Nat) :
    (State.resumeStart s n id).lasting = s.lasting := by
  unfold State.resumeStart
  repeat' first
    | with_reducible rfl
    | simp only [State.complete_lasting, State.maintain_lasting, State.modRegion_lasting, State.modResume_lasting, State.resumed_lasting, State.writeTo_lasting, foldl_lasting, foldl_fst_lasting, foldl_snd_lasting, implies_true, Lasting.of_mk, Lasting.eta, lasting_ite, snd_ite, fst_ite, ite_self]
    | (with_reducible refine (foldl_lasting _ _ _ ?_).trans ?_)
    | (with_reducible refine (foldl_fst_lasting _ _ _ ?_).trans ?_)
    | intro _
    | split

end Machine
end Sys2Proof
end

