-- ==== Sys2Proof/Laws/LastingAssoc.lean ====
section
/-!
SUPPORT. Laws/LastingAssoc.lean: no operation of Machine/Assoc.lean touches the queue, the fuse array, power, the reset or the
TAMPER_HELD latch.
-/

-- One theorem after another: side by side, each holds a thread (NOTES.md).
set_option Elab.async false

namespace Sys2Proof
namespace Machine

set_option linter.unusedSimpArgs false

@[simp] theorem State.modAssoc_lasting (s : State) (h peer : Nat) (f : Assoc → Assoc) :
    (State.modAssoc s h peer f).lasting = s.lasting := by
  unfold State.modAssoc
  repeat' first
    | with_reducible rfl
    | simp only [foldl_lasting, foldl_fst_lasting, foldl_snd_lasting, implies_true, Lasting.of_mk, Lasting.eta, lasting_ite, snd_ite, fst_ite, ite_self]
    | (with_reducible refine (foldl_lasting _ _ _ ?_).trans ?_)
    | (with_reducible refine (foldl_fst_lasting _ _ _ ?_).trans ?_)
    | intro _
    | split

@[simp] theorem State.removeAssoc_lasting (s : State) (h peer : Nat) :
    (State.removeAssoc s h peer).lasting = s.lasting := by
  unfold State.removeAssoc
  repeat' first
    | with_reducible rfl
    | simp only [foldl_lasting, foldl_fst_lasting, foldl_snd_lasting, implies_true, Lasting.of_mk, Lasting.eta, lasting_ite, snd_ite, fst_ite, ite_self]
    | (with_reducible refine (foldl_lasting _ _ _ ?_).trans ?_)
    | (with_reducible refine (foldl_fst_lasting _ _ _ ?_).trans ?_)
    | intro _
    | split

@[simp] theorem State.putAssoc_lasting (s : State) (a : Assoc) :
    (State.putAssoc s a).lasting = s.lasting := by
  unfold State.putAssoc
  repeat' first
    | with_reducible rfl
    | simp only [State.removeAssoc_lasting, foldl_lasting, foldl_fst_lasting, foldl_snd_lasting, implies_true, Lasting.of_mk, Lasting.eta, lasting_ite, snd_ite, fst_ite, ite_self]
    | (with_reducible refine (foldl_lasting _ _ _ ?_).trans ?_)
    | (with_reducible refine (foldl_fst_lasting _ _ _ ?_).trans ?_)
    | intro _
    | split

@[simp] theorem State.modAssocs_lasting (s : State) (f : Assocs → Assocs) :
    (State.modAssocs s f).lasting = s.lasting := by
  unfold State.modAssocs
  repeat' first
    | with_reducible rfl
    | simp only [foldl_lasting, foldl_fst_lasting, foldl_snd_lasting, implies_true, Lasting.of_mk, Lasting.eta, lasting_ite, snd_ite, fst_ite, ite_self]
    | (with_reducible refine (foldl_lasting _ _ _ ?_).trans ?_)
    | (with_reducible refine (foldl_fst_lasting _ _ _ ?_).trans ?_)
    | intro _
    | split

@[simp] theorem State.pairKeys_lasting (s : State) (h peer e : Nat) : (s.pairKeys h peer e).2.lasting = s.lasting := by
  unfold State.pairKeys
  split
  · simp only [State.hardFault_lasting]
  · simp only [State.derived_lasting]

theorem State.pairKeys_eq_lasting {s t : State} {h peer e : Nat} {k : Option (Key × Key)}
    (hp : s.pairKeys h peer e = (k, t)) : t.lasting = s.lasting := by
  rw [← State.pairKeys_lasting s h peer e, hp]

@[simp] theorem State.handOver_lasting (s : State) (port h epoch : Nat) (p : MsgPacket) (stamp : Option Stamp := none) :
    (State.handOver s port h epoch p stamp).lasting = s.lasting := by
  unfold State.handOver
  repeat' first
    | with_reducible rfl
    | simp only [State.emitPacket_lasting, foldl_lasting, foldl_fst_lasting, foldl_snd_lasting, implies_true, Lasting.of_mk, Lasting.eta, lasting_ite, snd_ite, fst_ite, ite_self]
    | (with_reducible refine (foldl_lasting _ _ _ ?_).trans ?_)
    | (with_reducible refine (foldl_fst_lasting _ _ _ ?_).trans ?_)
    | intro _
    | split

@[simp] theorem State.releaseHandshake_lasting (s : State) (port h epoch : Nat) (p : MsgPacket) :
    (State.releaseHandshake s port h epoch p).lasting = s.lasting := by
  unfold State.releaseHandshake
  repeat' first
    | with_reducible rfl
    | simp only [State.count_lasting, State.handOver_lasting, State.hardFault_lasting, State.laneFound_lasting, foldl_lasting, foldl_fst_lasting, foldl_snd_lasting, implies_true, Lasting.of_mk, Lasting.eta, lasting_ite, snd_ite, fst_ite, ite_self]
    | (with_reducible refine (foldl_lasting _ _ _ ?_).trans ?_)
    | (with_reducible refine (foldl_fst_lasting _ _ _ ?_).trans ?_)
    | intro _
    | split

@[simp] theorem State.handshake_lasting (s : State) (h peer kind epoch : Nat) (key : Key) (nonce : BitVec 64) (body : Bytes) :
    (State.handshake s h peer kind epoch key nonce body).2.lasting = s.lasting := by
  unfold State.handshake
  repeat' first
    | with_reducible rfl
    | simp only [State.free_lasting, foldl_lasting, foldl_fst_lasting, foldl_snd_lasting, implies_true, Lasting.of_mk, Lasting.eta, lasting_ite, snd_ite, fst_ite, ite_self]
    | (with_reducible refine (foldl_lasting _ _ _ ?_).trans ?_)
    | (with_reducible refine (foldl_fst_lasting _ _ _ ?_).trans ?_)
    | intro _
    | split

@[simp] theorem State.enterEpoch_lasting (s : State) (h peer e : Nat) :
    (State.enterEpoch s h peer e).lasting = s.lasting := by
  unfold State.enterEpoch
  repeat' first
    | with_reducible rfl
    | simp only [State.modJob_lasting, State.post_lasting, foldl_lasting, foldl_fst_lasting, foldl_snd_lasting, implies_true, Lasting.of_mk, Lasting.eta, lasting_ite, snd_ite, fst_ite, ite_self]
    | (with_reducible refine (foldl_lasting _ _ _ ?_).trans ?_)
    | (with_reducible refine (foldl_fst_lasting _ _ _ ?_).trans ?_)
    | intro _
    | split

@[simp] theorem State.beginStep_lasting (s : State) (a : Assoc) :
    (State.beginStep s a).lasting = s.lasting := by
  unfold State.beginStep
  repeat' first
    | with_reducible rfl
    | simp only [State.keyRequest_lasting, State.modAssoc_lasting, State.trigger_lasting, foldl_lasting, foldl_fst_lasting, foldl_snd_lasting, implies_true, Lasting.of_mk, Lasting.eta, lasting_ite, snd_ite, fst_ite, ite_self]
    | (with_reducible refine (foldl_lasting _ _ _ ?_).trans ?_)
    | (with_reducible refine (foldl_fst_lasting _ _ _ ?_).trans ?_)
    | intro _
    | split

@[simp] theorem State.ratchetTrigger_lasting (s : State) (h peer : Nat) :
    (State.ratchetTrigger s h peer).lasting = s.lasting := by
  unfold State.ratchetTrigger
  repeat' first
    | with_reducible rfl
    | simp only [State.beginStep_lasting, State.modAssoc_lasting, State.trigger_lasting, foldl_lasting, foldl_fst_lasting, foldl_snd_lasting, implies_true, Lasting.of_mk, Lasting.eta, lasting_ite, snd_ite, fst_ite, ite_self]
    | (with_reducible refine (foldl_lasting _ _ _ ?_).trans ?_)
    | (with_reducible refine (foldl_fst_lasting _ _ _ ?_).trans ?_)
    | intro _
    | split

@[simp] theorem State.sealPacket_lasting (s : State) (h peer epoch kind tc : Nat) (body : Bytes) (stamp : Option Stamp := none) :
    (State.sealPacket s h peer epoch kind tc body stamp).lasting = s.lasting := by
  unfold State.sealPacket
  repeat' first
    | with_reducible rfl
    | simp only [State.count_lasting, State.handOver_lasting, State.hardFault_lasting, State.laneFound_lasting, State.modAssoc_lasting, State.ratchetTrigger_lasting, foldl_lasting, foldl_fst_lasting, foldl_snd_lasting, implies_true, Lasting.of_mk, Lasting.eta, lasting_ite, snd_ite, fst_ite, ite_self]
    | (with_reducible refine (foldl_lasting _ _ _ ?_).trans ?_)
    | (with_reducible refine (foldl_fst_lasting _ _ _ ?_).trans ?_)
    | intro _
    | split

@[simp] theorem State.sealData_lasting (s : State) (h peer tc : Nat) (body : Bytes) (stamp : Option Stamp := none) :
    (State.sealData s h peer tc body stamp).lasting = s.lasting := by
  unfold State.sealData
  repeat' first
    | with_reducible rfl
    | simp only [State.sealPacket_lasting, foldl_lasting, foldl_fst_lasting, foldl_snd_lasting, implies_true, Lasting.of_mk, Lasting.eta, lasting_ite, snd_ite, fst_ite, ite_self]
    | (with_reducible refine (foldl_lasting _ _ _ ?_).trans ?_)
    | (with_reducible refine (foldl_fst_lasting _ _ _ ?_).trans ?_)
    | intro _
    | split

@[simp] theorem State.sealRatchet_lasting (s : State) (h peer under names : Nat) :
    (State.sealRatchet s h peer under names).lasting = s.lasting := by
  unfold State.sealRatchet
  repeat' first
    | with_reducible rfl
    | simp only [State.free_lasting, State.sealPacket_lasting, foldl_lasting, foldl_fst_lasting, foldl_snd_lasting, implies_true, Lasting.of_mk, Lasting.eta, lasting_ite, snd_ite, fst_ite, ite_self]
    | (with_reducible refine (foldl_lasting _ _ _ ?_).trans ?_)
    | (with_reducible refine (foldl_fst_lasting _ _ _ ?_).trans ?_)
    | intro _
    | split

@[simp] theorem State.switchEpoch_lasting (s : State) (h peer : Nat) (keys : Key × Key) :
    (State.switchEpoch s h peer keys).lasting = s.lasting := by
  unfold State.switchEpoch
  repeat' first
    | with_reducible rfl
    | simp only [State.enterEpoch_lasting, State.modAssoc_lasting, State.sealPacket_lasting, State.sealRatchet_lasting, State.trigger_lasting, foldl_lasting, foldl_fst_lasting, foldl_snd_lasting, implies_true, Lasting.of_mk, Lasting.eta, lasting_ite, snd_ite, fst_ite, ite_self]
    | (with_reducible refine (foldl_lasting _ _ _ ?_).trans ?_)
    | (with_reducible refine (foldl_fst_lasting _ _ _ ?_).trans ?_)
    | intro _
    | split

@[simp] theorem State.ratchetKeys_lasting (s : State) (h peer : Nat) :
    (State.ratchetKeys s h peer).lasting = s.lasting := by
  unfold State.ratchetKeys
  repeat' first
    | with_reducible rfl
    | simp only [State.keyHeldBy_lasting, State.switchEpoch_lasting, foldl_lasting, foldl_fst_lasting, foldl_snd_lasting, implies_true, Lasting.of_mk, Lasting.eta, lasting_ite, snd_ite, fst_ite, ite_self]
    | (with_reducible refine (foldl_lasting _ _ _ ?_).trans ?_)
    | (with_reducible refine (foldl_fst_lasting _ _ _ ?_).trans ?_)
    | intro _
    | split

@[simp] theorem State.stepEnd_lasting (s : State) (h peer : Nat) :
    (State.stepEnd s h peer).lasting = s.lasting := by
  unfold State.stepEnd
  repeat' first
    | with_reducible rfl
    | simp only [State.beginStep_lasting, State.complete_lasting, State.modAssoc_lasting, State.modAssocs_lasting, State.trigger_lasting, foldl_lasting, foldl_fst_lasting, foldl_snd_lasting, implies_true, Lasting.of_mk, Lasting.eta, lasting_ite, snd_ite, fst_ite, ite_self]
    | (with_reducible refine (foldl_lasting _ _ _ ?_).trans ?_)
    | (with_reducible refine (foldl_fst_lasting _ _ _ ?_).trans ?_)
    | intro _
    | split

@[simp] theorem State.learnEpoch_lasting (s : State) (h peer : Nat) (keys : Option (Key × Key)) :
    (State.learnEpoch s h peer keys).lasting = s.lasting := by
  unfold State.learnEpoch
  cases s.assoc h peer with
  | none => rfl
  | some a =>
    dsimp only
    generalize hu : s.modAssoc h peer _ = u
    have hl : u.lasting = s.lasting := by rw [← hu]; exact State.modAssoc_lasting ..
    clear hu
    rw [← hl]
    have hi : (if a.waitKeys = true then u else u.beginStep a).lasting = u.lasting :=
      (lasting_ite _ _ _).trans (by rw [State.beginStep_lasting, ite_self])
    generalize a.state = st
    cases st <;> cases keys <;> first | exact hi | exact State.switchEpoch_lasting .. | exact Eq.refl u.lasting

@[simp] theorem State.drainTimer_lasting (s : State) (h peer : Nat) :
    (State.drainTimer s h peer).lasting = s.lasting := by
  unfold State.drainTimer
  repeat' first
    | with_reducible rfl
    | simp only [State.modAssoc_lasting, State.stepEnd_lasting, foldl_lasting, foldl_fst_lasting, foldl_snd_lasting, implies_true, Lasting.of_mk, Lasting.eta, lasting_ite, snd_ite, fst_ite, ite_self]
    | (with_reducible refine (foldl_lasting _ _ _ ?_).trans ?_)
    | (with_reducible refine (foldl_fst_lasting _ _ _ ?_).trans ?_)
    | intro _
    | split

@[simp] theorem State.epochTimer_lasting (s : State) (h peer : Nat) :
    (State.epochTimer s h peer).lasting = s.lasting := by
  unfold State.epochTimer
  repeat' first
    | with_reducible rfl
    | simp only [State.ratchetTrigger_lasting, foldl_lasting, foldl_fst_lasting, foldl_snd_lasting, implies_true, Lasting.of_mk, Lasting.eta, lasting_ite, snd_ite, fst_ite, ite_self]
    | (with_reducible refine (foldl_lasting _ _ _ ?_).trans ?_)
    | (with_reducible refine (foldl_fst_lasting _ _ _ ?_).trans ?_)
    | intro _
    | split

@[simp] theorem State.spacingElapsed_lasting (s : State) (h peer : Nat) :
    (State.spacingElapsed s h peer).lasting = s.lasting := by
  unfold State.spacingElapsed
  repeat' first
    | with_reducible rfl
    | simp only [State.beginStep_lasting, State.trigger_lasting, foldl_lasting, foldl_fst_lasting, foldl_snd_lasting, implies_true, Lasting.of_mk, Lasting.eta, lasting_ite, snd_ite, fst_ite, ite_self]
    | (with_reducible refine (foldl_lasting _ _ _ ?_).trans ?_)
    | (with_reducible refine (foldl_fst_lasting _ _ _ ?_).trans ?_)
    | intro _
    | split

@[simp] theorem State.ratchetResend_lasting (s : State) (h peer : Nat) :
    (State.ratchetResend s h peer).lasting = s.lasting := by
  unfold State.ratchetResend
  repeat' first
    | with_reducible rfl
    | simp only [State.modAssoc_lasting, State.post_lasting, State.sealRatchet_lasting, foldl_lasting, foldl_fst_lasting, foldl_snd_lasting, implies_true, Lasting.of_mk, Lasting.eta, lasting_ite, snd_ite, fst_ite, ite_self]
    | (with_reducible refine (foldl_lasting _ _ _ ?_).trans ?_)
    | (with_reducible refine (foldl_fst_lasting _ _ _ ?_).trans ?_)
    | intro _
    | split

@[simp] theorem State.acceptSeq_lasting (s : State) (h peer epoch q : Nat) :
    (State.acceptSeq s h peer epoch q).lasting = s.lasting := by
  unfold State.acceptSeq
  repeat' first
    | with_reducible rfl
    | simp only [State.modAssoc_lasting, foldl_lasting, foldl_fst_lasting, foldl_snd_lasting, implies_true, Lasting.of_mk, Lasting.eta, lasting_ite, snd_ite, fst_ite, ite_self]
    | (with_reducible refine (foldl_lasting _ _ _ ?_).trans ?_)
    | (with_reducible refine (foldl_fst_lasting _ _ _ ?_).trans ?_)
    | intro _
    | split

@[simp] theorem State.gotRatchet_lasting (s : State) (h peer under names q : Nat) :
    (State.gotRatchet s h peer under names q).lasting = s.lasting := by
  unfold State.gotRatchet
  repeat' first
    | with_reducible rfl
    | simp only [State.learnEpoch_lasting, State.modAssoc_lasting, State.sealRatchet_lasting, State.stepEnd_lasting, foldl_lasting, foldl_fst_lasting, foldl_snd_lasting, implies_true, Lasting.of_mk, Lasting.eta, lasting_ite, snd_ite, fst_ite, ite_self]
    | (with_reducible refine (foldl_lasting _ _ _ ?_).trans ?_)
    | (with_reducible refine (foldl_fst_lasting _ _ _ ?_).trans ?_)
    | intro _
    | split

end Machine
end Sys2Proof
end

