-- ==== Sys2Proof/Laws/LastingIssue.lean ====
section
/-!
SUPPORT. Laws/LastingIssue.lean: no operation of Machine/Issue.lean touches the queue, the fuse array, power, the reset or the
TAMPER_HELD latch.
-/

-- One theorem after another: side by side, each holds a thread (NOTES.md).
set_option Elab.async false

namespace Sys2Proof
namespace Machine

set_option linter.unusedSimpArgs false

@[simp] theorem State.remoteFault_lasting (s : State) (h node ctx type reason : Nat) (st : Status) (address op ordinal : Nat) :
    (State.remoteFault s h node ctx type reason st address op ordinal).lasting = s.lasting := by
  unfold State.remoteFault
  repeat' first
    | with_reducible rfl
    | simp only [State.raiseFault_lasting, foldl_lasting, foldl_fst_lasting, foldl_snd_lasting, implies_true, Lasting.of_mk, Lasting.eta, lasting_ite, snd_ite, fst_ite, ite_self]
    | (with_reducible refine (foldl_lasting _ _ _ ?_).trans ?_)
    | (with_reducible refine (foldl_fst_lasting _ _ _ ?_).trans ?_)
    | intro _
    | split

@[simp] theorem State.modStream_lasting (s : State) (h peer tc : Nat) (f : StreamSt → StreamSt) :
    (State.modStream s h peer tc f).lasting = s.lasting := by
  unfold State.modStream
  repeat' first
    | with_reducible rfl
    | simp only [State.modAssoc_lasting, foldl_lasting, foldl_fst_lasting, foldl_snd_lasting, implies_true, Lasting.of_mk, Lasting.eta, lasting_ite, snd_ite, fst_ite, ite_self]
    | (with_reducible refine (foldl_lasting _ _ _ ?_).trans ?_)
    | (with_reducible refine (foldl_fst_lasting _ _ _ ?_).trans ?_)
    | intro _
    | split

@[simp] theorem State.remoteEnds_lasting (s : State) (q : RemReq) (answered : Bool) (f : Req → Req) :
    (State.remoteEnds s q answered f).lasting = s.lasting := by
  unfold State.remoteEnds
  repeat' first
    | with_reducible rfl
    | simp only [State.modCtx_lasting, State.pieceDone_lasting, foldl_lasting, foldl_fst_lasting, foldl_snd_lasting, implies_true, Lasting.of_mk, Lasting.eta, lasting_ite, snd_ite, fst_ite, ite_self]
    | (with_reducible refine (foldl_lasting _ _ _ ?_).trans ?_)
    | (with_reducible refine (foldl_fst_lasting _ _ _ ?_).trans ?_)
    | intro _
    | split

@[simp] theorem State.remoteDone_lasting (s : State) (q : RemReq) (data : Bytes) (result : BitVec 64) :
    (State.remoteDone s q data result).lasting = s.lasting := by
  unfold State.remoteDone
  repeat' first
    | with_reducible rfl
    | simp only [State.remoteEnds_lasting, foldl_lasting, foldl_fst_lasting, foldl_snd_lasting, implies_true, Lasting.of_mk, Lasting.eta, lasting_ite, snd_ite, fst_ite, ite_self]
    | (with_reducible refine (foldl_lasting _ _ _ ?_).trans ?_)
    | (with_reducible refine (foldl_fst_lasting _ _ _ ?_).trans ?_)
    | intro _
    | split

@[simp] theorem State.remoteFails_lasting (s : State) (q : RemReq) (answered : Bool) (st : Status) (type reason : Nat) :
    (State.remoteFails s q answered st type reason).lasting = s.lasting := by
  unfold State.remoteFails
  repeat' first
    | with_reducible rfl
    | simp only [State.remoteEnds_lasting, State.remoteFault_lasting, foldl_lasting, foldl_fst_lasting, foldl_snd_lasting, implies_true, Lasting.of_mk, Lasting.eta, lasting_ite, snd_ite, fst_ite, ite_self]
    | (with_reducible refine (foldl_lasting _ _ _ ?_).trans ?_)
    | (with_reducible refine (foldl_fst_lasting _ _ _ ?_).trans ?_)
    | intro _
    | split

@[simp] theorem State.fenceTimeout_lasting (s : State) (id : Nat) :
    (State.fenceTimeout s id).lasting = s.lasting := by
  unfold State.fenceTimeout
  repeat' first
    | with_reducible rfl
    | simp only [foldl_lasting, foldl_fst_lasting, foldl_snd_lasting, implies_true, Lasting.of_mk, Lasting.eta, lasting_ite, snd_ite, fst_ite, ite_self]
    | (with_reducible refine (foldl_lasting _ _ _ ?_).trans ?_)
    | (with_reducible refine (foldl_fst_lasting _ _ _ ?_).trans ?_)
    | intro _
    | split

@[simp] theorem State.missedAt_lasting (s : State) (req ctx : Nat) :
    (State.missedAt s req ctx).lasting = s.lasting := by
  unfold State.missedAt
  repeat' first
    | with_reducible rfl
    | simp only [State.modCtx_lasting, foldl_lasting, foldl_fst_lasting, foldl_snd_lasting, implies_true, Lasting.of_mk, Lasting.eta, lasting_ite, snd_ite, fst_ite, ite_self]
    | (with_reducible refine (foldl_lasting _ _ _ ?_).trans ?_)
    | (with_reducible refine (foldl_fst_lasting _ _ _ ?_).trans ?_)
    | intro _
    | split

@[simp] theorem State.remoteDead_lasting (s : State) (q : RemReq) (reason : Nat) :
    (State.remoteDead s q reason).lasting = s.lasting := by
  unfold State.remoteDead
  repeat' first
    | with_reducible rfl
    | simp only [State.fenceTimeout_lasting, State.missedAt_lasting, State.modStream_lasting, State.remoteFails_lasting, foldl_lasting, foldl_fst_lasting, foldl_snd_lasting, implies_true, Lasting.of_mk, Lasting.eta, lasting_ite, snd_ite, fst_ite, ite_self]
    | (with_reducible refine (foldl_lasting _ _ _ ?_).trans ?_)
    | (with_reducible refine (foldl_fst_lasting _ _ _ ?_).trans ?_)
    | intro _
    | split

@[simp] theorem State.giveUp_lasting (s : State) (h peer reason : Nat) (p : RemReq → Bool) :
    (State.giveUp s h peer reason p).lasting = s.lasting := by
  unfold State.giveUp
  repeat' first
    | with_reducible rfl
    | simp only [State.remoteDead_lasting, foldl_lasting, foldl_fst_lasting, foldl_snd_lasting, implies_true, Lasting.of_mk, Lasting.eta, lasting_ite, snd_ite, fst_ite, ite_self]
    | (with_reducible refine (foldl_lasting _ _ _ ?_).trans ?_)
    | (with_reducible refine (foldl_fst_lasting _ _ _ ?_).trans ?_)
    | intro _
    | split

@[simp] theorem State.abandonCalls_lasting (s : State) (h : Nat) :
    (State.abandonCalls s h).lasting = s.lasting := by
  unfold State.abandonCalls
  repeat' first
    | with_reducible rfl
    | simp only [State.calls_lasting, State.remoteFails_lasting, foldl_lasting, foldl_fst_lasting, foldl_snd_lasting, implies_true, Lasting.of_mk, Lasting.eta, lasting_ite, snd_ite, fst_ite, ite_self]
    | (with_reducible refine (foldl_lasting _ _ _ ?_).trans ?_)
    | (with_reducible refine (foldl_fst_lasting _ _ _ ?_).trans ?_)
    | intro _
    | split

@[simp] theorem State.teardownStart_lasting (s : State) (h : Nat) (op : Option Nat) :
    (State.teardownStart s h op).lasting = s.lasting := by
  unfold State.teardownStart
  repeat' first
    | with_reducible rfl
    | simp only [State.abandonCalls_lasting, State.completeOpt_lasting, State.modBox_lasting, State.modJob_lasting, State.modRegion_lasting, State.squashHeld_lasting, foldl_lasting, foldl_fst_lasting, foldl_snd_lasting, implies_true, Lasting.of_mk, Lasting.eta, lasting_ite, snd_ite, fst_ite, ite_self]
    | (with_reducible refine (foldl_lasting _ _ _ ?_).trans ?_)
    | (with_reducible refine (foldl_fst_lasting _ _ _ ?_).trans ?_)
    | intro _
    | split

@[simp] theorem State.teardownOp_lasting (s : State) (h : Nat) :
    (State.teardownOp s h).lasting = s.lasting := by
  unfold State.teardownOp
  repeat' first
    | with_reducible rfl
    | simp only [State.accepted_lasting, State.free_lasting, State.teardownStart_lasting, foldl_lasting, foldl_fst_lasting, foldl_snd_lasting, implies_true, Lasting.of_mk, Lasting.eta, lasting_ite, snd_ite, fst_ite, ite_self]
    | (with_reducible refine (foldl_lasting _ _ _ ?_).trans ?_)
    | (with_reducible refine (foldl_fst_lasting _ _ _ ?_).trans ?_)
    | intro _
    | split

@[simp] theorem State.deadNode_lasting (s : State) (h node ctx address reason op ordinal : Nat) :
    (State.deadNode s h node ctx address reason op ordinal).lasting = s.lasting := by
  unfold State.deadNode
  repeat' first
    | with_reducible rfl
    | simp only [State.postAt_lasting, State.teardownOp_lasting, foldl_lasting, foldl_fst_lasting, foldl_snd_lasting, implies_true, Lasting.of_mk, Lasting.eta, lasting_ite, snd_ite, fst_ite, ite_self]
    | (with_reducible refine (foldl_lasting _ _ _ ?_).trans ?_)
    | (with_reducible refine (foldl_fst_lasting _ _ _ ?_).trans ?_)
    | intro _
    | split

@[simp] theorem State.trayDead_lasting (s : State) (o : SecOp) (reason : Nat) :
    (State.trayDead s o reason).lasting = s.lasting := by
  unfold State.trayDead
  repeat' first
    | with_reducible rfl
    | simp only [State.deadNode_lasting, State.dropOp_lasting, State.fenceTimeout_lasting, State.missedAt_lasting, State.pieceDone_lasting, State.remoteFault_lasting, State.suspend_lasting, foldl_lasting, foldl_fst_lasting, foldl_snd_lasting, implies_true, Lasting.of_mk, Lasting.eta, lasting_ite, snd_ite, fst_ite, ite_self]
    | (with_reducible refine (foldl_lasting _ _ _ ?_).trans ?_)
    | (with_reducible refine (foldl_fst_lasting _ _ _ ?_).trans ?_)
    | intro _
    | split

@[simp] theorem State.deadTeardown_lasting (s : State) (q : RemReq) (reason : Nat) :
    (State.deadTeardown s q reason).lasting = s.lasting := by
  unfold State.deadTeardown
  repeat' first
    | with_reducible rfl
    | simp only [State.deadNode_lasting, foldl_lasting, foldl_fst_lasting, foldl_snd_lasting, implies_true, Lasting.of_mk, Lasting.eta, lasting_ite, snd_ite, fst_ite, ite_self]
    | (with_reducible refine (foldl_lasting _ _ _ ?_).trans ?_)
    | (with_reducible refine (foldl_fst_lasting _ _ _ ?_).trans ?_)
    | intro _
    | split

@[simp] theorem State.setRemote_lasting (s : State) (q : RemReq) :
    (State.setRemote s q).lasting = s.lasting := by
  unfold State.setRemote
  repeat' first
    | with_reducible rfl
    | simp only [foldl_lasting, foldl_fst_lasting, foldl_snd_lasting, implies_true, Lasting.of_mk, Lasting.eta, lasting_ite, snd_ite, fst_ite, ite_self]
    | (with_reducible refine (foldl_lasting _ _ _ ?_).trans ?_)
    | (with_reducible refine (foldl_fst_lasting _ _ _ ?_).trans ?_)
    | intro _
    | split

@[simp] theorem State.transmit_lasting (s : State) (q : RemReq) (again : Bool) :
    (State.transmit s q again).lasting = s.lasting := by
  unfold State.transmit
  repeat' first
    | with_reducible rfl
    | simp only [State.sealData_lasting, State.setRemote_lasting, foldl_lasting, foldl_fst_lasting, foldl_snd_lasting, implies_true, Lasting.of_mk, Lasting.eta, lasting_ite, snd_ite, fst_ite, ite_self]
    | (with_reducible refine (foldl_lasting _ _ _ ?_).trans ?_)
    | (with_reducible refine (foldl_fst_lasting _ _ _ ?_).trans ?_)
    | intro _
    | split

theorem State.entryRoom_lasting {s t : State} {home : Nat} (h : s.entryRoom home = some t) : t.lasting = s.lasting := by
  unfold State.entryRoom at h
  dsimp only at h
  split at h
  · cases h; rfl
  · split at h
    · cases h
    · cases h
      simp only [State.modAssocs_lasting, foldl_lasting, State.complete_lasting, implies_true, State.removeAssoc_lasting]

@[simp] theorem State.assocRefused_lasting (s : State) (h peer : Nat) (st : Status) (epoch revision : Nat) :
    (State.assocRefused s h peer st epoch revision).lasting = s.lasting := by
  unfold State.assocRefused
  repeat' first
    | with_reducible rfl
    | simp only [State.post_lasting, foldl_lasting, foldl_fst_lasting, foldl_snd_lasting, implies_true, Lasting.of_mk, Lasting.eta, lasting_ite, snd_ite, fst_ite, ite_self]
    | (with_reducible refine (foldl_lasting _ _ _ ?_).trans ?_)
    | (with_reducible refine (foldl_fst_lasting _ _ _ ?_).trans ?_)
    | intro _
    | split

@[simp] theorem State.missHeld_lasting (s : State) (h peer : Nat) :
    (State.missHeld s h peer).lasting = s.lasting := by
  unfold State.missHeld
  repeat' first
    | with_reducible rfl
    | simp only [State.count_lasting, State.remoteDead_lasting, foldl_lasting, foldl_fst_lasting, foldl_snd_lasting, implies_true, Lasting.of_mk, Lasting.eta, lasting_ite, snd_ite, fst_ite, ite_self]
    | (with_reducible refine (foldl_lasting _ _ _ ?_).trans ?_)
    | (with_reducible refine (foldl_fst_lasting _ _ _ ?_).trans ?_)
    | intro _
    | split

-- hand

@[simp] theorem State.callStart_lasting (s : State) (h peer : Nat) :
    (State.callStart s h peer).lasting = s.lasting := by
  unfold State.callStart
  rw [← State.modAssocs_lasting s (fun x => { x with calls := x.calls.filter (fun c => c != (h, peer)) })]
  generalize s.modAssocs (fun x => { x with calls := x.calls.filter (fun c => c != (h, peer)) }) = u
  dsimp only
  repeat' first
    | with_reducible rfl
    | simp only [State.assocRefused_lasting, State.calls_lasting, State.giveUp_lasting, State.missHeld_lasting, State.modAssocs_lasting, State.putAssoc_lasting, Lasting.of_mk, Lasting.eta]
    | (rename_i hsome; rw [← State.entryRoom_lasting hsome])
    | split

@[simp] theorem State.sendRemote_lasting (s : State) (q : RemReq) (again : Bool) :
    (State.sendRemote s q again).lasting = s.lasting := by
  unfold State.sendRemote
  repeat' first
    | with_reducible rfl
    | simp only [State.callStart_lasting, State.transmit_lasting, foldl_lasting, foldl_fst_lasting, foldl_snd_lasting, implies_true, Lasting.of_mk, Lasting.eta, lasting_ite, snd_ite, fst_ite, ite_self]
    | (with_reducible refine (foldl_lasting _ _ _ ?_).trans ?_)
    | (with_reducible refine (foldl_fst_lasting _ _ _ ?_).trans ?_)
    | intro _
    | split

@[simp] theorem State.orphan_lasting (s : State) (h peer : Nat) :
    (State.orphan s h peer).lasting = s.lasting := by
  unfold State.orphan
  repeat' first
    | with_reducible rfl
    | simp only [foldl_lasting, foldl_fst_lasting, foldl_snd_lasting, implies_true, Lasting.of_mk, Lasting.eta, lasting_ite, snd_ite, fst_ite, ite_self]
    | (with_reducible refine (foldl_lasting _ _ _ ?_).trans ?_)
    | (with_reducible refine (foldl_fst_lasting _ _ _ ?_).trans ?_)
    | intro _
    | split

@[simp] theorem State.closeAssoc_lasting (s : State) (h peer : Nat) :
    (State.closeAssoc s h peer).lasting = s.lasting := by
  unfold State.closeAssoc
  repeat' first
    | with_reducible rfl
    | simp only [State.callStart_lasting, State.complete_lasting, State.completeOpt_lasting, State.orphan_lasting, State.removeAssoc_lasting, foldl_lasting, foldl_fst_lasting, foldl_snd_lasting, implies_true, Lasting.of_mk, Lasting.eta, lasting_ite, snd_ite, fst_ite, ite_self]
    | (with_reducible refine (foldl_lasting _ _ _ ?_).trans ?_)
    | (with_reducible refine (foldl_fst_lasting _ _ _ ?_).trans ?_)
    | intro _
    | split

@[simp] theorem State.freshStreams_lasting (s : State) (h peer : Nat) :
    (State.freshStreams s h peer).lasting = s.lasting := by
  unfold State.freshStreams
  repeat' first
    | with_reducible rfl
    | simp only [State.modAssoc_lasting, State.orphan_lasting, foldl_lasting, foldl_fst_lasting, foldl_snd_lasting, implies_true, Lasting.of_mk, Lasting.eta, lasting_ite, snd_ite, fst_ite, ite_self]
    | (with_reducible refine (foldl_lasting _ _ _ ?_).trans ?_)
    | (with_reducible refine (foldl_fst_lasting _ _ _ ?_).trans ?_)
    | intro _
    | split

@[simp] theorem State.opened_lasting (s : State) (h peer epoch : Nat) :
    (State.opened s h peer epoch).lasting = s.lasting := by
  unfold State.opened
  repeat' first
    | with_reducible rfl
    | simp only [State.enterEpoch_lasting, State.freshStreams_lasting, State.modAssocs_lasting, State.transmit_lasting, foldl_lasting, foldl_fst_lasting, foldl_snd_lasting, implies_true, Lasting.of_mk, Lasting.eta, lasting_ite, snd_ite, fst_ite, ite_self]
    | (with_reducible refine (foldl_lasting _ _ _ ?_).trans ?_)
    | (with_reducible refine (foldl_fst_lasting _ _ _ ?_).trans ?_)
    | intro _
    | split

@[simp] theorem State.parkedSettle_lasting (s : State) :
    (State.parkedSettle s).lasting = s.lasting := by
  unfold State.parkedSettle
  repeat' first
    | with_reducible rfl
    | simp only [State.sendRemote_lasting, State.setRemote_lasting, foldl_lasting, foldl_fst_lasting, foldl_snd_lasting, implies_true, Lasting.of_mk, Lasting.eta, lasting_ite, snd_ite, fst_ite, ite_self]
    | (with_reducible refine (foldl_lasting _ _ _ ?_).trans ?_)
    | (with_reducible refine (foldl_fst_lasting _ _ _ ?_).trans ?_)
    | intro _
    | split

@[simp] theorem State.tc0Wait_lasting (s : State) (level port : Nat) :
    (State.tc0Wait s level port).lasting = s.lasting := by
  unfold State.tc0Wait
  repeat' first
    | with_reducible rfl
    | simp only [State.count_lasting, foldl_lasting, foldl_fst_lasting, foldl_snd_lasting, implies_true, Lasting.of_mk, Lasting.eta, lasting_ite, snd_ite, fst_ite, ite_self]
    | (with_reducible refine (foldl_lasting _ _ _ ?_).trans ?_)
    | (with_reducible refine (foldl_fst_lasting _ _ _ ?_).trans ?_)
    | intro _
    | split

@[simp] theorem State.turnedAway_lasting (s : State) (a : RemAsk) (reason : Nat) :
    (State.turnedAway s a reason).lasting = s.lasting := by
  unfold State.turnedAway
  repeat' first
    | with_reducible rfl
    | simp only [State.remoteFault_lasting, State.tileAnswer_lasting, foldl_lasting, foldl_fst_lasting, foldl_snd_lasting, implies_true, Lasting.of_mk, Lasting.eta, lasting_ite, snd_ite, fst_ite, ite_self]
    | (with_reducible refine (foldl_lasting _ _ _ ?_).trans ?_)
    | (with_reducible refine (foldl_fst_lasting _ _ _ ?_).trans ?_)
    | intro _
    | split

@[simp] theorem State.routeMiss_lasting (s : State) (a : RemAsk) :
    (State.routeMiss s a).lasting = s.lasting := by
  unfold State.routeMiss
  repeat' first
    | with_reducible rfl
    | simp only [State.count_lasting, State.turnedAway_lasting, foldl_lasting, foldl_fst_lasting, foldl_snd_lasting, implies_true, Lasting.of_mk, Lasting.eta, lasting_ite, snd_ite, fst_ite, ite_self]
    | (with_reducible refine (foldl_lasting _ _ _ ?_).trans ?_)
    | (with_reducible refine (foldl_fst_lasting _ _ _ ?_).trans ?_)
    | intro _
    | split

@[simp] theorem State.revokedNode_lasting (s : State) (a : RemAsk) :
    (State.revokedNode s a).lasting = s.lasting := by
  unfold State.revokedNode
  repeat' first
    | with_reducible rfl
    | simp only [State.deadNode_lasting, State.turnedAway_lasting, foldl_lasting, foldl_fst_lasting, foldl_snd_lasting, implies_true, Lasting.of_mk, Lasting.eta, lasting_ite, snd_ite, fst_ite, ite_self]
    | (with_reducible refine (foldl_lasting _ _ _ ?_).trans ?_)
    | (with_reducible refine (foldl_fst_lasting _ _ _ ?_).trans ?_)
    | intro _
    | split

@[simp] theorem State.issue_lasting (s : State) (a : RemAsk) :
    (State.issue s a).lasting = s.lasting := by
  unfold State.issue
  repeat' first
    | with_reducible rfl
    | simp only [State.accepted_lasting, State.charge_lasting, State.count_lasting, State.modCounters_lasting, State.modCtx_lasting, State.modStream_lasting, State.pieceDone_lasting, State.raiseStream_lasting, State.reclass_lasting, State.revokedNode_lasting, State.routeMiss_lasting, State.sendRemote_lasting, State.tc0Wait_lasting, State.traceRec_lasting, State.turnedAway_lasting, foldl_lasting, foldl_fst_lasting, foldl_snd_lasting, implies_true, Lasting.of_mk, Lasting.eta, lasting_ite, snd_ite, fst_ite, ite_self]
    | (with_reducible refine (foldl_lasting _ _ _ ?_).trans ?_)
    | (with_reducible refine (foldl_fst_lasting _ _ _ ?_).trans ?_)
    | intro _
    | split

@[simp] theorem State.retransmit_lasting (s : State) (id : Nat) :
    (State.retransmit s id).lasting = s.lasting := by
  unfold State.retransmit
  repeat' first
    | with_reducible rfl
    | simp only [State.accepted_lasting, State.callStart_lasting, State.setRemote_lasting, State.transmit_lasting, foldl_lasting, foldl_fst_lasting, foldl_snd_lasting, implies_true, Lasting.of_mk, Lasting.eta, lasting_ite, snd_ite, fst_ite, ite_self]
    | (with_reducible refine (foldl_lasting _ _ _ ?_).trans ?_)
    | (with_reducible refine (foldl_fst_lasting _ _ _ ?_).trans ?_)
    | intro _
    | split

@[simp] theorem State.remoteTimeout_lasting (s : State) (q : RemReq) :
    (State.remoteTimeout s q).lasting = s.lasting := by
  unfold State.remoteTimeout
  repeat' first
    | with_reducible rfl
    | simp only [State.accepted_lasting, State.deadTeardown_lasting, State.remoteDead_lasting, foldl_lasting, foldl_fst_lasting, foldl_snd_lasting, implies_true, Lasting.of_mk, Lasting.eta, lasting_ite, snd_ite, fst_ite, ite_self]
    | (with_reducible refine (foldl_lasting _ _ _ ?_).trans ?_)
    | (with_reducible refine (foldl_fst_lasting _ _ _ ?_).trans ?_)
    | intro _
    | split

@[simp] theorem State.fenceFollows_lasting (s : State) (x : RemReq) (ord : Nat) :
    (State.fenceFollows s x ord).lasting = s.lasting := by
  unfold State.fenceFollows
  repeat' first
    | with_reducible rfl
    | simp only [foldl_lasting, foldl_fst_lasting, foldl_snd_lasting, implies_true, Lasting.of_mk, Lasting.eta, lasting_ite, snd_ite, fst_ite, ite_self]
    | (with_reducible refine (foldl_lasting _ _ _ ?_).trans ?_)
    | (with_reducible refine (foldl_fst_lasting _ _ _ ?_).trans ?_)
    | intro _
    | split

@[simp] theorem State.restamp_lasting (s : State) (q : RemReq) (epoch : Nat) :
    (State.restamp s q epoch).lasting = s.lasting := by
  unfold State.restamp
  repeat' first
    | with_reducible rfl
    | simp only [State.fenceFollows_lasting, State.modAssoc_lasting, State.modStream_lasting, State.setRemote_lasting, State.transmit_lasting, foldl_lasting, foldl_fst_lasting, foldl_snd_lasting, implies_true, Lasting.of_mk, Lasting.eta, lasting_ite, snd_ite, fst_ite, ite_self]
    | (with_reducible refine (foldl_lasting _ _ _ ?_).trans ?_)
    | (with_reducible refine (foldl_fst_lasting _ _ _ ?_).trans ?_)
    | intro _
    | split

@[simp] theorem State.appliedThrough_lasting (s : State) (h peer tc n : Nat) (but : Nat := 0) :
    (State.appliedThrough s h peer tc n but).lasting = s.lasting := by
  unfold State.appliedThrough
  repeat' first
    | with_reducible rfl
    | simp only [State.modStream_lasting, State.remoteDone_lasting, foldl_lasting, foldl_fst_lasting, foldl_snd_lasting, implies_true, Lasting.of_mk, Lasting.eta, lasting_ite, snd_ite, fst_ite, ite_self]
    | (with_reducible refine (foldl_lasting _ _ _ ?_).trans ?_)
    | (with_reducible refine (foldl_fst_lasting _ _ _ ?_).trans ?_)
    | intro _
    | split

@[simp] theorem State.response_lasting (s : State) (h peer tc : Nat) (b : Bytes) :
    (State.response s h peer tc b).lasting = s.lasting := by
  unfold State.response
  repeat' first
    | with_reducible rfl
    | simp only [State.appliedThrough_lasting, State.deadCtx_lasting, State.free_lasting, State.modAssoc_lasting, State.modDead_lasting, State.remoteDone_lasting, State.remoteFails_lasting, State.restamp_lasting, foldl_lasting, foldl_fst_lasting, foldl_snd_lasting, implies_true, Lasting.of_mk, Lasting.eta, lasting_ite, snd_ite, fst_ite, ite_self]
    | (with_reducible refine (foldl_lasting _ _ _ ?_).trans ?_)
    | (with_reducible refine (foldl_fst_lasting _ _ _ ?_).trans ?_)
    | intro _
    | split

@[simp] theorem State.arm_lasting (s : State) (n scope : Nat) (nodes : List Nat) (f : Fence → Fence) :
    (State.arm s n scope nodes f).lasting = s.lasting := by
  unfold State.arm
  repeat' first
    | with_reducible rfl
    | simp only [foldl_lasting, foldl_fst_lasting, foldl_snd_lasting, implies_true, Lasting.of_mk, Lasting.eta, lasting_ite, snd_ite, fst_ite, ite_self]
    | (with_reducible refine (foldl_lasting _ _ _ ?_).trans ?_)
    | (with_reducible refine (foldl_fst_lasting _ _ _ ?_).trans ?_)
    | intro _
    | split

theorem State.armReserved_lasting {s t : State} {dests : List (Nat × Nat)} {n : Nat}
    (h : s.armReserved dests = some (n, t)) : t.lasting = s.lasting := by
  unfold State.armReserved at h
  split at h
  · cases h
  · cases h; rfl

@[simp] theorem State.freeReserved_lasting (s : State) (n : Nat) :
    (State.freeReserved s n).lasting = s.lasting := by
  unfold State.freeReserved
  repeat' first
    | with_reducible rfl
    | simp only [foldl_lasting, foldl_fst_lasting, foldl_snd_lasting, implies_true, Lasting.of_mk, Lasting.eta, lasting_ite, snd_ite, fst_ite, ite_self]
    | (with_reducible refine (foldl_lasting _ _ _ ?_).trans ?_)
    | (with_reducible refine (foldl_fst_lasting _ _ _ ?_).trans ?_)
    | intro _
    | split

@[simp] theorem State.fenceEnds_lasting (s : State) (n : Nat) (f : Fence) :
    (State.fenceEnds s n f).lasting = s.lasting := by
  unfold State.fenceEnds
  repeat' first
    | with_reducible rfl
    | simp only [State.completeOpt_lasting, State.tileAnswer_lasting, foldl_lasting, foldl_fst_lasting, foldl_snd_lasting, implies_true, Lasting.of_mk, Lasting.eta, lasting_ite, snd_ite, fst_ite, ite_self]
    | (with_reducible refine (foldl_lasting _ _ _ ?_).trans ?_)
    | (with_reducible refine (foldl_fst_lasting _ _ _ ?_).trans ?_)
    | intro _
    | split

@[simp] theorem State.fencesSettle_lasting (s : State) :
    (State.fencesSettle s).lasting = s.lasting := by
  unfold State.fencesSettle
  repeat' first
    | with_reducible rfl
    | simp only [State.fenceEnds_lasting, foldl_lasting, foldl_fst_lasting, foldl_snd_lasting, implies_true, Lasting.of_mk, Lasting.eta, lasting_ite, snd_ite, fst_ite, ite_self]
    | (with_reducible refine (foldl_lasting _ _ _ ?_).trans ?_)
    | (with_reducible refine (foldl_fst_lasting _ _ _ ?_).trans ?_)
    | intro _
    | split

end Machine
end Sys2Proof
end

