-- ==== Sys2Proof/Laws/LastingInbound.lean ====
section
/-!
SUPPORT. Laws/LastingInbound.lean: no operation of Machine/Inbound.lean touches the queue, the fuse array, power, the reset or the
TAMPER_HELD latch.
-/

-- One theorem after another: side by side, each holds a thread (NOTES.md).
set_option Elab.async false

namespace Sys2Proof
namespace Machine

set_option linter.unusedSimpArgs false

@[simp] theorem State.sendAck_lasting (s : State) (h peer tc : Nat) :
    (State.sendAck s h peer tc).lasting = s.lasting := by
  unfold State.sendAck
  repeat' first
    | with_reducible rfl
    | simp only [State.modStream_lasting, State.sealData_lasting, foldl_lasting, foldl_fst_lasting, foldl_snd_lasting, implies_true, Lasting.of_mk, Lasting.eta, lasting_ite, snd_ite, fst_ite, ite_self]
    | (with_reducible refine (foldl_lasting _ _ _ ?_).trans ?_)
    | (with_reducible refine (foldl_fst_lasting _ _ _ ?_).trans ?_)
    | intro _
    | split

@[simp] theorem State.ackTimer_lasting (s : State) (h peer tc : Nat) :
    (State.ackTimer s h peer tc).lasting = s.lasting := by
  unfold State.ackTimer
  repeat' first
    | with_reducible rfl
    | simp only [State.sendAck_lasting, foldl_lasting, foldl_fst_lasting, foldl_snd_lasting, implies_true, Lasting.of_mk, Lasting.eta, lasting_ite, snd_ite, fst_ite, ite_self]
    | (with_reducible refine (foldl_lasting _ _ _ ?_).trans ?_)
    | (with_reducible refine (foldl_fst_lasting _ _ _ ?_).trans ?_)
    | intro _
    | split

@[simp] theorem State.confirmHoles_lasting (s : State) (i : Inbound) (upto : Nat) :
    (State.confirmHoles s i upto).lasting = s.lasting := by
  unfold State.confirmHoles
  repeat' first
    | with_reducible rfl
    | simp only [foldl_lasting, foldl_fst_lasting, foldl_snd_lasting, implies_true, Lasting.of_mk, Lasting.eta, lasting_ite, snd_ite, fst_ite, ite_self]
    | (with_reducible refine (foldl_lasting _ _ _ ?_).trans ?_)
    | (with_reducible refine (foldl_fst_lasting _ _ _ ?_).trans ?_)
    | intro _
    | split

@[simp] theorem State.takeRow_lasting (s : State) (i : Inbound) :
    (State.takeRow s i).lasting = s.lasting := by
  unfold State.takeRow
  repeat' first
    | with_reducible rfl
    | simp only [State.postLimited_lasting, foldl_lasting, foldl_fst_lasting, foldl_snd_lasting, implies_true, Lasting.of_mk, Lasting.eta, lasting_ite, snd_ite, fst_ite, ite_self]
    | (with_reducible refine (foldl_lasting _ _ _ ?_).trans ?_)
    | (with_reducible refine (foldl_fst_lasting _ _ _ ?_).trans ?_)
    | intro _
    | split

@[simp] theorem State.recordHole_lasting (s : State) (i : Inbound) (st : Status) (reason : Nat) (result : BitVec 64) :
    (State.recordHole s i st reason result).lasting = s.lasting := by
  unfold State.recordHole
  repeat' first
    | with_reducible rfl
    | simp only [State.takeRow_lasting, foldl_lasting, foldl_fst_lasting, foldl_snd_lasting, implies_true, Lasting.of_mk, Lasting.eta, lasting_ite, snd_ite, fst_ite, ite_self]
    | (with_reducible refine (foldl_lasting _ _ _ ?_).trans ?_)
    | (with_reducible refine (foldl_fst_lasting _ _ _ ?_).trans ?_)
    | intro _
    | split

@[simp] theorem State.inboundEnds_lasting (s : State) (i : Inbound) (st : Status) (reason : Nat) (result : BitVec 64) (data : Bytes) (record : Bool) (stamp : Option Stamp := none) :
    (State.inboundEnds s i st reason result data record stamp).lasting = s.lasting := by
  unfold State.inboundEnds
  repeat' first
    | with_reducible rfl
    | simp only [State.ackTimer_lasting, State.modStream_lasting, State.orphan_lasting, State.recordHole_lasting, State.sealData_lasting, foldl_lasting, foldl_fst_lasting, foldl_snd_lasting, implies_true, Lasting.of_mk, Lasting.eta, lasting_ite, snd_ite, fst_ite, ite_self]
    | (with_reducible refine (foldl_lasting _ _ _ ?_).trans ?_)
    | (with_reducible refine (foldl_fst_lasting _ _ _ ?_).trans ?_)
    | intro _
    | split

@[simp] theorem State.inboundRefused_lasting (s : State) (i : Inbound) (window : Option Nat) (st : Status) (reason : Nat) :
    (State.inboundRefused s i window st reason).lasting = s.lasting := by
  unfold State.inboundRefused
  repeat' first
    | with_reducible rfl
    | simp only [State.postLimited_lasting, State.raiseFault_lasting, foldl_lasting, foldl_fst_lasting, foldl_snd_lasting, implies_true, Lasting.of_mk, Lasting.eta, lasting_ite, snd_ite, fst_ite, ite_self]
    | (with_reducible refine (foldl_lasting _ _ _ ?_).trans ?_)
    | (with_reducible refine (foldl_fst_lasting _ _ _ ?_).trans ?_)
    | intro _
    | split

@[simp] theorem State.inboundDone_lasting (s : State) (i : Inbound) (q : Req) :
    (State.inboundDone s i q).lasting = s.lasting := by
  unfold State.inboundDone
  repeat' first
    | with_reducible rfl
    | simp only [State.inboundEnds_lasting, State.inboundRefused_lasting, State.modCounters_lasting, foldl_lasting, foldl_fst_lasting, foldl_snd_lasting, implies_true, Lasting.of_mk, Lasting.eta, lasting_ite, snd_ite, fst_ite, ite_self]
    | (with_reducible refine (foldl_lasting _ _ _ ?_).trans ?_)
    | (with_reducible refine (foldl_fst_lasting _ _ _ ?_).trans ?_)
    | intro _
    | split

@[simp] theorem State.inbound_lasting (s : State) (i : Inbound) (b : Bytes) :
    (State.inbound s i b).lasting = s.lasting := by
  unfold State.inbound
  repeat' first
    | with_reducible rfl
    | simp only [State.confirmHoles_lasting, State.count_lasting, State.inboundEnds_lasting, State.inboundRefused_lasting, State.modCounters_lasting, State.modDead_lasting, State.opened_lasting, State.submit_lasting, foldl_lasting, foldl_fst_lasting, foldl_snd_lasting, implies_true, Lasting.of_mk, Lasting.eta, lasting_ite, snd_ite, fst_ite, ite_self]
    | (with_reducible refine (foldl_lasting _ _ _ ?_).trans ?_)
    | (with_reducible refine (foldl_fst_lasting _ _ _ ?_).trans ?_)
    | intro _
    | split

@[simp] theorem State.pass_lasting (s : State) (h peer tc : Nat) (dup : Bool) (b : Bytes) :
    (State.pass s h peer tc dup b).lasting = s.lasting := by
  unfold State.pass
  repeat' first
    | with_reducible rfl
    | simp only [State.ackTimer_lasting, State.inbound_lasting, State.modJob_lasting, State.modStream_lasting, foldl_lasting, foldl_fst_lasting, foldl_snd_lasting, implies_true, Lasting.of_mk, Lasting.eta, lasting_ite, snd_ite, fst_ite, ite_self]
    | (with_reducible refine (foldl_lasting _ _ _ ?_).trans ?_)
    | (with_reducible refine (foldl_fst_lasting _ _ _ ?_).trans ?_)
    | intro _
    | split

@[simp] theorem State.passHeld_lasting (h peer tc : Nat) (n : Nat) (s : State) :
    (State.passHeld h peer tc n s).lasting = s.lasting := by
  induction n generalizing s with
  | zero => rfl
  | succ n ih =>
    unfold State.passHeld
    repeat' first
      | with_reducible rfl
      | simp only [ih, State.modAssoc_lasting, State.modStream_lasting, State.pass_lasting, foldl_lasting, foldl_fst_lasting, foldl_snd_lasting, implies_true, Lasting.of_mk, Lasting.eta, lasting_ite, snd_ite, fst_ite, ite_self]
      | (with_reducible refine (foldl_lasting _ _ _ ?_).trans ?_)
      | (with_reducible refine (foldl_fst_lasting _ _ _ ?_).trans ?_)
      | intro _
      | split

@[simp] theorem State.streamArrives_lasting (s : State) (h peer tc port : Nat) (b : Bytes) :
    (State.streamArrives s h peer tc port b).lasting = s.lasting := by
  unfold State.streamArrives
  repeat' first
    | with_reducible rfl
    | simp only [State.modAssoc_lasting, State.modStream_lasting, State.pass_lasting, State.passHeld_lasting, foldl_lasting, foldl_fst_lasting, foldl_snd_lasting, implies_true, Lasting.of_mk, Lasting.eta, lasting_ite, snd_ite, fst_ite, ite_self]
    | (with_reducible refine (foldl_lasting _ _ _ ?_).trans ?_)
    | (with_reducible refine (foldl_fst_lasting _ _ _ ?_).trans ?_)
    | intro _
    | split

@[simp] theorem State.drained_lasting (s : State) (p : Marker → Bool) :
    (State.drained s p).lasting = s.lasting := by
  unfold State.drained
  repeat' first
    | with_reducible rfl
    | simp only [State.completeOpt_lasting, foldl_lasting, foldl_fst_lasting, foldl_snd_lasting, implies_true, Lasting.of_mk, Lasting.eta, lasting_ite, snd_ite, fst_ite, ite_self]
    | (with_reducible refine (foldl_lasting _ _ _ ?_).trans ?_)
    | (with_reducible refine (foldl_fst_lasting _ _ _ ?_).trans ?_)
    | intro _
    | split

@[simp] theorem State.redirected_lasting (s : State) (h peer epoch : Nat) :
    (State.redirected s h peer epoch).lasting = s.lasting := by
  unfold State.redirected
  repeat' first
    | with_reducible rfl
    | simp only [State.accepted_lasting, State.modAssoc_lasting, State.modStream_lasting, State.sendRemote_lasting, foldl_lasting, foldl_fst_lasting, foldl_snd_lasting, implies_true, Lasting.of_mk, Lasting.eta, lasting_ite, snd_ite, fst_ite, ite_self]
    | (with_reducible refine (foldl_lasting _ _ _ ?_).trans ?_)
    | (with_reducible refine (foldl_fst_lasting _ _ _ ?_).trans ?_)
    | intro _
    | split

@[simp] theorem State.deliverBody_lasting (s : State) (h peer tc port : Nat) (b : Bytes) :
    (State.deliverBody s h peer tc port b).lasting = s.lasting := by
  unfold State.deliverBody
  repeat' first
    | with_reducible rfl
    | simp only [State.drained_lasting, State.modAssoc_lasting, State.modAssocs_lasting, State.redirected_lasting, State.response_lasting, State.sealData_lasting, State.streamArrives_lasting, foldl_lasting, foldl_fst_lasting, foldl_snd_lasting, implies_true, Lasting.of_mk, Lasting.eta, lasting_ite, snd_ite, fst_ite, ite_self]
    | (with_reducible refine (foldl_lasting _ _ _ ?_).trans ?_)
    | (with_reducible refine (foldl_fst_lasting _ _ _ ?_).trans ?_)
    | intro _
    | split

end Machine
end Sys2Proof
end

