-- ==== Sys2Proof/Laws/LastingHandshake.lean ====
section
/-!
SUPPORT. Laws/LastingHandshake.lean: no operation of Machine/Handshake.lean touches the queue, the fuse array, power, the reset or the
TAMPER_HELD latch.
-/

-- One theorem after another: side by side, each holds a thread (NOTES.md).
set_option Elab.async false

namespace Sys2Proof
namespace Machine

set_option linter.unusedSimpArgs false

@[simp] theorem State.malformedPacket_lasting (s : State) :
    (State.malformedPacket s).lasting = s.lasting := by
  unfold State.malformedPacket
  repeat' first
    | with_reducible rfl
    | simp only [State.modAssocs_lasting, foldl_lasting, foldl_fst_lasting, foldl_snd_lasting, implies_true, Lasting.of_mk, Lasting.eta, lasting_ite, snd_ite, fst_ite, ite_self]
    | (with_reducible refine (foldl_lasting _ _ _ ?_).trans ?_)
    | (with_reducible refine (foldl_fst_lasting _ _ _ ?_).trans ?_)
    | intro _
    | split

@[simp] theorem State.otherRevision_lasting (s : State) :
    (State.otherRevision s).lasting = s.lasting := by
  unfold State.otherRevision
  repeat' first
    | with_reducible rfl
    | simp only [State.modAssocs_lasting, foldl_lasting, foldl_fst_lasting, foldl_snd_lasting, implies_true, Lasting.of_mk, Lasting.eta, lasting_ite, snd_ite, fst_ite, ite_self]
    | (with_reducible refine (foldl_lasting _ _ _ ?_).trans ?_)
    | (with_reducible refine (foldl_fst_lasting _ _ _ ?_).trans ?_)
    | intro _
    | split

@[simp] theorem State.droppedPacket_lasting (s : State) :
    (State.droppedPacket s).lasting = s.lasting := by
  unfold State.droppedPacket
  repeat' first
    | with_reducible rfl
    | simp only [State.modAssocs_lasting, foldl_lasting, foldl_fst_lasting, foldl_snd_lasting, implies_true, Lasting.of_mk, Lasting.eta, lasting_ite, snd_ite, fst_ite, ite_self]
    | (with_reducible refine (foldl_lasting _ _ _ ?_).trans ?_)
    | (with_reducible refine (foldl_fst_lasting _ _ _ ?_).trans ?_)
    | intro _
    | split

@[simp] theorem State.inboundLetter_lasting (s : State) :
    (State.inboundLetter s).lasting = s.lasting := by
  unfold State.inboundLetter
  repeat' first
    | with_reducible rfl
    | simp only [State.inbound_lasting, State.modDead_lasting, foldl_lasting, foldl_fst_lasting, foldl_snd_lasting, implies_true, Lasting.of_mk, Lasting.eta, lasting_ite, snd_ite, fst_ite, ite_self]
    | (with_reducible refine (foldl_lasting _ _ _ ?_).trans ?_)
    | (with_reducible refine (foldl_fst_lasting _ _ _ ?_).trans ?_)
    | intro _
    | split

@[simp] theorem State.sendRefuse_lasting (s : State) (port node number : Nat) (st : Status) (retry : Nat) :
    (State.sendRefuse s port node number st retry).lasting = s.lasting := by
  unfold State.sendRefuse
  repeat' first
    | with_reducible rfl
    | simp only [State.emitPacket_lasting, State.free_lasting, foldl_lasting, foldl_fst_lasting, foldl_snd_lasting, implies_true, Lasting.of_mk, Lasting.eta, lasting_ite, snd_ite, fst_ite, ite_self]
    | (with_reducible refine (foldl_lasting _ _ _ ?_).trans ?_)
    | (with_reducible refine (foldl_fst_lasting _ _ _ ?_).trans ?_)
    | intro _
    | split

@[simp] theorem State.refuseHello_lasting (s : State) (port node number : Nat) :
    (State.refuseHello s port node number).lasting = s.lasting := by
  unfold State.refuseHello
  repeat' first
    | with_reducible rfl
    | simp only [State.retryAfter_lasting, State.sendRefuse_lasting, foldl_lasting, foldl_fst_lasting, foldl_snd_lasting, implies_true, Lasting.of_mk, Lasting.eta, lasting_ite, snd_ite, fst_ite, ite_self]
    | (with_reducible refine (foldl_lasting _ _ _ ?_).trans ?_)
    | (with_reducible refine (foldl_fst_lasting _ _ _ ?_).trans ?_)
    | intro _
    | split

@[simp] theorem State.takePlace_lasting (s : State) (x : Place) :
    (State.takePlace s x).lasting = s.lasting := by
  unfold State.takePlace
  repeat' first
    | with_reducible rfl
    | simp only [foldl_lasting, foldl_fst_lasting, foldl_snd_lasting, implies_true, Lasting.of_mk, Lasting.eta, lasting_ite, snd_ite, fst_ite, ite_self]
    | (with_reducible refine (foldl_lasting _ _ _ ?_).trans ?_)
    | (with_reducible refine (foldl_fst_lasting _ _ _ ?_).trans ?_)
    | intro _
    | split

@[simp] theorem State.helloArrives_lasting (s : State) (port : Nat) (p : MsgPacket) :
    (State.helloArrives s port p).lasting = s.lasting := by
  unfold State.helloArrives
  repeat' first
    | with_reducible rfl
    | simp only [State.inboundLetter_lasting, State.malformedPacket_lasting, State.modAssocs_lasting, State.otherRevision_lasting, State.post_lasting, State.refuseHello_lasting, State.sendRefuse_lasting, State.takePlace_lasting, foldl_lasting, foldl_fst_lasting, foldl_snd_lasting, implies_true, Lasting.of_mk, Lasting.eta, lasting_ite, snd_ite, fst_ite, ite_self]
    | (with_reducible refine (foldl_lasting _ _ _ ?_).trans ?_)
    | (with_reducible refine (foldl_fst_lasting _ _ _ ?_).trans ?_)
    | intro _
    | split

@[simp] theorem State.answerHello_lasting (s : State) (h src port home agreed proposed : Nat) (ni : BitVec 64) (a : Option Assoc) (keys : Key × Key) :
    (State.answerHello s h src port home agreed proposed ni a keys).lasting = s.lasting := by
  unfold State.answerHello
  repeat' first
    | with_reducible rfl
    | simp only [State.derived_lasting, State.draw_lasting, State.handshake_lasting, State.putAssoc_lasting, State.releaseHandshake_lasting, foldl_lasting, foldl_fst_lasting, foldl_snd_lasting, implies_true, Lasting.of_mk, Lasting.eta, lasting_ite, snd_ite, fst_ite, ite_self]
    | (with_reducible refine (foldl_lasting _ _ _ ?_).trans ?_)
    | (with_reducible refine (foldl_fst_lasting _ _ _ ?_).trans ?_)
    | intro _
    | split

@[simp] theorem State.agreedHello_lasting (s : State) (port : Nat) (p : MsgPacket) (h agreed home : Nat)
    (state : AssocState) : (State.agreedHello s port p h agreed home state).lasting = s.lasting := by
  have hroom : ∀ (c : Bool) (home : Nat) (t : State), (if c = true then some s else s.entryRoom home) = some t →
      t.lasting = s.lasting := by
    intro c home t ht
    split at ht
    · cases ht; rfl
    · exact State.entryRoom_lasting ht
  unfold State.agreedHello
  dsimp only
  split
  · simp only [State.assocRefused_lasting, State.giveUp_lasting, lasting_ite, State.removeAssoc_lasting, ite_self]
  · split
    · rename_i hr _
      rw [State.answerHello_lasting, hroom _ _ _ hr]
    · exact State.takePlace_lasting ..
    · exact State.droppedPacket_lasting ..

@[simp] theorem State.newHello_lasting (s : State) (port : Nat) (p : MsgPacket) (h : Nat) :
    (State.newHello s port p h).lasting = s.lasting := by
  unfold State.newHello
  repeat' first
    | with_reducible rfl
    | simp only [State.agreedHello_lasting, foldl_lasting, foldl_fst_lasting, foldl_snd_lasting, implies_true, Lasting.of_mk, Lasting.eta, lasting_ite, snd_ite, fst_ite, ite_self]
    | (with_reducible refine (foldl_lasting _ _ _ ?_).trans ?_)
    | (with_reducible refine (foldl_fst_lasting _ _ _ ?_).trans ?_)
    | intro _
    | split

@[simp] theorem State.helloOpened_lasting (s : State) (port : Nat) (p : MsgPacket) (h : Nat) (offered : Key × Key) :
    (State.helloOpened s port p h offered).lasting = s.lasting := by
  unfold State.helloOpened
  repeat' first
    | with_reducible rfl
    | simp only [State.droppedPacket_lasting, State.handOver_lasting, State.modAssocs_lasting, State.newHello_lasting, foldl_lasting, foldl_fst_lasting, foldl_snd_lasting, implies_true, Lasting.of_mk, Lasting.eta, lasting_ite, snd_ite, fst_ite, ite_self]
    | (with_reducible refine (foldl_lasting _ _ _ ?_).trans ?_)
    | (with_reducible refine (foldl_fst_lasting _ _ _ ?_).trans ?_)
    | intro _
    | split

@[simp] theorem State.helloServed_lasting (s : State) (port : Nat) (p : MsgPacket) :
    (State.helloServed s port p).lasting = s.lasting := by
  unfold State.helloServed
  repeat' first
    | with_reducible rfl
    | simp only [State.helloOpened_lasting, State.inboundLetter_lasting, State.modAssocs_lasting, State.pairKeys_lasting, foldl_lasting, foldl_fst_lasting, foldl_snd_lasting, implies_true, Lasting.of_mk, Lasting.eta, lasting_ite, snd_ite, fst_ite, ite_self]
    | (with_reducible refine (foldl_lasting _ _ _ ?_).trans ?_)
    | (with_reducible refine (foldl_fst_lasting _ _ _ ?_).trans ?_)
    | intro _
    | (rename_i hsome; rw [← State.pairKeys_eq_lasting hsome])
    | (split; next heq => (have hp := congrArg (fun x => State.lasting x.2) heq; simp only [State.helloOpened_lasting, State.inboundLetter_lasting, State.modAssocs_lasting, State.pairKeys_lasting, foldl_lasting, foldl_fst_lasting, foldl_snd_lasting, implies_true, Lasting.of_mk, Lasting.eta, lasting_ite, snd_ite, fst_ite, ite_self] at hp; rw [hp]))
    | split

@[simp] theorem State.helloInitiated_lasting (s : State) (h peer : Nat) :
    (State.helloInitiated s h peer).lasting = s.lasting := by
  unfold State.helloInitiated
  repeat' first
    | with_reducible rfl
    | simp only [State.assocRefused_lasting, State.draw_lasting, State.giveUp_lasting, State.handshake_lasting, State.modAssoc_lasting, State.pairKeys_lasting, State.releaseHandshake_lasting, State.removeAssoc_lasting, foldl_lasting, foldl_fst_lasting, foldl_snd_lasting, implies_true, Lasting.of_mk, Lasting.eta, lasting_ite, snd_ite, fst_ite, ite_self]
    | (with_reducible refine (foldl_lasting _ _ _ ?_).trans ?_)
    | (with_reducible refine (foldl_fst_lasting _ _ _ ?_).trans ?_)
    | intro _
    | (rename_i hsome; rw [← State.pairKeys_eq_lasting hsome])
    | (split; next heq => (have hp := congrArg (fun x => State.lasting x.2) heq; simp only [State.assocRefused_lasting, State.draw_lasting, State.giveUp_lasting, State.handshake_lasting, State.modAssoc_lasting, State.pairKeys_lasting, State.releaseHandshake_lasting, State.removeAssoc_lasting, foldl_lasting, foldl_fst_lasting, foldl_snd_lasting, implies_true, Lasting.of_mk, Lasting.eta, lasting_ite, snd_ite, fst_ite, ite_self] at hp; rw [hp]))
    | split

@[simp] theorem State.helloResend_lasting (s : State) (h peer : Nat) :
    (State.helloResend s h peer).lasting = s.lasting := by
  unfold State.helloResend
  repeat' first
    | with_reducible rfl
    | simp only [State.handOver_lasting, State.modAssoc_lasting, State.takePlace_lasting, foldl_lasting, foldl_fst_lasting, foldl_snd_lasting, implies_true, Lasting.of_mk, Lasting.eta, lasting_ite, snd_ite, fst_ite, ite_self]
    | (with_reducible refine (foldl_lasting _ _ _ ?_).trans ?_)
    | (with_reducible refine (foldl_fst_lasting _ _ _ ?_).trans ?_)
    | intro _
    | split

@[simp] theorem State.abandonAttempt_lasting (s : State) (a : Assoc) (st : Status) (revision : Nat) :
    (State.abandonAttempt s a st revision).lasting = s.lasting := by
  unfold State.abandonAttempt
  repeat' first
    | with_reducible rfl
    | simp only [State.assocRefused_lasting, State.giveUp_lasting, State.removeAssoc_lasting, foldl_lasting, foldl_fst_lasting, foldl_snd_lasting, implies_true, Lasting.of_mk, Lasting.eta, lasting_ite, snd_ite, fst_ite, ite_self]
    | (with_reducible refine (foldl_lasting _ _ _ ?_).trans ?_)
    | (with_reducible refine (foldl_fst_lasting _ _ _ ?_).trans ?_)
    | intro _
    | split

@[simp] theorem State.handshakeTimeout_lasting (s : State) (h peer : Nat) :
    (State.handshakeTimeout s h peer).lasting = s.lasting := by
  unfold State.handshakeTimeout
  repeat' first
    | with_reducible rfl
    | simp only [State.abandonAttempt_lasting, foldl_lasting, foldl_fst_lasting, foldl_snd_lasting, implies_true, Lasting.of_mk, Lasting.eta, lasting_ite, snd_ite, fst_ite, ite_self]
    | (with_reducible refine (foldl_lasting _ _ _ ?_).trans ?_)
    | (with_reducible refine (foldl_fst_lasting _ _ _ ?_).trans ?_)
    | intro _
    | split

@[simp] theorem State.deferPeer_lasting (s : State) (peer t : Nat) :
    (State.deferPeer s peer t).lasting = s.lasting := by
  unfold State.deferPeer
  repeat' first
    | with_reducible rfl
    | simp only [State.modAssocs_lasting, foldl_lasting, foldl_fst_lasting, foldl_snd_lasting, implies_true, Lasting.of_mk, Lasting.eta, lasting_ite, snd_ite, fst_ite, ite_self]
    | (with_reducible refine (foldl_lasting _ _ _ ?_).trans ?_)
    | (with_reducible refine (foldl_fst_lasting _ _ _ ?_).trans ?_)
    | intro _
    | split

@[simp] theorem State.refused_lasting (s : State) (p : MsgPacket) :
    (State.refused s p).lasting = s.lasting := by
  unfold State.refused
  repeat' first
    | with_reducible rfl
    | simp only [State.abandonAttempt_lasting, State.deferPeer_lasting, State.inboundLetter_lasting, State.malformedPacket_lasting, State.modAssocs_lasting, State.otherRevision_lasting, foldl_lasting, foldl_fst_lasting, foldl_snd_lasting, implies_true, Lasting.of_mk, Lasting.eta, lasting_ite, snd_ite, fst_ite, ite_self]
    | (with_reducible refine (foldl_lasting _ _ _ ?_).trans ?_)
    | (with_reducible refine (foldl_fst_lasting _ _ _ ?_).trans ?_)
    | intro _
    | split

@[simp] theorem State.answerArrives_lasting (s : State) (port : Nat) (p : MsgPacket) :
    (State.answerArrives s port p).lasting = s.lasting := by
  unfold State.answerArrives
  repeat' first
    | with_reducible rfl
    | simp only [State.droppedPacket_lasting, State.inboundLetter_lasting, State.malformedPacket_lasting, State.modAssocs_lasting, State.otherRevision_lasting, State.takePlace_lasting, foldl_lasting, foldl_fst_lasting, foldl_snd_lasting, implies_true, Lasting.of_mk, Lasting.eta, lasting_ite, snd_ite, fst_ite, ite_self]
    | (with_reducible refine (foldl_lasting _ _ _ ?_).trans ?_)
    | (with_reducible refine (foldl_fst_lasting _ _ _ ?_).trans ?_)
    | intro _
    | split

@[simp] theorem State.acceptServed_lasting (s : State) (p : MsgPacket) :
    (State.acceptServed s p).lasting = s.lasting := by
  unfold State.acceptServed
  repeat' first
    | with_reducible rfl
    | simp only [State.droppedPacket_lasting, State.handshake_lasting, State.modAssocs_lasting, State.opened_lasting, State.pairKeys_lasting, State.putAssoc_lasting, State.releaseHandshake_lasting, foldl_lasting, foldl_fst_lasting, foldl_snd_lasting, implies_true, Lasting.of_mk, Lasting.eta, lasting_ite, snd_ite, fst_ite, ite_self]
    | (with_reducible refine (foldl_lasting _ _ _ ?_).trans ?_)
    | (with_reducible refine (foldl_fst_lasting _ _ _ ?_).trans ?_)
    | intro _
    | (rename_i hsome; rw [← State.pairKeys_eq_lasting hsome])
    | (split; next heq => (have hp := congrArg (fun x => State.lasting x.2) heq; simp only [State.droppedPacket_lasting, State.handshake_lasting, State.modAssocs_lasting, State.opened_lasting, State.pairKeys_lasting, State.putAssoc_lasting, State.releaseHandshake_lasting, foldl_lasting, foldl_fst_lasting, foldl_snd_lasting, implies_true, Lasting.of_mk, Lasting.eta, lasting_ite, snd_ite, fst_ite, ite_self] at hp; rw [hp]))
    | split

@[simp] theorem State.newHome_lasting (s : State) (a : Assoc) :
    (State.newHome s a).2.lasting = s.lasting := by
  unfold State.newHome
  repeat' first
    | with_reducible rfl
    | simp only [foldl_lasting, foldl_fst_lasting, foldl_snd_lasting, implies_true, Lasting.of_mk, Lasting.eta, lasting_ite, snd_ite, fst_ite, ite_self]
    | (with_reducible refine (foldl_lasting _ _ _ ?_).trans ?_)
    | (with_reducible refine (foldl_fst_lasting _ _ _ ?_).trans ?_)
    | intro _
    | (rename_i hsome; rw [← State.entryRoom_lasting hsome])
    | split

@[simp] theorem State.confirmed_lasting (s : State) (h peer : Nat) :
    (State.confirmed s h peer).lasting = s.lasting := by
  unfold State.confirmed
  repeat' first
    | with_reducible rfl
    | simp only [State.complete_lasting, State.newHome_lasting, State.opened_lasting, State.putAssoc_lasting, foldl_lasting, foldl_fst_lasting, foldl_snd_lasting, implies_true, Lasting.of_mk, Lasting.eta, lasting_ite, snd_ite, fst_ite, ite_self]
    | (with_reducible refine (foldl_lasting _ _ _ ?_).trans ?_)
    | (with_reducible refine (foldl_fst_lasting _ _ _ ?_).trans ?_)
    | intro _
    | split

@[simp] theorem State.confirmServed_lasting (s : State) (p : MsgPacket) :
    (State.confirmServed s p).lasting = s.lasting := by
  unfold State.confirmServed
  repeat' first
    | with_reducible rfl
    | simp only [State.confirmed_lasting, State.droppedPacket_lasting, State.inboundLetter_lasting, State.modAssocs_lasting, foldl_lasting, foldl_fst_lasting, foldl_snd_lasting, implies_true, Lasting.of_mk, Lasting.eta, lasting_ite, snd_ite, fst_ite, ite_self]
    | (with_reducible refine (foldl_lasting _ _ _ ?_).trans ?_)
    | (with_reducible refine (foldl_fst_lasting _ _ _ ?_).trans ?_)
    | intro _
    | split

@[simp] theorem State.attemptExpired_lasting (s : State) (h peer : Nat) :
    (State.attemptExpired s h peer).lasting = s.lasting := by
  unfold State.attemptExpired
  repeat' first
    | with_reducible rfl
    | simp only [State.callStart_lasting, State.modAssoc_lasting, State.removeAssoc_lasting, foldl_lasting, foldl_fst_lasting, foldl_snd_lasting, implies_true, Lasting.of_mk, Lasting.eta, lasting_ite, snd_ite, fst_ite, ite_self]
    | (with_reducible refine (foldl_lasting _ _ _ ?_).trans ?_)
    | (with_reducible refine (foldl_fst_lasting _ _ _ ?_).trans ?_)
    | intro _
    | split

@[simp] theorem State.packetIn_lasting (s : State) (h port epoch : Nat) (p : MsgPacket) :
    (State.packetIn s h port epoch p).lasting = s.lasting := by
  unfold State.packetIn
  repeat' first
    | with_reducible rfl
    | simp only [State.acceptSeq_lasting, State.count_lasting, State.learnEpoch_lasting, State.packetRec_lasting, foldl_lasting, foldl_fst_lasting, foldl_snd_lasting, implies_true, Lasting.of_mk, Lasting.eta, lasting_ite, snd_ite, fst_ite, ite_self]
    | (with_reducible refine (foldl_lasting _ _ _ ?_).trans ?_)
    | (with_reducible refine (foldl_fst_lasting _ _ _ ?_).trans ?_)
    | intro _
    | split

@[simp] theorem State.openedPacket_lasting (s : State) (h port epoch : Nat) (p : MsgPacket) (plain : Bytes) :
    (State.openedPacket s h port epoch p plain).lasting = s.lasting := by
  unfold State.openedPacket
  repeat' first
    | with_reducible rfl
    | simp only [State.deliverBody_lasting, State.gotRatchet_lasting, State.malformedPacket_lasting, State.packetIn_lasting, State.stepEnd_lasting, foldl_lasting, foldl_fst_lasting, foldl_snd_lasting, implies_true, Lasting.of_mk, Lasting.eta, lasting_ite, snd_ite, fst_ite, ite_self]
    | (with_reducible refine (foldl_lasting _ _ _ ?_).trans ?_)
    | (with_reducible refine (foldl_fst_lasting _ _ _ ?_).trans ?_)
    | intro _
    | split

@[simp] theorem State.tagFailed_lasting (s : State) (h peer epoch : Nat) :
    (State.tagFailed s h peer epoch).lasting = s.lasting := by
  unfold State.tagFailed
  repeat' first
    | with_reducible rfl
    | simp only [State.modAssocs_lasting, State.postLimited_lasting, foldl_lasting, foldl_fst_lasting, foldl_snd_lasting, implies_true, Lasting.of_mk, Lasting.eta, lasting_ite, snd_ite, fst_ite, ite_self]
    | (with_reducible refine (foldl_lasting _ _ _ ?_).trans ?_)
    | (with_reducible refine (foldl_fst_lasting _ _ _ ?_).trans ?_)
    | intro _
    | split

@[simp] theorem State.noAssociation_lasting (s : State) (h peer : Nat) :
    (State.noAssociation s h peer).lasting = s.lasting := by
  unfold State.noAssociation
  repeat' first
    | with_reducible rfl
    | simp only [State.callStart_lasting, State.modAssocs_lasting, foldl_lasting, foldl_fst_lasting, foldl_snd_lasting, implies_true, Lasting.of_mk, Lasting.eta, lasting_ite, snd_ite, fst_ite, ite_self]
    | (with_reducible refine (foldl_lasting _ _ _ ?_).trans ?_)
    | (with_reducible refine (foldl_fst_lasting _ _ _ ?_).trans ?_)
    | intro _
    | split

@[simp] theorem State.openUnder_lasting (s : State) (a : Assoc) (port : Nat) (p : MsgPacket) :
    (State.openUnder s a port p).lasting = s.lasting := by
  unfold State.openUnder
  repeat' first
    | with_reducible rfl
    | simp only [State.drained_lasting, State.learnEpoch_lasting, State.modAssocs_lasting, State.openedPacket_lasting, State.pairKeys_lasting, State.tagFailed_lasting, foldl_lasting, foldl_fst_lasting, foldl_snd_lasting, implies_true, Lasting.of_mk, Lasting.eta, lasting_ite, snd_ite, fst_ite, ite_self]
    | (with_reducible refine (foldl_lasting _ _ _ ?_).trans ?_)
    | (with_reducible refine (foldl_fst_lasting _ _ _ ?_).trans ?_)
    | intro _
    | (rename_i hsome; rw [← State.pairKeys_eq_lasting hsome])
    | (split; next heq => (have hp := congrArg (fun x => State.lasting x.2) heq; simp only [State.drained_lasting, State.learnEpoch_lasting, State.modAssocs_lasting, State.openedPacket_lasting, State.pairKeys_lasting, State.tagFailed_lasting, foldl_lasting, foldl_fst_lasting, foldl_snd_lasting, implies_true, Lasting.of_mk, Lasting.eta, lasting_ite, snd_ite, fst_ite, ite_self] at hp; rw [hp]))
    | split

@[simp] theorem State.dataArrives_lasting (s : State) (port : Nat) (p : MsgPacket) :
    (State.dataArrives s port p).lasting = s.lasting := by
  unfold State.dataArrives
  repeat' first
    | with_reducible rfl
    | simp only [State.confirmed_lasting, State.inboundLetter_lasting, State.malformedPacket_lasting, State.modAssocs_lasting, State.noAssociation_lasting, State.openUnder_lasting, State.openedPacket_lasting, State.otherRevision_lasting, foldl_lasting, foldl_fst_lasting, foldl_snd_lasting, implies_true, Lasting.of_mk, Lasting.eta, lasting_ite, snd_ite, fst_ite, ite_self]
    | (with_reducible refine (foldl_lasting _ _ _ ?_).trans ?_)
    | (with_reducible refine (foldl_fst_lasting _ _ _ ?_).trans ?_)
    | intro _
    | split

@[simp] theorem State.message_lasting (s : State) (port : Nat) (p : MsgPacket) :
    (State.message s port p).lasting = s.lasting := by
  unfold State.message
  repeat' first
    | with_reducible rfl
    | simp only [State.answerArrives_lasting, State.count_lasting, State.dataArrives_lasting, State.helloArrives_lasting, State.malformedPacket_lasting, State.modDead_lasting, State.refused_lasting, foldl_lasting, foldl_fst_lasting, foldl_snd_lasting, implies_true, Lasting.of_mk, Lasting.eta, lasting_ite, snd_ite, fst_ite, ite_self]
    | (with_reducible refine (foldl_lasting _ _ _ ?_).trans ?_)
    | (with_reducible refine (foldl_fst_lasting _ _ _ ?_).trans ?_)
    | intro _
    | split

theorem State.servePlace_lasting (table : Nat → Option Handler) (s : State) (x : Place)
    (hk : ∀ op h, table op = some h → h.keeps) : (s.servePlace table x).lasting = s.lasting := by
  unfold State.servePlace
  split
  · exact State.startHeld_lasting _ _ _ _ (hk _)
  · exact State.helloInitiated_lasting ..
  · split
    · exact State.helloServed_lasting ..
    · exact State.acceptServed_lasting ..
    · exact State.confirmServed_lasting ..

theorem State.placeDue_lasting (table : Nat → Option Handler) (s : State)
    (hk : ∀ op h, table op = some h → h.keeps) : (State.placeDue table s).lasting = s.lasting := by
  unfold State.placeDue
  dsimp only
  split
  · rfl
  · split
    · rfl
    · rw [State.servePlace_lasting _ _ _ hk]; rfl

@[simp] theorem State.beginClose_lasting (s : State) (h peer : Nat) (op : Option Nat) :
    (State.beginClose s h peer op).lasting = s.lasting := by
  unfold State.beginClose
  repeat' first
    | with_reducible rfl
    | simp only [State.modAssoc_lasting, State.trigger_lasting, foldl_lasting, foldl_fst_lasting, foldl_snd_lasting, implies_true, Lasting.of_mk, Lasting.eta, lasting_ite, snd_ite, fst_ite, ite_self]
    | (with_reducible refine (foldl_lasting _ _ _ ?_).trans ?_)
    | (with_reducible refine (foldl_fst_lasting _ _ _ ?_).trans ?_)
    | intro _
    | split

@[simp] theorem State.closesSettle_lasting (s : State) :
    (State.closesSettle s).lasting = s.lasting := by
  unfold State.closesSettle
  repeat' first
    | with_reducible rfl
    | simp only [State.closeAssoc_lasting, State.complete_lasting, State.modAssocs_lasting, State.postAt_lasting, foldl_lasting, foldl_fst_lasting, foldl_snd_lasting, implies_true, Lasting.of_mk, Lasting.eta, lasting_ite, snd_ite, fst_ite, ite_self]
    | (with_reducible refine (foldl_lasting _ _ _ ?_).trans ?_)
    | (with_reducible refine (foldl_fst_lasting _ _ _ ?_).trans ?_)
    | intro _
    | split

@[simp] theorem State.revoke_lasting (s : State) (node id : Nat) :
    (State.revoke s node id).lasting = s.lasting := by
  unfold State.revoke
  repeat' first
    | with_reducible rfl
    | simp only [State.beginClose_lasting, State.calls_lasting, State.deadTeardown_lasting, State.modAssocs_lasting, State.remoteDead_lasting, State.removeAssoc_lasting, State.trayDead_lasting, foldl_lasting, foldl_fst_lasting, foldl_snd_lasting, implies_true, Lasting.of_mk, Lasting.eta, lasting_ite, snd_ite, fst_ite, ite_self]
    | (with_reducible refine (foldl_lasting _ _ _ ?_).trans ?_)
    | (with_reducible refine (foldl_fst_lasting _ _ _ ?_).trans ?_)
    | intro _
    | split

end Machine
end Sys2Proof
end

