-- ==== Sys2Proof/Laws/LastingRemoteCommands.lean ====
section
/-!
SUPPORT. Laws/LastingRemoteCommands.lean: no operation of Machine/RemoteCommands.lean touches the queue, the fuse array, power, the reset or the
TAMPER_HELD latch.
-/

-- One theorem after another: side by side, each holds a thread (NOTES.md).
set_option Elab.async false

namespace Sys2Proof
namespace Machine

set_option linter.unusedSimpArgs false

@[simp] theorem State.modRemote_lasting (s : State) (f : Remote → Remote) :
    (State.modRemote s f).lasting = s.lasting := by
  unfold State.modRemote
  repeat' first
    | with_reducible rfl
    | simp only [foldl_lasting, foldl_fst_lasting, foldl_snd_lasting, implies_true, Lasting.of_mk, Lasting.eta, lasting_ite, snd_ite, fst_ite, ite_self]
    | (with_reducible refine (foldl_lasting _ _ _ ?_).trans ?_)
    | (with_reducible refine (foldl_fst_lasting _ _ _ ?_).trans ?_)
    | intro _
    | split

@[simp] theorem State.numbered_lasting (s : State) (n : Nat) :
    (State.numbered s n).lasting = s.lasting := by
  unfold State.numbered
  repeat' first
    | with_reducible rfl
    | simp only [State.statusChanged_lasting, foldl_lasting, foldl_fst_lasting, foldl_snd_lasting, implies_true, Lasting.of_mk, Lasting.eta, lasting_ite, snd_ite, fst_ite, ite_self]
    | (with_reducible refine (foldl_lasting _ _ _ ?_).trans ?_)
    | (with_reducible refine (foldl_fst_lasting _ _ _ ?_).trans ?_)
    | intro _
    | split

@[simp] theorem State.sendMarker_lasting (s : State) (node port r op : Nat) :
    (State.sendMarker s node port r op).2.lasting = s.lasting := by
  unfold State.sendMarker
  repeat' first
    | with_reducible rfl
    | simp only [State.emitPort_lasting, State.free_lasting, State.modRemote_lasting, State.sealData_lasting, foldl_lasting, foldl_fst_lasting, foldl_snd_lasting, implies_true, Lasting.of_mk, Lasting.eta, lasting_ite, snd_ite, fst_ite, ite_self]
    | (with_reducible refine (foldl_lasting _ _ _ ?_).trans ?_)
    | (with_reducible refine (foldl_fst_lasting _ _ _ ?_).trans ?_)
    | intro _
    | split

@[simp] theorem State.moveHomes_lasting (s : State) :
    (State.moveHomes s).lasting = s.lasting := by
  unfold State.moveHomes
  repeat' first
    | with_reducible rfl
    | simp only [State.modAssoc_lasting, foldl_lasting, foldl_fst_lasting, foldl_snd_lasting, implies_true, Lasting.of_mk, Lasting.eta, lasting_ite, snd_ite, fst_ite, ite_self]
    | (with_reducible refine (foldl_lasting _ _ _ ?_).trans ?_)
    | (with_reducible refine (foldl_fst_lasting _ _ _ ?_).trans ?_)
    | intro _
    | (rename_i hsome; rw [← State.entryRoom_lasting hsome])
    | split

@[simp] theorem State.callsSettle_lasting (s : State) :
    (State.callsSettle s).lasting = s.lasting := by
  unfold State.callsSettle
  repeat' first
    | with_reducible rfl
    | simp only [State.callStart_lasting, State.calls_lasting, foldl_lasting, foldl_fst_lasting, foldl_snd_lasting, implies_true, Lasting.of_mk, Lasting.eta, lasting_ite, snd_ite, fst_ite, ite_self]
    | (with_reducible refine (foldl_lasting _ _ _ ?_).trans ?_)
    | (with_reducible refine (foldl_fst_lasting _ _ _ ?_).trans ?_)
    | intro _
    | split

@[simp] theorem State.setRoute_lasting (s : State) (node port op : Nat) :
    (State.setRoute s node port op).lasting = s.lasting := by
  unfold State.setRoute
  repeat' first
    | with_reducible rfl
    | simp only [State.complete_lasting, State.modRemote_lasting, State.moveHomes_lasting, State.post_lasting, State.sendMarker_lasting, foldl_lasting, foldl_fst_lasting, foldl_snd_lasting, implies_true, Lasting.of_mk, Lasting.eta, lasting_ite, snd_ite, fst_ite, ite_self]
    | (with_reducible refine (foldl_lasting _ _ _ ?_).trans ?_)
    | (with_reducible refine (foldl_fst_lasting _ _ _ ?_).trans ?_)
    | intro _
    | split

@[simp] theorem State.wrongSubtype_lasting (s : State) :
    (State.wrongSubtype s).lasting = s.lasting := by
  unfold State.wrongSubtype
  repeat' first
    | with_reducible rfl
    | simp only [State.malformedPacket_lasting, foldl_lasting, foldl_fst_lasting, foldl_snd_lasting, implies_true, Lasting.of_mk, Lasting.eta, lasting_ite, snd_ite, fst_ite, ite_self]
    | (with_reducible refine (foldl_lasting _ _ _ ?_).trans ?_)
    | (with_reducible refine (foldl_fst_lasting _ _ _ ?_).trans ?_)
    | intro _
    | split

@[simp] theorem State.trayDrainAnswer_lasting (s : State) (m : TrayMarker) :
    (State.trayDrainAnswer s m).lasting = s.lasting := by
  unfold State.trayDrainAnswer
  repeat' first
    | with_reducible rfl
    | simp only [State.drained_lasting, State.modDead_lasting, State.wrongSubtype_lasting, foldl_lasting, foldl_fst_lasting, foldl_snd_lasting, implies_true, Lasting.of_mk, Lasting.eta, lasting_ite, snd_ite, fst_ite, ite_self]
    | (with_reducible refine (foldl_lasting _ _ _ ?_).trans ?_)
    | (with_reducible refine (foldl_fst_lasting _ _ _ ?_).trans ?_)
    | intro _
    | split

@[simp] theorem State.markerTimeout_lasting (s : State) (node id : Nat) :
    (State.markerTimeout s node id).lasting = s.lasting := by
  unfold State.markerTimeout
  repeat' first
    | with_reducible rfl
    | simp only [State.completeOpt_lasting, State.modRemote_lasting, State.post_lasting, foldl_lasting, foldl_fst_lasting, foldl_snd_lasting, implies_true, Lasting.of_mk, Lasting.eta, lasting_ite, snd_ite, fst_ite, ite_self]
    | (with_reducible refine (foldl_lasting _ _ _ ?_).trans ?_)
    | (with_reducible refine (foldl_fst_lasting _ _ _ ?_).trans ?_)
    | intro _
    | split

@[simp] theorem State.windowsSettle_lasting (s : State) :
    (State.windowsSettle s).lasting = s.lasting := by
  unfold State.windowsSettle
  repeat' first
    | with_reducible rfl
    | simp only [State.closeEnded_lasting, State.completeOpt_lasting, State.modRemote_lasting, foldl_lasting, foldl_fst_lasting, foldl_snd_lasting, implies_true, Lasting.of_mk, Lasting.eta, lasting_ite, snd_ite, fst_ite, ite_self]
    | (with_reducible refine (foldl_lasting _ _ _ ?_).trans ?_)
    | (with_reducible refine (foldl_fst_lasting _ _ _ ?_).trans ?_)
    | intro _
    | split

@[simp] theorem State.redirectStart_lasting (s : State) (h id : Nat) :
    (State.redirectStart s h id).lasting = s.lasting := by
  unfold State.redirectStart
  repeat' first
    | with_reducible rfl
    | simp only [State.free_lasting, State.modJob_lasting, State.sealData_lasting, foldl_lasting, foldl_fst_lasting, foldl_snd_lasting, implies_true, Lasting.of_mk, Lasting.eta, lasting_ite, snd_ite, fst_ite, ite_self]
    | (with_reducible refine (foldl_lasting _ _ _ ?_).trans ?_)
    | (with_reducible refine (foldl_fst_lasting _ _ _ ?_).trans ?_)
    | intro _
    | split

@[simp] theorem State.redirectTimeout_lasting (s : State) (h peer : Nat) :
    (State.redirectTimeout s h peer).lasting = s.lasting := by
  unfold State.redirectTimeout
  repeat' first
    | with_reducible rfl
    | simp only [State.modJob_lasting, foldl_lasting, foldl_fst_lasting, foldl_snd_lasting, implies_true, Lasting.of_mk, Lasting.eta, lasting_ite, snd_ite, fst_ite, ite_self]
    | (with_reducible refine (foldl_lasting _ _ _ ?_).trans ?_)
    | (with_reducible refine (foldl_fst_lasting _ _ _ ?_).trans ?_)
    | intro _
    | split

@[simp] theorem State.redirectsSettle_lasting (s : State) :
    (State.redirectsSettle s).lasting = s.lasting := by
  unfold State.redirectsSettle
  repeat' first
    | with_reducible rfl
    | simp only [State.complete_lasting, State.modJob_lasting, State.modRemote_lasting, State.opened_lasting, foldl_lasting, foldl_fst_lasting, foldl_snd_lasting, implies_true, Lasting.of_mk, Lasting.eta, lasting_ite, snd_ite, fst_ite, ite_self]
    | (with_reducible refine (foldl_lasting _ _ _ ?_).trans ?_)
    | (with_reducible refine (foldl_fst_lasting _ _ _ ?_).trans ?_)
    | intro _
    | split

@[simp] theorem State.disarm_lasting (s : State) (n : Nat) (st : Status) (f : Fence → Fence) :
    (State.disarm s n st f).lasting = s.lasting := by
  unfold State.disarm
  repeat' first
    | with_reducible rfl
    | simp only [State.completeOpt_lasting, State.modRemote_lasting, State.tileAnswer_lasting, foldl_lasting, foldl_fst_lasting, foldl_snd_lasting, implies_true, Lasting.of_mk, Lasting.eta, lasting_ite, snd_ite, fst_ite, ite_self]
    | (with_reducible refine (foldl_lasting _ _ _ ?_).trans ?_)
    | (with_reducible refine (foldl_fst_lasting _ _ _ ?_).trans ?_)
    | intro _
    | split

@[simp] theorem State.fenceCloses_lasting (s : State) :
    (State.fenceCloses s).lasting = s.lasting := by
  unfold State.fenceCloses
  repeat' first
    | with_reducible rfl
    | simp only [State.closeEnded_lasting, State.completeOpt_lasting, State.modRemote_lasting, foldl_lasting, foldl_fst_lasting, foldl_snd_lasting, implies_true, Lasting.of_mk, Lasting.eta, lasting_ite, snd_ite, fst_ite, ite_self]
    | (with_reducible refine (foldl_lasting _ _ _ ?_).trans ?_)
    | (with_reducible refine (foldl_fst_lasting _ _ _ ?_).trans ?_)
    | intro _
    | split

@[simp] theorem State.trayTimeout_lasting (s : State) (o : SecOp) :
    (State.trayTimeout s o).lasting = s.lasting := by
  unfold State.trayTimeout
  repeat' first
    | with_reducible rfl
    | simp only [State.accepted_lasting, State.trayDead_lasting, foldl_lasting, foldl_fst_lasting, foldl_snd_lasting, implies_true, Lasting.of_mk, Lasting.eta, lasting_ite, snd_ite, fst_ite, ite_self]
    | (with_reducible refine (foldl_lasting _ _ _ ?_).trans ?_)
    | (with_reducible refine (foldl_fst_lasting _ _ _ ?_).trans ?_)
    | intro _
    | split

@[simp] theorem State.resumeTimeout_lasting (s : State) (x : ResumeRec) :
    (State.resumeTimeout s x).lasting = s.lasting := by
  unfold State.resumeTimeout
  repeat' first
    | with_reducible rfl
    | simp only [State.complete_lasting, State.modRegion_lasting, State.resumeStops_lasting, State.suspend_lasting, foldl_lasting, foldl_fst_lasting, foldl_snd_lasting, implies_true, Lasting.of_mk, Lasting.eta, lasting_ite, snd_ite, fst_ite, ite_self]
    | (with_reducible refine (foldl_lasting _ _ _ ?_).trans ?_)
    | (with_reducible refine (foldl_fst_lasting _ _ _ ?_).trans ?_)
    | intro _
    | split

@[simp] theorem State.deadTimeout_lasting (s : State) (id : Nat) :
    (State.deadTimeout s id).lasting = s.lasting := by
  unfold State.deadTimeout
  repeat' first
    | with_reducible rfl
    | simp only [State.remoteTimeout_lasting, State.resumeTimeout_lasting, State.trayTimeout_lasting, foldl_lasting, foldl_fst_lasting, foldl_snd_lasting, implies_true, Lasting.of_mk, Lasting.eta, lasting_ite, snd_ite, fst_ite, ite_self]
    | (with_reducible refine (foldl_lasting _ _ _ ?_).trans ?_)
    | (with_reducible refine (foldl_fst_lasting _ _ _ ?_).trans ?_)
    | intro _
    | split

end Machine
end Sys2Proof
end

