-- ==== Sys2Proof/Laws/LastingTile.lean ====
section
/-!
SUPPORT. Laws/LastingTile.lean: no operation of Machine/Tile.lean touches the queue, the fuse array, power, the reset or the
TAMPER_HELD latch.
-/

-- One theorem after another: side by side, each holds a thread (NOTES.md).
set_option Elab.async false

namespace Sys2Proof
namespace Machine

set_option linter.unusedSimpArgs false

@[simp] theorem State.tileRefuse_lasting (s : State) (t : Nat) (h : TileHead) (st : Status) (reason : Nat) :
    (State.tileRefuse s t h st reason).lasting = s.lasting := by
  unfold State.tileRefuse
  repeat' first
    | with_reducible rfl
    | simp only [State.tileAnswer_lasting, foldl_lasting, foldl_fst_lasting, foldl_snd_lasting, implies_true, Lasting.of_mk, Lasting.eta, lasting_ite, snd_ite, fst_ite, ite_self]
    | (with_reducible refine (foldl_lasting _ _ _ ?_).trans ?_)
    | (with_reducible refine (foldl_fst_lasting _ _ _ ?_).trans ?_)
    | intro _
    | split

theorem State.tileEntry_lasting {s u : State} {t : Nat} {h : TileHead} (he : s.tileEntry t h = .answered u) :
    u.lasting = s.lasting := by
  unfold State.tileEntry at he
  dsimp only at he
  repeat' split at he
  all_goals first
    | (cases he; done)
    | (cases he; simp only [State.tileRefuse_lasting, State.modDead_lasting, State.deadCtx_lasting, State.emit_lasting])

@[simp] theorem State.regionRefuse_lasting (s : State) (a : RemAsk) (n type reason : Nat) :
    (State.regionRefuse s a n type reason).lasting = s.lasting := by
  unfold State.regionRefuse
  repeat' first
    | with_reducible rfl
    | simp only [State.sectorFault_lasting, State.tileAnswer_lasting, foldl_lasting, foldl_fst_lasting, foldl_snd_lasting, implies_true, Lasting.of_mk, Lasting.eta, lasting_ite, snd_ite, fst_ite, ite_self]
    | (with_reducible refine (foldl_lasting _ _ _ ?_).trans ?_)
    | (with_reducible refine (foldl_fst_lasting _ _ _ ?_).trans ?_)
    | intro _
    | split

@[simp] theorem State.noRegionFault_lasting (s : State) (h ctx key : Nat) :
    (State.noRegionFault s h ctx key).lasting = s.lasting := by
  unfold State.noRegionFault
  repeat' first
    | with_reducible rfl
    | simp only [State.free_lasting, State.raiseFault_lasting, foldl_lasting, foldl_fst_lasting, foldl_snd_lasting, implies_true, Lasting.of_mk, Lasting.eta, lasting_ite, snd_ite, fst_ite, ite_self]
    | (with_reducible refine (foldl_lasting _ _ _ ?_).trans ?_)
    | (with_reducible refine (foldl_fst_lasting _ _ _ ?_).trans ?_)
    | intro _
    | split

@[simp] theorem State.noRegionRefuse_lasting (s : State) (a : RemAsk) :
    (State.noRegionRefuse s a).lasting = s.lasting := by
  unfold State.noRegionRefuse
  repeat' first
    | with_reducible rfl
    | simp only [State.noRegionFault_lasting, State.tileAnswer_lasting, foldl_lasting, foldl_fst_lasting, foldl_snd_lasting, implies_true, Lasting.of_mk, Lasting.eta, lasting_ite, snd_ite, fst_ite, ite_self]
    | (with_reducible refine (foldl_lasting _ _ _ ?_).trans ?_)
    | (with_reducible refine (foldl_fst_lasting _ _ _ ?_).trans ?_)
    | intro _
    | split

@[simp] theorem State.regionAccess_lasting (s : State) (a : RemAsk) (pooled : Bool) :
    (State.regionAccess s a pooled).lasting = s.lasting := by
  unfold State.regionAccess
  repeat' first
    | with_reducible rfl
    | simp only [State.modCtx_lasting, State.noRegionRefuse_lasting, State.opened_lasting, State.regionRefuse_lasting, State.revokedNode_lasting, State.routeMiss_lasting, State.submit_lasting, State.turnedAway_lasting, foldl_lasting, foldl_fst_lasting, foldl_snd_lasting, implies_true, Lasting.of_mk, Lasting.eta, lasting_ite, snd_ite, fst_ite, ite_self]
    | (with_reducible refine (foldl_lasting _ _ _ ?_).trans ?_)
    | (with_reducible refine (foldl_fst_lasting _ _ _ ?_).trans ?_)
    | intro _
    | split

@[simp] theorem State.access_lasting (s : State) (a : RemAsk) :
    (State.access s a).lasting = s.lasting := by
  unfold State.access
  repeat' first
    | with_reducible rfl
    | simp only [State.issue_lasting, State.regionAccess_lasting, State.routeMiss_lasting, foldl_lasting, foldl_fst_lasting, foldl_snd_lasting, implies_true, Lasting.of_mk, Lasting.eta, lasting_ite, snd_ite, fst_ite, ite_self]
    | (with_reducible refine (foldl_lasting _ _ _ ?_).trans ?_)
    | (with_reducible refine (foldl_fst_lasting _ _ _ ?_).trans ?_)
    | intro _
    | split

@[simp] theorem State.tileAccess_lasting (s : State) (op t : Nat) (h : TileHead) (data : Bytes) (mask : List Bool) :
    (State.tileAccess s op t h data mask).lasting = s.lasting := by
  unfold State.tileAccess
  repeat' first
    | with_reducible rfl
    | simp only [State.access_lasting, foldl_lasting, foldl_fst_lasting, foldl_snd_lasting, implies_true, Lasting.of_mk, Lasting.eta, lasting_ite, snd_ite, fst_ite, ite_self]
    | (with_reducible refine (foldl_lasting _ _ _ ?_).trans ?_)
    | (with_reducible refine (foldl_fst_lasting _ _ _ ?_).trans ?_)
    | intro _
    | (rename_i hsome; rw [← State.tileEntry_lasting hsome])
    | split

@[simp] theorem State.tileFenceAsk_lasting (s : State) (t : Nat) (h : TileHead) :
    (State.tileFenceAsk s t h).lasting = s.lasting := by
  unfold State.tileFenceAsk
  repeat' first
    | with_reducible rfl
    | simp only [State.arm_lasting, State.fencesSettle_lasting, State.free_lasting, State.tileRefuse_lasting, foldl_lasting, foldl_fst_lasting, foldl_snd_lasting, implies_true, Lasting.of_mk, Lasting.eta, lasting_ite, snd_ite, fst_ite, ite_self]
    | (with_reducible refine (foldl_lasting _ _ _ ?_).trans ?_)
    | (with_reducible refine (foldl_fst_lasting _ _ _ ?_).trans ?_)
    | intro _
    | (rename_i hsome; rw [← State.tileEntry_lasting hsome])
    | split

end Machine
end Sys2Proof
end

