-- ==== Sys2Proof/Laws/LastingEnvelope.lean ====
section
/-!
SUPPORT. Laws/LastingEnvelope.lean: no operation of Machine/Envelope.lean touches the queue, the fuse array, power, the reset or the
TAMPER_HELD latch.
-/

-- One theorem after another: side by side, each holds a thread (NOTES.md).
set_option Elab.async false

namespace Sys2Proof
namespace Machine

set_option linter.unusedSimpArgs false

@[simp] theorem State.modRing_lasting (s : State) (link h : Nat) (f : EnvRing → EnvRing) :
    (State.modRing s link h f).lasting = s.lasting := by
  unfold State.modRing
  repeat' first
    | with_reducible rfl
    | simp only [foldl_lasting, foldl_fst_lasting, foldl_snd_lasting, implies_true, Lasting.of_mk, Lasting.eta, lasting_ite, snd_ite, fst_ite, ite_self]
    | (with_reducible refine (foldl_lasting _ _ _ ?_).trans ?_)
    | (with_reducible refine (foldl_fst_lasting _ _ _ ?_).trans ?_)
    | intro _
    | split

@[simp] theorem State.ringSettle_lasting (s : State) (link h : Nat) :
    (State.ringSettle s link h).lasting = s.lasting := by
  unfold State.ringSettle
  repeat' first
    | with_reducible rfl
    | simp only [State.modRing_lasting, foldl_lasting, foldl_fst_lasting, foldl_snd_lasting, implies_true, Lasting.of_mk, Lasting.eta, lasting_ite, snd_ite, fst_ite, ite_self]
    | (with_reducible refine (foldl_lasting _ _ _ ?_).trans ?_)
    | (with_reducible refine (foldl_fst_lasting _ _ _ ?_).trans ?_)
    | intro _
    | split

@[simp] theorem State.envControl_lasting (s : State) (link h v : Nat) :
    (State.envControl s link h v).lasting = s.lasting := by
  unfold State.envControl
  repeat' first
    | with_reducible rfl
    | simp only [State.derived_lasting, State.draw_lasting, State.hardFault_lasting, State.keyHeldBy_lasting, State.modRing_lasting, State.ringSettle_lasting, foldl_lasting, foldl_fst_lasting, foldl_snd_lasting, implies_true, Lasting.of_mk, Lasting.eta, lasting_ite, snd_ite, fst_ite, ite_self]
    | (with_reducible refine (foldl_lasting _ _ _ ?_).trans ?_)
    | (with_reducible refine (foldl_fst_lasting _ _ _ ?_).trans ?_)
    | intro _
    | split

@[simp] theorem State.envRegister_lasting (s : State) (link h off v : Nat) :
    (State.envRegister s link h off v).lasting = s.lasting := by
  unfold State.envRegister
  repeat' first
    | with_reducible rfl
    | simp only [State.count_lasting, State.envControl_lasting, State.modRing_lasting, foldl_lasting, foldl_fst_lasting, foldl_snd_lasting, implies_true, Lasting.of_mk, Lasting.eta, lasting_ite, snd_ite, fst_ite, ite_self]
    | (with_reducible refine (foldl_lasting _ _ _ ?_).trans ?_)
    | (with_reducible refine (foldl_fst_lasting _ _ _ ?_).trans ?_)
    | intro _
    | split

@[simp] theorem State.envComplete_lasting (s : State) (link h slot : Nat) (d : EnvDesc) (st : Status) (detail : Nat) (auth : Bool) (device : Bytes) :
    (State.envComplete s link h slot d st detail auth device).lasting = s.lasting := by
  unfold State.envComplete
  repeat' first
    | with_reducible rfl
    | simp only [State.count_lasting, State.emit_lasting, State.modRing_lasting, State.raise_lasting, State.ringSettle_lasting, State.traceRec_lasting, foldl_lasting, foldl_fst_lasting, foldl_snd_lasting, implies_true, Lasting.of_mk, Lasting.eta, lasting_ite, snd_ite, fst_ite, ite_self]
    | (with_reducible refine (foldl_lasting _ _ _ ?_).trans ?_)
    | (with_reducible refine (foldl_fst_lasting _ _ _ ?_).trans ?_)
    | intro _
    | split

@[simp] theorem State.envAccess_lasting (s : State) (link h slot : Nat) (j : Job) (d : EnvDesc) (plain : Bytes) :
    (State.envAccess s link h slot j d plain).lasting = s.lasting := by
  unfold State.envAccess
  repeat' first
    | with_reducible rfl
    | simp only [State.envComplete_lasting, State.modRing_lasting, State.noRegionFault_lasting, State.opened_lasting, State.sectorFault_lasting, State.submit_lasting, foldl_lasting, foldl_fst_lasting, foldl_snd_lasting, implies_true, Lasting.of_mk, Lasting.eta, lasting_ite, snd_ite, fst_ite, ite_self]
    | (with_reducible refine (foldl_lasting _ _ _ ?_).trans ?_)
    | (with_reducible refine (foldl_fst_lasting _ _ _ ?_).trans ?_)
    | intro _
    | split

@[simp] theorem State.envelope_lasting (s : State) (link h : Nat) (d : EnvDesc) (page : Bytes) :
    (State.envelope s link h d page).lasting = s.lasting := by
  unfold State.envelope
  repeat' first
    | with_reducible rfl
    | simp only [State.count_lasting, State.envAccess_lasting, State.envComplete_lasting, State.modRing_lasting, State.postLimited_lasting, foldl_lasting, foldl_fst_lasting, foldl_snd_lasting, implies_true, Lasting.of_mk, Lasting.eta, lasting_ite, snd_ite, fst_ite, ite_self]
    | (with_reducible refine (foldl_lasting _ _ _ ?_).trans ?_)
    | (with_reducible refine (foldl_fst_lasting _ _ _ ?_).trans ?_)
    | intro _
    | split

@[simp] theorem State.envelopeTo_lasting (s : State) (op link h : Nat) (d : EnvDesc) (page : Bytes) :
    (State.envelopeTo s op link h d page).lasting = s.lasting := by
  unfold State.envelopeTo
  repeat' first
    | with_reducible rfl
    | simp only [State.envelope_lasting, foldl_lasting, foldl_fst_lasting, foldl_snd_lasting, implies_true, Lasting.of_mk, Lasting.eta, lasting_ite, snd_ite, fst_ite, ite_self]
    | (with_reducible refine (foldl_lasting _ _ _ ?_).trans ?_)
    | (with_reducible refine (foldl_fst_lasting _ _ _ ?_).trans ?_)
    | intro _
    | split

@[simp] theorem State.envDone_lasting (s : State) (link h slot : Nat) (q : Req) :
    (State.envDone s link h slot q).lasting = s.lasting := by
  unfold State.envDone
  repeat' first
    | with_reducible rfl
    | simp only [State.envComplete_lasting, foldl_lasting, foldl_fst_lasting, foldl_snd_lasting, implies_true, Lasting.of_mk, Lasting.eta, lasting_ite, snd_ite, fst_ite, ite_self]
    | (with_reducible refine (foldl_lasting _ _ _ ?_).trans ?_)
    | (with_reducible refine (foldl_fst_lasting _ _ _ ?_).trans ?_)
    | intro _
    | split

end Machine
end Sys2Proof
end

