-- ==== Sys2Proof/Laws/LastingReduction.lean ====
section
/-!
SUPPORT. Laws/LastingReduction.lean: no operation of Machine/Reduction.lean touches the queue, the fuse array, power, the reset or the
TAMPER_HELD latch.
-/

-- One theorem after another: side by side, each holds a thread (NOTES.md).
set_option Elab.async false

namespace Sys2Proof
namespace Machine

set_option linter.unusedSimpArgs false

@[simp] theorem State.modRed_lasting (s : State) (f : Reduction → Reduction) :
    (State.modRed s f).lasting = s.lasting := by
  unfold State.modRed
  repeat' first
    | with_reducible rfl
    | simp only [foldl_lasting, foldl_fst_lasting, foldl_snd_lasting, implies_true, Lasting.of_mk, Lasting.eta, lasting_ite, snd_ite, fst_ite, ite_self]
    | (with_reducible refine (foldl_lasting _ _ _ ?_).trans ?_)
    | (with_reducible refine (foldl_fst_lasting _ _ _ ?_).trans ?_)
    | intro _
    | split

@[simp] theorem State.modDesc_lasting (s : State) (n : Nat) (f : Descriptor → Descriptor) :
    (State.modDesc s n f).lasting = s.lasting := by
  unfold State.modDesc
  repeat' first
    | with_reducible rfl
    | simp only [State.modRed_lasting, foldl_lasting, foldl_fst_lasting, foldl_snd_lasting, implies_true, Lasting.of_mk, Lasting.eta, lasting_ite, snd_ite, fst_ite, ite_self]
    | (with_reducible refine (foldl_lasting _ _ _ ?_).trans ?_)
    | (with_reducible refine (foldl_fst_lasting _ _ _ ?_).trans ?_)
    | intro _
    | split

@[simp] theorem State.modSlots_lasting (s : State) (p : Nat) (f : PortSlots → PortSlots) :
    (State.modSlots s p f).lasting = s.lasting := by
  unfold State.modSlots
  repeat' first
    | with_reducible rfl
    | simp only [State.modRed_lasting, foldl_lasting, foldl_fst_lasting, foldl_snd_lasting, implies_true, Lasting.of_mk, Lasting.eta, lasting_ite, snd_ite, fst_ite, ite_self]
    | (with_reducible refine (foldl_lasting _ _ _ ?_).trans ?_)
    | (with_reducible refine (foldl_fst_lasting _ _ _ ?_).trans ?_)
    | intro _
    | split

@[simp] theorem State.masksEnd_lasting (s : State) (p : Nat) :
    (State.masksEnd s p).lasting = s.lasting := by
  unfold State.masksEnd
  repeat' first
    | with_reducible rfl
    | simp only [State.free_lasting, State.modSlots_lasting, foldl_lasting, foldl_fst_lasting, foldl_snd_lasting, implies_true, Lasting.of_mk, Lasting.eta, lasting_ite, snd_ite, fst_ite, ite_self]
    | (with_reducible refine (foldl_lasting _ _ _ ?_).trans ?_)
    | (with_reducible refine (foldl_fst_lasting _ _ _ ?_).trans ?_)
    | intro _
    | split

@[simp] theorem State.contribute_lasting (s : State) (n : Nat) (x : Descriptor) (keys : Key × Key) (c : Contribution) :
    (State.contribute s n x keys c).lasting = s.lasting := by
  unfold State.contribute
  repeat' first
    | with_reducible rfl
    | simp only [State.accepted_lasting, State.conclude_lasting, State.count_lasting, State.emit_lasting, State.modDesc_lasting, State.modRed_lasting, State.modSlots_lasting, State.tileAnswer_lasting, State.traceRec_lasting, foldl_lasting, foldl_fst_lasting, foldl_snd_lasting, implies_true, Lasting.of_mk, Lasting.eta, lasting_ite, snd_ite, fst_ite, ite_self]
    | (with_reducible refine (foldl_lasting _ _ _ ?_).trans ?_)
    | (with_reducible refine (foldl_fst_lasting _ _ _ ?_).trans ?_)
    | intro _
    | split

@[simp] theorem State.serveContribution_lasting (s : State) (n : Nat) (c : Contribution) :
    (State.serveContribution s n c).lasting = s.lasting := by
  unfold State.serveContribution
  repeat' first
    | with_reducible rfl
    | simp only [State.contribute_lasting, foldl_lasting, foldl_fst_lasting, foldl_snd_lasting, implies_true, Lasting.of_mk, Lasting.eta, lasting_ite, snd_ite, fst_ite, ite_self]
    | (with_reducible refine (foldl_lasting _ _ _ ?_).trans ?_)
    | (with_reducible refine (foldl_fst_lasting _ _ _ ?_).trans ?_)
    | intro _
    | split

@[simp] theorem State.flushDesc_lasting (s : State) (n : Nat) :
    (State.flushDesc s n).lasting = s.lasting := by
  unfold State.flushDesc
  repeat' first
    | with_reducible rfl
    | simp only [State.serveContribution_lasting, foldl_lasting, foldl_fst_lasting, foldl_snd_lasting, implies_true, Lasting.of_mk, Lasting.eta, lasting_ite, snd_ite, fst_ite, ite_self]
    | (with_reducible refine (foldl_lasting _ _ _ ?_).trans ?_)
    | (with_reducible refine (foldl_fst_lasting _ _ _ ?_).trans ?_)
    | intro _
    | split

@[simp] theorem State.serveNext_lasting (s : State) (x : Held) :
    (State.serveNext s x).lasting = s.lasting := by
  unfold State.serveNext
  repeat' first
    | with_reducible rfl
    | simp only [State.serveHeld_lasting, foldl_lasting, foldl_fst_lasting, foldl_snd_lasting, implies_true, Lasting.of_mk, Lasting.eta, lasting_ite, snd_ite, fst_ite, ite_self]
    | (with_reducible refine (foldl_lasting _ _ _ ?_).trans ?_)
    | (with_reducible refine (foldl_fst_lasting _ _ _ ?_).trans ?_)
    | intro _
    | split

@[simp] theorem State.portServe_lasting (s : State) (p : Nat) :
    (State.portServe s p).lasting = s.lasting := by
  unfold State.portServe
  repeat' first
    | with_reducible rfl
    | simp only [State.serveContribution_lasting, State.serveNext_lasting, foldl_lasting, foldl_fst_lasting, foldl_snd_lasting, implies_true, Lasting.of_mk, Lasting.eta, lasting_ite, snd_ite, fst_ite, ite_self]
    | (with_reducible refine (foldl_lasting _ _ _ ?_).trans ?_)
    | (with_reducible refine (foldl_fst_lasting _ _ _ ?_).trans ?_)
    | intro _
    | split

@[simp] theorem State.contributeAsk_lasting (s : State) (t : Nat) (d : TileHead) (image : Bytes) :
    (State.contributeAsk s t d image).lasting = s.lasting := by
  unfold State.contributeAsk
  repeat' first
    | with_reducible rfl
    | simp only [State.accepted_lasting, State.charge_lasting, State.count_lasting, State.flushDesc_lasting, State.modCounters_lasting, State.modDesc_lasting, State.raiseFault_lasting, State.reclass_lasting, State.tc0Wait_lasting, State.tileAnswer_lasting, foldl_lasting, foldl_fst_lasting, foldl_snd_lasting, implies_true, Lasting.of_mk, Lasting.eta, lasting_ite, snd_ite, fst_ite, ite_self]
    | (with_reducible refine (foldl_lasting _ _ _ ?_).trans ?_)
    | (with_reducible refine (foldl_fst_lasting _ _ _ ?_).trans ?_)
    | intro _
    | (rename_i hsome; rw [← State.tileEntry_lasting hsome])
    | split

@[simp] theorem State.chunkFails_lasting (s : State) (n place reason : Nat) :
    (State.chunkFails s n place reason).lasting = s.lasting := by
  unfold State.chunkFails
  repeat' first
    | with_reducible rfl
    | simp only [State.modDesc_lasting, State.modRed_lasting, State.post_lasting, foldl_lasting, foldl_fst_lasting, foldl_snd_lasting, implies_true, Lasting.of_mk, Lasting.eta, lasting_ite, snd_ite, fst_ite, ite_self]
    | (with_reducible refine (foldl_lasting _ _ _ ?_).trans ?_)
    | (with_reducible refine (foldl_fst_lasting _ _ _ ?_).trans ?_)
    | intro _
    | split

@[simp] theorem State.writeChunk_lasting (s : State) (n place : Nat) (image : Bytes) :
    (State.writeChunk s n place image).lasting = s.lasting := by
  unfold State.writeChunk
  repeat' first
    | with_reducible rfl
    | simp only [State.chunkFails_lasting, State.free_lasting, State.noRegionFault_lasting, State.opened_lasting, State.sectorFault_lasting, State.submit_lasting, foldl_lasting, foldl_fst_lasting, foldl_snd_lasting, implies_true, Lasting.of_mk, Lasting.eta, lasting_ite, snd_ite, fst_ite, ite_self]
    | (with_reducible refine (foldl_lasting _ _ _ ?_).trans ?_)
    | (with_reducible refine (foldl_fst_lasting _ _ _ ?_).trans ?_)
    | intro _
    | split

@[simp] theorem State.chunkWritten_lasting (s : State) (n place : Nat) (failed : Bool) :
    (State.chunkWritten s n place failed).lasting = s.lasting := by
  unfold State.chunkWritten
  repeat' first
    | with_reducible rfl
    | simp only [State.chunkFails_lasting, State.free_lasting, State.modDesc_lasting, State.modRed_lasting, State.written_lasting, foldl_lasting, foldl_fst_lasting, foldl_snd_lasting, implies_true, Lasting.of_mk, Lasting.eta, lasting_ite, snd_ite, fst_ite, ite_self]
    | (with_reducible refine (foldl_lasting _ _ _ ?_).trans ?_)
    | (with_reducible refine (foldl_fst_lasting _ _ _ ?_).trans ?_)
    | intro _
    | split

@[simp] theorem State.decideChunk_lasting (s : State) (n : Nat) (p : RedPacket) :
    (State.decideChunk s n p).lasting = s.lasting := by
  unfold State.decideChunk
  repeat' first
    | with_reducible rfl
    | simp only [State.chunkFails_lasting, State.count_lasting, State.modDesc_lasting, State.modRed_lasting, State.modSlots_lasting, State.traceRec_lasting, State.writeChunk_lasting, foldl_lasting, foldl_fst_lasting, foldl_snd_lasting, implies_true, Lasting.of_mk, Lasting.eta, lasting_ite, snd_ite, fst_ite, ite_self]
    | (with_reducible refine (foldl_lasting _ _ _ ?_).trans ?_)
    | (with_reducible refine (foldl_fst_lasting _ _ _ ?_).trans ?_)
    | intro _
    | split

@[simp] theorem State.decideStaged_lasting (s : State) (n : Nat) :
    (State.decideStaged s n).lasting = s.lasting := by
  unfold State.decideStaged
  repeat' first
    | with_reducible rfl
    | simp only [State.decideChunk_lasting, foldl_lasting, foldl_fst_lasting, foldl_snd_lasting, implies_true, Lasting.of_mk, Lasting.eta, lasting_ite, snd_ite, fst_ite, ite_self]
    | (with_reducible refine (foldl_lasting _ _ _ ?_).trans ?_)
    | (with_reducible refine (foldl_fst_lasting _ _ _ ?_).trans ?_)
    | intro _
    | split

@[simp] theorem State.stagePacket_lasting (s : State) (n : Nat) (p : RedPacket) :
    (State.stagePacket s n p).lasting = s.lasting := by
  unfold State.stagePacket
  repeat' first
    | with_reducible rfl
    | simp only [State.decideChunk_lasting, State.modDesc_lasting, foldl_lasting, foldl_fst_lasting, foldl_snd_lasting, implies_true, Lasting.of_mk, Lasting.eta, lasting_ite, snd_ite, fst_ite, ite_self]
    | (with_reducible refine (foldl_lasting _ _ _ ?_).trans ?_)
    | (with_reducible refine (foldl_fst_lasting _ _ _ ?_).trans ?_)
    | intro _
    | split

@[simp] theorem State.takePacket_lasting (s : State) (n : Nat) (p : RedPacket) :
    (State.takePacket s n p).lasting = s.lasting := by
  unfold State.takePacket
  repeat' first
    | with_reducible rfl
    | simp only [State.modDesc_lasting, State.stagePacket_lasting, foldl_lasting, foldl_fst_lasting, foldl_snd_lasting, implies_true, Lasting.of_mk, Lasting.eta, lasting_ite, snd_ite, fst_ite, ite_self]
    | (with_reducible refine (foldl_lasting _ _ _ ?_).trans ?_)
    | (with_reducible refine (foldl_fst_lasting _ _ _ ?_).trans ?_)
    | intro _
    | split

@[simp] theorem State.drawSlots_lasting (s : State) (n : Nat) :
    (State.drawSlots s n).lasting = s.lasting := by
  unfold State.drawSlots
  repeat' first
    | with_reducible rfl
    | simp only [State.modDesc_lasting, State.stagePacket_lasting, foldl_lasting, foldl_fst_lasting, foldl_snd_lasting, implies_true, Lasting.of_mk, Lasting.eta, lasting_ite, snd_ite, fst_ite, ite_self]
    | (with_reducible refine (foldl_lasting _ _ _ ?_).trans ?_)
    | (with_reducible refine (foldl_fst_lasting _ _ _ ?_).trans ?_)
    | intro _
    | split

@[simp] theorem State.masksMade_lasting (s : State) (p : Nat) :
    (State.masksMade s p).lasting = s.lasting := by
  unfold State.masksMade
  repeat' first
    | with_reducible rfl
    | simp only [State.decideStaged_lasting, State.portServe_lasting, foldl_lasting, foldl_fst_lasting, foldl_snd_lasting, implies_true, Lasting.of_mk, Lasting.eta, lasting_ite, snd_ite, fst_ite, ite_self]
    | (with_reducible refine (foldl_lasting _ _ _ ?_).trans ?_)
    | (with_reducible refine (foldl_fst_lasting _ _ _ ?_).trans ?_)
    | intro _
    | split

@[simp] theorem State.slotBoundary_lasting (s : State) (p : Nat) :
    (State.slotBoundary s p).lasting = s.lasting := by
  unfold State.slotBoundary
  repeat' first
    | with_reducible rfl
    | simp only [State.count_lasting, State.hardFault_lasting, State.laneFound_lasting, State.masksMade_lasting, State.modSlots_lasting, foldl_lasting, foldl_fst_lasting, foldl_snd_lasting, implies_true, Lasting.of_mk, Lasting.eta, lasting_ite, snd_ite, fst_ite, ite_self]
    | (with_reducible refine (foldl_lasting _ _ _ ?_).trans ?_)
    | (with_reducible refine (foldl_fst_lasting _ _ _ ?_).trans ?_)
    | intro _
    | split

@[simp] theorem State.slotCut_lasting (s : State) (p : Nat) :
    (State.slotCut s p).lasting = s.lasting := by
  unfold State.slotCut
  repeat' first
    | with_reducible rfl
    | simp only [State.count_lasting, State.masksMade_lasting, State.modSlots_lasting, foldl_lasting, foldl_fst_lasting, foldl_snd_lasting, implies_true, Lasting.of_mk, Lasting.eta, lasting_ite, snd_ite, fst_ite, ite_self]
    | (with_reducible refine (foldl_lasting _ _ _ ?_).trans ?_)
    | (with_reducible refine (foldl_fst_lasting _ _ _ ?_).trans ?_)
    | intro _
    | split

@[simp] theorem State.reductionPacket_lasting (s : State) (port : Nat) (p : RedPacket) :
    (State.reductionPacket s port p).lasting = s.lasting := by
  unfold State.reductionPacket
  repeat' first
    | with_reducible rfl
    | simp only [State.count_lasting, State.modDead_lasting, State.modRed_lasting, State.takePacket_lasting, foldl_lasting, foldl_fst_lasting, foldl_snd_lasting, implies_true, Lasting.of_mk, Lasting.eta, lasting_ite, snd_ite, fst_ite, ite_self]
    | (with_reducible refine (foldl_lasting _ _ _ ?_).trans ?_)
    | (with_reducible refine (foldl_fst_lasting _ _ _ ?_).trans ?_)
    | intro _
    | split

@[simp] theorem State.reduceKeyDelivered_lasting (s : State) (h n : Nat) :
    (State.reduceKeyDelivered s h n).lasting = s.lasting := by
  unfold State.reduceKeyDelivered
  repeat' first
    | with_reducible rfl
    | simp only [State.decideStaged_lasting, State.flushDesc_lasting, State.modDesc_lasting, foldl_lasting, foldl_fst_lasting, foldl_snd_lasting, implies_true, Lasting.of_mk, Lasting.eta, lasting_ite, snd_ite, fst_ite, ite_self]
    | (with_reducible refine (foldl_lasting _ _ _ ?_).trans ?_)
    | (with_reducible refine (foldl_fst_lasting _ _ _ ?_).trans ?_)
    | intro _
    | split

@[simp] theorem State.descEnds_lasting (s : State) (n : Nat) (st : Status) :
    (State.descEnds s n st).lasting = s.lasting := by
  unfold State.descEnds
  repeat' first
    | with_reducible rfl
    | simp only [State.accepted_lasting, State.conclude_lasting, State.masksEnd_lasting, State.modDesc_lasting, State.modRed_lasting, State.tileAnswer_lasting, foldl_lasting, foldl_fst_lasting, foldl_snd_lasting, implies_true, Lasting.of_mk, Lasting.eta, lasting_ite, snd_ite, fst_ite, ite_self]
    | (with_reducible refine (foldl_lasting _ _ _ ?_).trans ?_)
    | (with_reducible refine (foldl_fst_lasting _ _ _ ?_).trans ?_)
    | intro _
    | split

@[simp] theorem State.descCloses_lasting (s : State) (n : Nat) (op : Option Nat) (noRecord : Bool) :
    (State.descCloses s n op noRecord).lasting = s.lasting := by
  unfold State.descCloses
  repeat' first
    | with_reducible rfl
    | simp only [State.descEnds_lasting, State.modDesc_lasting, foldl_lasting, foldl_fst_lasting, foldl_snd_lasting, implies_true, Lasting.of_mk, Lasting.eta, lasting_ite, snd_ite, fst_ite, ite_self]
    | (with_reducible refine (foldl_lasting _ _ _ ?_).trans ?_)
    | (with_reducible refine (foldl_fst_lasting _ _ _ ?_).trans ?_)
    | intro _
    | split

@[simp] theorem State.redDeadline_lasting (s : State) (n : Nat) :
    (State.redDeadline s n).lasting = s.lasting := by
  unfold State.redDeadline
  repeat' first
    | with_reducible rfl
    | simp only [State.descEnds_lasting, foldl_lasting, foldl_fst_lasting, foldl_snd_lasting, implies_true, Lasting.of_mk, Lasting.eta, lasting_ite, snd_ite, fst_ite, ite_self]
    | (with_reducible refine (foldl_lasting _ _ _ ?_).trans ?_)
    | (with_reducible refine (foldl_fst_lasting _ _ _ ?_).trans ?_)
    | intro _
    | split

@[simp] theorem State.writeRecord_lasting (s : State) (n : Nat) (x : Descriptor) (st : Status) :
    (State.writeRecord s n x st).lasting = s.lasting := by
  unfold State.writeRecord
  repeat' first
    | with_reducible rfl
    | simp only [State.free_lasting, State.modDesc_lasting, State.noRegionFault_lasting, State.opened_lasting, State.sectorFault_lasting, State.submit_lasting, foldl_lasting, foldl_fst_lasting, foldl_snd_lasting, implies_true, Lasting.of_mk, Lasting.eta, lasting_ite, snd_ite, fst_ite, ite_self]
    | (with_reducible refine (foldl_lasting _ _ _ ?_).trans ?_)
    | (with_reducible refine (foldl_fst_lasting _ _ _ ?_).trans ?_)
    | intro _
    | split

@[simp] theorem State.forgetChunks_lasting (s : State) (n : Nat) :
    (State.forgetChunks s n).lasting = s.lasting := by
  unfold State.forgetChunks
  repeat' first
    | with_reducible rfl
    | simp only [foldl_lasting, foldl_fst_lasting, foldl_snd_lasting, implies_true, Lasting.of_mk, Lasting.eta, lasting_ite, snd_ite, fst_ite, ite_self]
    | (with_reducible refine (foldl_lasting _ _ _ ?_).trans ?_)
    | (with_reducible refine (foldl_fst_lasting _ _ _ ?_).trans ?_)
    | intro _
    | split

@[simp] theorem State.descFree_lasting (s : State) (n : Nat) (x : Descriptor) (st : Status) :
    (State.descFree s n x st).lasting = s.lasting := by
  unfold State.descFree
  repeat' first
    | with_reducible rfl
    | simp only [State.closeEnded_lasting, State.completeOpt_lasting, State.forgetChunks_lasting, State.modCounters_lasting, State.modRed_lasting, foldl_lasting, foldl_fst_lasting, foldl_snd_lasting, implies_true, Lasting.of_mk, Lasting.eta, lasting_ite, snd_ite, fst_ite, ite_self]
    | (with_reducible refine (foldl_lasting _ _ _ ?_).trans ?_)
    | (with_reducible refine (foldl_fst_lasting _ _ _ ?_).trans ?_)
    | intro _
    | split

@[simp] theorem State.descSettle_lasting (s : State) (n : Nat) :
    (State.descSettle s n).lasting = s.lasting := by
  unfold State.descSettle
  repeat' first
    | with_reducible rfl
    | simp only [State.descEnds_lasting, State.descFree_lasting, State.writeRecord_lasting, foldl_lasting, foldl_fst_lasting, foldl_snd_lasting, implies_true, Lasting.of_mk, Lasting.eta, lasting_ite, snd_ite, fst_ite, ite_self]
    | (with_reducible refine (foldl_lasting _ _ _ ?_).trans ?_)
    | (with_reducible refine (foldl_fst_lasting _ _ _ ?_).trans ?_)
    | intro _
    | split

@[simp] theorem State.chunkLost_lasting (s : State) (e : Nat × Nat) :
    (State.chunkLost s e).lasting = s.lasting := by
  unfold State.chunkLost
  repeat' first
    | with_reducible rfl
    | simp only [State.chunkFails_lasting, State.modDesc_lasting, State.modRed_lasting, State.written_lasting, foldl_lasting, foldl_fst_lasting, foldl_snd_lasting, implies_true, Lasting.of_mk, Lasting.eta, lasting_ite, snd_ite, fst_ite, ite_self]
    | (with_reducible refine (foldl_lasting _ _ _ ?_).trans ?_)
    | (with_reducible refine (foldl_fst_lasting _ _ _ ?_).trans ?_)
    | intro _
    | split

@[simp] theorem State.redSettle_lasting (s : State) :
    (State.redSettle s).lasting = s.lasting := by
  unfold State.redSettle
  repeat' first
    | with_reducible rfl
    | simp only [State.chunkLost_lasting, State.descSettle_lasting, State.drawSlots_lasting, State.portServe_lasting, foldl_lasting, foldl_fst_lasting, foldl_snd_lasting, implies_true, Lasting.of_mk, Lasting.eta, lasting_ite, snd_ite, fst_ite, ite_self]
    | (with_reducible refine (foldl_lasting _ _ _ ?_).trans ?_)
    | (with_reducible refine (foldl_fst_lasting _ _ _ ?_).trans ?_)
    | intro _
    | split

@[simp] theorem State.activate_lasting (s : State) (h id : Nat) (c : Cmd) :
    (State.activate s h id c).lasting = s.lasting := by
  unfold State.activate
  repeat' first
    | with_reducible rfl
    | simp only [State.keyRequest_lasting, State.modJob_lasting, State.modRed_lasting, foldl_lasting, foldl_fst_lasting, foldl_snd_lasting, implies_true, Lasting.of_mk, Lasting.eta, lasting_ite, snd_ite, fst_ite, ite_self]
    | (with_reducible refine (foldl_lasting _ _ _ ?_).trans ?_)
    | (with_reducible refine (foldl_fst_lasting _ _ _ ?_).trans ?_)
    | intro _
    | split

end Machine
end Sys2Proof
end

