-- ==== Sys2Proof/Laws/LastingPower.lean ====
section
/-!
SUPPORT. Laws/LastingPower.lean: no operation of Machine/Power.lean touches the queue, the fuse array, power, the reset or the
TAMPER_HELD latch.
-/

-- One theorem after another: side by side, each holds a thread (NOTES.md).
set_option Elab.async false

namespace Sys2Proof
namespace Machine

set_option linter.unusedSimpArgs false

@[simp] theorem State.modPower_lasting (s : State) (f : Power → Power) :
    (State.modPower s f).lasting = s.lasting := by
  unfold State.modPower
  repeat' first
    | with_reducible rfl
    | simp only [foldl_lasting, foldl_fst_lasting, foldl_snd_lasting, implies_true, Lasting.of_mk, Lasting.eta, lasting_ite, snd_ite, fst_ite, ite_self]
    | (with_reducible refine (foldl_lasting _ _ _ ?_).trans ?_)
    | (with_reducible refine (foldl_fst_lasting _ _ _ ?_).trans ?_)
    | intro _
    | split

@[simp] theorem State.modClk_lasting (s : State) (t : Nat) (f : TileClock → TileClock) :
    (State.modClk s t f).lasting = s.lasting := by
  unfold State.modClk
  repeat' first
    | with_reducible rfl
    | simp only [State.modPower_lasting, foldl_lasting, foldl_fst_lasting, foldl_snd_lasting, implies_true, Lasting.of_mk, Lasting.eta, lasting_ite, snd_ite, fst_ite, ite_self]
    | (with_reducible refine (foldl_lasting _ _ _ ?_).trans ?_)
    | (with_reducible refine (foldl_fst_lasting _ _ _ ?_).trans ?_)
    | intro _
    | split

@[simp] theorem State.modRail_lasting (s : State) (r : Nat) (f : Rail → Rail) :
    (State.modRail s r f).lasting = s.lasting := by
  unfold State.modRail
  repeat' first
    | with_reducible rfl
    | simp only [State.modPower_lasting, foldl_lasting, foldl_fst_lasting, foldl_snd_lasting, implies_true, Lasting.of_mk, Lasting.eta, lasting_ite, snd_ite, fst_ite, ite_self]
    | (with_reducible refine (foldl_lasting _ _ _ ?_).trans ?_)
    | (with_reducible refine (foldl_fst_lasting _ _ _ ?_).trans ?_)
    | intro _
    | split

@[simp] theorem State.setClock_lasting (s : State) (t mhz : Nat) :
    (State.setClock s t mhz).lasting = s.lasting := by
  unfold State.setClock
  repeat' first
    | with_reducible rfl
    | simp only [State.emit_lasting, State.modClk_lasting, State.traceRec_lasting, foldl_lasting, foldl_fst_lasting, foldl_snd_lasting, implies_true, Lasting.of_mk, Lasting.eta, lasting_ite, snd_ite, fst_ite, ite_self]
    | (with_reducible refine (foldl_lasting _ _ _ ?_).trans ?_)
    | (with_reducible refine (foldl_fst_lasting _ _ _ ?_).trans ?_)
    | intro _
    | split

@[simp] theorem State.setVolts_lasting (s : State) (r mv : Nat) :
    (State.setVolts s r mv).lasting = s.lasting := by
  unfold State.setVolts
  repeat' first
    | with_reducible rfl
    | simp only [State.emit_lasting, State.modRail_lasting, foldl_lasting, foldl_fst_lasting, foldl_snd_lasting, implies_true, Lasting.of_mk, Lasting.eta, lasting_ite, snd_ite, fst_ite, ite_self]
    | (with_reducible refine (foldl_lasting _ _ _ ?_).trans ?_)
    | (with_reducible refine (foldl_fst_lasting _ _ _ ?_).trans ?_)
    | intro _
    | split

@[simp] theorem State.fitRail_lasting (s : State) (r : Nat) :
    (State.fitRail s r).lasting = s.lasting := by
  unfold State.fitRail
  repeat' first
    | with_reducible rfl
    | simp only [State.setVolts_lasting, foldl_lasting, foldl_fst_lasting, foldl_snd_lasting, implies_true, Lasting.of_mk, Lasting.eta, lasting_ite, snd_ite, fst_ite, ite_self]
    | (with_reducible refine (foldl_lasting _ _ _ ?_).trans ?_)
    | (with_reducible refine (foldl_fst_lasting _ _ _ ?_).trans ?_)
    | intro _
    | split

@[simp] theorem State.fitRails_lasting (s : State) :
    (State.fitRails s).lasting = s.lasting := by
  unfold State.fitRails
  repeat' first
    | with_reducible rfl
    | simp only [State.fitRail_lasting, foldl_lasting, foldl_fst_lasting, foldl_snd_lasting, implies_true, Lasting.of_mk, Lasting.eta, lasting_ite, snd_ite, fst_ite, ite_self]
    | (with_reducible refine (foldl_lasting _ _ _ ?_).trans ?_)
    | (with_reducible refine (foldl_fst_lasting _ _ _ ?_).trans ?_)
    | intro _
    | split

@[simp] theorem State.raiseTile_lasting (s : State) (t mhz : Nat) :
    (State.raiseTile s t mhz).lasting = s.lasting := by
  unfold State.raiseTile
  repeat' first
    | with_reducible rfl
    | simp only [State.fitRail_lasting, State.modClk_lasting, State.setClock_lasting, foldl_lasting, foldl_fst_lasting, foldl_snd_lasting, implies_true, Lasting.of_mk, Lasting.eta, lasting_ite, snd_ite, fst_ite, ite_self]
    | (with_reducible refine (foldl_lasting _ _ _ ?_).trans ?_)
    | (with_reducible refine (foldl_fst_lasting _ _ _ ?_).trans ?_)
    | intro _
    | split

@[simp] theorem State.voltageReached_lasting (s : State) (r : Nat) :
    (State.voltageReached s r).lasting = s.lasting := by
  unfold State.voltageReached
  repeat' first
    | with_reducible rfl
    | simp only [State.modClk_lasting, State.setClock_lasting, foldl_lasting, foldl_fst_lasting, foldl_snd_lasting, implies_true, Lasting.of_mk, Lasting.eta, lasting_ite, snd_ite, fst_ite, ite_self]
    | (with_reducible refine (foldl_lasting _ _ _ ?_).trans ?_)
    | (with_reducible refine (foldl_fst_lasting _ _ _ ?_).trans ?_)
    | intro _
    | split

@[simp] theorem State.lowerTile_lasting (s : State) (t : Nat) :
    (State.lowerTile s t).lasting = s.lasting := by
  unfold State.lowerTile
  repeat' first
    | with_reducible rfl
    | simp only [State.modClk_lasting, State.setClock_lasting, foldl_lasting, foldl_fst_lasting, foldl_snd_lasting, implies_true, Lasting.of_mk, Lasting.eta, lasting_ite, snd_ite, fst_ite, ite_self]
    | (with_reducible refine (foldl_lasting _ _ _ ?_).trans ?_)
    | (with_reducible refine (foldl_fst_lasting _ _ _ ?_).trans ?_)
    | intro _
    | split

@[simp] theorem State.lowerTiles_lasting (s : State) :
    (State.lowerTiles s).lasting = s.lasting := by
  unfold State.lowerTiles
  repeat' first
    | with_reducible rfl
    | simp only [State.fitRails_lasting, State.lowerTile_lasting, foldl_lasting, foldl_fst_lasting, foldl_snd_lasting, implies_true, Lasting.of_mk, Lasting.eta, lasting_ite, snd_ite, fst_ite, ite_self]
    | (with_reducible refine (foldl_lasting _ _ _ ?_).trans ?_)
    | (with_reducible refine (foldl_fst_lasting _ _ _ ?_).trans ?_)
    | intro _
    | split

@[simp] theorem State.stepUp_lasting (s : State) (t : Nat) :
    (State.stepUp s t).lasting = s.lasting := by
  unfold State.stepUp
  repeat' first
    | with_reducible rfl
    | simp only [State.raiseTile_lasting, foldl_lasting, foldl_fst_lasting, foldl_snd_lasting, implies_true, Lasting.of_mk, Lasting.eta, lasting_ite, snd_ite, fst_ite, ite_self]
    | (with_reducible refine (foldl_lasting _ _ _ ?_).trans ?_)
    | (with_reducible refine (foldl_fst_lasting _ _ _ ?_).trans ?_)
    | intro _
    | split

@[simp] theorem State.powerNotice_lasting (s : State) (type : Nat) (st : Status) (object : List (Nat × Nat)) :
    (State.powerNotice s type st object).lasting = s.lasting := by
  unfold State.powerNotice
  repeat' first
    | with_reducible rfl
    | simp only [State.postLimited_lasting, foldl_lasting, foldl_fst_lasting, foldl_snd_lasting, implies_true, Lasting.of_mk, Lasting.eta, lasting_ite, snd_ite, fst_ite, ite_self]
    | (with_reducible refine (foldl_lasting _ _ _ ?_).trans ?_)
    | (with_reducible refine (foldl_fst_lasting _ _ _ ?_).trans ?_)
    | intro _
    | split

@[simp] theorem State.limitSettle_lasting (s : State) :
    (State.limitSettle s).lasting = s.lasting := by
  unfold State.limitSettle
  repeat' first
    | with_reducible rfl
    | simp only [State.modPower_lasting, State.powerNotice_lasting, foldl_lasting, foldl_fst_lasting, foldl_snd_lasting, implies_true, Lasting.of_mk, Lasting.eta, lasting_ite, snd_ite, fst_ite, ite_self]
    | (with_reducible refine (foldl_lasting _ _ _ ?_).trans ?_)
    | (with_reducible refine (foldl_fst_lasting _ _ _ ?_).trans ?_)
    | intro _
    | split

@[simp] theorem State.squeeze_lasting (s : State) (code t levels : Nat) :
    (State.squeeze s code t levels).lasting = s.lasting := by
  unfold State.squeeze
  repeat' first
    | with_reducible rfl
    | simp only [State.modClk_lasting, foldl_lasting, foldl_fst_lasting, foldl_snd_lasting, implies_true, Lasting.of_mk, Lasting.eta, lasting_ite, snd_ite, fst_ite, ite_self]
    | (with_reducible refine (foldl_lasting _ _ _ ?_).trans ?_)
    | (with_reducible refine (foldl_fst_lasting _ _ _ ?_).trans ?_)
    | intro _
    | split

@[simp] theorem State.alertTile_lasting (s : State) (t : Nat) :
    (State.alertTile s t).lasting = s.lasting := by
  unfold State.alertTile
  repeat' first
    | with_reducible rfl
    | simp only [State.modClk_lasting, foldl_lasting, foldl_fst_lasting, foldl_snd_lasting, implies_true, Lasting.of_mk, Lasting.eta, lasting_ite, snd_ite, fst_ite, ite_self]
    | (with_reducible refine (foldl_lasting _ _ _ ?_).trans ?_)
    | (with_reducible refine (foldl_fst_lasting _ _ _ ?_).trans ?_)
    | intro _
    | split

@[simp] theorem State.plainReasons_lasting (s : State) (t : Nat) :
    (State.plainReasons s t).lasting = s.lasting := by
  unfold State.plainReasons
  repeat' first
    | with_reducible rfl
    | simp only [State.modClk_lasting, foldl_lasting, foldl_fst_lasting, foldl_snd_lasting, implies_true, Lasting.of_mk, Lasting.eta, lasting_ite, snd_ite, fst_ite, ite_self]
    | (with_reducible refine (foldl_lasting _ _ _ ?_).trans ?_)
    | (with_reducible refine (foldl_fst_lasting _ _ _ ?_).trans ?_)
    | intro _
    | split

@[simp] theorem State.countReasons_lasting (s : State) (t : Nat) :
    (State.countReasons s t).lasting = s.lasting := by
  unfold State.countReasons
  repeat' first
    | with_reducible rfl
    | simp only [State.modClk_lasting, foldl_lasting, foldl_fst_lasting, foldl_snd_lasting, implies_true, Lasting.of_mk, Lasting.eta, lasting_ite, snd_ite, fst_ite, ite_self]
    | (with_reducible refine (foldl_lasting _ _ _ ?_).trans ?_)
    | (with_reducible refine (foldl_fst_lasting _ _ _ ?_).trans ?_)
    | intro _
    | split

@[simp] theorem State.holdsEnd_lasting (s : State) :
    (State.holdsEnd s).lasting = s.lasting := by
  unfold State.holdsEnd
  repeat' first
    | with_reducible rfl
    | simp only [State.modPower_lasting, foldl_lasting, foldl_fst_lasting, foldl_snd_lasting, implies_true, Lasting.of_mk, Lasting.eta, lasting_ite, snd_ite, fst_ite, ite_self]
    | (with_reducible refine (foldl_lasting _ _ _ ?_).trans ?_)
    | (with_reducible refine (foldl_fst_lasting _ _ _ ?_).trans ?_)
    | intro _
    | split

@[simp] theorem State.closeWindow_lasting (s : State) :
    (State.closeWindow s).lasting = s.lasting := by
  unfold State.closeWindow
  repeat' first
    | with_reducible rfl
    | simp only [State.modPower_lasting, foldl_lasting, foldl_fst_lasting, foldl_snd_lasting, implies_true, Lasting.of_mk, Lasting.eta, lasting_ite, snd_ite, fst_ite, ite_self]
    | (with_reducible refine (foldl_lasting _ _ _ ?_).trans ?_)
    | (with_reducible refine (foldl_fst_lasting _ _ _ ?_).trans ?_)
    | intro _
    | split

@[simp] theorem State.loweringEnds_lasting (s : State) :
    (State.loweringEnds s).lasting = s.lasting := by
  unfold State.loweringEnds
  repeat' first
    | with_reducible rfl
    | simp only [State.complete_lasting, State.modPower_lasting, foldl_lasting, foldl_fst_lasting, foldl_snd_lasting, implies_true, Lasting.of_mk, Lasting.eta, lasting_ite, snd_ite, fst_ite, ite_self]
    | (with_reducible refine (foldl_lasting _ _ _ ?_).trans ?_)
    | (with_reducible refine (foldl_fst_lasting _ _ _ ?_).trans ?_)
    | intro _
    | split

@[simp] theorem State.departures_lasting (s : State) :
    (State.departures s).lasting = s.lasting := by
  unfold State.departures
  repeat' first
    | with_reducible rfl
    | simp only [State.free_lasting, State.powerNotice_lasting, foldl_lasting, foldl_fst_lasting, foldl_snd_lasting, implies_true, Lasting.of_mk, Lasting.eta, lasting_ite, snd_ite, fst_ite, ite_self]
    | (with_reducible refine (foldl_lasting _ _ _ ?_).trans ?_)
    | (with_reducible refine (foldl_fst_lasting _ _ _ ?_).trans ?_)
    | intro _
    | split

@[simp] theorem State.powerInterval_lasting (s : State) (counts : List (Nat × Nat)) :
    (State.powerInterval s counts).lasting = s.lasting := by
  unfold State.powerInterval
  repeat' first
    | with_reducible rfl
    | simp only [State.alertTile_lasting, State.closeWindow_lasting, State.countReasons_lasting, State.departures_lasting, State.free_lasting, State.holdsEnd_lasting, State.lowerTiles_lasting, State.loweringEnds_lasting, State.modPower_lasting, State.plainReasons_lasting, State.squeeze_lasting, State.stepUp_lasting, foldl_lasting, foldl_fst_lasting, foldl_snd_lasting, implies_true, Lasting.of_mk, Lasting.eta, lasting_ite, snd_ite, fst_ite, ite_self]
    | (with_reducible refine (foldl_lasting _ _ _ ?_).trans ?_)
    | (with_reducible refine (foldl_fst_lasting _ _ _ ?_).trans ?_)
    | intro _
    | split

@[simp] theorem State.railPoll_lasting (s : State) (r : Nat) (answer : Option Telemetry) :
    (State.railPoll s r answer).lasting = s.lasting := by
  unfold State.railPoll
  repeat' first
    | with_reducible rfl
    | simp only [State.emit_lasting, State.modRail_lasting, State.powerNotice_lasting, foldl_lasting, foldl_fst_lasting, foldl_snd_lasting, implies_true, Lasting.of_mk, Lasting.eta, lasting_ite, snd_ite, fst_ite, ite_self]
    | (with_reducible refine (foldl_lasting _ _ _ ?_).trans ?_)
    | (with_reducible refine (foldl_fst_lasting _ _ _ ?_).trans ?_)
    | intro _
    | split

@[simp] theorem State.thermTile_lasting (s : State) (t : Nat) :
    (State.thermTile s t).lasting = s.lasting := by
  unfold State.thermTile
  repeat' first
    | with_reducible rfl
    | simp only [State.modClk_lasting, foldl_lasting, foldl_fst_lasting, foldl_snd_lasting, implies_true, Lasting.of_mk, Lasting.eta, lasting_ite, snd_ite, fst_ite, ite_self]
    | (with_reducible refine (foldl_lasting _ _ _ ?_).trans ?_)
    | (with_reducible refine (foldl_fst_lasting _ _ _ ?_).trans ?_)
    | intro _
    | split

@[simp] theorem State.critical_lasting (s : State) (d : Nat) :
    (State.critical s d).lasting = s.lasting := by
  unfold State.critical
  repeat' first
    | with_reducible rfl
    | simp only [State.modPower_lasting, State.powerNotice_lasting, foldl_lasting, foldl_fst_lasting, foldl_snd_lasting, implies_true, Lasting.of_mk, Lasting.eta, lasting_ite, snd_ite, fst_ite, ite_self]
    | (with_reducible refine (foldl_lasting _ _ _ ?_).trans ?_)
    | (with_reducible refine (foldl_fst_lasting _ _ _ ?_).trans ?_)
    | intro _
    | split

@[simp] theorem State.thermalRead_lasting (s : State) (readings : List (Option Int)) :
    (State.thermalRead s readings).lasting = s.lasting := by
  unfold State.thermalRead
  repeat' first
    | with_reducible rfl
    | simp only [State.critical_lasting, State.lowerTiles_lasting, State.modClk_lasting, State.modPower_lasting, State.powerNotice_lasting, State.thermTile_lasting, foldl_lasting, foldl_fst_lasting, foldl_snd_lasting, implies_true, Lasting.of_mk, Lasting.eta, lasting_ite, snd_ite, fst_ite, ite_self]
    | (with_reducible refine (foldl_lasting _ _ _ ?_).trans ?_)
    | (with_reducible refine (foldl_fst_lasting _ _ _ ?_).trans ?_)
    | intro _
    | split

@[simp] theorem State.tripOn_lasting (s : State) :
    (State.tripOn s).lasting = s.lasting := by
  unfold State.tripOn
  repeat' first
    | with_reducible rfl
    | simp only [State.lowerTile_lasting, State.modClk_lasting, State.modPower_lasting, State.powerNotice_lasting, foldl_lasting, foldl_fst_lasting, foldl_snd_lasting, implies_true, Lasting.of_mk, Lasting.eta, lasting_ite, snd_ite, fst_ite, ite_self]
    | (with_reducible refine (foldl_lasting _ _ _ ?_).trans ?_)
    | (with_reducible refine (foldl_fst_lasting _ _ _ ?_).trans ?_)
    | intro _
    | split

@[simp] theorem State.tripOff_lasting (s : State) :
    (State.tripOff s).lasting = s.lasting := by
  unfold State.tripOff
  repeat' first
    | with_reducible rfl
    | simp only [State.modPower_lasting, foldl_lasting, foldl_fst_lasting, foldl_snd_lasting, implies_true, Lasting.of_mk, Lasting.eta, lasting_ite, snd_ite, fst_ite, ite_self]
    | (with_reducible refine (foldl_lasting _ _ _ ?_).trans ?_)
    | (with_reducible refine (foldl_fst_lasting _ _ _ ?_).trans ?_)
    | intro _
    | split

@[simp] theorem State.statusRead_lasting (s : State) (alerting : List Nat) :
    (State.statusRead s alerting).lasting = s.lasting := by
  unfold State.statusRead
  repeat' first
    | with_reducible rfl
    | simp only [State.free_lasting, State.modPower_lasting, State.powerNotice_lasting, foldl_lasting, foldl_fst_lasting, foldl_snd_lasting, implies_true, Lasting.of_mk, Lasting.eta, lasting_ite, snd_ite, fst_ite, ite_self]
    | (with_reducible refine (foldl_lasting _ _ _ ?_).trans ?_)
    | (with_reducible refine (foldl_fst_lasting _ _ _ ?_).trans ?_)
    | intro _
    | split

@[simp] theorem State.alertAsserted_lasting (s : State) (alerting : List Nat) :
    (State.alertAsserted s alerting).lasting = s.lasting := by
  unfold State.alertAsserted
  repeat' first
    | with_reducible rfl
    | simp only [State.modPower_lasting, State.statusRead_lasting, foldl_lasting, foldl_fst_lasting, foldl_snd_lasting, implies_true, Lasting.of_mk, Lasting.eta, lasting_ite, snd_ite, fst_ite, ite_self]
    | (with_reducible refine (foldl_lasting _ _ _ ?_).trans ?_)
    | (with_reducible refine (foldl_fst_lasting _ _ _ ?_).trans ?_)
    | intro _
    | split

@[simp] theorem State.alertDeasserted_lasting (s : State) :
    (State.alertDeasserted s).lasting = s.lasting := by
  unfold State.alertDeasserted
  repeat' first
    | with_reducible rfl
    | simp only [State.modPower_lasting, foldl_lasting, foldl_fst_lasting, foldl_snd_lasting, implies_true, Lasting.of_mk, Lasting.eta, lasting_ite, snd_ite, fst_ite, ite_self]
    | (with_reducible refine (foldl_lasting _ _ _ ?_).trans ?_)
    | (with_reducible refine (foldl_fst_lasting _ _ _ ?_).trans ?_)
    | intro _
    | split

@[simp] theorem State.modZone_lasting (s : State) (z : Nat) (f : Zone → Zone) :
    (State.modZone s z f).lasting = s.lasting := by
  unfold State.modZone
  repeat' first
    | with_reducible rfl
    | simp only [State.modPower_lasting, foldl_lasting, foldl_fst_lasting, foldl_snd_lasting, implies_true, Lasting.of_mk, Lasting.eta, lasting_ite, snd_ite, fst_ite, ite_self]
    | (with_reducible refine (foldl_lasting _ _ _ ?_).trans ?_)
    | (with_reducible refine (foldl_fst_lasting _ _ _ ?_).trans ?_)
    | intro _
    | split

@[simp] theorem State.droopAlarm_lasting (s : State) (detector : Nat) :
    (State.droopAlarm s detector).lasting = s.lasting := by
  unfold State.droopAlarm
  repeat' first
    | with_reducible rfl
    | simp only [State.cyclesSettle_lasting, State.emit_lasting, State.modZone_lasting, foldl_lasting, foldl_fst_lasting, foldl_snd_lasting, implies_true, Lasting.of_mk, Lasting.eta, lasting_ite, snd_ite, fst_ite, ite_self]
    | (with_reducible refine (foldl_lasting _ _ _ ?_).trans ?_)
    | (with_reducible refine (foldl_fst_lasting _ _ _ ?_).trans ?_)
    | intro _
    | split

@[simp] theorem State.stretchRelease_lasting (s : State) (zone : Nat) :
    (State.stretchRelease s zone).lasting = s.lasting := by
  unfold State.stretchRelease
  repeat' first
    | with_reducible rfl
    | simp only [State.cyclesSettle_lasting, State.emit_lasting, State.modClk_lasting, State.modZone_lasting, State.traceAt_lasting, foldl_lasting, foldl_fst_lasting, foldl_snd_lasting, implies_true, Lasting.of_mk, Lasting.eta, lasting_ite, snd_ite, fst_ite, ite_self]
    | (with_reducible refine (foldl_lasting _ _ _ ?_).trans ?_)
    | (with_reducible refine (foldl_fst_lasting _ _ _ ?_).trans ?_)
    | intro _
    | split

@[simp] theorem State.droopPersistent_lasting (s : State) (zone : Nat) :
    (State.droopPersistent s zone).lasting = s.lasting := by
  unfold State.droopPersistent
  repeat' first
    | with_reducible rfl
    | simp only [State.lowerTiles_lasting, State.modClk_lasting, State.modZone_lasting, State.powerNotice_lasting, foldl_lasting, foldl_fst_lasting, foldl_snd_lasting, implies_true, Lasting.of_mk, Lasting.eta, lasting_ite, snd_ite, fst_ite, ite_self]
    | (with_reducible refine (foldl_lasting _ _ _ ?_).trans ?_)
    | (with_reducible refine (foldl_fst_lasting _ _ _ ?_).trans ?_)
    | intro _
    | split

@[simp] theorem State.marginCompute_lasting (s : State) (lowest : List Nat) :
    (State.marginCompute s lowest).lasting = s.lasting := by
  unfold State.marginCompute
  repeat' first
    | with_reducible rfl
    | simp only [State.modClk_lasting, State.modPower_lasting, foldl_lasting, foldl_fst_lasting, foldl_snd_lasting, implies_true, Lasting.of_mk, Lasting.eta, lasting_ite, snd_ite, fst_ite, ite_self]
    | (with_reducible refine (foldl_lasting _ _ _ ?_).trans ?_)
    | (with_reducible refine (foldl_fst_lasting _ _ _ ?_).trans ?_)
    | intro _
    | split

@[simp] theorem State.sweepStart_lasting (s : State) (t kind id : Nat) :
    (State.sweepStart s t kind id).lasting = s.lasting := by
  unfold State.sweepStart
  repeat' first
    | with_reducible rfl
    | simp only [State.fitRails_lasting, State.modClk_lasting, State.modPower_lasting, State.raiseTile_lasting, State.setClock_lasting, State.setVolts_lasting, foldl_lasting, foldl_fst_lasting, foldl_snd_lasting, implies_true, Lasting.of_mk, Lasting.eta, lasting_ite, snd_ite, fst_ite, ite_self]
    | (with_reducible refine (foldl_lasting _ _ _ ?_).trans ?_)
    | (with_reducible refine (foldl_fst_lasting _ _ _ ?_).trans ?_)
    | intro _
    | split

@[simp] theorem State.sweepEnd_lasting (s : State) (w : Sweep) (st : Status) (payload : List (Nat × Nat)) :
    (State.sweepEnd s w st payload).lasting = s.lasting := by
  unfold State.sweepEnd
  repeat' first
    | with_reducible rfl
    | simp only [State.complete_lasting, State.fitRails_lasting, State.modClk_lasting, State.modPower_lasting, State.setClock_lasting, State.setVolts_lasting, foldl_lasting, foldl_fst_lasting, foldl_snd_lasting, implies_true, Lasting.of_mk, Lasting.eta, lasting_ite, snd_ite, fst_ite, ite_self]
    | (with_reducible refine (foldl_lasting _ _ _ ?_).trans ?_)
    | (with_reducible refine (foldl_fst_lasting _ _ _ ?_).trans ?_)
    | intro _
    | split

@[simp] theorem State.sweepStep_lasting (s : State) (t : Nat) (alarm : Bool) :
    (State.sweepStep s t alarm).lasting = s.lasting := by
  unfold State.sweepStep
  repeat' first
    | with_reducible rfl
    | simp only [State.modClk_lasting, State.modPower_lasting, State.setClock_lasting, State.setVolts_lasting, State.sweepEnd_lasting, foldl_lasting, foldl_fst_lasting, foldl_snd_lasting, implies_true, Lasting.of_mk, Lasting.eta, lasting_ite, snd_ite, fst_ite, ite_self]
    | (with_reducible refine (foldl_lasting _ _ _ ?_).trans ?_)
    | (with_reducible refine (foldl_fst_lasting _ _ _ ?_).trans ?_)
    | intro _
    | split

@[simp] theorem State.leaseLapsed_lasting (s : State) :
    (State.leaseLapsed s).lasting = s.lasting := by
  unfold State.leaseLapsed
  repeat' first
    | with_reducible rfl
    | simp only [State.modPower_lasting, State.powerNotice_lasting, foldl_lasting, foldl_fst_lasting, foldl_snd_lasting, implies_true, Lasting.of_mk, Lasting.eta, lasting_ite, snd_ite, fst_ite, ite_self]
    | (with_reducible refine (foldl_lasting _ _ _ ?_).trans ?_)
    | (with_reducible refine (foldl_fst_lasting _ _ _ ?_).trans ?_)
    | intro _
    | split

@[simp] theorem State.takeLease_lasting (s : State) (l : Lease) :
    (State.takeLease s l).lasting = s.lasting := by
  unfold State.takeLease
  repeat' first
    | with_reducible rfl
    | simp only [State.complete_lasting, State.modPower_lasting, foldl_lasting, foldl_fst_lasting, foldl_snd_lasting, implies_true, Lasting.of_mk, Lasting.eta, lasting_ite, snd_ite, fst_ite, ite_self]
    | (with_reducible refine (foldl_lasting _ _ _ ?_).trans ?_)
    | (with_reducible refine (foldl_fst_lasting _ _ _ ?_).trans ?_)
    | intro _
    | split

end Machine
end Sys2Proof
end

