-- ==== Sys2Proof/Laws/LastingFaults.lean ====
section
/-!
SUPPORT. Laws/LastingFaults.lean: no operation of Machine/Faults.lean touches the queue, the fuse array, power, the reset or the
TAMPER_HELD latch.
-/

-- One theorem after another: side by side, each holds a thread (NOTES.md).
set_option Elab.async false

namespace Sys2Proof
namespace Machine

set_option linter.unusedSimpArgs false

@[simp] theorem State.modFault_lasting (s : State) (f : Faults → Faults) :
    (State.modFault s f).lasting = s.lasting := by
  unfold State.modFault
  repeat' first
    | with_reducible rfl
    | simp only [foldl_lasting, foldl_fst_lasting, foldl_snd_lasting, implies_true, Lasting.of_mk, Lasting.eta, lasting_ite, snd_ite, fst_ite, ite_self]
    | (with_reducible refine (foldl_lasting _ _ _ ?_).trans ?_)
    | (with_reducible refine (foldl_fst_lasting _ _ _ ?_).trans ?_)
    | intro _
    | split

@[simp] theorem State.keepSuspect_lasting (s : State) (x : Suspect) :
    (State.keepSuspect s x).2.lasting = s.lasting := by
  unfold State.keepSuspect
  repeat' first
    | with_reducible rfl
    | simp only [State.modFault_lasting, foldl_lasting, foldl_fst_lasting, foldl_snd_lasting, implies_true, Lasting.of_mk, Lasting.eta, lasting_ite, snd_ite, fst_ite, ite_self]
    | (with_reducible refine (foldl_lasting _ _ _ ?_).trans ?_)
    | (with_reducible refine (foldl_fst_lasting _ _ _ ?_).trans ?_)
    | intro _
    | split

@[simp] theorem State.unitHung_lasting (s : State) (kind unit : Nat) (directed : List Nat) (waiting : List Suspect) :
    (State.unitHung s kind unit directed waiting).lasting = s.lasting := by
  unfold State.unitHung
  repeat' first
    | with_reducible rfl
    | simp only [State.keepSuspect_lasting, State.postLimited_lasting, State.traceRec_lasting, foldl_lasting, foldl_fst_lasting, foldl_snd_lasting, implies_true, Lasting.of_mk, Lasting.eta, lasting_ite, snd_ite, fst_ite, ite_self]
    | (with_reducible refine (foldl_lasting _ _ _ ?_).trans ?_)
    | (with_reducible refine (foldl_fst_lasting _ _ _ ?_).trans ?_)
    | intro _
    | split

@[simp] theorem State.hangCounted_lasting (s : State) :
    (State.hangCounted s).lasting = s.lasting := by
  unfold State.hangCounted
  repeat' first
    | with_reducible rfl
    | simp only [State.modFault_lasting, foldl_lasting, foldl_fst_lasting, foldl_snd_lasting, implies_true, Lasting.of_mk, Lasting.eta, lasting_ite, snd_ite, fst_ite, ite_self]
    | (with_reducible refine (foldl_lasting _ _ _ ?_).trans ?_)
    | (with_reducible refine (foldl_fst_lasting _ _ _ ?_).trans ?_)
    | intro _
    | split

@[simp] theorem State.upkeepGone_lasting (s : State) (n : Nat) :
    (State.upkeepGone s n).lasting = s.lasting := by
  unfold State.upkeepGone
  repeat' first
    | with_reducible rfl
    | simp only [State.maintained_lasting, foldl_lasting, foldl_fst_lasting, foldl_snd_lasting, implies_true, Lasting.of_mk, Lasting.eta, lasting_ite, snd_ite, fst_ite, ite_self]
    | (with_reducible refine (foldl_lasting _ _ _ ?_).trans ?_)
    | (with_reducible refine (foldl_fst_lasting _ _ _ ?_).trans ?_)
    | intro _
    | split

@[simp] theorem State.fenceStack_lasting (s : State) (n : Nat) :
    (State.fenceStack s n).lasting = s.lasting := by
  unfold State.fenceStack
  repeat' first
    | with_reducible rfl
    | simp only [State.complete_lasting, State.endFetches_lasting, State.failOp_lasting, State.modFault_lasting, State.upkeepGone_lasting, foldl_lasting, foldl_fst_lasting, foldl_snd_lasting, implies_true, Lasting.of_mk, Lasting.eta, lasting_ite, snd_ite, fst_ite, ite_self]
    | (with_reducible refine (foldl_lasting _ _ _ ?_).trans ?_)
    | (with_reducible refine (foldl_fst_lasting _ _ _ ?_).trans ?_)
    | intro _
    | split

@[simp] theorem State.memoryWatchdog_lasting (s : State) (n : Nat) :
    (State.memoryWatchdog s n).lasting = s.lasting := by
  unfold State.memoryWatchdog
  repeat' first
    | with_reducible rfl
    | simp only [State.fenceStack_lasting, State.hangCounted_lasting, State.turn_lasting, State.unitHung_lasting, foldl_lasting, foldl_fst_lasting, foldl_snd_lasting, implies_true, Lasting.of_mk, Lasting.eta, lasting_ite, snd_ite, fst_ite, ite_self]
    | (with_reducible refine (foldl_lasting _ _ _ ?_).trans ?_)
    | (with_reducible refine (foldl_fst_lasting _ _ _ ?_).trans ?_)
    | intro _
    | split

@[simp] theorem State.portWatchdog_lasting (s : State) (p : Nat) :
    (State.portWatchdog s p).lasting = s.lasting := by
  unfold State.portWatchdog
  repeat' first
    | with_reducible rfl
    | simp only [State.hangCounted_lasting, State.modFault_lasting, State.unitHung_lasting, foldl_lasting, foldl_fst_lasting, foldl_snd_lasting, implies_true, Lasting.of_mk, Lasting.eta, lasting_ite, snd_ite, fst_ite, ite_self]
    | (with_reducible refine (foldl_lasting _ _ _ ?_).trans ?_)
    | (with_reducible refine (foldl_fst_lasting _ _ _ ?_).trans ?_)
    | intro _
    | split

@[simp] theorem State.tileWatchdog_lasting (s : State) (t : Nat) :
    (State.tileWatchdog s t).lasting = s.lasting := by
  unfold State.tileWatchdog
  repeat' first
    | with_reducible rfl
    | simp only [State.hangCounted_lasting, State.modFault_lasting, State.unitHung_lasting, foldl_lasting, foldl_fst_lasting, foldl_snd_lasting, implies_true, Lasting.of_mk, Lasting.eta, lasting_ite, snd_ite, fst_ite, ite_self]
    | (with_reducible refine (foldl_lasting _ _ _ ?_).trans ?_)
    | (with_reducible refine (foldl_fst_lasting _ _ _ ?_).trans ?_)
    | intro _
    | split

@[simp] theorem State.dropMailbags_lasting (s : State) :
    (State.dropMailbags s).lasting = s.lasting := by
  unfold State.dropMailbags
  repeat' first
    | with_reducible rfl
    | simp only [State.modFault_lasting, State.post_lasting, foldl_lasting, foldl_fst_lasting, foldl_snd_lasting, implies_true, Lasting.of_mk, Lasting.eta, lasting_ite, snd_ite, fst_ite, ite_self]
    | (with_reducible refine (foldl_lasting _ _ _ ?_).trans ?_)
    | (with_reducible refine (foldl_fst_lasting _ _ _ ?_).trans ?_)
    | intro _
    | split

@[simp] theorem State.linkAway_lasting (s : State) (l : Nat) :
    (State.linkAway s l).lasting = s.lasting := by
  unfold State.linkAway
  repeat' first
    | with_reducible rfl
    | simp only [State.dropMailbags_lasting, State.endSession_lasting, State.opened_lasting, State.setBootCode_lasting, foldl_lasting, foldl_fst_lasting, foldl_snd_lasting, implies_true, Lasting.of_mk, Lasting.eta, lasting_ite, snd_ite, fst_ite, ite_self]
    | (with_reducible refine (foldl_lasting _ _ _ ?_).trans ?_)
    | (with_reducible refine (foldl_fst_lasting _ _ _ ?_).trans ?_)
    | intro _
    | split

@[simp] theorem State.hostWatchdog_lasting (s : State) (l : Nat) :
    (State.hostWatchdog s l).lasting = s.lasting := by
  unfold State.hostWatchdog
  repeat' first
    | with_reducible rfl
    | simp only [State.hangCounted_lasting, State.linkAway_lasting, State.modFault_lasting, State.unitHung_lasting, foldl_lasting, foldl_fst_lasting, foldl_snd_lasting, implies_true, Lasting.of_mk, Lasting.eta, lasting_ite, snd_ite, fst_ite, ite_self]
    | (with_reducible refine (foldl_lasting _ _ _ ?_).trans ?_)
    | (with_reducible refine (foldl_fst_lasting _ _ _ ?_).trans ?_)
    | intro _
    | split

@[simp] theorem State.cpWatchdog_lasting (s : State) :
    (State.cpWatchdog s).lasting = s.lasting := by
  unfold State.cpWatchdog
  repeat' first
    | with_reducible rfl
    | simp only [State.hangCounted_lasting, State.isolate_lasting, State.setBlock_lasting, foldl_lasting, foldl_fst_lasting, foldl_snd_lasting, implies_true, Lasting.of_mk, Lasting.eta, lasting_ite, snd_ite, fst_ite, ite_self]
    | (with_reducible refine (foldl_lasting _ _ _ ?_).trans ?_)
    | (with_reducible refine (foldl_fst_lasting _ _ _ ?_).trans ?_)
    | intro _
    | split

@[simp] theorem State.healthUpdate_lasting (s : State) :
    (State.healthUpdate s).lasting = s.lasting := by
  unfold State.healthUpdate
  repeat' first
    | with_reducible rfl
    | simp only [State.modFault_lasting, State.postLimited_lasting, foldl_lasting, foldl_fst_lasting, foldl_snd_lasting, implies_true, Lasting.of_mk, Lasting.eta, lasting_ite, snd_ite, fst_ite, ite_self]
    | (with_reducible refine (foldl_lasting _ _ _ ?_).trans ?_)
    | (with_reducible refine (foldl_fst_lasting _ _ _ ?_).trans ?_)
    | intro _
    | split

@[simp] theorem State.marginReport_lasting (s : State) (port margin : Nat) :
    (State.marginReport s port margin).lasting = s.lasting := by
  unfold State.marginReport
  repeat' first
    | with_reducible rfl
    | simp only [State.modFault_lasting, foldl_lasting, foldl_fst_lasting, foldl_snd_lasting, implies_true, Lasting.of_mk, Lasting.eta, lasting_ite, snd_ite, fst_ite, ite_self]
    | (with_reducible refine (foldl_lasting _ _ _ ?_).trans ?_)
    | (with_reducible refine (foldl_fst_lasting _ _ _ ?_).trans ?_)
    | intro _
    | split

@[simp] theorem State.postcardTimer_lasting (s : State) :
    (State.postcardTimer s).lasting = s.lasting := by
  unfold State.postcardTimer
  repeat' first
    | with_reducible rfl
    | simp only [State.calls_lasting, State.emitPort_lasting, State.isolate_lasting, State.modFault_lasting, foldl_lasting, foldl_fst_lasting, foldl_snd_lasting, implies_true, Lasting.of_mk, Lasting.eta, lasting_ite, snd_ite, fst_ite, ite_self]
    | (with_reducible refine (foldl_lasting _ _ _ ?_).trans ?_)
    | (with_reducible refine (foldl_fst_lasting _ _ _ ?_).trans ?_)
    | intro _
    | split

@[simp] theorem State.postcardAck_lasting (s : State) (a : PostcardAck) :
    (State.postcardAck s a).lasting = s.lasting := by
  unfold State.postcardAck
  repeat' first
    | with_reducible rfl
    | simp only [State.calls_lasting, State.isolate_lasting, State.modFault_lasting, State.post_lasting, State.wrongSubtype_lasting, foldl_lasting, foldl_fst_lasting, foldl_snd_lasting, implies_true, Lasting.of_mk, Lasting.eta, lasting_ite, snd_ite, fst_ite, ite_self]
    | (with_reducible refine (foldl_lasting _ _ _ ?_).trans ?_)
    | (with_reducible refine (foldl_fst_lasting _ _ _ ?_).trans ?_)
    | intro _
    | split

@[simp] theorem State.modRun_lasting (s : State) (p : Nat) (f : ResetRun → ResetRun) :
    (State.modRun s p f).lasting = s.lasting := by
  unfold State.modRun
  repeat' first
    | with_reducible rfl
    | simp only [State.modFault_lasting, foldl_lasting, foldl_fst_lasting, foldl_snd_lasting, implies_true, Lasting.of_mk, Lasting.eta, lasting_ite, snd_ite, fst_ite, ite_self]
    | (with_reducible refine (foldl_lasting _ _ _ ?_).trans ?_)
    | (with_reducible refine (foldl_fst_lasting _ _ _ ?_).trans ?_)
    | intro _
    | split

@[simp] theorem State.takeSnapshot_lasting (s : State) :
    (State.takeSnapshot s).lasting = s.lasting := by
  unfold State.takeSnapshot
  repeat' first
    | with_reducible rfl
    | simp only [State.modFault_lasting, foldl_lasting, foldl_fst_lasting, foldl_snd_lasting, implies_true, Lasting.of_mk, Lasting.eta, lasting_ite, snd_ite, fst_ite, ite_self]
    | (with_reducible refine (foldl_lasting _ _ _ ?_).trans ?_)
    | (with_reducible refine (foldl_fst_lasting _ _ _ ?_).trans ?_)
    | intro _
    | split

@[simp] theorem State.mailWrite_lasting (s : State) (p off : Nat) (b : Bytes) :
    (State.mailWrite s p off b).lasting = s.lasting := by
  unfold State.mailWrite
  repeat' first
    | with_reducible rfl
    | simp only [State.dma_lasting, State.emit_lasting, State.modRun_lasting, foldl_lasting, foldl_fst_lasting, foldl_snd_lasting, implies_true, Lasting.of_mk, Lasting.eta, lasting_ite, snd_ite, fst_ite, ite_self]
    | (with_reducible refine (foldl_lasting _ _ _ ?_).trans ?_)
    | (with_reducible refine (foldl_fst_lasting _ _ _ ?_).trans ?_)
    | intro _
    | split

@[simp] theorem State.unitEnd_lasting (s : State) (p : Nat) (r : ResetRun) (status : Nat) :
    (State.unitEnd s p r status).lasting = s.lasting := by
  unfold State.unitEnd
  repeat' first
    | with_reducible rfl
    | simp only [State.mailWrite_lasting, State.modRun_lasting, foldl_lasting, foldl_fst_lasting, foldl_snd_lasting, implies_true, Lasting.of_mk, Lasting.eta, lasting_ite, snd_ite, fst_ite, ite_self]
    | (with_reducible refine (foldl_lasting _ _ _ ?_).trans ?_)
    | (with_reducible refine (foldl_fst_lasting _ _ _ ?_).trans ?_)
    | intro _
    | split

@[simp] theorem State.gotUnitState_lasting (s : State) (p : Nat) (r : ResetRun) (b : Bytes) :
    (State.gotUnitState s p r b).lasting = s.lasting := by
  unfold State.gotUnitState
  repeat' first
    | with_reducible rfl
    | simp only [State.modRun_lasting, State.unitEnd_lasting, foldl_lasting, foldl_fst_lasting, foldl_snd_lasting, implies_true, Lasting.of_mk, Lasting.eta, lasting_ite, snd_ite, fst_ite, ite_self]
    | (with_reducible refine (foldl_lasting _ _ _ ?_).trans ?_)
    | (with_reducible refine (foldl_fst_lasting _ _ _ ?_).trans ?_)
    | intro _
    | split

@[simp] theorem State.gotUnitBytes_lasting (s : State) (p : Nat) (r : ResetRun) (b : Bytes) :
    (State.gotUnitBytes s p r b).lasting = s.lasting := by
  unfold State.gotUnitBytes
  repeat' first
    | with_reducible rfl
    | simp only [State.mailWrite_lasting, State.modRun_lasting, State.unitEnd_lasting, foldl_lasting, foldl_fst_lasting, foldl_snd_lasting, implies_true, Lasting.of_mk, Lasting.eta, lasting_ite, snd_ite, fst_ite, ite_self]
    | (with_reducible refine (foldl_lasting _ _ _ ?_).trans ?_)
    | (with_reducible refine (foldl_fst_lasting _ _ _ ?_).trans ?_)
    | intro _
    | split

@[simp] theorem State.unitReadTimeout_lasting (s : State) (p : Nat) :
    (State.unitReadTimeout s p).lasting = s.lasting := by
  unfold State.unitReadTimeout
  repeat' first
    | with_reducible rfl
    | simp only [State.unitEnd_lasting, foldl_lasting, foldl_fst_lasting, foldl_snd_lasting, implies_true, Lasting.of_mk, Lasting.eta, lasting_ite, snd_ite, fst_ite, ite_self]
    | (with_reducible refine (foldl_lasting _ _ _ ?_).trans ?_)
    | (with_reducible refine (foldl_fst_lasting _ _ _ ?_).trans ?_)
    | intro _
    | split

@[simp] theorem State.unitsLeft_lasting (p : Nat) (n : Nat) (s : State) :
    (State.unitsLeft p n s).lasting = s.lasting := by
  induction n generalizing s with
  | zero => rfl
  | succ n ih =>
    unfold State.unitsLeft
    repeat' first
      | with_reducible rfl
      | simp only [ih, State.modRun_lasting, State.unitEnd_lasting, foldl_lasting, foldl_fst_lasting, foldl_snd_lasting, implies_true, Lasting.of_mk, Lasting.eta, lasting_ite, snd_ite, fst_ite, ite_self]
      | (with_reducible refine (foldl_lasting _ _ _ ?_).trans ?_)
      | (with_reducible refine (foldl_fst_lasting _ _ _ ?_).trans ?_)
      | intro _
      | split

@[simp] theorem State.mailbagDeadline_lasting (s : State) (p : Nat) :
    (State.mailbagDeadline s p).lasting = s.lasting := by
  unfold State.mailbagDeadline
  repeat' first
    | with_reducible rfl
    | simp only [State.modRun_lasting, State.unitsLeft_lasting, foldl_lasting, foldl_fst_lasting, foldl_snd_lasting, implies_true, Lasting.of_mk, Lasting.eta, lasting_ite, snd_ite, fst_ite, ite_self]
    | (with_reducible refine (foldl_lasting _ _ _ ?_).trans ?_)
    | (with_reducible refine (foldl_fst_lasting _ _ _ ?_).trans ?_)
    | intro _
    | split

@[simp] theorem State.tilesReset_lasting (s : State) (p : Nat) (r : ResetRun) :
    (State.tilesReset s p r).lasting = s.lasting := by
  unfold State.tilesReset
  repeat' first
    | with_reducible rfl
    | simp only [State.emit_lasting, foldl_lasting, foldl_fst_lasting, foldl_snd_lasting, implies_true, Lasting.of_mk, Lasting.eta, lasting_ite, snd_ite, fst_ite, ite_self]
    | (with_reducible refine (foldl_lasting _ _ _ ?_).trans ?_)
    | (with_reducible refine (foldl_fst_lasting _ _ _ ?_).trans ?_)
    | intro _
    | split

@[simp] theorem State.mailTail_lasting (s : State) (p : Nat) (r : ResetRun) (step : Nat) :
    (State.mailTail s p r step).lasting = s.lasting := by
  unfold State.mailTail
  repeat' first
    | with_reducible rfl
    | simp only [State.mailWrite_lasting, State.tilesReset_lasting, foldl_lasting, foldl_fst_lasting, foldl_snd_lasting, implies_true, Lasting.of_mk, Lasting.eta, lasting_ite, snd_ite, fst_ite, ite_self]
    | (with_reducible refine (foldl_lasting _ _ _ ?_).trans ?_)
    | (with_reducible refine (foldl_fst_lasting _ _ _ ?_).trans ?_)
    | intro _
    | split

@[simp] theorem State.probeUnder_lasting (s : State) (p : Nat) (e : Nat × Region) (x : Suspect) :
    (State.probeUnder s p e x).lasting = s.lasting := by
  unfold State.probeUnder
  repeat' first
    | with_reducible rfl
    | simp only [State.opened_lasting, State.submit_lasting, foldl_lasting, foldl_fst_lasting, foldl_snd_lasting, implies_true, Lasting.of_mk, Lasting.eta, lasting_ite, snd_ite, fst_ite, ite_self]
    | (with_reducible refine (foldl_lasting _ _ _ ?_).trans ?_)
    | (with_reducible refine (foldl_fst_lasting _ _ _ ?_).trans ?_)
    | intro _
    | split

@[simp] theorem State.probeRead_lasting (s : State) (x : Suspect) :
    (State.probeRead s x).lasting = s.lasting := by
  unfold State.probeRead
  repeat' first
    | with_reducible rfl
    | simp only [State.emit_lasting, State.emitPort_lasting, foldl_lasting, foldl_fst_lasting, foldl_snd_lasting, implies_true, Lasting.of_mk, Lasting.eta, lasting_ite, snd_ite, fst_ite, ite_self]
    | (with_reducible refine (foldl_lasting _ _ _ ?_).trans ?_)
    | (with_reducible refine (foldl_fst_lasting _ _ _ ?_).trans ?_)
    | intro _
    | split

@[simp] theorem State.nextProbe_lasting (p : Nat) (n : Nat) (s : State) :
    (State.nextProbe p n s).lasting = s.lasting := by
  induction n generalizing s with
  | zero => rfl
  | succ n ih =>
    unfold State.nextProbe
    repeat' first
      | with_reducible rfl
      | simp only [ih, State.mailTail_lasting, State.modRun_lasting, State.probeRead_lasting, State.probeUnder_lasting, foldl_lasting, foldl_fst_lasting, foldl_snd_lasting, implies_true, Lasting.of_mk, Lasting.eta, lasting_ite, snd_ite, fst_ite, ite_self]
      | (with_reducible refine (foldl_lasting _ _ _ ?_).trans ?_)
      | (with_reducible refine (foldl_fst_lasting _ _ _ ?_).trans ?_)
      | intro _
      | split

@[simp] theorem State.probed_lasting (s : State) (p : Nat) (r : ResetRun) (time : Nat) (error : Bool) :
    (State.probed s p r time error).lasting = s.lasting := by
  unfold State.probed
  repeat' first
    | with_reducible rfl
    | simp only [State.modRun_lasting, State.nextProbe_lasting, foldl_lasting, foldl_fst_lasting, foldl_snd_lasting, implies_true, Lasting.of_mk, Lasting.eta, lasting_ite, snd_ite, fst_ite, ite_self]
    | (with_reducible refine (foldl_lasting _ _ _ ?_).trans ?_)
    | (with_reducible refine (foldl_fst_lasting _ _ _ ?_).trans ?_)
    | intro _
    | split

@[simp] theorem State.probeDone_lasting (s : State) (p : Nat) (q : Req) :
    (State.probeDone s p q).lasting = s.lasting := by
  unfold State.probeDone
  repeat' first
    | with_reducible rfl
    | simp only [State.accepted_lasting, State.probed_lasting, foldl_lasting, foldl_fst_lasting, foldl_snd_lasting, implies_true, Lasting.of_mk, Lasting.eta, lasting_ite, snd_ite, fst_ite, ite_self]
    | (with_reducible refine (foldl_lasting _ _ _ ?_).trans ?_)
    | (with_reducible refine (foldl_fst_lasting _ _ _ ?_).trans ?_)
    | intro _
    | split

@[simp] theorem State.rawProbed_lasting (s : State) (p : Nat) (r : ResetRun) (time : Nat) (error : Bool) :
    (State.rawProbed s p r time error).lasting = s.lasting := by
  unfold State.rawProbed
  repeat' first
    | with_reducible rfl
    | simp only [State.probed_lasting, foldl_lasting, foldl_fst_lasting, foldl_snd_lasting, implies_true, Lasting.of_mk, Lasting.eta, lasting_ite, snd_ite, fst_ite, ite_self]
    | (with_reducible refine (foldl_lasting _ _ _ ?_).trans ?_)
    | (with_reducible refine (foldl_fst_lasting _ _ _ ?_).trans ?_)
    | intro _
    | split

@[simp] theorem State.probeTimeout_lasting (s : State) (p : Nat) :
    (State.probeTimeout s p).lasting = s.lasting := by
  unfold State.probeTimeout
  repeat' first
    | with_reducible rfl
    | simp only [State.fenceStack_lasting, State.mailTail_lasting, State.modRun_lasting, foldl_lasting, foldl_fst_lasting, foldl_snd_lasting, implies_true, Lasting.of_mk, Lasting.eta, lasting_ite, snd_ite, fst_ite, ite_self]
    | (with_reducible refine (foldl_lasting _ _ _ ?_).trans ?_)
    | (with_reducible refine (foldl_fst_lasting _ _ _ ?_).trans ?_)
    | intro _
    | split

@[simp] theorem State.probesEnd_lasting (s : State) :
    (State.probesEnd s).lasting = s.lasting := by
  unfold State.probesEnd
  repeat' first
    | with_reducible rfl
    | simp only [State.nextProbe_lasting, foldl_lasting, foldl_fst_lasting, foldl_snd_lasting, implies_true, Lasting.of_mk, Lasting.eta, lasting_ite, snd_ite, fst_ite, ite_self]
    | (with_reducible refine (foldl_lasting _ _ _ ?_).trans ?_)
    | (with_reducible refine (foldl_fst_lasting _ _ _ ?_).trans ?_)
    | intro _
    | split

@[simp] theorem State.resetStart_lasting (s : State) (id p flags sample cause : Nat) :
    (State.resetStart s id p flags sample cause).lasting = s.lasting := by
  unfold State.resetStart
  repeat' first
    | with_reducible rfl
    | simp only [State.descCloses_lasting, State.modFault_lasting, State.modPart_lasting, State.post_lasting, State.squashHeld_lasting, foldl_lasting, foldl_fst_lasting, foldl_snd_lasting, implies_true, Lasting.of_mk, Lasting.eta, lasting_ite, snd_ite, fst_ite, ite_self]
    | (with_reducible refine (foldl_lasting _ _ _ ?_).trans ?_)
    | (with_reducible refine (foldl_fst_lasting _ _ _ ?_).trans ?_)
    | intro _
    | split

@[simp] theorem State.resetStop_lasting (s : State) (p : Nat) :
    (State.resetStop s p).lasting = s.lasting := by
  unfold State.resetStop
  repeat' first
    | with_reducible rfl
    | simp only [State.lowerTiles_lasting, State.modRegion_lasting, State.modRun_lasting, foldl_lasting, foldl_fst_lasting, foldl_snd_lasting, implies_true, Lasting.of_mk, Lasting.eta, lasting_ite, snd_ite, fst_ite, ite_self]
    | (with_reducible refine (foldl_lasting _ _ _ ?_).trans ?_)
    | (with_reducible refine (foldl_fst_lasting _ _ _ ?_).trans ?_)
    | intro _
    | split

@[simp] theorem State.askBacks_lasting (s : State) (tiles : List Nat) :
    (State.askBacks s tiles).lasting = s.lasting := by
  unfold State.askBacks
  repeat' first
    | with_reducible rfl
    | simp only [State.askBack_lasting, foldl_lasting, foldl_fst_lasting, foldl_snd_lasting, implies_true, Lasting.of_mk, Lasting.eta, lasting_ite, snd_ite, fst_ite, ite_self]
    | (with_reducible refine (foldl_lasting _ _ _ ?_).trans ?_)
    | (with_reducible refine (foldl_fst_lasting _ _ _ ?_).trans ?_)
    | intro _
    | split

@[simp] theorem State.channelReset_lasting (s : State) (p : Nat) :
    (State.channelReset s p).lasting = s.lasting := by
  unfold State.channelReset
  repeat' first
    | with_reducible rfl
    | simp only [State.emit_lasting, State.modFault_lasting, State.modRun_lasting, foldl_lasting, foldl_fst_lasting, foldl_snd_lasting, implies_true, Lasting.of_mk, Lasting.eta, lasting_ite, snd_ite, fst_ite, ite_self]
    | (with_reducible refine (foldl_lasting _ _ _ ?_).trans ?_)
    | (with_reducible refine (foldl_fst_lasting _ _ _ ?_).trans ?_)
    | intro _
    | split

@[simp] theorem State.replayStart_lasting (s : State) (p : Nat) (r : ResetRun) :
    (State.replayStart s p r).lasting = s.lasting := by
  unfold State.replayStart
  repeat' first
    | with_reducible rfl
    | simp only [State.mailTail_lasting, State.modRun_lasting, State.nextProbe_lasting, foldl_lasting, foldl_fst_lasting, foldl_snd_lasting, implies_true, Lasting.of_mk, Lasting.eta, lasting_ite, snd_ite, fst_ite, ite_self]
    | (with_reducible refine (foldl_lasting _ _ _ ?_).trans ?_)
    | (with_reducible refine (foldl_fst_lasting _ _ _ ?_).trans ?_)
    | intro _
    | split

@[simp] theorem State.resetEnd_lasting (s : State) (p : Nat) (r : ResetRun) :
    (State.resetEnd s p r).lasting = s.lasting := by
  unfold State.resetEnd
  repeat' first
    | with_reducible rfl
    | simp only [State.closeEnded_lasting, State.complete_lasting, State.freeReserved_lasting, State.modCtx_lasting, State.modFault_lasting, State.modPart_lasting, State.postAt_lasting, State.unpause_lasting, foldl_lasting, foldl_fst_lasting, foldl_snd_lasting, implies_true, Lasting.of_mk, Lasting.eta, lasting_ite, snd_ite, fst_ite, ite_self]
    | (with_reducible refine (foldl_lasting _ _ _ ?_).trans ?_)
    | (with_reducible refine (foldl_fst_lasting _ _ _ ?_).trans ?_)
    | intro _
    | split

@[simp] theorem State.replayEnd_lasting (s : State) (p : Nat) (r : ResetRun) :
    (State.replayEnd s p r).lasting = s.lasting := by
  unfold State.replayEnd
  repeat' first
    | with_reducible rfl
    | simp only [State.complete_lasting, State.modFault_lasting, State.modPart_lasting, foldl_lasting, foldl_fst_lasting, foldl_snd_lasting, implies_true, Lasting.of_mk, Lasting.eta, lasting_ite, snd_ite, fst_ite, ite_self]
    | (with_reducible refine (foldl_lasting _ _ _ ?_).trans ?_)
    | (with_reducible refine (foldl_fst_lasting _ _ _ ?_).trans ?_)
    | intro _
    | split

@[simp] theorem State.resetDone_lasting (s : State) (p : Nat) (r : ResetRun) :
    (State.resetDone s p r).lasting = s.lasting := by
  unfold State.resetDone
  repeat' first
    | with_reducible rfl
    | simp only [State.askBacks_lasting, State.channelReset_lasting, State.fencesSettle_lasting, State.freeReserved_lasting, State.mailTail_lasting, State.modRun_lasting, State.replayEnd_lasting, State.replayStart_lasting, State.resetEnd_lasting, State.resetStop_lasting, foldl_lasting, foldl_fst_lasting, foldl_snd_lasting, implies_true, Lasting.of_mk, Lasting.eta, lasting_ite, snd_ite, fst_ite, ite_self]
    | (with_reducible refine (foldl_lasting _ _ _ ?_).trans ?_)
    | (with_reducible refine (foldl_fst_lasting _ _ _ ?_).trans ?_)
    | intro _
    | (rename_i hsome; rw [← State.armReserved_lasting hsome])
    | split

@[simp] theorem State.resetProgress_lasting (s : State) (p : Nat) (ev : ResetEvent) :
    (State.resetProgress s p ev).lasting = s.lasting := by
  unfold State.resetProgress
  repeat' first
    | with_reducible rfl
    | simp only [State.gotUnitBytes_lasting, State.gotUnitState_lasting, State.rawProbed_lasting, State.resetDone_lasting, foldl_lasting, foldl_fst_lasting, foldl_snd_lasting, implies_true, Lasting.of_mk, Lasting.eta, lasting_ite, snd_ite, fst_ite, ite_self]
    | (with_reducible refine (foldl_lasting _ _ _ ?_).trans ?_)
    | (with_reducible refine (foldl_fst_lasting _ _ _ ?_).trans ?_)
    | intro _
    | split

end Machine
end Sys2Proof
end

