-- ==== Sys2Proof/Laws/LastingObserve.lean ====
section
/-!
SUPPORT. Laws/LastingObserve.lean: no operation of Machine/Observe.lean touches the queue, the fuse array, power, the reset or the
TAMPER_HELD latch.
-/

-- One theorem after another: side by side, each holds a thread (NOTES.md).
set_option Elab.async false

namespace Sys2Proof
namespace Machine

set_option linter.unusedSimpArgs false

@[simp] theorem State.modTrace_lasting (s : State) (f : Trace → Trace) :
    (State.modTrace s f).lasting = s.lasting := by
  unfold State.modTrace
  repeat' first
    | with_reducible rfl
    | simp only [foldl_lasting, foldl_fst_lasting, foldl_snd_lasting, implies_true, Lasting.of_mk, Lasting.eta, lasting_ite, snd_ite, fst_ite, ite_self]
    | (with_reducible refine (foldl_lasting _ _ _ ?_).trans ?_)
    | (with_reducible refine (foldl_fst_lasting _ _ _ ?_).trans ?_)
    | intro _
    | split

@[simp] theorem State.wakes_lasting (s : State) :
    (State.wakes s).lasting = s.lasting := by
  unfold State.wakes
  repeat' first
    | with_reducible rfl
    | simp only [State.free_lasting, State.modTrace_lasting, foldl_lasting, foldl_fst_lasting, foldl_snd_lasting, implies_true, Lasting.of_mk, Lasting.eta, lasting_ite, snd_ite, fst_ite, ite_self]
    | (with_reducible refine (foldl_lasting _ _ _ ?_).trans ?_)
    | (with_reducible refine (foldl_fst_lasting _ _ _ ?_).trans ?_)
    | intro _
    | split

@[simp] theorem State.countersSettle_lasting (s : State) :
    (State.countersSettle s).lasting = s.lasting := by
  unfold State.countersSettle
  repeat' first
    | with_reducible rfl
    | simp only [State.cyclesSettle_lasting, State.modTrace_lasting, State.post_lasting, foldl_lasting, foldl_fst_lasting, foldl_snd_lasting, implies_true, Lasting.of_mk, Lasting.eta, lasting_ite, snd_ite, fst_ite, ite_self]
    | (with_reducible refine (foldl_lasting _ _ _ ?_).trans ?_)
    | (with_reducible refine (foldl_fst_lasting _ _ _ ?_).trans ?_)
    | intro _
    | split

@[simp] theorem State.snapshotLatch_lasting (s : State) :
    (State.snapshotLatch s).lasting = s.lasting := by
  unfold State.snapshotLatch
  repeat' first
    | with_reducible rfl
    | simp only [State.complete_lasting, State.cyclesSettle_lasting, State.modTrace_lasting, foldl_lasting, foldl_fst_lasting, foldl_snd_lasting, implies_true, Lasting.of_mk, Lasting.eta, lasting_ite, snd_ite, fst_ite, ite_self]
    | (with_reducible refine (foldl_lasting _ _ _ ?_).trans ?_)
    | (with_reducible refine (foldl_fst_lasting _ _ _ ?_).trans ?_)
    | intro _
    | split

@[simp] theorem State.counterRecords_lasting (s : State) (mark island : Nat) :
    (State.counterRecords s mark island).lasting = s.lasting := by
  unfold State.counterRecords
  repeat' first
    | with_reducible rfl
    | simp only [State.traceAt_lasting, foldl_lasting, foldl_fst_lasting, foldl_snd_lasting, implies_true, Lasting.of_mk, Lasting.eta, lasting_ite, snd_ite, fst_ite, ite_self]
    | (with_reducible refine (foldl_lasting _ _ _ ?_).trans ?_)
    | (with_reducible refine (foldl_fst_lasting _ _ _ ?_).trans ?_)
    | intro _
    | split

@[simp] theorem State.periodLatch_lasting (s : State) :
    (State.periodLatch s).lasting = s.lasting := by
  unfold State.periodLatch
  repeat' first
    | with_reducible rfl
    | simp only [State.counterRecords_lasting, State.cyclesSettle_lasting, State.modSession_lasting, foldl_lasting, foldl_fst_lasting, foldl_snd_lasting, implies_true, Lasting.of_mk, Lasting.eta, lasting_ite, snd_ite, fst_ite, ite_self]
    | (with_reducible refine (foldl_lasting _ _ _ ?_).trans ?_)
    | (with_reducible refine (foldl_fst_lasting _ _ _ ?_).trans ?_)
    | intro _
    | split

@[simp] theorem State.ringWrite_lasting (s : State) (r : TraceRec) :
    (State.ringWrite s r).lasting = s.lasting := by
  unfold State.ringWrite
  repeat' first
    | with_reducible rfl
    | simp only [State.dma_lasting, State.emit_lasting, State.modSession_lasting, foldl_lasting, foldl_fst_lasting, foldl_snd_lasting, implies_true, Lasting.of_mk, Lasting.eta, lasting_ite, snd_ite, fst_ite, ite_self]
    | (with_reducible refine (foldl_lasting _ _ _ ?_).trans ?_)
    | (with_reducible refine (foldl_fst_lasting _ _ _ ?_).trans ?_)
    | intro _
    | split

@[simp] theorem State.drainFrom_lasting (s : State) (i : Nat) :
    (State.drainFrom s i).lasting = s.lasting := by
  unfold State.drainFrom
  repeat' first
    | with_reducible rfl
    | simp only [State.drained_lasting, State.modBuf_lasting, State.modTrace_lasting, State.ringWrite_lasting, State.stamped_lasting, State.turn_lasting, foldl_lasting, foldl_fst_lasting, foldl_snd_lasting, implies_true, Lasting.of_mk, Lasting.eta, lasting_ite, snd_ite, fst_ite, ite_self]
    | (with_reducible refine (foldl_lasting _ _ _ ?_).trans ?_)
    | (with_reducible refine (foldl_fst_lasting _ _ _ ?_).trans ?_)
    | intro _
    | split

@[simp] theorem State.drainStep_lasting (s : State) :
    (State.drainStep s).lasting = s.lasting := by
  unfold State.drainStep
  repeat' first
    | with_reducible rfl
    | simp only [State.drainFrom_lasting, State.free_lasting, State.modSession_lasting, State.postLimited_lasting, State.ringWrite_lasting, State.stamped_lasting, foldl_lasting, foldl_fst_lasting, foldl_snd_lasting, implies_true, Lasting.of_mk, Lasting.eta, lasting_ite, snd_ite, fst_ite, ite_self]
    | (with_reducible refine (foldl_lasting _ _ _ ?_).trans ?_)
    | (with_reducible refine (foldl_fst_lasting _ _ _ ?_).trans ?_)
    | intro _
    | split

@[simp] theorem State.consumedPoll_lasting (s : State) (consumed : Nat) :
    (State.consumedPoll s consumed).lasting = s.lasting := by
  unfold State.consumedPoll
  repeat' first
    | with_reducible rfl
    | simp only [State.dma_lasting, State.free_lasting, State.modSession_lasting, foldl_lasting, foldl_fst_lasting, foldl_snd_lasting, implies_true, Lasting.of_mk, Lasting.eta, lasting_ite, snd_ite, fst_ite, ite_self]
    | (with_reducible refine (foldl_lasting _ _ _ ?_).trans ?_)
    | (with_reducible refine (foldl_fst_lasting _ _ _ ?_).trans ?_)
    | intro _
    | split

@[simp] theorem State.postmarkTrigger_lasting (s : State) :
    (State.postmarkTrigger s).lasting = s.lasting := by
  unfold State.postmarkTrigger
  repeat' first
    | with_reducible rfl
    | simp only [State.modSession_lasting, State.trigger_lasting, foldl_lasting, foldl_fst_lasting, foldl_snd_lasting, implies_true, Lasting.of_mk, Lasting.eta, lasting_ite, snd_ite, fst_ite, ite_self]
    | (with_reducible refine (foldl_lasting _ _ _ ?_).trans ?_)
    | (with_reducible refine (foldl_fst_lasting _ _ _ ?_).trans ?_)
    | intro _
    | split

@[simp] theorem State.drainEmpty_lasting (s : State) :
    (State.drainEmpty s).lasting = s.lasting := by
  unfold State.drainEmpty
  repeat' first
    | with_reducible rfl
    | simp only [State.endSession_lasting, foldl_lasting, foldl_fst_lasting, foldl_snd_lasting, implies_true, Lasting.of_mk, Lasting.eta, lasting_ite, snd_ite, fst_ite, ite_self]
    | (with_reducible refine (foldl_lasting _ _ _ ?_).trans ?_)
    | (with_reducible refine (foldl_fst_lasting _ _ _ ?_).trans ?_)
    | intro _
    | split

@[simp] theorem State.announceTrigger_lasting (s : State) :
    (State.announceTrigger s).lasting = s.lasting := by
  unfold State.announceTrigger
  repeat' first
    | with_reducible rfl
    | simp only [State.modSession_lasting, State.postAt_lasting, foldl_lasting, foldl_fst_lasting, foldl_snd_lasting, implies_true, Lasting.of_mk, Lasting.eta, lasting_ite, snd_ite, fst_ite, ite_self]
    | (with_reducible refine (foldl_lasting _ _ _ ?_).trans ?_)
    | (with_reducible refine (foldl_fst_lasting _ _ _ ?_).trans ?_)
    | intro _
    | split

end Machine
end Sys2Proof
end

