-- ==== Sys2Proof/Laws/LastingClosing.lean ====
section
/-!
SUPPORT. Laws/LastingClosing.lean: no operation of Machine/Closing.lean touches the queue, the fuse array, power, the reset or the
TAMPER_HELD latch.
-/

-- One theorem after another: side by side, each holds a thread (NOTES.md).
set_option Elab.async false

namespace Sys2Proof
namespace Machine

set_option linter.unusedSimpArgs false

@[simp] theorem State.closeStart_lasting (s : State) (h ctx : Nat) (op : Option Nat) :
    (State.closeStart s h ctx op).lasting = s.lasting := by
  unfold State.closeStart
  repeat' first
    | with_reducible rfl
    | simp only [State.modCtx_lasting, foldl_lasting, foldl_fst_lasting, foldl_snd_lasting, implies_true, Lasting.of_mk, Lasting.eta, lasting_ite, snd_ite, fst_ite, ite_self]
    | (with_reducible refine (foldl_lasting _ _ _ ?_).trans ?_)
    | (with_reducible refine (foldl_fst_lasting _ _ _ ?_).trans ?_)
    | intro _
    | split

@[simp] theorem State.closeFence_lasting (s : State) (ctx h : Nat) :
    (State.closeFence s ctx h).lasting = s.lasting := by
  unfold State.closeFence
  repeat' first
    | with_reducible rfl
    | simp only [State.freeReserved_lasting, State.modCtx_lasting, foldl_lasting, foldl_fst_lasting, foldl_snd_lasting, implies_true, Lasting.of_mk, Lasting.eta, lasting_ite, snd_ite, fst_ite, ite_self]
    | (with_reducible refine (foldl_lasting _ _ _ ?_).trans ?_)
    | (with_reducible refine (foldl_fst_lasting _ _ _ ?_).trans ?_)
    | intro _
    | (rename_i hsome; rw [← State.armReserved_lasting hsome])
    | split

@[simp] theorem State.closeEnd_lasting (s : State) (ctx : Nat) :
    (State.closeEnd s ctx).lasting = s.lasting := by
  unfold State.closeEnd
  repeat' first
    | with_reducible rfl
    | simp only [State.closeEnded_lasting, State.completeOpt_lasting, State.modCtx_lasting, foldl_lasting, foldl_fst_lasting, foldl_snd_lasting, implies_true, Lasting.of_mk, Lasting.eta, lasting_ite, snd_ite, fst_ite, ite_self]
    | (with_reducible refine (foldl_lasting _ _ _ ?_).trans ?_)
    | (with_reducible refine (foldl_fst_lasting _ _ _ ?_).trans ?_)
    | intro _
    | split

@[simp] theorem State.closeProgress_lasting (s : State) (ctx : Nat) :
    (State.closeProgress s ctx).lasting = s.lasting := by
  unfold State.closeProgress
  repeat' first
    | with_reducible rfl
    | simp only [State.closeEnd_lasting, State.closeFence_lasting, State.descCloses_lasting, State.flushWhere_lasting, State.free_lasting, State.modCtx_lasting, foldl_lasting, foldl_fst_lasting, foldl_snd_lasting, implies_true, Lasting.of_mk, Lasting.eta, lasting_ite, snd_ite, fst_ite, ite_self]
    | (with_reducible refine (foldl_lasting _ _ _ ?_).trans ?_)
    | (with_reducible refine (foldl_fst_lasting _ _ _ ?_).trans ?_)
    | intro _
    | split

@[simp] theorem State.stopWalkers_lasting (s : State) (h : Nat) :
    (State.stopWalkers s h).lasting = s.lasting := by
  unfold State.stopWalkers
  repeat' first
    | with_reducible rfl
    | simp only [State.abandon_lasting, State.complete_lasting, State.resumeStops_lasting, State.sealOp_lasting, State.written_lasting, foldl_lasting, foldl_fst_lasting, foldl_snd_lasting, implies_true, Lasting.of_mk, Lasting.eta, lasting_ite, snd_ite, fst_ite, ite_self]
    | (with_reducible refine (foldl_lasting _ _ _ ?_).trans ?_)
    | (with_reducible refine (foldl_fst_lasting _ _ _ ?_).trans ?_)
    | intro _
    | split

@[simp] theorem State.zeroOpen_lasting (s : State) (h : Nat) :
    (State.zeroOpen s h).lasting = s.lasting := by
  unfold State.zeroOpen
  repeat' first
    | with_reducible rfl
    | simp only [State.emitPort_lasting, State.wipe_lasting, foldl_lasting, foldl_fst_lasting, foldl_snd_lasting, implies_true, Lasting.of_mk, Lasting.eta, lasting_ite, snd_ite, fst_ite, ite_self]
    | (with_reducible refine (foldl_lasting _ _ _ ?_).trans ?_)
    | (with_reducible refine (foldl_fst_lasting _ _ _ ?_).trans ?_)
    | intro _
    | split

@[simp] theorem State.dropPeers_lasting (s : State) (h : Nat) :
    (State.dropPeers s h).lasting = s.lasting := by
  unfold State.dropPeers
  repeat' first
    | with_reducible rfl
    | simp only [State.closeAssoc_lasting, State.modAssocs_lasting, foldl_lasting, foldl_fst_lasting, foldl_snd_lasting, implies_true, Lasting.of_mk, Lasting.eta, lasting_ite, snd_ite, fst_ite, ite_self]
    | (with_reducible refine (foldl_lasting _ _ _ ?_).trans ?_)
    | (with_reducible refine (foldl_fst_lasting _ _ _ ?_).trans ?_)
    | intro _
    | split

@[simp] theorem State.dropTables_lasting (s : State) (h : Nat) :
    (State.dropTables s h).lasting = s.lasting := by
  unfold State.dropTables
  repeat' first
    | with_reducible rfl
    | simp only [State.complete_lasting, State.disarm_lasting, State.endFetches_lasting, State.free_lasting, foldl_lasting, foldl_fst_lasting, foldl_snd_lasting, implies_true, Lasting.of_mk, Lasting.eta, lasting_ite, snd_ite, fst_ite, ite_self]
    | (with_reducible refine (foldl_lasting _ _ _ ?_).trans ?_)
    | (with_reducible refine (foldl_fst_lasting _ _ _ ?_).trans ?_)
    | intro _
    | split

@[simp] theorem State.closeBox_lasting (s : State) (h : Nat) :
    (State.closeBox s h).lasting = s.lasting := by
  unfold State.closeBox
  repeat' first
    | with_reducible rfl
    | simp only [State.complete_lasting, State.modBox_lasting, State.modJob_lasting, foldl_lasting, foldl_fst_lasting, foldl_snd_lasting, implies_true, Lasting.of_mk, Lasting.eta, lasting_ite, snd_ite, fst_ite, ite_self]
    | (with_reducible refine (foldl_lasting _ _ _ ?_).trans ?_)
    | (with_reducible refine (foldl_fst_lasting _ _ _ ?_).trans ?_)
    | intro _
    | split

@[simp] theorem State.teardownProgress_lasting (s : State) (h : Nat) :
    (State.teardownProgress s h).lasting = s.lasting := by
  unfold State.teardownProgress
  repeat' first
    | with_reducible rfl
    | simp only [State.closeBox_lasting, State.closeEnded_lasting, State.closeStart_lasting, State.completeOpt_lasting, State.descCloses_lasting, State.dropJob_lasting, State.dropPeers_lasting, State.dropTables_lasting, State.free_lasting, State.keysReported_lasting, State.modJob_lasting, State.modRemote_lasting, State.opened_lasting, State.purgeJob_lasting, State.stopWalkers_lasting, State.zeroOpen_lasting, State.zeroiseSlot_lasting, foldl_lasting, foldl_fst_lasting, foldl_snd_lasting, implies_true, Lasting.of_mk, Lasting.eta, lasting_ite, snd_ite, fst_ite, ite_self]
    | (with_reducible refine (foldl_lasting _ _ _ ?_).trans ?_)
    | (with_reducible refine (foldl_fst_lasting _ _ _ ?_).trans ?_)
    | intro _
    | split

@[simp] theorem State.resizeRecord_lasting (s : State) (h id : Nat) (r : Resize) (keys : Nat × Nat × Nat) :
    (State.resizeRecord s h id r keys).lasting = s.lasting := by
  unfold State.resizeRecord
  repeat' first
    | with_reducible rfl
    | simp only [State.count_lasting, State.modJob_lasting, foldl_lasting, foldl_fst_lasting, foldl_snd_lasting, implies_true, Lasting.of_mk, Lasting.eta, lasting_ite, snd_ite, fst_ite, ite_self]
    | (with_reducible refine (foldl_lasting _ _ _ ?_).trans ?_)
    | (with_reducible refine (foldl_fst_lasting _ _ _ ?_).trans ?_)
    | intro _
    | split

@[simp] theorem State.resizeStart_lasting (s : State) (h id : Nat) (r : Resize) (keys : Nat × Nat × Nat) :
    (State.resizeStart s h id r keys).lasting = s.lasting := by
  unfold State.resizeStart
  repeat' first
    | with_reducible rfl
    | simp only [State.count_lasting, State.resizeRecord_lasting, State.tableTouch_lasting, foldl_lasting, foldl_fst_lasting, foldl_snd_lasting, implies_true, Lasting.of_mk, Lasting.eta, lasting_ite, snd_ite, fst_ite, ite_self]
    | (with_reducible refine (foldl_lasting _ _ _ ?_).trans ?_)
    | (with_reducible refine (foldl_fst_lasting _ _ _ ?_).trans ?_)
    | intro _
    | split

end Machine
end Sys2Proof
end

