-- ==== Sys2Proof/Laws/LastingBoundary.lean ====
section
/-!
SUPPORT. Laws/LastingBoundary.lean: no operation of Machine/Boundary.lean touches the queue, the fuse array, power, the reset or the
TAMPER_HELD latch.
-/

-- One theorem after another: side by side, each holds a thread (NOTES.md).
set_option Elab.async false

namespace Sys2Proof
namespace Machine

set_option linter.unusedSimpArgs false

@[simp] theorem State.imageRefused_lasting (s : State) (code : Nat) :
    (State.imageRefused s code).lasting = s.lasting := by
  unfold State.imageRefused
  repeat' first
    | with_reducible rfl
    | simp only [State.statusChanged_lasting, foldl_lasting, foldl_fst_lasting, foldl_snd_lasting, implies_true, Lasting.of_mk, Lasting.eta, lasting_ite, snd_ite, fst_ite, ite_self]
    | (with_reducible refine (foldl_lasting _ _ _ ?_).trans ?_)
    | (with_reducible refine (foldl_fst_lasting _ _ _ ?_).trans ?_)
    | intro _
    | split

@[simp] theorem State.fetchImage_lasting (s : State) :
    (State.fetchImage s).lasting = s.lasting := by
  unfold State.fetchImage
  repeat' first
    | with_reducible rfl
    | simp only [State.emit_lasting, State.imageRefused_lasting, State.setBootCode_lasting, foldl_lasting, foldl_fst_lasting, foldl_snd_lasting, implies_true, Lasting.of_mk, Lasting.eta, lasting_ite, snd_ite, fst_ite, ite_self]
    | (with_reducible refine (foldl_lasting _ _ _ ?_).trans ?_)
    | (with_reducible refine (foldl_fst_lasting _ _ _ ?_).trans ?_)
    | intro _
    | split

@[simp] theorem State.fwControl_lasting (s : State) (link v : Nat) :
    (State.fwControl s link v).lasting = s.lasting := by
  unfold State.fwControl
  repeat' first
    | with_reducible rfl
    | simp only [State.fetchImage_lasting, foldl_lasting, foldl_fst_lasting, foldl_snd_lasting, implies_true, Lasting.of_mk, Lasting.eta, lasting_ite, snd_ite, fst_ite, ite_self]
    | (with_reducible refine (foldl_lasting _ _ _ ?_).trans ?_)
    | (with_reducible refine (foldl_fst_lasting _ _ _ ?_).trans ?_)
    | intro _
    | split

@[simp] theorem State.fwDigests_lasting (s : State) (i : FwImage) :
    (State.fwDigests s i).lasting = s.lasting := by
  unfold State.fwDigests
  repeat' first
    | with_reducible rfl
    | simp only [State.calls_lasting, foldl_lasting, foldl_fst_lasting, foldl_snd_lasting, implies_true, Lasting.of_mk, Lasting.eta, lasting_ite, snd_ite, fst_ite, ite_self]
    | (with_reducible refine (foldl_lasting _ _ _ ?_).trans ?_)
    | (with_reducible refine (foldl_fst_lasting _ _ _ ?_).trans ?_)
    | intro _
    | split

@[simp] theorem State.fullService_lasting (s : State) :
    (State.fullService s).lasting = s.lasting := by
  unfold State.fullService
  repeat' first
    | with_reducible rfl
    | simp only [State.setBlock_lasting, foldl_lasting, foldl_fst_lasting, foldl_snd_lasting, implies_true, Lasting.of_mk, Lasting.eta, lasting_ite, snd_ite, fst_ite, ite_self]
    | (with_reducible refine (foldl_lasting _ _ _ ?_).trans ?_)
    | (with_reducible refine (foldl_fst_lasting _ _ _ ?_).trans ?_)
    | intro _
    | split

@[simp] theorem State.handshakeReady_lasting (s : State) :
    (State.handshakeReady s).lasting = s.lasting := by
  unfold State.handshakeReady
  repeat' first
    | with_reducible rfl
    | simp only [State.fullService_lasting, State.modBox_lasting, State.opened_lasting, State.powerNotice_lasting, State.setBlock_lasting, foldl_lasting, foldl_fst_lasting, foldl_snd_lasting, implies_true, Lasting.of_mk, Lasting.eta, lasting_ite, snd_ite, fst_ite, ite_self]
    | (with_reducible refine (foldl_lasting _ _ _ ?_).trans ?_)
    | (with_reducible refine (foldl_fst_lasting _ _ _ ?_).trans ?_)
    | intro _
    | split

@[simp] theorem State.imageFetched_lasting (s : State) (i : FwImage) :
    (State.imageFetched s i).lasting = s.lasting := by
  unfold State.imageFetched
  repeat' first
    | with_reducible rfl
    | simp only [State.extend_lasting, State.fwDigests_lasting, State.handshakeReady_lasting, State.imageRefused_lasting, State.setBootCode_lasting, foldl_lasting, foldl_fst_lasting, foldl_snd_lasting, implies_true, Lasting.of_mk, Lasting.eta, lasting_ite, snd_ite, fst_ite, ite_self]
    | (with_reducible refine (foldl_lasting _ _ _ ?_).trans ?_)
    | (with_reducible refine (foldl_fst_lasting _ _ _ ?_).trans ?_)
    | intro _
    | split

@[simp] theorem State.registerWrite_lasting (s : State) (link off v : Nat) :
    (State.registerWrite s link off v).lasting = s.lasting := by
  unfold State.registerWrite
  repeat' first
    | with_reducible rfl
    | simp only [State.envRegister_lasting, State.fwControl_lasting, State.lbxRegister_lasting, foldl_lasting, foldl_fst_lasting, foldl_snd_lasting, implies_true, Lasting.of_mk, Lasting.eta, lasting_ite, snd_ite, fst_ite, ite_self]
    | (with_reducible refine (foldl_lasting _ _ _ ?_).trans ?_)
    | (with_reducible refine (foldl_fst_lasting _ _ _ ?_).trans ?_)
    | intro _
    | split

@[simp] theorem State.barAccess_lasting (s : State) (o : Origin) (k : ReqKind) (off len : Nat) (bytes : List (Option Byte)) :
    (State.barAccess s o k off len bytes).lasting = s.lasting := by
  unfold State.barAccess
  repeat' first
    | with_reducible rfl
    | simp only [State.submit_lasting, foldl_lasting, foldl_fst_lasting, foldl_snd_lasting, implies_true, Lasting.of_mk, Lasting.eta, lasting_ite, snd_ite, fst_ite, ite_self]
    | (with_reducible refine (foldl_lasting _ _ _ ?_).trans ?_)
    | (with_reducible refine (foldl_fst_lasting _ _ _ ?_).trans ?_)
    | intro _
    | split

@[simp] theorem State.barCounted_lasting (s : State) :
    (State.barCounted s).lasting = s.lasting := by
  unfold State.barCounted
  repeat' first
    | with_reducible rfl
    | simp only [foldl_lasting, foldl_fst_lasting, foldl_snd_lasting, implies_true, Lasting.of_mk, Lasting.eta, lasting_ite, snd_ite, fst_ite, ite_self]
    | (with_reducible refine (foldl_lasting _ _ _ ?_).trans ?_)
    | (with_reducible refine (foldl_fst_lasting _ _ _ ?_).trans ?_)
    | intro _
    | split

@[simp] theorem State.barReadMem_lasting (s : State) (link off len tag : Nat) :
    (State.barReadMem s link off len tag).lasting = s.lasting := by
  unfold State.barReadMem
  repeat' first
    | with_reducible rfl
    | simp only [State.barAccess_lasting, State.barCounted_lasting, State.emit_lasting, foldl_lasting, foldl_fst_lasting, foldl_snd_lasting, implies_true, Lasting.of_mk, Lasting.eta, lasting_ite, snd_ite, fst_ite, ite_self]
    | (with_reducible refine (foldl_lasting _ _ _ ?_).trans ?_)
    | (with_reducible refine (foldl_fst_lasting _ _ _ ?_).trans ?_)
    | intro _
    | split

@[simp] theorem State.barWriteMem_lasting (s : State) (link off : Nat) (data : Bytes) :
    (State.barWriteMem s link off data).lasting = s.lasting := by
  unfold State.barWriteMem
  repeat' first
    | with_reducible rfl
    | simp only [State.barAccess_lasting, State.barCounted_lasting, foldl_lasting, foldl_fst_lasting, foldl_snd_lasting, implies_true, Lasting.of_mk, Lasting.eta, lasting_ite, snd_ite, fst_ite, ite_self]
    | (with_reducible refine (foldl_lasting _ _ _ ?_).trans ?_)
    | (with_reducible refine (foldl_fst_lasting _ _ _ ?_).trans ?_)
    | intro _
    | split

@[simp] theorem State.flushPort_lasting (s : State) (port : Nat) :
    (State.flushPort s port).lasting = s.lasting := by
  unfold State.flushPort
  repeat' first
    | with_reducible rfl
    | simp only [State.portServe_lasting, foldl_lasting, foldl_fst_lasting, foldl_snd_lasting, implies_true, Lasting.of_mk, Lasting.eta, lasting_ite, snd_ite, fst_ite, ite_self]
    | (with_reducible refine (foldl_lasting _ _ _ ?_).trans ?_)
    | (with_reducible refine (foldl_fst_lasting _ _ _ ?_).trans ?_)
    | intro _
    | split

@[simp] theorem State.portAlive_lasting (s : State) (port : Nat) :
    (State.portAlive s port).lasting = s.lasting := by
  unfold State.portAlive
  repeat' first
    | with_reducible rfl
    | simp only [State.flushPort_lasting, State.modFault_lasting, foldl_lasting, foldl_fst_lasting, foldl_snd_lasting, implies_true, Lasting.of_mk, Lasting.eta, lasting_ite, snd_ite, fst_ite, ite_self]
    | (with_reducible refine (foldl_lasting _ _ _ ?_).trans ?_)
    | (with_reducible refine (foldl_fst_lasting _ _ _ ?_).trans ?_)
    | intro _
    | split

@[simp] theorem State.fabricDown_lasting (s : State) (port : Nat) :
    (State.fabricDown s port).lasting = s.lasting := by
  unfold State.fabricDown
  repeat' first
    | with_reducible rfl
    | simp only [foldl_lasting, foldl_fst_lasting, foldl_snd_lasting, implies_true, Lasting.of_mk, Lasting.eta, lasting_ite, snd_ite, fst_ite, ite_self]
    | (with_reducible refine (foldl_lasting _ _ _ ?_).trans ?_)
    | (with_reducible refine (foldl_fst_lasting _ _ _ ?_).trans ?_)
    | intro _
    | split

@[simp] theorem State.fabricUp_lasting (s : State) (port : Nat) :
    (State.fabricUp s port).lasting = s.lasting := by
  unfold State.fabricUp
  repeat' first
    | with_reducible rfl
    | simp only [State.flushPort_lasting, State.modFault_lasting, foldl_lasting, foldl_fst_lasting, foldl_snd_lasting, implies_true, Lasting.of_mk, Lasting.eta, lasting_ite, snd_ite, fst_ite, ite_self]
    | (with_reducible refine (foldl_lasting _ _ _ ?_).trans ?_)
    | (with_reducible refine (foldl_fst_lasting _ _ _ ?_).trans ?_)
    | intro _
    | split

@[simp] theorem State.hostDown_lasting (s : State) (link : Nat) :
    (State.hostDown s link).lasting = s.lasting := by
  unfold State.hostDown
  repeat' first
    | with_reducible rfl
    | simp only [State.linkAway_lasting, foldl_lasting, foldl_fst_lasting, foldl_snd_lasting, implies_true, Lasting.of_mk, Lasting.eta, lasting_ite, snd_ite, fst_ite, ite_self]
    | (with_reducible refine (foldl_lasting _ _ _ ?_).trans ?_)
    | (with_reducible refine (foldl_fst_lasting _ _ _ ?_).trans ?_)
    | intro _
    | split

@[simp] theorem State.hostTrained_lasting (s : State) (link : Nat) :
    (State.hostTrained s link).lasting = s.lasting := by
  unfold State.hostTrained
  repeat' first
    | with_reducible rfl
    | simp only [State.modFault_lasting, foldl_lasting, foldl_fst_lasting, foldl_snd_lasting, implies_true, Lasting.of_mk, Lasting.eta, lasting_ite, snd_ite, fst_ite, ite_self]
    | (with_reducible refine (foldl_lasting _ _ _ ?_).trans ?_)
    | (with_reducible refine (foldl_fst_lasting _ _ _ ?_).trans ?_)
    | intro _
    | split

@[simp] theorem State.mcReady_lasting (s : State) (n : Nat) :
    (State.mcReady s n).lasting = s.lasting := by
  unfold State.mcReady
  repeat' first
    | with_reducible rfl
    | simp only [State.fullService_lasting, foldl_lasting, foldl_fst_lasting, foldl_snd_lasting, implies_true, Lasting.of_mk, Lasting.eta, lasting_ite, snd_ite, fst_ite, ite_self]
    | (with_reducible refine (foldl_lasting _ _ _ ?_).trans ?_)
    | (with_reducible refine (foldl_fst_lasting _ _ _ ?_).trans ?_)
    | intro _
    | split

@[simp] theorem State.mcDeadline_lasting (s : State) (n : Nat) :
    (State.mcDeadline s n).lasting = s.lasting := by
  unfold State.mcDeadline
  repeat' first
    | with_reducible rfl
    | simp only [State.fenceStack_lasting, State.fullService_lasting, State.mcReady_lasting, State.unitHung_lasting, foldl_lasting, foldl_fst_lasting, foldl_snd_lasting, implies_true, Lasting.of_mk, Lasting.eta, lasting_ite, snd_ite, fst_ite, ite_self]
    | (with_reducible refine (foldl_lasting _ _ _ ?_).trans ?_)
    | (with_reducible refine (foldl_fst_lasting _ _ _ ?_).trans ?_)
    | intro _
    | split

@[simp] theorem State.clockLost_lasting (s : State) :
    (State.clockLost s).lasting = s.lasting := by
  unfold State.clockLost
  repeat' first
    | with_reducible rfl
    | simp only [State.statusChanged_lasting, foldl_lasting, foldl_fst_lasting, foldl_snd_lasting, implies_true, Lasting.of_mk, Lasting.eta, lasting_ite, snd_ite, fst_ite, ite_self]
    | (with_reducible refine (foldl_lasting _ _ _ ?_).trans ?_)
    | (with_reducible refine (foldl_fst_lasting _ _ _ ?_).trans ?_)
    | intro _
    | split

@[simp] theorem State.fuseSupplyLost_lasting (s : State) :
    (State.fuseSupplyLost s).lasting = s.lasting := by
  unfold State.fuseSupplyLost
  repeat' first
    | with_reducible rfl
    | simp only [foldl_lasting, foldl_fst_lasting, foldl_snd_lasting, implies_true, Lasting.of_mk, Lasting.eta, lasting_ite, snd_ite, fst_ite, ite_self]
    | (with_reducible refine (foldl_lasting _ _ _ ?_).trans ?_)
    | (with_reducible refine (foldl_fst_lasting _ _ _ ?_).trans ?_)
    | intro _
    | split

/-- hand -/
@[simp] theorem State.tapInstruction_lasting (s : State) (i : TapInstr) :
    (State.tapInstruction s i).lasting = { s.lasting with fuses := (State.tapInstruction s i).fuses } := by
  unfold State.tapInstruction State.programRows
  cases i
  case program rows => dsimp only; split <;> rfl
  all_goals rfl

@[simp] theorem State.drawSessions_lasting (s : State) :
    (State.drawSessions s).lasting = s.lasting := by
  unfold State.drawSessions
  repeat' first
    | with_reducible rfl
    | simp only [State.draw_lasting, State.modBox_lasting, foldl_lasting, foldl_fst_lasting, foldl_snd_lasting, implies_true, Lasting.of_mk, Lasting.eta, lasting_ite, snd_ite, fst_ite, ite_self]
    | (with_reducible refine (foldl_lasting _ _ _ ?_).trans ?_)
    | (with_reducible refine (foldl_fst_lasting _ _ _ ?_).trans ?_)
    | intro _
    | split

@[simp] theorem State.powerStart_lasting (s : State) :
    (State.powerStart s).lasting = s.lasting := by
  unfold State.powerStart
  repeat' first
    | with_reducible rfl
    | simp only [State.alertAsserted_lasting, State.emit_lasting, State.modPower_lasting, State.tripOn_lasting, foldl_lasting, foldl_fst_lasting, foldl_snd_lasting, implies_true, Lasting.of_mk, Lasting.eta, lasting_ite, snd_ite, fst_ite, ite_self]
    | (with_reducible refine (foldl_lasting _ _ _ ?_).trans ?_)
    | (with_reducible refine (foldl_fst_lasting _ _ _ ?_).trans ?_)
    | intro _
    | split

@[simp] theorem State.scrubOn_lasting (s : State) :
    (State.scrubOn s).lasting = s.lasting := by
  unfold State.scrubOn
  repeat' first
    | with_reducible rfl
    | simp only [State.emit_lasting, foldl_lasting, foldl_fst_lasting, foldl_snd_lasting, implies_true, Lasting.of_mk, Lasting.eta, lasting_ite, snd_ite, fst_ite, ite_self]
    | (with_reducible refine (foldl_lasting _ _ _ ?_).trans ?_)
    | (with_reducible refine (foldl_fst_lasting _ _ _ ?_).trans ?_)
    | intro _
    | split

end Machine
end Sys2Proof
end

