-- ==== Sys2Proof/Laws/LastingClock.lean ====
section
/-!
SUPPORT. Laws/LastingClock.lean: no operation of Machine/Clock.lean touches the queue, the fuse array, power, the reset or the
TAMPER_HELD latch.
-/

-- One theorem after another: side by side, each holds a thread (NOTES.md).
set_option Elab.async false

namespace Sys2Proof
namespace Machine

set_option linter.unusedSimpArgs false

@[simp] theorem State.reach_lasting (s : State) (t : Nat) :
    (State.reach s t).lasting = s.lasting := by
  unfold State.reach
  repeat' first
    | with_reducible rfl
    | simp only [foldl_lasting, foldl_fst_lasting, foldl_snd_lasting, implies_true, Lasting.of_mk, Lasting.eta, lasting_ite, snd_ite, fst_ite, ite_self]
    | (with_reducible refine (foldl_lasting _ _ _ ?_).trans ?_)
    | (with_reducible refine (foldl_fst_lasting _ _ _ ?_).trans ?_)
    | intro _
    | split

@[simp] theorem State.reachOpt_lasting (s : State) (t : Option Nat) :
    (State.reachOpt s t).lasting = s.lasting := by
  unfold State.reachOpt
  repeat' first
    | with_reducible rfl
    | simp only [State.reach_lasting, foldl_lasting, foldl_fst_lasting, foldl_snd_lasting, implies_true, Lasting.of_mk, Lasting.eta, lasting_ite, snd_ite, fst_ite, ite_self]
    | (with_reducible refine (foldl_lasting _ _ _ ?_).trans ?_)
    | (with_reducible refine (foldl_fst_lasting _ _ _ ?_).trans ?_)
    | intro _
    | split

@[simp] theorem State.handOverAll_lasting (n : Nat) (s : State) :
    (State.handOverAll n s).lasting = s.lasting := by
  induction n generalizing s with
  | zero => rfl
  | succ n ih =>
    unfold State.handOverAll
    repeat' first
      | with_reducible rfl
      | simp only [ih, State.chunkWritten_lasting, State.envDone_lasting, State.inboundDone_lasting, State.probeDone_lasting, State.zeroDone_lasting, foldl_lasting, foldl_fst_lasting, foldl_snd_lasting, implies_true, Lasting.of_mk, Lasting.eta, lasting_ite, snd_ite, fst_ite, ite_self]
      | (with_reducible refine (foldl_lasting _ _ _ ?_).trans ?_)
      | (with_reducible refine (foldl_fst_lasting _ _ _ ?_).trans ?_)
      | intro _
      | split

@[simp] theorem State.settled_lasting (s : State) :
    (State.settled s).lasting = s.lasting := by
  unfold State.settled
  repeat' first
    | with_reducible rfl
    | simp only [State.announceTrigger_lasting, State.countersSettle_lasting, State.cyclesSettle_lasting, State.fencesSettle_lasting, State.handOverAll_lasting, State.limitSettle_lasting, State.parkedSettle_lasting, State.passesRun_lasting, State.probesEnd_lasting, State.redSettle_lasting, State.sealsEnd_lasting, State.walksEnd_lasting, foldl_lasting, foldl_fst_lasting, foldl_snd_lasting, implies_true, Lasting.of_mk, Lasting.eta, lasting_ite, snd_ite, fst_ite, ite_self]
    | (with_reducible refine (foldl_lasting _ _ _ ?_).trans ?_)
    | (with_reducible refine (foldl_fst_lasting _ _ _ ?_).trans ?_)
    | intro _
    | split

end Machine
end Sys2Proof
end

