-- ==== Sys2Proof/Laws/LastingHandlers.lean ====
section
/-!
SUPPORT. Laws/LastingHandlers.lean: no handler of a letterbox command touches the queue, the fuse array, power, the reset or the
TAMPER_HELD latch.
-/

-- One theorem after another: side by side, each holds a thread (NOTES.md).
set_option Elab.async false

namespace Sys2Proof
namespace Machine

set_option linter.unusedSimpArgs false

theorem Verdict.keeps_stop (s : State) (a : Ans) : (Verdict.stop a).keeps s = True := rfl

theorem Verdict.keeps_reply (s t : State) (a : Ans) (after : State → State) :
    (Verdict.reply a t after).keeps s = (t.lasting = s.lasting ∧ ∀ u, (after u).lasting = u.lasting) := rfl

theorem Verdict.keeps_accept (s : State) (b : Bytes) (n : Option Nat) (start : Nat → State → State) (spent : State → State) :
    (Verdict.accept b n start spent).keeps s
      = ((spent s).lasting = s.lasting ∧ ∀ id u, (start id u).lasting = u.lasting) := rfl

theorem Verdict.keeps_wait (s t : State) : (Verdict.wait t).keeps s = (t.lasting = s.lasting) := rfl

theorem Verdict.keeps_behind (s : State) (o : Closable) (n : Nat) : (Verdict.behind o n).keeps s = True := rfl

theorem State.partGate_keeps {s t : State} {p : Nat} {a b : Bool} {v : Verdict} (h : s.partGate p a b = some v) :
    v.keeps t := by
  unfold State.partGate at h
  dsimp only at h
  split at h
  · cases h; exact True.intro
  · cases h
  · split at h
    · cases h
    · cases h; exact True.intro
  · split at h
    · cases h
    · cases h; exact True.intro

theorem State.attestGate_keeps {s t : State} {j : Option Job} {v : Verdict} (h : s.attestGate j = some v) : v.keeps t := by
  unfold State.attestGate at h
  split at h
  · exact State.partGate_keeps h
  · cases h

theorem State.ctxGate_keeps {s t : State} {ctx : Nat} {a b : Bool} {v : Verdict}
    (h : s.ctxGate ctx a b = .error v) :
    v.keeps t := by
  unfold State.ctxGate at h
  split at h
  · cases h; exact True.intro
  · split at h
    · cases h; exact True.intro
    · split at h
      · rename_i hg
        cases h
        exact State.partGate_keeps hg
      · cases h

theorem State.jobGate_keeps {s t : State} {n : Nat} {v : Verdict} (h : s.jobGate n = .error v) : v.keeps t := by
  unfold State.jobGate at h
  split at h
  · cases h; exact True.intro
  · split at h
    · rename_i hg
      cases h
      exact State.partGate_keeps hg
    · split at h
      · cases h
      · cases h; exact True.intro

theorem State.scopeGate_keeps {s t : State} {n : Nat} {v : Verdict} (h : s.scopeGate n = some v) : v.keeps t := by
  unfold State.scopeGate at h
  split at h
  · cases h
  · split at h
    · rename_i hg
      cases h
      exact State.jobGate_keeps hg
    · cases h

theorem State.target_keeps {s t : State} {c : Cmd} {v : Verdict} (h : s.target c = .error v) : v.keeps t := by
  unfold State.target at h
  split at h
  · split at h
    · rename_i hg
      cases h
      exact State.jobGate_keeps hg
    · split at h
      · cases h; exact True.intro
      · cases h
  · dsimp only at h
    split at h
    · cases h; exact True.intro
    · cases h

theorem hNop_keeps : hNop.keeps := by
  intro s c
  unfold hNop
  repeat' first
    | exact True.intro
    | with_reducible rfl
    | (refine And.intro ?_ (fun u => ?_))
    | simp only [Verdict.keeps_stop, Verdict.keeps_reply, Verdict.keeps_accept, Verdict.keeps_behind, Verdict.keeps_wait, id_eq, and_self, true_and, and_true, answerWith, doneWith, failWith, refuse, refuseDetail, badField, busyFor, foldl_lasting, foldl_fst_lasting, foldl_snd_lasting, implies_true, Lasting.of_mk, Lasting.eta, lasting_ite, snd_ite, fst_ite, ite_self]
    | (with_reducible refine (foldl_lasting _ _ _ ?_).trans ?_)
    | intro _
    | split

theorem hIdentify_keeps : hIdentify.keeps := by
  intro s c
  unfold hIdentify
  repeat' first
    | exact True.intro
    | with_reducible rfl
    | (refine And.intro ?_ (fun u => ?_))
    | simp only [Verdict.keeps_stop, Verdict.keeps_reply, Verdict.keeps_accept, Verdict.keeps_behind, Verdict.keeps_wait, id_eq, and_self, true_and, and_true, answerWith, doneWith, failWith, refuse, refuseDetail, badField, busyFor, foldl_lasting, foldl_fst_lasting, foldl_snd_lasting, implies_true, Lasting.of_mk, Lasting.eta, lasting_ite, snd_ite, fst_ite, ite_self]
    | (with_reducible refine (foldl_lasting _ _ _ ?_).trans ?_)
    | intro _
    | split

theorem hRenewSession_keeps : hRenewSession.keeps := by
  intro s c
  unfold hRenewSession
  repeat' first
    | exact True.intro
    | with_reducible rfl
    | (refine And.intro ?_ (fun u => ?_))
    | simp only [Verdict.keeps_stop, Verdict.keeps_reply, Verdict.keeps_accept, Verdict.keeps_behind, Verdict.keeps_wait, id_eq, and_self, true_and, and_true, answerWith, doneWith, failWith, refuse, refuseDetail, badField, busyFor, State.draw_lasting, State.modBox_lasting, foldl_lasting, foldl_fst_lasting, foldl_snd_lasting, implies_true, Lasting.of_mk, Lasting.eta, lasting_ite, snd_ite, fst_ite, ite_self]
    | (with_reducible refine (foldl_lasting _ _ _ ?_).trans ?_)
    | intro _
    | split

theorem hSubscribe_keeps : hSubscribe.keeps := by
  intro s c
  unfold hSubscribe
  repeat' first
    | exact True.intro
    | with_reducible rfl
    | (refine And.intro ?_ (fun u => ?_))
    | simp only [Verdict.keeps_stop, Verdict.keeps_reply, Verdict.keeps_accept, Verdict.keeps_behind, Verdict.keeps_wait, id_eq, and_self, true_and, and_true, answerWith, doneWith, failWith, refuse, refuseDetail, badField, busyFor, State.modBox_lasting, foldl_lasting, foldl_fst_lasting, foldl_snd_lasting, implies_true, Lasting.of_mk, Lasting.eta, lasting_ite, snd_ite, fst_ite, ite_self]
    | (with_reducible refine (foldl_lasting _ _ _ ?_).trans ?_)
    | intro _
    | split

theorem hReadDropCounts_keeps : hReadDropCounts.keeps := by
  intro s c
  unfold hReadDropCounts
  repeat' first
    | exact True.intro
    | with_reducible rfl
    | (refine And.intro ?_ (fun u => ?_))
    | simp only [Verdict.keeps_stop, Verdict.keeps_reply, Verdict.keeps_accept, Verdict.keeps_behind, Verdict.keeps_wait, id_eq, and_self, true_and, and_true, answerWith, doneWith, failWith, refuse, refuseDetail, badField, busyFor, State.modBox_lasting, foldl_lasting, foldl_fst_lasting, foldl_snd_lasting, implies_true, Lasting.of_mk, Lasting.eta, lasting_ite, snd_ite, fst_ite, ite_self]
    | (with_reducible refine (foldl_lasting _ _ _ ?_).trans ?_)
    | intro _
    | split

theorem hCancelQueued_keeps : hCancelQueued.keeps := by
  intro s c
  unfold hCancelQueued
  repeat' first
    | exact True.intro
    | with_reducible rfl
    | (refine And.intro ?_ (fun u => ?_))
    | simp only [Verdict.keeps_stop, Verdict.keeps_reply, Verdict.keeps_accept, Verdict.keeps_behind, Verdict.keeps_wait, id_eq, and_self, true_and, and_true, answerWith, doneWith, failWith, refuse, refuseDetail, badField, busyFor, State.squashHeld_lasting, foldl_lasting, foldl_fst_lasting, foldl_snd_lasting, implies_true, Lasting.of_mk, Lasting.eta, lasting_ite, snd_ite, fst_ite, ite_self]
    | (with_reducible refine (foldl_lasting _ _ _ ?_).trans ?_)
    | intro _
    | split

theorem hSetRootLink_keeps : hSetRootLink.keeps := by
  intro s c
  unfold hSetRootLink
  repeat' first
    | exact True.intro
    | with_reducible rfl
    | (refine And.intro ?_ (fun u => ?_))
    | simp only [Verdict.keeps_stop, Verdict.keeps_reply, Verdict.keeps_accept, Verdict.keeps_behind, Verdict.keeps_wait, id_eq, and_self, true_and, and_true, answerWith, doneWith, failWith, refuse, refuseDetail, badField, busyFor, State.moveRoot_lasting, foldl_lasting, foldl_fst_lasting, foldl_snd_lasting, implies_true, Lasting.of_mk, Lasting.eta, lasting_ite, snd_ite, fst_ite, ite_self]
    | (with_reducible refine (foldl_lasting _ _ _ ?_).trans ?_)
    | intro _
    | split

theorem hLifecycleStatus_keeps : hLifecycleStatus.keeps := by
  intro s c
  unfold hLifecycleStatus
  repeat' first
    | exact True.intro
    | with_reducible rfl
    | (refine And.intro ?_ (fun u => ?_))
    | simp only [Verdict.keeps_stop, Verdict.keeps_reply, Verdict.keeps_accept, Verdict.keeps_behind, Verdict.keeps_wait, id_eq, and_self, true_and, and_true, answerWith, doneWith, failWith, refuse, refuseDetail, badField, busyFor, foldl_lasting, foldl_fst_lasting, foldl_snd_lasting, implies_true, Lasting.of_mk, Lasting.eta, lasting_ite, snd_ite, fst_ite, ite_self]
    | (with_reducible refine (foldl_lasting _ _ _ ?_).trans ?_)
    | intro _
    | split

theorem hEnterTest_keeps : hEnterTest.keeps := by
  intro s c
  unfold hEnterTest
  repeat' first
    | exact True.intro
    | with_reducible rfl
    | (refine And.intro ?_ (fun u => ?_))
    | simp only [Verdict.keeps_stop, Verdict.keeps_reply, Verdict.keeps_accept, Verdict.keeps_behind, Verdict.keeps_wait, id_eq, and_self, true_and, and_true, answerWith, doneWith, failWith, refuse, refuseDetail, badField, busyFor, State.beginTransition_lasting, foldl_lasting, foldl_fst_lasting, foldl_snd_lasting, implies_true, Lasting.of_mk, Lasting.eta, lasting_ite, snd_ite, fst_ite, ite_self]
    | (with_reducible refine (foldl_lasting _ _ _ ?_).trans ?_)
    | intro _
    | split

theorem hEnrolProduction_keeps : hEnrolProduction.keeps := by
  intro s c
  unfold hEnrolProduction
  repeat' first
    | exact True.intro
    | with_reducible rfl
    | (refine And.intro ?_ (fun u => ?_))
    | simp only [Verdict.keeps_stop, Verdict.keeps_reply, Verdict.keeps_accept, Verdict.keeps_behind, Verdict.keeps_wait, id_eq, and_self, true_and, and_true, answerWith, doneWith, failWith, refuse, refuseDetail, badField, busyFor, State.calls_lasting, foldl_lasting, foldl_fst_lasting, foldl_snd_lasting, implies_true, Lasting.of_mk, Lasting.eta, lasting_ite, snd_ite, fst_ite, ite_self]
    | (with_reducible refine (foldl_lasting _ _ _ ?_).trans ?_)
    | intro _
    | split

theorem hEnterEndOfLife_keeps : hEnterEndOfLife.keeps := by
  intro s c
  unfold hEnterEndOfLife
  repeat' first
    | exact True.intro
    | with_reducible rfl
    | (refine And.intro ?_ (fun u => ?_))
    | simp only [Verdict.keeps_stop, Verdict.keeps_reply, Verdict.keeps_accept, Verdict.keeps_behind, Verdict.keeps_wait, id_eq, and_self, true_and, and_true, answerWith, doneWith, failWith, refuse, refuseDetail, badField, busyFor, State.beginTransition_lasting, foldl_lasting, foldl_fst_lasting, foldl_snd_lasting, implies_true, Lasting.of_mk, Lasting.eta, lasting_ite, snd_ite, fst_ite, ite_self]
    | (with_reducible refine (foldl_lasting _ _ _ ?_).trans ?_)
    | intro _
    | split

theorem hKeyVaultStatus_keeps : hKeyVaultStatus.keeps := by
  intro s c
  unfold hKeyVaultStatus
  repeat' first
    | exact True.intro
    | with_reducible rfl
    | (refine And.intro ?_ (fun u => ?_))
    | simp only [Verdict.keeps_stop, Verdict.keeps_reply, Verdict.keeps_accept, Verdict.keeps_behind, Verdict.keeps_wait, id_eq, and_self, true_and, and_true, answerWith, doneWith, failWith, refuse, refuseDetail, badField, busyFor, foldl_lasting, foldl_fst_lasting, foldl_snd_lasting, implies_true, Lasting.of_mk, Lasting.eta, lasting_ite, snd_ite, fst_ite, ite_self]
    | (with_reducible refine (foldl_lasting _ _ _ ?_).trans ?_)
    | intro _
    | split

theorem hDigestStatus_keeps : hDigestStatus.keeps := by
  intro s c
  unfold hDigestStatus
  repeat' first
    | exact True.intro
    | with_reducible rfl
    | (refine And.intro ?_ (fun u => ?_))
    | simp only [Verdict.keeps_stop, Verdict.keeps_reply, Verdict.keeps_accept, Verdict.keeps_behind, Verdict.keeps_wait, id_eq, and_self, true_and, and_true, answerWith, doneWith, failWith, refuse, refuseDetail, badField, busyFor, foldl_lasting, foldl_fst_lasting, foldl_snd_lasting, implies_true, Lasting.of_mk, Lasting.eta, lasting_ite, snd_ite, fst_ite, ite_self]
    | (with_reducible refine (foldl_lasting _ _ _ ?_).trans ?_)
    | intro _
    | split

theorem hAttest_keeps : hAttest.keeps := by
  intro s c
  unfold hAttest
  repeat' first
    | exact True.intro
    | with_reducible rfl
    | (rename_i hgate; exact State.attestGate_keeps hgate)
    | (refine And.intro ?_ (fun u => ?_))
    | simp only [Verdict.keeps_stop, Verdict.keeps_reply, Verdict.keeps_accept, Verdict.keeps_behind, Verdict.keeps_wait, id_eq, and_self, true_and, and_true, answerWith, doneWith, failWith, refuse, refuseDetail, badField, busyFor, State.calls_lasting, foldl_lasting, foldl_fst_lasting, foldl_snd_lasting, implies_true, Lasting.of_mk, Lasting.eta, lasting_ite, snd_ite, fst_ite, ite_self]
    | (with_reducible refine (foldl_lasting _ _ _ ?_).trans ?_)
    | intro _
    | split

theorem hReadMeasurements_keeps : hReadMeasurements.keeps := by
  intro s c
  unfold hReadMeasurements
  repeat' first
    | exact True.intro
    | with_reducible rfl
    | (refine And.intro ?_ (fun u => ?_))
    | simp only [Verdict.keeps_stop, Verdict.keeps_reply, Verdict.keeps_accept, Verdict.keeps_behind, Verdict.keeps_wait, id_eq, and_self, true_and, and_true, answerWith, doneWith, failWith, refuse, refuseDetail, badField, busyFor, foldl_lasting, foldl_fst_lasting, foldl_snd_lasting, implies_true, Lasting.of_mk, Lasting.eta, lasting_ite, snd_ite, fst_ite, ite_self]
    | (with_reducible refine (foldl_lasting _ _ _ ?_).trans ?_)
    | intro _
    | split

theorem hNonce_keeps : hNonce.keeps := by
  intro s c
  unfold hNonce
  repeat' first
    | exact True.intro
    | with_reducible rfl
    | (refine And.intro ?_ (fun u => ?_))
    | simp only [Verdict.keeps_stop, Verdict.keeps_reply, Verdict.keeps_accept, Verdict.keeps_behind, Verdict.keeps_wait, id_eq, and_self, true_and, and_true, answerWith, doneWith, failWith, refuse, refuseDetail, badField, busyFor, State.issueNonce_lasting, foldl_lasting, foldl_fst_lasting, foldl_snd_lasting, implies_true, Lasting.of_mk, Lasting.eta, lasting_ite, snd_ite, fst_ite, ite_self]
    | (with_reducible refine (foldl_lasting _ _ _ ?_).trans ?_)
    | intro _
    | split

theorem hPresentPermit_keeps : hPresentPermit.keeps := by
  intro s c
  exact And.intro (State.presentPermit_lasting ..) (fun _ => rfl)

theorem hClosePermit_keeps : hClosePermit.keeps := by
  intro s c
  unfold hClosePermit
  repeat' first
    | exact True.intro
    | with_reducible rfl
    | (refine And.intro ?_ (fun u => ?_))
    | simp only [Verdict.keeps_stop, Verdict.keeps_reply, Verdict.keeps_accept, Verdict.keeps_behind, Verdict.keeps_wait, id_eq, and_self, true_and, and_true, answerWith, doneWith, failWith, refuse, refuseDetail, badField, busyFor, State.closePermit_lasting, State.expirePermit_lasting, foldl_lasting, foldl_fst_lasting, foldl_snd_lasting, implies_true, Lasting.of_mk, Lasting.eta, lasting_ite, snd_ite, fst_ite, ite_self]
    | (with_reducible refine (foldl_lasting _ _ _ ?_).trans ?_)
    | intro _
    | split

theorem hPermitStatus_keeps : hPermitStatus.keeps := by
  intro s c
  unfold hPermitStatus
  repeat' first
    | exact True.intro
    | with_reducible rfl
    | (refine And.intro ?_ (fun u => ?_))
    | simp only [Verdict.keeps_stop, Verdict.keeps_reply, Verdict.keeps_accept, Verdict.keeps_behind, Verdict.keeps_wait, id_eq, and_self, true_and, and_true, answerWith, doneWith, failWith, refuse, refuseDetail, badField, busyFor, foldl_lasting, foldl_fst_lasting, foldl_snd_lasting, implies_true, Lasting.of_mk, Lasting.eta, lasting_ite, snd_ite, fst_ite, ite_self]
    | (with_reducible refine (foldl_lasting _ _ _ ?_).trans ?_)
    | intro _
    | split

theorem hCreatePartition_keeps : hCreatePartition.keeps := by
  intro s c
  unfold hCreatePartition
  repeat' first
    | exact True.intro
    | with_reducible rfl
    | (refine And.intro ?_ (fun u => ?_))
    | simp only [Verdict.keeps_stop, Verdict.keeps_reply, Verdict.keeps_accept, Verdict.keeps_behind, Verdict.keeps_wait, id_eq, and_self, true_and, and_true, answerWith, doneWith, failWith, refuse, refuseDetail, badField, busyFor, State.free_lasting, State.modPart_lasting, State.testEnable_lasting, foldl_lasting, foldl_fst_lasting, foldl_snd_lasting, implies_true, Lasting.of_mk, Lasting.eta, lasting_ite, snd_ite, fst_ite, ite_self]
    | (with_reducible refine (foldl_lasting _ _ _ ?_).trans ?_)
    | intro _
    | split

theorem hDestroyPartition_keeps : hDestroyPartition.keeps := by
  intro s c
  unfold hDestroyPartition
  repeat' first
    | exact True.intro
    | with_reducible rfl
    | (rename_i hgate; exact State.partGate_keeps hgate)
    | (refine And.intro ?_ (fun u => ?_))
    | simp only [Verdict.keeps_stop, Verdict.keeps_reply, Verdict.keeps_accept, Verdict.keeps_behind, Verdict.keeps_wait, id_eq, and_self, true_and, and_true, answerWith, doneWith, failWith, refuse, refuseDetail, badField, busyFor, State.modPart_lasting, State.testEnable_lasting, foldl_lasting, foldl_fst_lasting, foldl_snd_lasting, implies_true, Lasting.of_mk, Lasting.eta, lasting_ite, snd_ite, fst_ite, ite_self]
    | (with_reducible refine (foldl_lasting _ _ _ ?_).trans ?_)
    | intro _
    | split

theorem hPartitionStatus_keeps : hPartitionStatus.keeps := by
  intro s c
  unfold hPartitionStatus
  repeat' first
    | exact True.intro
    | with_reducible rfl
    | (refine And.intro ?_ (fun u => ?_))
    | simp only [Verdict.keeps_stop, Verdict.keeps_reply, Verdict.keeps_accept, Verdict.keeps_behind, Verdict.keeps_wait, id_eq, and_self, true_and, and_true, answerWith, doneWith, failWith, refuse, refuseDetail, badField, busyFor, foldl_lasting, foldl_fst_lasting, foldl_snd_lasting, implies_true, Lasting.of_mk, Lasting.eta, lasting_ite, snd_ite, fst_ite, ite_self]
    | (with_reducible refine (foldl_lasting _ _ _ ?_).trans ?_)
    | intro _
    | split

theorem hAdmitJob_keeps : hAdmitJob.keeps := by
  intro s c
  have hgo : ∀ (t : State) (b : Bytes) (d : Key) (n : Nat),
      ((t.calls n false).openToken b d).2.lasting = t.lasting := by
    intro t b d n
    rw [State.openToken_lasting, State.calls_lasting]
  unfold hAdmitJob
  dsimp only
  split
  · exact True.intro
  · split
    · exact True.intro
    · split
      · exact True.intro
      · split
        · exact True.intro
        · split
          · rename_i ht
            refine And.intro ?_ (fun _ => rfl)
            rw [← hgo s, ht]
          · rename_i ht
            have h2 := hgo s (c.bytes 0 128) (labelled "MANIFEST" (List.drop 128 c.p.body))
              (shakeCalls (8 + (List.drop 128 c.p.body).length))
            rw [ht] at h2
            split
            · exact And.intro h2 (fun _ => rfl)
            · exact And.intro h2 (fun _ => rfl)
            · exact And.intro (hgo ..) (fun id u => by rw [State.endSweep_lasting, State.createJob_lasting])

theorem hJobStatus_keeps : hJobStatus.keeps := by
  intro s c
  unfold hJobStatus
  repeat' first
    | exact True.intro
    | with_reducible rfl
    | (rename_i hgate; exact State.partGate_keeps hgate)
    | (refine And.intro ?_ (fun u => ?_))
    | simp only [Verdict.keeps_stop, Verdict.keeps_reply, Verdict.keeps_accept, Verdict.keeps_behind, Verdict.keeps_wait, id_eq, and_self, true_and, and_true, answerWith, doneWith, failWith, refuse, refuseDetail, badField, busyFor, foldl_lasting, foldl_fst_lasting, foldl_snd_lasting, implies_true, Lasting.of_mk, Lasting.eta, lasting_ite, snd_ite, fst_ite, ite_self]
    | (with_reducible refine (foldl_lasting _ _ _ ?_).trans ?_)
    | intro _
    | split

theorem hResizePartition_keeps : hResizePartition.keeps := by
  intro s c
  unfold hResizePartition
  repeat' first
    | exact True.intro
    | with_reducible rfl
    | (rename_i hgate; exact State.partGate_keeps hgate)
    | (refine And.intro ?_ (fun u => ?_))
    | simp only [Verdict.keeps_stop, Verdict.keeps_reply, Verdict.keeps_accept, Verdict.keeps_behind, Verdict.keeps_wait, id_eq, and_self, true_and, and_true, answerWith, doneWith, failWith, refuse, refuseDetail, badField, busyFor, State.modPart_lasting, foldl_lasting, foldl_fst_lasting, foldl_snd_lasting, implies_true, Lasting.of_mk, Lasting.eta, lasting_ite, snd_ite, fst_ite, ite_self]
    | (with_reducible refine (foldl_lasting _ _ _ ?_).trans ?_)
    | intro _
    | split

theorem hOpenContext_keeps : hOpenContext.keeps := by
  intro s c
  unfold hOpenContext
  repeat' first
    | exact True.intro
    | with_reducible rfl
    | (rename_i hgate; exact State.ctxGate_keeps hgate)
    | (refine And.intro ?_ (fun u => ?_))
    | simp only [Verdict.keeps_stop, Verdict.keeps_reply, Verdict.keeps_accept, Verdict.keeps_behind, Verdict.keeps_wait, id_eq, and_self, true_and, and_true, answerWith, doneWith, failWith, refuse, refuseDetail, badField, busyFor, State.draw_lasting, State.free_lasting, State.modCtx_lasting, State.opened_lasting, foldl_lasting, foldl_fst_lasting, foldl_snd_lasting, implies_true, Lasting.of_mk, Lasting.eta, lasting_ite, snd_ite, fst_ite, ite_self]
    | (with_reducible refine (foldl_lasting _ _ _ ?_).trans ?_)
    | intro _
    | split

theorem hContextStatus_keeps : hContextStatus.keeps := by
  intro s c
  unfold hContextStatus
  repeat' first
    | exact True.intro
    | with_reducible rfl
    | (rename_i hgate; exact State.ctxGate_keeps hgate)
    | (refine And.intro ?_ (fun u => ?_))
    | simp only [Verdict.keeps_stop, Verdict.keeps_reply, Verdict.keeps_accept, Verdict.keeps_behind, Verdict.keeps_wait, id_eq, and_self, true_and, and_true, answerWith, doneWith, failWith, refuse, refuseDetail, badField, busyFor, foldl_lasting, foldl_fst_lasting, foldl_snd_lasting, implies_true, Lasting.of_mk, Lasting.eta, lasting_ite, snd_ite, fst_ite, ite_self]
    | (with_reducible refine (foldl_lasting _ _ _ ?_).trans ?_)
    | intro _
    | split

theorem hMasterStatus_keeps : hMasterStatus.keeps := by
  intro s c
  unfold hMasterStatus
  repeat' first
    | exact True.intro
    | with_reducible rfl
    | (rename_i hgate; exact State.jobGate_keeps hgate)
    | (refine And.intro ?_ (fun u => ?_))
    | simp only [Verdict.keeps_stop, Verdict.keeps_reply, Verdict.keeps_accept, Verdict.keeps_behind, Verdict.keeps_wait, id_eq, and_self, true_and, and_true, answerWith, doneWith, failWith, refuse, refuseDetail, badField, busyFor, foldl_lasting, foldl_fst_lasting, foldl_snd_lasting, implies_true, Lasting.of_mk, Lasting.eta, lasting_ite, snd_ite, fst_ite, ite_self]
    | (with_reducible refine (foldl_lasting _ _ _ ?_).trans ?_)
    | intro _
    | split

theorem hInternalStatus_keeps : hInternalStatus.keeps := by
  intro s c
  unfold hInternalStatus
  repeat' first
    | exact True.intro
    | with_reducible rfl
    | (refine And.intro ?_ (fun u => ?_))
    | simp only [Verdict.keeps_stop, Verdict.keeps_reply, Verdict.keeps_accept, Verdict.keeps_behind, Verdict.keeps_wait, id_eq, and_self, true_and, and_true, answerWith, doneWith, failWith, refuse, refuseDetail, badField, busyFor, foldl_lasting, foldl_fst_lasting, foldl_snd_lasting, implies_true, Lasting.of_mk, Lasting.eta, lasting_ite, snd_ite, fst_ite, ite_self]
    | (with_reducible refine (foldl_lasting _ _ _ ?_).trans ?_)
    | intro _
    | split

theorem hRegulationCounts_keeps : hRegulationCounts.keeps := by
  intro s c
  unfold hRegulationCounts
  repeat' first
    | exact True.intro
    | with_reducible rfl
    | (refine And.intro ?_ (fun u => ?_))
    | simp only [Verdict.keeps_stop, Verdict.keeps_reply, Verdict.keeps_accept, Verdict.keeps_behind, Verdict.keeps_wait, id_eq, and_self, true_and, and_true, answerWith, doneWith, failWith, refuse, refuseDetail, badField, busyFor, foldl_lasting, foldl_fst_lasting, foldl_snd_lasting, implies_true, Lasting.of_mk, Lasting.eta, lasting_ite, snd_ite, fst_ite, ite_self]
    | (with_reducible refine (foldl_lasting _ _ _ ?_).trans ?_)
    | intro _
    | split

theorem hRegionStatus_keeps : hRegionStatus.keeps := by
  intro s c
  unfold hRegionStatus
  repeat' first
    | exact True.intro
    | with_reducible rfl
    | (refine And.intro ?_ (fun u => ?_))
    | simp only [Verdict.keeps_stop, Verdict.keeps_reply, Verdict.keeps_accept, Verdict.keeps_behind, Verdict.keeps_wait, id_eq, and_self, true_and, and_true, answerWith, doneWith, failWith, refuse, refuseDetail, badField, busyFor, State.free_lasting, foldl_lasting, foldl_fst_lasting, foldl_snd_lasting, implies_true, Lasting.of_mk, Lasting.eta, lasting_ite, snd_ite, fst_ite, ite_self]
    | (with_reducible refine (foldl_lasting _ _ _ ?_).trans ?_)
    | intro _
    | split

theorem hSealRegion_keeps : hSealRegion.keeps := by
  intro s c
  unfold hSealRegion
  repeat' first
    | exact True.intro
    | with_reducible rfl
    | (refine And.intro ?_ (fun u => ?_))
    | simp only [Verdict.keeps_stop, Verdict.keeps_reply, Verdict.keeps_accept, Verdict.keeps_behind, Verdict.keeps_wait, id_eq, and_self, true_and, and_true, answerWith, doneWith, failWith, refuse, refuseDetail, badField, busyFor, State.flushWhere_lasting, State.modRegion_lasting, State.sealOp_lasting, foldl_lasting, foldl_fst_lasting, foldl_snd_lasting, implies_true, Lasting.of_mk, Lasting.eta, lasting_ite, snd_ite, fst_ite, ite_self]
    | (with_reducible refine (foldl_lasting _ _ _ ?_).trans ?_)
    | intro _
    | split

theorem hSetWcWindow_keeps : hSetWcWindow.keeps := by
  intro s c
  unfold hSetWcWindow
  repeat' first
    | exact True.intro
    | with_reducible rfl
    | (refine And.intro ?_ (fun u => ?_))
    | simp only [Verdict.keeps_stop, Verdict.keeps_reply, Verdict.keeps_accept, Verdict.keeps_behind, Verdict.keeps_wait, id_eq, and_self, true_and, and_true, answerWith, doneWith, failWith, refuse, refuseDetail, badField, busyFor, State.flushWhere_lasting, State.free_lasting, State.modRegion_lasting, State.opened_lasting, foldl_lasting, foldl_fst_lasting, foldl_snd_lasting, implies_true, Lasting.of_mk, Lasting.eta, lasting_ite, snd_ite, fst_ite, ite_self]
    | (with_reducible refine (foldl_lasting _ _ _ ?_).trans ?_)
    | intro _
    | split

theorem hZeroSectors_keeps : hZeroSectors.keeps := by
  intro s c
  unfold hZeroSectors
  repeat' first
    | exact True.intro
    | with_reducible rfl
    | (refine And.intro ?_ (fun u => ?_))
    | simp only [Verdict.keeps_stop, Verdict.keeps_reply, Verdict.keeps_accept, Verdict.keeps_behind, Verdict.keeps_wait, id_eq, and_self, true_and, and_true, answerWith, doneWith, failWith, refuse, refuseDetail, badField, busyFor, State.readEntry_lasting, State.written_lasting, State.zeroNext_lasting, foldl_lasting, foldl_fst_lasting, foldl_snd_lasting, implies_true, Lasting.of_mk, Lasting.eta, lasting_ite, snd_ite, fst_ite, ite_self]
    | (with_reducible refine (foldl_lasting _ _ _ ?_).trans ?_)
    | intro _
    | split

theorem hRetireKeyIndex_keeps : hRetireKeyIndex.keeps := by
  intro s c
  unfold hRetireKeyIndex
  repeat' first
    | exact True.intro
    | with_reducible rfl
    | (rename_i hgate; exact State.jobGate_keeps hgate)
    | (refine And.intro ?_ (fun u => ?_))
    | simp only [Verdict.keeps_stop, Verdict.keeps_reply, Verdict.keeps_accept, Verdict.keeps_behind, Verdict.keeps_wait, id_eq, and_self, true_and, and_true, answerWith, doneWith, failWith, refuse, refuseDetail, badField, busyFor, State.retireStart_lasting, foldl_lasting, foldl_fst_lasting, foldl_snd_lasting, implies_true, Lasting.of_mk, Lasting.eta, lasting_ite, snd_ite, fst_ite, ite_self]
    | (with_reducible refine (foldl_lasting _ _ _ ?_).trans ?_)
    | intro _
    | split

theorem hKeyIndexStatus_keeps : hKeyIndexStatus.keeps := by
  intro s c
  unfold hKeyIndexStatus
  repeat' first
    | exact True.intro
    | with_reducible rfl
    | (rename_i hgate; exact State.jobGate_keeps hgate)
    | (refine And.intro ?_ (fun u => ?_))
    | simp only [Verdict.keeps_stop, Verdict.keeps_reply, Verdict.keeps_accept, Verdict.keeps_behind, Verdict.keeps_wait, id_eq, and_self, true_and, and_true, answerWith, doneWith, failWith, refuse, refuseDetail, badField, busyFor, State.readEntry_lasting, foldl_lasting, foldl_fst_lasting, foldl_snd_lasting, implies_true, Lasting.of_mk, Lasting.eta, lasting_ite, snd_ite, fst_ite, ite_self]
    | (with_reducible refine (foldl_lasting _ _ _ ?_).trans ?_)
    | intro _
    | split

theorem hSectorCounts_keeps : hSectorCounts.keeps := by
  intro s c
  unfold hSectorCounts
  repeat' first
    | exact True.intro
    | with_reducible rfl
    | (refine And.intro ?_ (fun u => ?_))
    | simp only [Verdict.keeps_stop, Verdict.keeps_reply, Verdict.keeps_accept, Verdict.keeps_behind, Verdict.keeps_wait, id_eq, and_self, true_and, and_true, answerWith, doneWith, failWith, refuse, refuseDetail, badField, busyFor, foldl_lasting, foldl_fst_lasting, foldl_snd_lasting, implies_true, Lasting.of_mk, Lasting.eta, lasting_ite, snd_ite, fst_ite, ite_self]
    | (with_reducible refine (foldl_lasting _ _ _ ?_).trans ?_)
    | intro _
    | split

theorem hTreeStatus_keeps : hTreeStatus.keeps := by
  intro s c
  unfold hTreeStatus
  repeat' first
    | exact True.intro
    | with_reducible rfl
    | (rename_i hgate; exact State.target_keeps hgate)
    | (refine And.intro ?_ (fun u => ?_))
    | simp only [Verdict.keeps_stop, Verdict.keeps_reply, Verdict.keeps_accept, Verdict.keeps_behind, Verdict.keeps_wait, id_eq, and_self, true_and, and_true, answerWith, doneWith, failWith, refuse, refuseDetail, badField, busyFor, foldl_lasting, foldl_fst_lasting, foldl_snd_lasting, implies_true, Lasting.of_mk, Lasting.eta, lasting_ite, snd_ite, fst_ite, ite_self]
    | (with_reducible refine (foldl_lasting _ _ _ ?_).trans ?_)
    | intro _
    | split

theorem hResetSubtree_keeps : hResetSubtree.keeps := by
  intro s c
  unfold hResetSubtree
  repeat' first
    | exact True.intro
    | with_reducible rfl
    | (rename_i hgate; exact State.target_keeps hgate)
    | (refine And.intro ?_ (fun u => ?_))
    | simp only [Verdict.keeps_stop, Verdict.keeps_reply, Verdict.keeps_accept, Verdict.keeps_behind, Verdict.keeps_wait, id_eq, and_self, true_and, and_true, answerWith, doneWith, failWith, refuse, refuseDetail, badField, busyFor, State.resetSubtree_lasting, foldl_lasting, foldl_fst_lasting, foldl_snd_lasting, implies_true, Lasting.of_mk, Lasting.eta, lasting_ite, snd_ite, fst_ite, ite_self]
    | (with_reducible refine (foldl_lasting _ _ _ ?_).trans ?_)
    | intro _
    | split

theorem hStartCourier_keeps : hStartCourier.keeps := by
  intro s c
  unfold hStartCourier
  repeat' first
    | exact True.intro
    | with_reducible rfl
    | (rename_i hgate; exact State.jobGate_keeps hgate)
    | (refine And.intro ?_ (fun u => ?_))
    | simp only [Verdict.keeps_stop, Verdict.keeps_reply, Verdict.keeps_accept, Verdict.keeps_behind, Verdict.keeps_wait, id_eq, and_self, true_and, and_true, answerWith, doneWith, failWith, refuse, refuseDetail, badField, busyFor, foldl_lasting, foldl_fst_lasting, foldl_snd_lasting, implies_true, Lasting.of_mk, Lasting.eta, lasting_ite, snd_ite, fst_ite, ite_self]
    | (with_reducible refine (foldl_lasting _ _ _ ?_).trans ?_)
    | intro _
    | split

theorem hCourierStatus_keeps : hCourierStatus.keeps := by
  intro s c
  unfold hCourierStatus
  repeat' first
    | exact True.intro
    | with_reducible rfl
    | (rename_i hgate; exact State.jobGate_keeps hgate)
    | (refine And.intro ?_ (fun u => ?_))
    | simp only [Verdict.keeps_stop, Verdict.keeps_reply, Verdict.keeps_accept, Verdict.keeps_behind, Verdict.keeps_wait, id_eq, and_self, true_and, and_true, answerWith, doneWith, failWith, refuse, refuseDetail, badField, busyFor, foldl_lasting, foldl_fst_lasting, foldl_snd_lasting, implies_true, Lasting.of_mk, Lasting.eta, lasting_ite, snd_ite, fst_ite, ite_self]
    | (with_reducible refine (foldl_lasting _ _ _ ?_).trans ?_)
    | intro _
    | split

theorem hResumeRegion_keeps : hResumeRegion.keeps := by
  intro s c
  unfold hResumeRegion
  repeat' first
    | exact True.intro
    | with_reducible rfl
    | (refine And.intro ?_ (fun u => ?_))
    | simp only [Verdict.keeps_stop, Verdict.keeps_reply, Verdict.keeps_accept, Verdict.keeps_behind, Verdict.keeps_wait, id_eq, and_self, true_and, and_true, answerWith, doneWith, failWith, refuse, refuseDetail, badField, busyFor, State.resumeStart_lasting, foldl_lasting, foldl_fst_lasting, foldl_snd_lasting, implies_true, Lasting.of_mk, Lasting.eta, lasting_ite, snd_ite, fst_ite, ite_self]
    | (with_reducible refine (foldl_lasting _ _ _ ?_).trans ?_)
    | intro _
    | split

theorem hTreeCounts_keeps : hTreeCounts.keeps := by
  intro s c
  unfold hTreeCounts
  repeat' first
    | exact True.intro
    | with_reducible rfl
    | (refine And.intro ?_ (fun u => ?_))
    | simp only [Verdict.keeps_stop, Verdict.keeps_reply, Verdict.keeps_accept, Verdict.keeps_behind, Verdict.keeps_wait, id_eq, and_self, true_and, and_true, answerWith, doneWith, failWith, refuse, refuseDetail, badField, busyFor, foldl_lasting, foldl_fst_lasting, foldl_snd_lasting, implies_true, Lasting.of_mk, Lasting.eta, lasting_ite, snd_ite, fst_ite, ite_self]
    | (with_reducible refine (foldl_lasting _ _ _ ?_).trans ?_)
    | intro _
    | split

theorem hAssocStatus_keeps : hAssocStatus.keeps := by
  intro s c
  unfold hAssocStatus
  repeat' first
    | exact True.intro
    | with_reducible rfl
    | (rename_i hgate; exact State.jobGate_keeps hgate)
    | (refine And.intro ?_ (fun u => ?_))
    | simp only [Verdict.keeps_stop, Verdict.keeps_reply, Verdict.keeps_accept, Verdict.keeps_behind, Verdict.keeps_wait, id_eq, and_self, true_and, and_true, answerWith, doneWith, failWith, refuse, refuseDetail, badField, busyFor, foldl_lasting, foldl_fst_lasting, foldl_snd_lasting, implies_true, Lasting.of_mk, Lasting.eta, lasting_ite, snd_ite, fst_ite, ite_self]
    | (with_reducible refine (foldl_lasting _ _ _ ?_).trans ?_)
    | intro _
    | split

theorem hEvictAssoc_keeps : hEvictAssoc.keeps := by
  intro s c
  unfold hEvictAssoc
  repeat' first
    | exact True.intro
    | with_reducible rfl
    | (rename_i hgate; exact State.jobGate_keeps hgate)
    | (refine And.intro ?_ (fun u => ?_))
    | simp only [Verdict.keeps_stop, Verdict.keeps_reply, Verdict.keeps_accept, Verdict.keeps_behind, Verdict.keeps_wait, id_eq, and_self, true_and, and_true, answerWith, doneWith, failWith, refuse, refuseDetail, badField, busyFor, State.beginClose_lasting, foldl_lasting, foldl_fst_lasting, foldl_snd_lasting, implies_true, Lasting.of_mk, Lasting.eta, lasting_ite, snd_ite, fst_ite, ite_self]
    | (with_reducible refine (foldl_lasting _ _ _ ?_).trans ?_)
    | intro _
    | split

theorem hRatchetNow_keeps : hRatchetNow.keeps := by
  intro s c
  unfold hRatchetNow
  repeat' first
    | exact True.intro
    | with_reducible rfl
    | (rename_i hgate; exact State.jobGate_keeps hgate)
    | (refine And.intro ?_ (fun u => ?_))
    | simp only [Verdict.keeps_stop, Verdict.keeps_reply, Verdict.keeps_accept, Verdict.keeps_behind, Verdict.keeps_wait, id_eq, and_self, true_and, and_true, answerWith, doneWith, failWith, refuse, refuseDetail, badField, busyFor, State.modAssoc_lasting, State.opened_lasting, State.ratchetTrigger_lasting, foldl_lasting, foldl_fst_lasting, foldl_snd_lasting, implies_true, Lasting.of_mk, Lasting.eta, lasting_ite, snd_ite, fst_ite, ite_self]
    | (with_reducible refine (foldl_lasting _ _ _ ?_).trans ?_)
    | intro _
    | split

theorem hRevokePeer_keeps : hRevokePeer.keeps := by
  intro s c
  unfold hRevokePeer
  repeat' first
    | exact True.intro
    | with_reducible rfl
    | (refine And.intro ?_ (fun u => ?_))
    | simp only [Verdict.keeps_stop, Verdict.keeps_reply, Verdict.keeps_accept, Verdict.keeps_behind, Verdict.keeps_wait, id_eq, and_self, true_and, and_true, answerWith, doneWith, failWith, refuse, refuseDetail, badField, busyFor, State.revoke_lasting, foldl_lasting, foldl_fst_lasting, foldl_snd_lasting, implies_true, Lasting.of_mk, Lasting.eta, lasting_ite, snd_ite, fst_ite, ite_self]
    | (with_reducible refine (foldl_lasting _ _ _ ?_).trans ?_)
    | intro _
    | split

theorem hRestorePeer_keeps : hRestorePeer.keeps := by
  intro s c
  unfold hRestorePeer
  repeat' first
    | exact True.intro
    | with_reducible rfl
    | (refine And.intro ?_ (fun u => ?_))
    | simp only [Verdict.keeps_stop, Verdict.keeps_reply, Verdict.keeps_accept, Verdict.keeps_behind, Verdict.keeps_wait, id_eq, and_self, true_and, and_true, answerWith, doneWith, failWith, refuse, refuseDetail, badField, busyFor, State.modAssocs_lasting, foldl_lasting, foldl_fst_lasting, foldl_snd_lasting, implies_true, Lasting.of_mk, Lasting.eta, lasting_ite, snd_ite, fst_ite, ite_self]
    | (with_reducible refine (foldl_lasting _ _ _ ?_).trans ?_)
    | intro _
    | split

theorem hAssocCounts_keeps : hAssocCounts.keeps := by
  intro s c
  unfold hAssocCounts
  repeat' first
    | exact True.intro
    | with_reducible rfl
    | (refine And.intro ?_ (fun u => ?_))
    | simp only [Verdict.keeps_stop, Verdict.keeps_reply, Verdict.keeps_accept, Verdict.keeps_behind, Verdict.keeps_wait, id_eq, and_self, true_and, and_true, answerWith, doneWith, failWith, refuse, refuseDetail, badField, busyFor, foldl_lasting, foldl_fst_lasting, foldl_snd_lasting, implies_true, Lasting.of_mk, Lasting.eta, lasting_ite, snd_ite, fst_ite, ite_self]
    | (with_reducible refine (foldl_lasting _ _ _ ?_).trans ?_)
    | intro _
    | split

theorem hSetNodeNumber_keeps : hSetNodeNumber.keeps := by
  intro s c
  unfold hSetNodeNumber
  repeat' first
    | exact True.intro
    | with_reducible rfl
    | (refine And.intro ?_ (fun u => ?_))
    | simp only [Verdict.keeps_stop, Verdict.keeps_reply, Verdict.keeps_accept, Verdict.keeps_behind, Verdict.keeps_wait, id_eq, and_self, true_and, and_true, answerWith, doneWith, failWith, refuse, refuseDetail, badField, busyFor, State.numbered_lasting, foldl_lasting, foldl_fst_lasting, foldl_snd_lasting, implies_true, Lasting.of_mk, Lasting.eta, lasting_ite, snd_ite, fst_ite, ite_self]
    | (with_reducible refine (foldl_lasting _ _ _ ?_).trans ?_)
    | intro _
    | split

theorem hSetRoute_keeps : hSetRoute.keeps := by
  intro s c
  unfold hSetRoute
  repeat' first
    | exact True.intro
    | with_reducible rfl
    | (refine And.intro ?_ (fun u => ?_))
    | simp only [Verdict.keeps_stop, Verdict.keeps_reply, Verdict.keeps_accept, Verdict.keeps_behind, Verdict.keeps_wait, id_eq, and_self, true_and, and_true, answerWith, doneWith, failWith, refuse, refuseDetail, badField, busyFor, State.setRoute_lasting, foldl_lasting, foldl_fst_lasting, foldl_snd_lasting, implies_true, Lasting.of_mk, Lasting.eta, lasting_ite, snd_ite, fst_ite, ite_self]
    | (with_reducible refine (foldl_lasting _ _ _ ?_).trans ?_)
    | intro _
    | split

theorem hRouteStatus_keeps : hRouteStatus.keeps := by
  intro s c
  unfold hRouteStatus
  repeat' first
    | exact True.intro
    | with_reducible rfl
    | (refine And.intro ?_ (fun u => ?_))
    | simp only [Verdict.keeps_stop, Verdict.keeps_reply, Verdict.keeps_accept, Verdict.keeps_behind, Verdict.keeps_wait, id_eq, and_self, true_and, and_true, answerWith, doneWith, failWith, refuse, refuseDetail, badField, busyFor, foldl_lasting, foldl_fst_lasting, foldl_snd_lasting, implies_true, Lasting.of_mk, Lasting.eta, lasting_ite, snd_ite, fst_ite, ite_self]
    | (with_reducible refine (foldl_lasting _ _ _ ?_).trans ?_)
    | intro _
    | split

theorem hOpenWindow_keeps : hOpenWindow.keeps := by
  intro s c
  unfold hOpenWindow
  repeat' first
    | exact True.intro
    | with_reducible rfl
    | (rename_i hgate; exact State.jobGate_keeps hgate)
    | (refine And.intro ?_ (fun u => ?_))
    | simp only [Verdict.keeps_stop, Verdict.keeps_reply, Verdict.keeps_accept, Verdict.keeps_behind, Verdict.keeps_wait, id_eq, and_self, true_and, and_true, answerWith, doneWith, failWith, refuse, refuseDetail, badField, busyFor, State.free_lasting, State.modRemote_lasting, State.opened_lasting, foldl_lasting, foldl_fst_lasting, foldl_snd_lasting, implies_true, Lasting.of_mk, Lasting.eta, lasting_ite, snd_ite, fst_ite, ite_self]
    | (with_reducible refine (foldl_lasting _ _ _ ?_).trans ?_)
    | intro _
    | split

theorem hCloseWindow_keeps : hCloseWindow.keeps := by
  intro s c
  unfold hCloseWindow
  repeat' first
    | exact True.intro
    | with_reducible rfl
    | (rename_i hgate; exact State.jobGate_keeps hgate)
    | (refine And.intro ?_ (fun u => ?_))
    | simp only [Verdict.keeps_stop, Verdict.keeps_reply, Verdict.keeps_accept, Verdict.keeps_behind, Verdict.keeps_wait, id_eq, and_self, true_and, and_true, answerWith, doneWith, failWith, refuse, refuseDetail, badField, busyFor, State.modRemote_lasting, State.opened_lasting, foldl_lasting, foldl_fst_lasting, foldl_snd_lasting, implies_true, Lasting.of_mk, Lasting.eta, lasting_ite, snd_ite, fst_ite, ite_self]
    | (with_reducible refine (foldl_lasting _ _ _ ?_).trans ?_)
    | intro _
    | split

theorem hWindowStatus_keeps : hWindowStatus.keeps := by
  intro s c
  unfold hWindowStatus
  repeat' first
    | exact True.intro
    | with_reducible rfl
    | (rename_i hgate; exact State.jobGate_keeps hgate)
    | (refine And.intro ?_ (fun u => ?_))
    | simp only [Verdict.keeps_stop, Verdict.keeps_reply, Verdict.keeps_accept, Verdict.keeps_behind, Verdict.keeps_wait, id_eq, and_self, true_and, and_true, answerWith, doneWith, failWith, refuse, refuseDetail, badField, busyFor, State.free_lasting, foldl_lasting, foldl_fst_lasting, foldl_snd_lasting, implies_true, Lasting.of_mk, Lasting.eta, lasting_ite, snd_ite, fst_ite, ite_self]
    | (with_reducible refine (foldl_lasting _ _ _ ?_).trans ?_)
    | intro _
    | split

theorem hSetWindowOwner_keeps : hSetWindowOwner.keeps := by
  intro s c
  unfold hSetWindowOwner
  repeat' first
    | exact True.intro
    | with_reducible rfl
    | (rename_i hgate; exact State.jobGate_keeps hgate)
    | (refine And.intro ?_ (fun u => ?_))
    | simp only [Verdict.keeps_stop, Verdict.keeps_reply, Verdict.keeps_accept, Verdict.keeps_behind, Verdict.keeps_wait, id_eq, and_self, true_and, and_true, answerWith, doneWith, failWith, refuse, refuseDetail, badField, busyFor, State.modRemote_lasting, State.opened_lasting, foldl_lasting, foldl_fst_lasting, foldl_snd_lasting, implies_true, Lasting.of_mk, Lasting.eta, lasting_ite, snd_ite, fst_ite, ite_self]
    | (with_reducible refine (foldl_lasting _ _ _ ?_).trans ?_)
    | intro _
    | split

theorem hRedirect_keeps : hRedirect.keeps := by
  intro s c
  unfold hRedirect
  repeat' first
    | exact True.intro
    | with_reducible rfl
    | (rename_i hgate; exact State.jobGate_keeps hgate)
    | (refine And.intro ?_ (fun u => ?_))
    | simp only [Verdict.keeps_stop, Verdict.keeps_reply, Verdict.keeps_accept, Verdict.keeps_behind, Verdict.keeps_wait, id_eq, and_self, true_and, and_true, answerWith, doneWith, failWith, refuse, refuseDetail, badField, busyFor, State.redirectStart_lasting, foldl_lasting, foldl_fst_lasting, foldl_snd_lasting, implies_true, Lasting.of_mk, Lasting.eta, lasting_ite, snd_ite, fst_ite, ite_self]
    | (with_reducible refine (foldl_lasting _ _ _ ?_).trans ?_)
    | intro _
    | split

theorem hMapStatus_keeps : hMapStatus.keeps := by
  intro s c
  unfold hMapStatus
  repeat' first
    | exact True.intro
    | with_reducible rfl
    | (rename_i hgate; exact State.jobGate_keeps hgate)
    | (refine And.intro ?_ (fun u => ?_))
    | simp only [Verdict.keeps_stop, Verdict.keeps_reply, Verdict.keeps_accept, Verdict.keeps_behind, Verdict.keeps_wait, id_eq, and_self, true_and, and_true, answerWith, doneWith, failWith, refuse, refuseDetail, badField, busyFor, foldl_lasting, foldl_fst_lasting, foldl_snd_lasting, implies_true, Lasting.of_mk, Lasting.eta, lasting_ite, snd_ite, fst_ite, ite_self]
    | (with_reducible refine (foldl_lasting _ _ _ ?_).trans ?_)
    | intro _
    | split

theorem hSetDeadTargetTimeout_keeps : hSetDeadTargetTimeout.keeps := by
  intro s c
  unfold hSetDeadTargetTimeout
  repeat' first
    | exact True.intro
    | with_reducible rfl
    | (rename_i hgate; exact State.jobGate_keeps hgate)
    | (refine And.intro ?_ (fun u => ?_))
    | simp only [Verdict.keeps_stop, Verdict.keeps_reply, Verdict.keeps_accept, Verdict.keeps_behind, Verdict.keeps_wait, id_eq, and_self, true_and, and_true, answerWith, doneWith, failWith, refuse, refuseDetail, badField, busyFor, State.modJob_lasting, foldl_lasting, foldl_fst_lasting, foldl_snd_lasting, implies_true, Lasting.of_mk, Lasting.eta, lasting_ite, snd_ite, fst_ite, ite_self]
    | (with_reducible refine (foldl_lasting _ _ _ ?_).trans ?_)
    | intro _
    | split

theorem hOpenFence_keeps : hOpenFence.keeps := by
  intro s c
  unfold hOpenFence
  repeat' first
    | exact True.intro
    | with_reducible rfl
    | (rename_i hgate; exact State.jobGate_keeps hgate)
    | (refine And.intro ?_ (fun u => ?_))
    | simp only [Verdict.keeps_stop, Verdict.keeps_reply, Verdict.keeps_accept, Verdict.keeps_behind, Verdict.keeps_wait, id_eq, and_self, true_and, and_true, answerWith, doneWith, failWith, refuse, refuseDetail, badField, busyFor, State.free_lasting, State.modRemote_lasting, foldl_lasting, foldl_fst_lasting, foldl_snd_lasting, implies_true, Lasting.of_mk, Lasting.eta, lasting_ite, snd_ite, fst_ite, ite_self]
    | (with_reducible refine (foldl_lasting _ _ _ ?_).trans ?_)
    | intro _
    | split

theorem hCloseFence_keeps : hCloseFence.keeps := by
  intro s c
  unfold hCloseFence
  repeat' first
    | exact True.intro
    | with_reducible rfl
    | (rename_i hgate; exact State.jobGate_keeps hgate)
    | (refine And.intro ?_ (fun u => ?_))
    | simp only [Verdict.keeps_stop, Verdict.keeps_reply, Verdict.keeps_accept, Verdict.keeps_behind, Verdict.keeps_wait, id_eq, and_self, true_and, and_true, answerWith, doneWith, failWith, refuse, refuseDetail, badField, busyFor, State.disarm_lasting, foldl_lasting, foldl_fst_lasting, foldl_snd_lasting, implies_true, Lasting.of_mk, Lasting.eta, lasting_ite, snd_ite, fst_ite, ite_self]
    | (with_reducible refine (foldl_lasting _ _ _ ?_).trans ?_)
    | intro _
    | split

theorem hArmFence_keeps : hArmFence.keeps := by
  intro s c
  unfold hArmFence
  repeat' first
    | exact True.intro
    | with_reducible rfl
    | (rename_i hgate; exact State.jobGate_keeps hgate)
    | (refine And.intro ?_ (fun u => ?_))
    | simp only [Verdict.keeps_stop, Verdict.keeps_reply, Verdict.keeps_accept, Verdict.keeps_behind, Verdict.keeps_wait, id_eq, and_self, true_and, and_true, answerWith, doneWith, failWith, refuse, refuseDetail, badField, busyFor, State.arm_lasting, foldl_lasting, foldl_fst_lasting, foldl_snd_lasting, implies_true, Lasting.of_mk, Lasting.eta, lasting_ite, snd_ite, fst_ite, ite_self]
    | (with_reducible refine (foldl_lasting _ _ _ ?_).trans ?_)
    | intro _
    | split

theorem hFenceStatus_keeps : hFenceStatus.keeps := by
  intro s c
  unfold hFenceStatus
  repeat' first
    | exact True.intro
    | with_reducible rfl
    | (rename_i hgate; exact State.jobGate_keeps hgate)
    | (refine And.intro ?_ (fun u => ?_))
    | simp only [Verdict.keeps_stop, Verdict.keeps_reply, Verdict.keeps_accept, Verdict.keeps_behind, Verdict.keeps_wait, id_eq, and_self, true_and, and_true, answerWith, doneWith, failWith, refuse, refuseDetail, badField, busyFor, State.free_lasting, foldl_lasting, foldl_fst_lasting, foldl_snd_lasting, implies_true, Lasting.of_mk, Lasting.eta, lasting_ite, snd_ite, fst_ite, ite_self]
    | (with_reducible refine (foldl_lasting _ _ _ ?_).trans ?_)
    | intro _
    | split

theorem hRemoteCounts_keeps : hRemoteCounts.keeps := by
  intro s c
  unfold hRemoteCounts
  repeat' first
    | exact True.intro
    | with_reducible rfl
    | (refine And.intro ?_ (fun u => ?_))
    | simp only [Verdict.keeps_stop, Verdict.keeps_reply, Verdict.keeps_accept, Verdict.keeps_behind, Verdict.keeps_wait, id_eq, and_self, true_and, and_true, answerWith, doneWith, failWith, refuse, refuseDetail, badField, busyFor, foldl_lasting, foldl_fst_lasting, foldl_snd_lasting, implies_true, Lasting.of_mk, Lasting.eta, lasting_ite, snd_ite, fst_ite, ite_self]
    | (with_reducible refine (foldl_lasting _ _ _ ?_).trans ?_)
    | intro _
    | split

theorem hEnvelopeStatus_keeps : hEnvelopeStatus.keeps := by
  intro s c
  unfold hEnvelopeStatus
  repeat' first
    | exact True.intro
    | with_reducible rfl
    | (rename_i hgate; exact State.jobGate_keeps hgate)
    | (refine And.intro ?_ (fun u => ?_))
    | simp only [Verdict.keeps_stop, Verdict.keeps_reply, Verdict.keeps_accept, Verdict.keeps_behind, Verdict.keeps_wait, id_eq, and_self, true_and, and_true, answerWith, doneWith, failWith, refuse, refuseDetail, badField, busyFor, foldl_lasting, foldl_fst_lasting, foldl_snd_lasting, implies_true, Lasting.of_mk, Lasting.eta, lasting_ite, snd_ite, fst_ite, ite_self]
    | (with_reducible refine (foldl_lasting _ _ _ ?_).trans ?_)
    | intro _
    | split

theorem hActivateReduction_keeps : hActivateReduction.keeps := by
  intro s c
  unfold hActivateReduction
  repeat' first
    | exact True.intro
    | with_reducible rfl
    | (rename_i hgate; exact State.partGate_keeps hgate)
    | (refine And.intro ?_ (fun u => ?_))
    | simp only [Verdict.keeps_stop, Verdict.keeps_reply, Verdict.keeps_accept, Verdict.keeps_behind, Verdict.keeps_wait, id_eq, and_self, true_and, and_true, answerWith, doneWith, failWith, refuse, refuseDetail, badField, busyFor, State.activate_lasting, State.free_lasting, State.opened_lasting, foldl_lasting, foldl_fst_lasting, foldl_snd_lasting, implies_true, Lasting.of_mk, Lasting.eta, lasting_ite, snd_ite, fst_ite, ite_self]
    | (with_reducible refine (foldl_lasting _ _ _ ?_).trans ?_)
    | intro _
    | split

theorem hCancelReduction_keeps : hCancelReduction.keeps := by
  intro s c
  unfold hCancelReduction
  repeat' first
    | exact True.intro
    | with_reducible rfl
    | (rename_i hgate; exact State.jobGate_keeps hgate)
    | (refine And.intro ?_ (fun u => ?_))
    | simp only [Verdict.keeps_stop, Verdict.keeps_reply, Verdict.keeps_accept, Verdict.keeps_behind, Verdict.keeps_wait, id_eq, and_self, true_and, and_true, answerWith, doneWith, failWith, refuse, refuseDetail, badField, busyFor, State.descCloses_lasting, foldl_lasting, foldl_fst_lasting, foldl_snd_lasting, implies_true, Lasting.of_mk, Lasting.eta, lasting_ite, snd_ite, fst_ite, ite_self]
    | (with_reducible refine (foldl_lasting _ _ _ ?_).trans ?_)
    | intro _
    | split

theorem hReductionStatus_keeps : hReductionStatus.keeps := by
  intro s c
  unfold hReductionStatus
  repeat' first
    | exact True.intro
    | with_reducible rfl
    | (rename_i hgate; exact State.jobGate_keeps hgate)
    | (refine And.intro ?_ (fun u => ?_))
    | simp only [Verdict.keeps_stop, Verdict.keeps_reply, Verdict.keeps_accept, Verdict.keeps_behind, Verdict.keeps_wait, id_eq, and_self, true_and, and_true, answerWith, doneWith, failWith, refuse, refuseDetail, badField, busyFor, State.free_lasting, foldl_lasting, foldl_fst_lasting, foldl_snd_lasting, implies_true, Lasting.of_mk, Lasting.eta, lasting_ite, snd_ite, fst_ite, ite_self]
    | (with_reducible refine (foldl_lasting _ _ _ ?_).trans ?_)
    | intro _
    | split

theorem hGroupStatus_keeps : hGroupStatus.keeps := by
  intro s c
  unfold hGroupStatus
  repeat' first
    | exact True.intro
    | with_reducible rfl
    | (rename_i hgate; exact State.jobGate_keeps hgate)
    | (refine And.intro ?_ (fun u => ?_))
    | simp only [Verdict.keeps_stop, Verdict.keeps_reply, Verdict.keeps_accept, Verdict.keeps_behind, Verdict.keeps_wait, id_eq, and_self, true_and, and_true, answerWith, doneWith, failWith, refuse, refuseDetail, badField, busyFor, foldl_lasting, foldl_fst_lasting, foldl_snd_lasting, implies_true, Lasting.of_mk, Lasting.eta, lasting_ite, snd_ite, fst_ite, ite_self]
    | (with_reducible refine (foldl_lasting _ _ _ ?_).trans ?_)
    | intro _
    | split

theorem hReductionCounts_keeps : hReductionCounts.keeps := by
  intro s c
  unfold hReductionCounts
  repeat' first
    | exact True.intro
    | with_reducible rfl
    | (refine And.intro ?_ (fun u => ?_))
    | simp only [Verdict.keeps_stop, Verdict.keeps_reply, Verdict.keeps_accept, Verdict.keeps_behind, Verdict.keeps_wait, id_eq, and_self, true_and, and_true, answerWith, doneWith, failWith, refuse, refuseDetail, badField, busyFor, foldl_lasting, foldl_fst_lasting, foldl_snd_lasting, implies_true, Lasting.of_mk, Lasting.eta, lasting_ite, snd_ite, fst_ite, ite_self]
    | (with_reducible refine (foldl_lasting _ _ _ ?_).trans ?_)
    | intro _
    | split

theorem hPowerStatus_keeps : hPowerStatus.keeps := by
  intro s c
  unfold hPowerStatus
  repeat' first
    | exact True.intro
    | with_reducible rfl
    | (refine And.intro ?_ (fun u => ?_))
    | simp only [Verdict.keeps_stop, Verdict.keeps_reply, Verdict.keeps_accept, Verdict.keeps_behind, Verdict.keeps_wait, id_eq, and_self, true_and, and_true, answerWith, doneWith, failWith, refuse, refuseDetail, badField, busyFor, foldl_lasting, foldl_fst_lasting, foldl_snd_lasting, implies_true, Lasting.of_mk, Lasting.eta, lasting_ite, snd_ite, fst_ite, ite_self]
    | (with_reducible refine (foldl_lasting _ _ _ ?_).trans ?_)
    | intro _
    | split

theorem hSetPowerLimits_keeps : hSetPowerLimits.keeps := by
  intro s c
  unfold hSetPowerLimits
  repeat' first
    | exact True.intro
    | with_reducible rfl
    | (refine And.intro ?_ (fun u => ?_))
    | simp only [Verdict.keeps_stop, Verdict.keeps_reply, Verdict.keeps_accept, Verdict.keeps_behind, Verdict.keeps_wait, id_eq, and_self, true_and, and_true, answerWith, doneWith, failWith, refuse, refuseDetail, badField, busyFor, State.modPower_lasting, foldl_lasting, foldl_fst_lasting, foldl_snd_lasting, implies_true, Lasting.of_mk, Lasting.eta, lasting_ite, snd_ite, fst_ite, ite_self]
    | (with_reducible refine (foldl_lasting _ _ _ ?_).trans ?_)
    | intro _
    | split

theorem hSetRailLimits_keeps : hSetRailLimits.keeps := by
  intro s c
  unfold hSetRailLimits
  repeat' first
    | exact True.intro
    | with_reducible rfl
    | (refine And.intro ?_ (fun u => ?_))
    | simp only [Verdict.keeps_stop, Verdict.keeps_reply, Verdict.keeps_accept, Verdict.keeps_behind, Verdict.keeps_wait, id_eq, and_self, true_and, and_true, answerWith, doneWith, failWith, refuse, refuseDetail, badField, busyFor, State.modRail_lasting, foldl_lasting, foldl_fst_lasting, foldl_snd_lasting, implies_true, Lasting.of_mk, Lasting.eta, lasting_ite, snd_ite, fst_ite, ite_self]
    | (with_reducible refine (foldl_lasting _ _ _ ?_).trans ?_)
    | intro _
    | split

theorem hGrantLease_keeps : hGrantLease.keeps := by
  intro s c
  unfold hGrantLease
  repeat' first
    | exact True.intro
    | with_reducible rfl
    | (refine And.intro ?_ (fun u => ?_))
    | simp only [Verdict.keeps_stop, Verdict.keeps_reply, Verdict.keeps_accept, Verdict.keeps_behind, Verdict.keeps_wait, id_eq, and_self, true_and, and_true, answerWith, doneWith, failWith, refuse, refuseDetail, badField, busyFor, State.modPower_lasting, State.takeLease_lasting, foldl_lasting, foldl_fst_lasting, foldl_snd_lasting, implies_true, Lasting.of_mk, Lasting.eta, lasting_ite, snd_ite, fst_ite, ite_self]
    | (with_reducible refine (foldl_lasting _ _ _ ?_).trans ?_)
    | intro _
    | split

theorem hReleaseLease_keeps : hReleaseLease.keeps := by
  intro s c
  unfold hReleaseLease
  repeat' first
    | exact True.intro
    | with_reducible rfl
    | (refine And.intro ?_ (fun u => ?_))
    | simp only [Verdict.keeps_stop, Verdict.keeps_reply, Verdict.keeps_accept, Verdict.keeps_behind, Verdict.keeps_wait, id_eq, and_self, true_and, and_true, answerWith, doneWith, failWith, refuse, refuseDetail, badField, busyFor, State.modPower_lasting, State.powerNotice_lasting, foldl_lasting, foldl_fst_lasting, foldl_snd_lasting, implies_true, Lasting.of_mk, Lasting.eta, lasting_ite, snd_ite, fst_ite, ite_self]
    | (with_reducible refine (foldl_lasting _ _ _ ?_).trans ?_)
    | intro _
    | split

theorem hLoadUserCalibration_keeps : hLoadUserCalibration.keeps := by
  intro s c
  unfold hLoadUserCalibration
  repeat' first
    | exact True.intro
    | with_reducible rfl
    | (refine And.intro ?_ (fun u => ?_))
    | simp only [Verdict.keeps_stop, Verdict.keeps_reply, Verdict.keeps_accept, Verdict.keeps_behind, Verdict.keeps_wait, id_eq, and_self, true_and, and_true, answerWith, doneWith, failWith, refuse, refuseDetail, badField, busyFor, State.modPower_lasting, foldl_lasting, foldl_fst_lasting, foldl_snd_lasting, implies_true, Lasting.of_mk, Lasting.eta, lasting_ite, snd_ite, fst_ite, ite_self]
    | (with_reducible refine (foldl_lasting _ _ _ ?_).trans ?_)
    | intro _
    | split

theorem hCalibrationStatus_keeps : hCalibrationStatus.keeps := by
  intro s c
  unfold hCalibrationStatus
  repeat' first
    | exact True.intro
    | with_reducible rfl
    | (refine And.intro ?_ (fun u => ?_))
    | simp only [Verdict.keeps_stop, Verdict.keeps_reply, Verdict.keeps_accept, Verdict.keeps_behind, Verdict.keeps_wait, id_eq, and_self, true_and, and_true, answerWith, doneWith, failWith, refuse, refuseDetail, badField, busyFor, foldl_lasting, foldl_fst_lasting, foldl_snd_lasting, implies_true, Lasting.of_mk, Lasting.eta, lasting_ite, snd_ite, fst_ite, ite_self]
    | (with_reducible refine (foldl_lasting _ _ _ ?_).trans ?_)
    | intro _
    | split

theorem hSetFrequencyMode_keeps : hSetFrequencyMode.keeps := by
  intro s c
  unfold hSetFrequencyMode
  repeat' first
    | exact True.intro
    | with_reducible rfl
    | (rename_i hgate; exact State.partGate_keeps hgate)
    | (refine And.intro ?_ (fun u => ?_))
    | simp only [Verdict.keeps_stop, Verdict.keeps_reply, Verdict.keeps_accept, Verdict.keeps_behind, Verdict.keeps_wait, id_eq, and_self, true_and, and_true, answerWith, doneWith, failWith, refuse, refuseDetail, badField, busyFor, State.modPart_lasting, foldl_lasting, foldl_fst_lasting, foldl_snd_lasting, implies_true, Lasting.of_mk, Lasting.eta, lasting_ite, snd_ite, fst_ite, ite_self]
    | (with_reducible refine (foldl_lasting _ _ _ ?_).trans ?_)
    | intro _
    | split

theorem hSetThermalLimit_keeps : hSetThermalLimit.keeps := by
  intro s c
  unfold hSetThermalLimit
  repeat' first
    | exact True.intro
    | with_reducible rfl
    | (refine And.intro ?_ (fun u => ?_))
    | simp only [Verdict.keeps_stop, Verdict.keeps_reply, Verdict.keeps_accept, Verdict.keeps_behind, Verdict.keeps_wait, id_eq, and_self, true_and, and_true, answerWith, doneWith, failWith, refuse, refuseDetail, badField, busyFor, State.modPower_lasting, foldl_lasting, foldl_fst_lasting, foldl_snd_lasting, implies_true, Lasting.of_mk, Lasting.eta, lasting_ite, snd_ite, fst_ite, ite_self]
    | (with_reducible refine (foldl_lasting _ _ _ ?_).trans ?_)
    | intro _
    | split

theorem hThrottleStatus_keeps : hThrottleStatus.keeps := by
  intro s c
  unfold hThrottleStatus
  repeat' first
    | exact True.intro
    | with_reducible rfl
    | (refine And.intro ?_ (fun u => ?_))
    | simp only [Verdict.keeps_stop, Verdict.keeps_reply, Verdict.keeps_accept, Verdict.keeps_behind, Verdict.keeps_wait, id_eq, and_self, true_and, and_true, answerWith, doneWith, failWith, refuse, refuseDetail, badField, busyFor, foldl_lasting, foldl_fst_lasting, foldl_snd_lasting, implies_true, Lasting.of_mk, Lasting.eta, lasting_ite, snd_ite, fst_ite, ite_self]
    | (with_reducible refine (foldl_lasting _ _ _ ?_).trans ?_)
    | intro _
    | split

theorem hPowerSample_keeps : hPowerSample.keeps := by
  intro s c
  unfold hPowerSample
  repeat' first
    | exact True.intro
    | with_reducible rfl
    | (refine And.intro ?_ (fun u => ?_))
    | simp only [Verdict.keeps_stop, Verdict.keeps_reply, Verdict.keeps_accept, Verdict.keeps_behind, Verdict.keeps_wait, id_eq, and_self, true_and, and_true, answerWith, doneWith, failWith, refuse, refuseDetail, badField, busyFor, foldl_lasting, foldl_fst_lasting, foldl_snd_lasting, implies_true, Lasting.of_mk, Lasting.eta, lasting_ite, snd_ite, fst_ite, ite_self]
    | (with_reducible refine (foldl_lasting _ _ _ ?_).trans ?_)
    | intro _
    | split

theorem hMarginSweep_keeps : hMarginSweep.keeps := by
  intro s c
  unfold hMarginSweep
  repeat' first
    | exact True.intro
    | with_reducible rfl
    | (refine And.intro ?_ (fun u => ?_))
    | simp only [Verdict.keeps_stop, Verdict.keeps_reply, Verdict.keeps_accept, Verdict.keeps_behind, Verdict.keeps_wait, id_eq, and_self, true_and, and_true, answerWith, doneWith, failWith, refuse, refuseDetail, badField, busyFor, State.sweepStart_lasting, foldl_lasting, foldl_fst_lasting, foldl_snd_lasting, implies_true, Lasting.of_mk, Lasting.eta, lasting_ite, snd_ite, fst_ite, ite_self]
    | (with_reducible refine (foldl_lasting _ _ _ ?_).trans ?_)
    | intro _
    | split

theorem hMarginStatus_keeps : hMarginStatus.keeps := by
  intro s c
  unfold hMarginStatus
  repeat' first
    | exact True.intro
    | with_reducible rfl
    | (refine And.intro ?_ (fun u => ?_))
    | simp only [Verdict.keeps_stop, Verdict.keeps_reply, Verdict.keeps_accept, Verdict.keeps_behind, Verdict.keeps_wait, id_eq, and_self, true_and, and_true, answerWith, doneWith, failWith, refuse, refuseDetail, badField, busyFor, foldl_lasting, foldl_fst_lasting, foldl_snd_lasting, implies_true, Lasting.of_mk, Lasting.eta, lasting_ite, snd_ite, fst_ite, ite_self]
    | (with_reducible refine (foldl_lasting _ _ _ ?_).trans ?_)
    | intro _
    | split

theorem hWaitForGraph_keeps : hWaitForGraph.keeps := by
  intro s c
  unfold hWaitForGraph
  repeat' first
    | exact True.intro
    | with_reducible rfl
    | (refine And.intro ?_ (fun u => ?_))
    | simp only [Verdict.keeps_stop, Verdict.keeps_reply, Verdict.keeps_accept, Verdict.keeps_behind, Verdict.keeps_wait, id_eq, and_self, true_and, and_true, answerWith, doneWith, failWith, refuse, refuseDetail, badField, busyFor, State.takeSnapshot_lasting, foldl_lasting, foldl_fst_lasting, foldl_snd_lasting, implies_true, Lasting.of_mk, Lasting.eta, lasting_ite, snd_ite, fst_ite, ite_self]
    | (with_reducible refine (foldl_lasting _ _ _ ?_).trans ?_)
    | intro _
    | split

theorem hFaultStatus_keeps : hFaultStatus.keeps := by
  intro s c
  unfold hFaultStatus
  repeat' first
    | exact True.intro
    | with_reducible rfl
    | (refine And.intro ?_ (fun u => ?_))
    | simp only [Verdict.keeps_stop, Verdict.keeps_reply, Verdict.keeps_accept, Verdict.keeps_behind, Verdict.keeps_wait, id_eq, and_self, true_and, and_true, answerWith, doneWith, failWith, refuse, refuseDetail, badField, busyFor, foldl_lasting, foldl_fst_lasting, foldl_snd_lasting, implies_true, Lasting.of_mk, Lasting.eta, lasting_ite, snd_ite, fst_ite, ite_self]
    | (with_reducible refine (foldl_lasting _ _ _ ?_).trans ?_)
    | intro _
    | split

theorem hHealthStatus_keeps : hHealthStatus.keeps := by
  intro s c
  unfold hHealthStatus
  repeat' first
    | exact True.intro
    | with_reducible rfl
    | (refine And.intro ?_ (fun u => ?_))
    | simp only [Verdict.keeps_stop, Verdict.keeps_reply, Verdict.keeps_accept, Verdict.keeps_behind, Verdict.keeps_wait, id_eq, and_self, true_and, and_true, answerWith, doneWith, failWith, refuse, refuseDetail, badField, busyFor, foldl_lasting, foldl_fst_lasting, foldl_snd_lasting, implies_true, Lasting.of_mk, Lasting.eta, lasting_ite, snd_ite, fst_ite, ite_self]
    | (with_reducible refine (foldl_lasting _ _ _ ?_).trans ?_)
    | intro _
    | split

theorem hSetPostcards_keeps : hSetPostcards.keeps := by
  intro s c
  unfold hSetPostcards
  repeat' first
    | exact True.intro
    | with_reducible rfl
    | (refine And.intro ?_ (fun u => ?_))
    | simp only [Verdict.keeps_stop, Verdict.keeps_reply, Verdict.keeps_accept, Verdict.keeps_behind, Verdict.keeps_wait, id_eq, and_self, true_and, and_true, answerWith, doneWith, failWith, refuse, refuseDetail, badField, busyFor, State.modFault_lasting, foldl_lasting, foldl_fst_lasting, foldl_snd_lasting, implies_true, Lasting.of_mk, Lasting.eta, lasting_ite, snd_ite, fst_ite, ite_self]
    | (with_reducible refine (foldl_lasting _ _ _ ?_).trans ?_)
    | intro _
    | split

theorem hSuspectList_keeps : hSuspectList.keeps := by
  intro s c
  unfold hSuspectList
  repeat' first
    | exact True.intro
    | with_reducible rfl
    | (rename_i hgate; exact State.partGate_keeps hgate)
    | (refine And.intro ?_ (fun u => ?_))
    | simp only [Verdict.keeps_stop, Verdict.keeps_reply, Verdict.keeps_accept, Verdict.keeps_behind, Verdict.keeps_wait, id_eq, and_self, true_and, and_true, answerWith, doneWith, failWith, refuse, refuseDetail, badField, busyFor, foldl_lasting, foldl_fst_lasting, foldl_snd_lasting, implies_true, Lasting.of_mk, Lasting.eta, lasting_ite, snd_ite, fst_ite, ite_self]
    | (with_reducible refine (foldl_lasting _ _ _ ?_).trans ?_)
    | intro _
    | split

theorem hSetMailbagBuffer_keeps : hSetMailbagBuffer.keeps := by
  intro s c
  unfold hSetMailbagBuffer
  repeat' first
    | exact True.intro
    | with_reducible rfl
    | (refine And.intro ?_ (fun u => ?_))
    | simp only [Verdict.keeps_stop, Verdict.keeps_reply, Verdict.keeps_accept, Verdict.keeps_behind, Verdict.keeps_wait, id_eq, and_self, true_and, and_true, answerWith, doneWith, failWith, refuse, refuseDetail, badField, busyFor, State.modFault_lasting, foldl_lasting, foldl_fst_lasting, foldl_snd_lasting, implies_true, Lasting.of_mk, Lasting.eta, lasting_ite, snd_ite, fst_ite, ite_self]
    | (with_reducible refine (foldl_lasting _ _ _ ?_).trans ?_)
    | intro _
    | split

theorem hResetPartition_keeps : hResetPartition.keeps := by
  intro s c
  unfold hResetPartition
  repeat' first
    | exact True.intro
    | with_reducible rfl
    | (rename_i hgate; exact State.partGate_keeps hgate)
    | (refine And.intro ?_ (fun u => ?_))
    | simp only [Verdict.keeps_stop, Verdict.keeps_reply, Verdict.keeps_accept, Verdict.keeps_behind, Verdict.keeps_wait, id_eq, and_self, true_and, and_true, answerWith, doneWith, failWith, refuse, refuseDetail, badField, busyFor, State.resetStart_lasting, foldl_lasting, foldl_fst_lasting, foldl_snd_lasting, implies_true, Lasting.of_mk, Lasting.eta, lasting_ite, snd_ite, fst_ite, ite_self]
    | (with_reducible refine (foldl_lasting _ _ _ ?_).trans ?_)
    | intro _
    | split

theorem hReplaySuspects_keeps : hReplaySuspects.keeps := by
  intro s c
  unfold hReplaySuspects
  repeat' first
    | exact True.intro
    | with_reducible rfl
    | (rename_i hgate; exact State.partGate_keeps hgate)
    | (refine And.intro ?_ (fun u => ?_))
    | simp only [Verdict.keeps_stop, Verdict.keeps_reply, Verdict.keeps_accept, Verdict.keeps_behind, Verdict.keeps_wait, id_eq, and_self, true_and, and_true, answerWith, doneWith, failWith, refuse, refuseDetail, badField, busyFor, State.modFault_lasting, State.modPart_lasting, State.nextProbe_lasting, State.post_lasting, foldl_lasting, foldl_fst_lasting, foldl_snd_lasting, implies_true, Lasting.of_mk, Lasting.eta, lasting_ite, snd_ite, fst_ite, ite_self]
    | (with_reducible refine (foldl_lasting _ _ _ ?_).trans ?_)
    | intro _
    | split

theorem hContextFaults_keeps : hContextFaults.keeps := by
  intro s c
  unfold hContextFaults
  repeat' first
    | exact True.intro
    | with_reducible rfl
    | (rename_i hgate; exact State.ctxGate_keeps hgate)
    | (refine And.intro ?_ (fun u => ?_))
    | simp only [Verdict.keeps_stop, Verdict.keeps_reply, Verdict.keeps_accept, Verdict.keeps_behind, Verdict.keeps_wait, id_eq, and_self, true_and, and_true, answerWith, doneWith, failWith, refuse, refuseDetail, badField, busyFor, foldl_lasting, foldl_fst_lasting, foldl_snd_lasting, implies_true, Lasting.of_mk, Lasting.eta, lasting_ite, snd_ite, fst_ite, ite_self]
    | (with_reducible refine (foldl_lasting _ _ _ ?_).trans ?_)
    | intro _
    | split

theorem hTimebaseStatus_keeps : hTimebaseStatus.keeps := by
  intro s c
  unfold hTimebaseStatus
  repeat' first
    | exact True.intro
    | with_reducible rfl
    | (refine And.intro ?_ (fun u => ?_))
    | simp only [Verdict.keeps_stop, Verdict.keeps_reply, Verdict.keeps_accept, Verdict.keeps_behind, Verdict.keeps_wait, id_eq, and_self, true_and, and_true, answerWith, doneWith, failWith, refuse, refuseDetail, badField, busyFor, State.free_lasting, foldl_lasting, foldl_fst_lasting, foldl_snd_lasting, implies_true, Lasting.of_mk, Lasting.eta, lasting_ite, snd_ite, fst_ite, ite_self]
    | (with_reducible refine (foldl_lasting _ _ _ ?_).trans ?_)
    | intro _
    | split

theorem hTraceStart_keeps : hTraceStart.keeps := by
  intro s c
  unfold hTraceStart
  repeat' first
    | exact True.intro
    | with_reducible rfl
    | (rename_i hgate; exact State.scopeGate_keeps hgate)
    | (refine And.intro ?_ (fun u => ?_))
    | simp only [Verdict.keeps_stop, Verdict.keeps_reply, Verdict.keeps_accept, Verdict.keeps_behind, Verdict.keeps_wait, id_eq, and_self, true_and, and_true, answerWith, doneWith, failWith, refuse, refuseDetail, badField, busyFor, State.endSession_lasting, State.modTrace_lasting, State.ringHead_lasting, State.turn_lasting, foldl_lasting, foldl_fst_lasting, foldl_snd_lasting, implies_true, Lasting.of_mk, Lasting.eta, lasting_ite, snd_ite, fst_ite, ite_self]
    | (with_reducible refine (foldl_lasting _ _ _ ?_).trans ?_)
    | intro _
    | split

theorem hTraceStop_keeps : hTraceStop.keeps := by
  intro s c
  unfold hTraceStop
  repeat' first
    | exact True.intro
    | with_reducible rfl
    | (refine And.intro ?_ (fun u => ?_))
    | simp only [Verdict.keeps_stop, Verdict.keeps_reply, Verdict.keeps_accept, Verdict.keeps_behind, Verdict.keeps_wait, id_eq, and_self, true_and, and_true, answerWith, doneWith, failWith, refuse, refuseDetail, badField, busyFor, State.modSession_lasting, foldl_lasting, foldl_fst_lasting, foldl_snd_lasting, implies_true, Lasting.of_mk, Lasting.eta, lasting_ite, snd_ite, fst_ite, ite_self]
    | (with_reducible refine (foldl_lasting _ _ _ ?_).trans ?_)
    | intro _
    | split

theorem hTraceTrigger_keeps : hTraceTrigger.keeps := by
  intro s c
  unfold hTraceTrigger
  repeat' first
    | exact True.intro
    | with_reducible rfl
    | (refine And.intro ?_ (fun u => ?_))
    | simp only [Verdict.keeps_stop, Verdict.keeps_reply, Verdict.keeps_accept, Verdict.keeps_behind, Verdict.keeps_wait, id_eq, and_self, true_and, and_true, answerWith, doneWith, failWith, refuse, refuseDetail, badField, busyFor, State.trigger_lasting, foldl_lasting, foldl_fst_lasting, foldl_snd_lasting, implies_true, Lasting.of_mk, Lasting.eta, lasting_ite, snd_ite, fst_ite, ite_self]
    | (with_reducible refine (foldl_lasting _ _ _ ?_).trans ?_)
    | intro _
    | split

theorem hTraceStatus_keeps : hTraceStatus.keeps := by
  intro s c
  unfold hTraceStatus
  repeat' first
    | exact True.intro
    | with_reducible rfl
    | (refine And.intro ?_ (fun u => ?_))
    | simp only [Verdict.keeps_stop, Verdict.keeps_reply, Verdict.keeps_accept, Verdict.keeps_behind, Verdict.keeps_wait, id_eq, and_self, true_and, and_true, answerWith, doneWith, failWith, refuse, refuseDetail, badField, busyFor, foldl_lasting, foldl_fst_lasting, foldl_snd_lasting, implies_true, Lasting.of_mk, Lasting.eta, lasting_ite, snd_ite, fst_ite, ite_self]
    | (with_reducible refine (foldl_lasting _ _ _ ?_).trans ?_)
    | intro _
    | split

theorem hTraceMark_keeps : hTraceMark.keeps := by
  intro s c
  unfold hTraceMark
  repeat' first
    | exact True.intro
    | with_reducible rfl
    | (refine And.intro ?_ (fun u => ?_))
    | simp only [Verdict.keeps_stop, Verdict.keeps_reply, Verdict.keeps_accept, Verdict.keeps_behind, Verdict.keeps_wait, id_eq, and_self, true_and, and_true, answerWith, doneWith, failWith, refuse, refuseDetail, badField, busyFor, State.traceRec_lasting, foldl_lasting, foldl_fst_lasting, foldl_snd_lasting, implies_true, Lasting.of_mk, Lasting.eta, lasting_ite, snd_ite, fst_ite, ite_self]
    | (with_reducible refine (foldl_lasting _ _ _ ?_).trans ?_)
    | intro _
    | split

theorem hCounterSelect_keeps : hCounterSelect.keeps := by
  intro s c
  unfold hCounterSelect
  repeat' first
    | exact True.intro
    | with_reducible rfl
    | (refine And.intro ?_ (fun u => ?_))
    | simp only [Verdict.keeps_stop, Verdict.keeps_reply, Verdict.keeps_accept, Verdict.keeps_behind, Verdict.keeps_wait, id_eq, and_self, true_and, and_true, answerWith, doneWith, failWith, refuse, refuseDetail, badField, busyFor, State.modTrace_lasting, foldl_lasting, foldl_fst_lasting, foldl_snd_lasting, implies_true, Lasting.of_mk, Lasting.eta, lasting_ite, snd_ite, fst_ite, ite_self]
    | (with_reducible refine (foldl_lasting _ _ _ ?_).trans ?_)
    | intro _
    | split

theorem hCounterSnapshot_keeps : hCounterSnapshot.keeps := by
  intro s c
  unfold hCounterSnapshot
  repeat' first
    | exact True.intro
    | with_reducible rfl
    | (refine And.intro ?_ (fun u => ?_))
    | simp only [Verdict.keeps_stop, Verdict.keeps_reply, Verdict.keeps_accept, Verdict.keeps_behind, Verdict.keeps_wait, id_eq, and_self, true_and, and_true, answerWith, doneWith, failWith, refuse, refuseDetail, badField, busyFor, State.modTrace_lasting, foldl_lasting, foldl_fst_lasting, foldl_snd_lasting, implies_true, Lasting.of_mk, Lasting.eta, lasting_ite, snd_ite, fst_ite, ite_self]
    | (with_reducible refine (foldl_lasting _ _ _ ?_).trans ?_)
    | intro _
    | split

theorem hCounterRead_keeps : hCounterRead.keeps := by
  intro s c
  unfold hCounterRead
  repeat' first
    | exact True.intro
    | with_reducible rfl
    | (refine And.intro ?_ (fun u => ?_))
    | simp only [Verdict.keeps_stop, Verdict.keeps_reply, Verdict.keeps_accept, Verdict.keeps_behind, Verdict.keeps_wait, id_eq, and_self, true_and, and_true, answerWith, doneWith, failWith, refuse, refuseDetail, badField, busyFor, foldl_lasting, foldl_fst_lasting, foldl_snd_lasting, implies_true, Lasting.of_mk, Lasting.eta, lasting_ite, snd_ite, fst_ite, ite_self]
    | (with_reducible refine (foldl_lasting _ _ _ ?_).trans ?_)
    | intro _
    | split

theorem hJobCounters_keeps : hJobCounters.keeps := by
  intro s c
  unfold hJobCounters
  repeat' first
    | exact True.intro
    | with_reducible rfl
    | (refine And.intro ?_ (fun u => ?_))
    | simp only [Verdict.keeps_stop, Verdict.keeps_reply, Verdict.keeps_accept, Verdict.keeps_behind, Verdict.keeps_wait, id_eq, and_self, true_and, and_true, answerWith, doneWith, failWith, refuse, refuseDetail, badField, busyFor, foldl_lasting, foldl_fst_lasting, foldl_snd_lasting, implies_true, Lasting.of_mk, Lasting.eta, lasting_ite, snd_ite, fst_ite, ite_self]
    | (with_reducible refine (foldl_lasting _ _ _ ?_).trans ?_)
    | intro _
    | split

theorem hDeadLetterCounts_keeps : hDeadLetterCounts.keeps := by
  intro s c
  unfold hDeadLetterCounts
  repeat' first
    | exact True.intro
    | with_reducible rfl
    | (refine And.intro ?_ (fun u => ?_))
    | simp only [Verdict.keeps_stop, Verdict.keeps_reply, Verdict.keeps_accept, Verdict.keeps_behind, Verdict.keeps_wait, id_eq, and_self, true_and, and_true, answerWith, doneWith, failWith, refuse, refuseDetail, badField, busyFor, State.inbound_lasting, foldl_lasting, foldl_fst_lasting, foldl_snd_lasting, implies_true, Lasting.of_mk, Lasting.eta, lasting_ite, snd_ite, fst_ite, ite_self]
    | (with_reducible refine (foldl_lasting _ _ _ ?_).trans ?_)
    | intro _
    | split

theorem hCloseContext_keeps : hCloseContext.keeps := by
  intro s c
  unfold hCloseContext
  repeat' first
    | exact True.intro
    | with_reducible rfl
    | (rename_i hgate; exact State.ctxGate_keeps hgate)
    | (refine And.intro ?_ (fun u => ?_))
    | simp only [Verdict.keeps_stop, Verdict.keeps_reply, Verdict.keeps_accept, Verdict.keeps_behind, Verdict.keeps_wait, id_eq, and_self, true_and, and_true, answerWith, doneWith, failWith, refuse, refuseDetail, badField, busyFor, State.closeStart_lasting, State.opened_lasting, foldl_lasting, foldl_fst_lasting, foldl_snd_lasting, implies_true, Lasting.of_mk, Lasting.eta, lasting_ite, snd_ite, fst_ite, ite_self]
    | (with_reducible refine (foldl_lasting _ _ _ ?_).trans ?_)
    | intro _
    | split

theorem hTeardownJob_keeps : hTeardownJob.keeps := by
  intro s c
  unfold hTeardownJob
  repeat' first
    | exact True.intro
    | with_reducible rfl
    | (refine And.intro ?_ (fun u => ?_))
    | simp only [Verdict.keeps_stop, Verdict.keeps_reply, Verdict.keeps_accept, Verdict.keeps_behind, Verdict.keeps_wait, id_eq, and_self, true_and, and_true, answerWith, doneWith, failWith, refuse, refuseDetail, badField, busyFor, State.teardownStart_lasting, foldl_lasting, foldl_fst_lasting, foldl_snd_lasting, implies_true, Lasting.of_mk, Lasting.eta, lasting_ite, snd_ite, fst_ite, ite_self]
    | (with_reducible refine (foldl_lasting _ _ _ ?_).trans ?_)
    | intro _
    | split

theorem hResizeJob_keeps : hResizeJob.keeps := by
  intro s c
  unfold hResizeJob
  repeat' first
    | exact True.intro
    | with_reducible rfl
    | (rename_i hgate; exact State.jobGate_keeps hgate)
    | (refine And.intro ?_ (fun u => ?_))
    | simp only [Verdict.keeps_stop, Verdict.keeps_reply, Verdict.keeps_accept, Verdict.keeps_behind, Verdict.keeps_wait, id_eq, and_self, true_and, and_true, answerWith, doneWith, failWith, refuse, refuseDetail, badField, busyFor, State.complete_lasting, State.resizeStart_lasting, foldl_lasting, foldl_fst_lasting, foldl_snd_lasting, implies_true, Lasting.of_mk, Lasting.eta, lasting_ite, snd_ite, fst_ite, ite_self]
    | (with_reducible refine (foldl_lasting _ _ _ ?_).trans ?_)
    | intro _
    | split

theorem handlers01_keeps {n : Nat} {x : Handler} (h : handlers01 n = some x) : x.keeps := by
  unfold handlers01 at h
  split at h
  · cases h; exact hNop_keeps
  · cases h; exact hIdentify_keeps
  · cases h; exact hRenewSession_keeps
  · cases h; exact hSubscribe_keeps
  · cases h; exact hReadDropCounts_keeps
  · cases h; exact hCancelQueued_keeps
  · cases h; exact hSetRootLink_keeps
  · cases h

theorem handlers02_keeps {n : Nat} {x : Handler} (h : handlers02 n = some x) : x.keeps := by
  unfold handlers02 at h
  split at h
  · cases h; exact hLifecycleStatus_keeps
  · cases h; exact hEnterTest_keeps
  · cases h; exact hEnrolProduction_keeps
  · cases h; exact hEnterEndOfLife_keeps
  · cases h; exact hKeyVaultStatus_keeps
  · cases h

theorem handlers03_keeps {n : Nat} {x : Handler} (h : handlers03 n = some x) : x.keeps := by
  unfold handlers03 at h
  split at h
  · cases h; exact hDigestStatus_keeps
  · cases h; exact hAttest_keeps
  · cases h; exact hReadMeasurements_keeps
  · cases h; exact hNonce_keeps
  · cases h; exact hPresentPermit_keeps
  · cases h; exact hClosePermit_keeps
  · cases h; exact hPermitStatus_keeps
  · cases h

theorem handlers04_keeps {n : Nat} {x : Handler} (h : handlers04 n = some x) : x.keeps := by
  unfold handlers04 at h
  split at h
  · cases h; exact hAdmitJob_keeps
  · cases h; exact hTeardownJob_keeps
  · cases h; exact hResizeJob_keeps
  · cases h; exact hJobStatus_keeps
  · cases h; exact hCreatePartition_keeps
  · cases h; exact hResizePartition_keeps
  · cases h; exact hDestroyPartition_keeps
  · cases h; exact hPartitionStatus_keeps
  · cases h; exact hOpenContext_keeps
  · cases h; exact hCloseContext_keeps
  · cases h; exact hContextStatus_keeps
  · cases h

theorem handlers05_keeps {n : Nat} {x : Handler} (h : handlers05 n = some x) : x.keeps := by
  unfold handlers05 at h
  split at h
  · cases h; exact hRegionStatus_keeps
  · cases h; exact hSealRegion_keeps
  · cases h; exact hSetWcWindow_keeps
  · cases h; exact hZeroSectors_keeps
  · cases h; exact hRetireKeyIndex_keeps
  · cases h; exact hKeyIndexStatus_keeps
  · cases h; exact hSectorCounts_keeps
  · cases h

theorem handlers06_keeps {n : Nat} {x : Handler} (h : handlers06 n = some x) : x.keeps := by
  unfold handlers06 at h
  split at h
  · cases h; exact hTreeStatus_keeps
  · cases h; exact hResetSubtree_keeps
  · cases h; exact hStartCourier_keeps
  · cases h; exact hCourierStatus_keeps
  · cases h; exact hResumeRegion_keeps
  · cases h; exact hTreeCounts_keeps
  · cases h

theorem handlers07_keeps {n : Nat} {x : Handler} (h : handlers07 n = some x) : x.keeps := by
  unfold handlers07 at h
  split at h
  · cases h; exact hAssocStatus_keeps
  · cases h; exact hEvictAssoc_keeps
  · cases h; exact hRatchetNow_keeps
  · cases h; exact hRevokePeer_keeps
  · cases h; exact hRestorePeer_keeps
  · cases h; exact hAssocCounts_keeps
  · cases h; exact hEnvelopeStatus_keeps
  · cases h

theorem handlers08_keeps {n : Nat} {x : Handler} (h : handlers08 n = some x) : x.keeps := by
  unfold handlers08 at h
  split at h
  · cases h; exact hSetNodeNumber_keeps
  · cases h; exact hSetRoute_keeps
  · cases h; exact hRouteStatus_keeps
  · cases h; exact hOpenWindow_keeps
  · cases h; exact hCloseWindow_keeps
  · cases h; exact hWindowStatus_keeps
  · cases h; exact hSetWindowOwner_keeps
  · cases h; exact hRedirect_keeps
  · cases h; exact hMapStatus_keeps
  · cases h; exact hSetDeadTargetTimeout_keeps
  · cases h; exact hOpenFence_keeps
  · cases h; exact hCloseFence_keeps
  · cases h; exact hArmFence_keeps
  · cases h; exact hFenceStatus_keeps
  · cases h; exact hRemoteCounts_keeps
  · cases h

theorem handlers09_keeps {n : Nat} {x : Handler} (h : handlers09 n = some x) : x.keeps := by
  unfold handlers09 at h
  split at h
  · cases h; exact hActivateReduction_keeps
  · cases h; exact hCancelReduction_keeps
  · cases h; exact hReductionStatus_keeps
  · cases h; exact hGroupStatus_keeps
  · cases h; exact hReductionCounts_keeps
  · cases h

theorem handlers0A_keeps {n : Nat} {x : Handler} (h : handlers0A n = some x) : x.keeps := by
  unfold handlers0A at h
  split at h
  · cases h; exact hMasterStatus_keeps
  · cases h; exact hInternalStatus_keeps
  · cases h; exact hRegulationCounts_keeps
  · cases h

theorem handlers0B_keeps {n : Nat} {x : Handler} (h : handlers0B n = some x) : x.keeps := by
  unfold handlers0B at h
  split at h
  · cases h; exact hPowerStatus_keeps
  · cases h; exact hSetPowerLimits_keeps
  · cases h; exact hSetRailLimits_keeps
  · cases h; exact hGrantLease_keeps
  · cases h; exact hReleaseLease_keeps
  · cases h; exact hLoadUserCalibration_keeps
  · cases h; exact hCalibrationStatus_keeps
  · cases h; exact hSetFrequencyMode_keeps
  · cases h; exact hSetThermalLimit_keeps
  · cases h; exact hThrottleStatus_keeps
  · cases h; exact hPowerSample_keeps
  · cases h; exact hMarginSweep_keeps
  · cases h; exact hMarginStatus_keeps
  · cases h

theorem handlers0C_keeps {n : Nat} {x : Handler} (h : handlers0C n = some x) : x.keeps := by
  unfold handlers0C at h
  split at h
  · cases h; exact hFaultStatus_keeps
  · cases h; exact hHealthStatus_keeps
  · cases h; exact hSetPostcards_keeps
  · cases h; exact hSuspectList_keeps
  · cases h; exact hWaitForGraph_keeps
  · cases h; exact hSetMailbagBuffer_keeps
  · cases h; exact hResetPartition_keeps
  · cases h; exact hReplaySuspects_keeps
  · cases h; exact hContextFaults_keeps
  · cases h

theorem handlers0D_keeps {n : Nat} {x : Handler} (h : handlers0D n = some x) : x.keeps := by
  unfold handlers0D at h
  split at h
  · cases h; exact hTimebaseStatus_keeps
  · cases h; exact hTraceStart_keeps
  · cases h; exact hTraceStop_keeps
  · cases h; exact hTraceTrigger_keeps
  · cases h; exact hTraceStatus_keeps
  · cases h; exact hTraceMark_keeps
  · cases h; exact hCounterSelect_keeps
  · cases h; exact hCounterSnapshot_keeps
  · cases h; exact hCounterRead_keeps
  · cases h; exact hJobCounters_keeps
  · cases h; exact hDeadLetterCounts_keeps
  · cases h

/-- No opcode's handler touches anything lasting. -/
theorem handlerFor_keeps (op : Nat) (x : Handler) (h : handlerFor op = some x) : x.keeps := by
  unfold handlerFor at h
  split at h
  · exact handlers01_keeps h
  · exact handlers02_keeps h
  · exact handlers03_keeps h
  · exact handlers04_keeps h
  · exact handlers05_keeps h
  · exact handlers06_keeps h
  · exact handlers07_keeps h
  · exact handlers08_keeps h
  · exact handlers09_keeps h
  · exact handlers0A_keeps h
  · exact handlers0B_keeps h
  · exact handlers0C_keeps h
  · exact handlers0D_keeps h
  · cases h

@[simp] theorem State.takeDue_lasting (s : State) : s.takeDue.lasting = s.lasting := by
  unfold State.takeDue
  split
  · exact State.placeDue_lasting _ _ handlerFor_keeps
  · rfl

@[simp] theorem State.ahead_lasting (s : State) (lb : Nat) : (s.ahead lb).lasting = s.lasting := by
  unfold State.ahead
  split
  · rfl
  · exact State.takeDue_lasting s

@[simp] theorem State.ended_lasting (s : State) : s.ended.lasting = s.lasting := by
  unfold State.ended
  rw [State.waitMarks_lasting, State.wakes_lasting, State.finish_lasting _ _ _ handlerFor_keeps State.takeDue_lasting, State.settled_lasting]

theorem State.atPort_lasting (s : State) (port : Nat) (f : State → State) (h : ∀ u, (f u).lasting = u.lasting) :
    (s.atPort port f).lasting = s.lasting := by
  unfold State.atPort
  split
  · rw [h, State.portAlive_lasting]
  · rfl

@[simp] theorem State.packetArrives_lasting (s : State) (op lb : Nat) (via : Via) (p : Packet) :
    (s.packetArrives op lb via p).lasting = s.lasting := by
  unfold State.packetArrives
  split
  · exact State.arrive_lasting _ _ _ _ _ _ handlerFor_keeps
  · exact State.atPort_lasting _ _ _ (fun _ => State.arrive_lasting _ _ _ _ _ _ handlerFor_keeps)

/-- Every letterbox command answers a next state, and touches nothing lasting. -/
theorem State.command_lasting (s : State) (op lb : Nat) (via : Via) (p : Packet) :
    ∃ t, s.command op lb via p = .next t ∧ t.lasting = s.lasting :=
  ⟨_, rfl, by rw [State.ended_lasting, State.packetArrives_lasting, State.ahead_lasting]⟩

@[simp] theorem State.keyDelivered_lasting (s : State) (id : Nat) : (s.keyDelivered id).lasting = s.lasting := by
  unfold State.keyDelivered
  split
  · rfl
  · dsimp only
    split
    · split
      · simp only [State.dataKeyDelivered_lasting, State.scheduleRoom_lasting, State.keyHeldBy_lasting, Lasting.of_mk, Lasting.eta]
      · simp only [State.turn_lasting, State.runBacks_lasting, State.scheduleRoom_lasting]
    · exact State.ratchetKeys_lasting ..
    · simp only [State.reduceKeyDelivered_lasting, State.keyHeldBy_lasting, Lasting.of_mk, Lasting.eta]

end Machine
end Sys2Proof
end

