-- ==== Sys2Proof/Laws/LastingExec.lean ====
section
/-!
SUPPORT. Laws/LastingExec.lean: every command but a life-cycle step, the tamper input, the reset, a start and a loss of power
answers a next state in which the queue, the fuse array, power, the reset and the TAMPER_HELD latch are as they were.
-/

-- One theorem after another: side by side, each holds a thread (NOTES.md).
set_option Elab.async false

namespace Sys2Proof
namespace Machine

set_option linter.unusedSimpArgs false

theorem execNop_lasting (lb : Nat) (via : Via) (p : Packet) (s : State) :
    ∃ t, execNop lb via p s = .next t ∧ t.lasting = s.lasting :=
  State.command_lasting ..

theorem execIdentify_lasting (lb : Nat) (via : Via) (p : Packet) (s : State) :
    ∃ t, execIdentify lb via p s = .next t ∧ t.lasting = s.lasting :=
  State.command_lasting ..

theorem execRenewSession_lasting (lb : Nat) (via : Via) (p : Packet) (s : State) :
    ∃ t, execRenewSession lb via p s = .next t ∧ t.lasting = s.lasting :=
  State.command_lasting ..

theorem execSubscribe_lasting (lb : Nat) (via : Via) (p : Packet) (s : State) :
    ∃ t, execSubscribe lb via p s = .next t ∧ t.lasting = s.lasting :=
  State.command_lasting ..

theorem execReadDropCounts_lasting (lb : Nat) (via : Via) (p : Packet) (s : State) :
    ∃ t, execReadDropCounts lb via p s = .next t ∧ t.lasting = s.lasting :=
  State.command_lasting ..

theorem execCancelQueued_lasting (lb : Nat) (via : Via) (p : Packet) (s : State) :
    ∃ t, execCancelQueued lb via p s = .next t ∧ t.lasting = s.lasting :=
  State.command_lasting ..

theorem execSetRootLink_lasting (lb : Nat) (via : Via) (p : Packet) (s : State) :
    ∃ t, execSetRootLink lb via p s = .next t ∧ t.lasting = s.lasting :=
  State.command_lasting ..

theorem execLifecycleStatus_lasting (lb : Nat) (via : Via) (p : Packet) (s : State) :
    ∃ t, execLifecycleStatus lb via p s = .next t ∧ t.lasting = s.lasting :=
  State.command_lasting ..

theorem execEnterTest_lasting (lb : Nat) (via : Via) (p : Packet) (s : State) :
    ∃ t, execEnterTest lb via p s = .next t ∧ t.lasting = s.lasting :=
  State.command_lasting ..

theorem execEnrolProduction_lasting (lb : Nat) (via : Via) (p : Packet) (s : State) :
    ∃ t, execEnrolProduction lb via p s = .next t ∧ t.lasting = s.lasting :=
  State.command_lasting ..

theorem execEnterEndOfLife_lasting (lb : Nat) (via : Via) (p : Packet) (s : State) :
    ∃ t, execEnterEndOfLife lb via p s = .next t ∧ t.lasting = s.lasting :=
  State.command_lasting ..

theorem execKeyVaultStatus_lasting (lb : Nat) (via : Via) (p : Packet) (s : State) :
    ∃ t, execKeyVaultStatus lb via p s = .next t ∧ t.lasting = s.lasting :=
  State.command_lasting ..

theorem execDigestStatus_lasting (lb : Nat) (via : Via) (p : Packet) (s : State) :
    ∃ t, execDigestStatus lb via p s = .next t ∧ t.lasting = s.lasting :=
  State.command_lasting ..

theorem execAttest_lasting (lb : Nat) (via : Via) (p : Packet) (s : State) :
    ∃ t, execAttest lb via p s = .next t ∧ t.lasting = s.lasting :=
  State.command_lasting ..

theorem execReadMeasurements_lasting (lb : Nat) (via : Via) (p : Packet) (s : State) :
    ∃ t, execReadMeasurements lb via p s = .next t ∧ t.lasting = s.lasting :=
  State.command_lasting ..

theorem execNonce_lasting (lb : Nat) (via : Via) (p : Packet) (s : State) :
    ∃ t, execNonce lb via p s = .next t ∧ t.lasting = s.lasting :=
  State.command_lasting ..

theorem execPresentPermit_lasting (lb : Nat) (via : Via) (p : Packet) (s : State) :
    ∃ t, execPresentPermit lb via p s = .next t ∧ t.lasting = s.lasting :=
  State.command_lasting ..

theorem execClosePermit_lasting (lb : Nat) (via : Via) (p : Packet) (s : State) :
    ∃ t, execClosePermit lb via p s = .next t ∧ t.lasting = s.lasting :=
  State.command_lasting ..

theorem execPermitStatus_lasting (lb : Nat) (via : Via) (p : Packet) (s : State) :
    ∃ t, execPermitStatus lb via p s = .next t ∧ t.lasting = s.lasting :=
  State.command_lasting ..

theorem execAdmitJob_lasting (lb : Nat) (via : Via) (p : Packet) (s : State) :
    ∃ t, execAdmitJob lb via p s = .next t ∧ t.lasting = s.lasting :=
  State.command_lasting ..

theorem execTeardownJob_lasting (lb : Nat) (via : Via) (p : Packet) (s : State) :
    ∃ t, execTeardownJob lb via p s = .next t ∧ t.lasting = s.lasting :=
  State.command_lasting ..

theorem execResizeJob_lasting (lb : Nat) (via : Via) (p : Packet) (s : State) :
    ∃ t, execResizeJob lb via p s = .next t ∧ t.lasting = s.lasting :=
  State.command_lasting ..

theorem execJobStatus_lasting (lb : Nat) (via : Via) (p : Packet) (s : State) :
    ∃ t, execJobStatus lb via p s = .next t ∧ t.lasting = s.lasting :=
  State.command_lasting ..

theorem execCreatePartition_lasting (lb : Nat) (via : Via) (p : Packet) (s : State) :
    ∃ t, execCreatePartition lb via p s = .next t ∧ t.lasting = s.lasting :=
  State.command_lasting ..

theorem execResizePartition_lasting (lb : Nat) (via : Via) (p : Packet) (s : State) :
    ∃ t, execResizePartition lb via p s = .next t ∧ t.lasting = s.lasting :=
  State.command_lasting ..

theorem execDestroyPartition_lasting (lb : Nat) (via : Via) (p : Packet) (s : State) :
    ∃ t, execDestroyPartition lb via p s = .next t ∧ t.lasting = s.lasting :=
  State.command_lasting ..

theorem execPartitionStatus_lasting (lb : Nat) (via : Via) (p : Packet) (s : State) :
    ∃ t, execPartitionStatus lb via p s = .next t ∧ t.lasting = s.lasting :=
  State.command_lasting ..

theorem execOpenContext_lasting (lb : Nat) (via : Via) (p : Packet) (s : State) :
    ∃ t, execOpenContext lb via p s = .next t ∧ t.lasting = s.lasting :=
  State.command_lasting ..

theorem execCloseContext_lasting (lb : Nat) (via : Via) (p : Packet) (s : State) :
    ∃ t, execCloseContext lb via p s = .next t ∧ t.lasting = s.lasting :=
  State.command_lasting ..

theorem execContextStatus_lasting (lb : Nat) (via : Via) (p : Packet) (s : State) :
    ∃ t, execContextStatus lb via p s = .next t ∧ t.lasting = s.lasting :=
  State.command_lasting ..

theorem execRegionStatus_lasting (lb : Nat) (via : Via) (p : Packet) (s : State) :
    ∃ t, execRegionStatus lb via p s = .next t ∧ t.lasting = s.lasting :=
  State.command_lasting ..

theorem execSealRegion_lasting (lb : Nat) (via : Via) (p : Packet) (s : State) :
    ∃ t, execSealRegion lb via p s = .next t ∧ t.lasting = s.lasting :=
  State.command_lasting ..

theorem execSetWcWindow_lasting (lb : Nat) (via : Via) (p : Packet) (s : State) :
    ∃ t, execSetWcWindow lb via p s = .next t ∧ t.lasting = s.lasting :=
  State.command_lasting ..

theorem execZeroSectors_lasting (lb : Nat) (via : Via) (p : Packet) (s : State) :
    ∃ t, execZeroSectors lb via p s = .next t ∧ t.lasting = s.lasting :=
  State.command_lasting ..

theorem execRetireKeyIndex_lasting (lb : Nat) (via : Via) (p : Packet) (s : State) :
    ∃ t, execRetireKeyIndex lb via p s = .next t ∧ t.lasting = s.lasting :=
  State.command_lasting ..

theorem execKeyIndexStatus_lasting (lb : Nat) (via : Via) (p : Packet) (s : State) :
    ∃ t, execKeyIndexStatus lb via p s = .next t ∧ t.lasting = s.lasting :=
  State.command_lasting ..

theorem execSectorCounts_lasting (lb : Nat) (via : Via) (p : Packet) (s : State) :
    ∃ t, execSectorCounts lb via p s = .next t ∧ t.lasting = s.lasting :=
  State.command_lasting ..

theorem execTreeStatus_lasting (lb : Nat) (via : Via) (p : Packet) (s : State) :
    ∃ t, execTreeStatus lb via p s = .next t ∧ t.lasting = s.lasting :=
  State.command_lasting ..

theorem execResetSubtree_lasting (lb : Nat) (via : Via) (p : Packet) (s : State) :
    ∃ t, execResetSubtree lb via p s = .next t ∧ t.lasting = s.lasting :=
  State.command_lasting ..

theorem execStartCourier_lasting (lb : Nat) (via : Via) (p : Packet) (s : State) :
    ∃ t, execStartCourier lb via p s = .next t ∧ t.lasting = s.lasting :=
  State.command_lasting ..

theorem execCourierStatus_lasting (lb : Nat) (via : Via) (p : Packet) (s : State) :
    ∃ t, execCourierStatus lb via p s = .next t ∧ t.lasting = s.lasting :=
  State.command_lasting ..

theorem execResumeRegion_lasting (lb : Nat) (via : Via) (p : Packet) (s : State) :
    ∃ t, execResumeRegion lb via p s = .next t ∧ t.lasting = s.lasting :=
  State.command_lasting ..

theorem execTreeCounts_lasting (lb : Nat) (via : Via) (p : Packet) (s : State) :
    ∃ t, execTreeCounts lb via p s = .next t ∧ t.lasting = s.lasting :=
  State.command_lasting ..

theorem execAssocStatus_lasting (lb : Nat) (via : Via) (p : Packet) (s : State) :
    ∃ t, execAssocStatus lb via p s = .next t ∧ t.lasting = s.lasting :=
  State.command_lasting ..

theorem execEvictAssoc_lasting (lb : Nat) (via : Via) (p : Packet) (s : State) :
    ∃ t, execEvictAssoc lb via p s = .next t ∧ t.lasting = s.lasting :=
  State.command_lasting ..

theorem execRatchetNow_lasting (lb : Nat) (via : Via) (p : Packet) (s : State) :
    ∃ t, execRatchetNow lb via p s = .next t ∧ t.lasting = s.lasting :=
  State.command_lasting ..

theorem execRevokePeer_lasting (lb : Nat) (via : Via) (p : Packet) (s : State) :
    ∃ t, execRevokePeer lb via p s = .next t ∧ t.lasting = s.lasting :=
  State.command_lasting ..

theorem execRestorePeer_lasting (lb : Nat) (via : Via) (p : Packet) (s : State) :
    ∃ t, execRestorePeer lb via p s = .next t ∧ t.lasting = s.lasting :=
  State.command_lasting ..

theorem execAssocCounts_lasting (lb : Nat) (via : Via) (p : Packet) (s : State) :
    ∃ t, execAssocCounts lb via p s = .next t ∧ t.lasting = s.lasting :=
  State.command_lasting ..

theorem execEnvelopeStatus_lasting (lb : Nat) (via : Via) (p : Packet) (s : State) :
    ∃ t, execEnvelopeStatus lb via p s = .next t ∧ t.lasting = s.lasting :=
  State.command_lasting ..

theorem execSetNodeNumber_lasting (lb : Nat) (via : Via) (p : Packet) (s : State) :
    ∃ t, execSetNodeNumber lb via p s = .next t ∧ t.lasting = s.lasting :=
  State.command_lasting ..

theorem execSetRoute_lasting (lb : Nat) (via : Via) (p : Packet) (s : State) :
    ∃ t, execSetRoute lb via p s = .next t ∧ t.lasting = s.lasting :=
  State.command_lasting ..

theorem execRouteStatus_lasting (lb : Nat) (via : Via) (p : Packet) (s : State) :
    ∃ t, execRouteStatus lb via p s = .next t ∧ t.lasting = s.lasting :=
  State.command_lasting ..

theorem execOpenWindow_lasting (lb : Nat) (via : Via) (p : Packet) (s : State) :
    ∃ t, execOpenWindow lb via p s = .next t ∧ t.lasting = s.lasting :=
  State.command_lasting ..

theorem execCloseWindow_lasting (lb : Nat) (via : Via) (p : Packet) (s : State) :
    ∃ t, execCloseWindow lb via p s = .next t ∧ t.lasting = s.lasting :=
  State.command_lasting ..

theorem execWindowStatus_lasting (lb : Nat) (via : Via) (p : Packet) (s : State) :
    ∃ t, execWindowStatus lb via p s = .next t ∧ t.lasting = s.lasting :=
  State.command_lasting ..

theorem execSetWindowOwner_lasting (lb : Nat) (via : Via) (p : Packet) (s : State) :
    ∃ t, execSetWindowOwner lb via p s = .next t ∧ t.lasting = s.lasting :=
  State.command_lasting ..

theorem execRedirect_lasting (lb : Nat) (via : Via) (p : Packet) (s : State) :
    ∃ t, execRedirect lb via p s = .next t ∧ t.lasting = s.lasting :=
  State.command_lasting ..

theorem execMapStatus_lasting (lb : Nat) (via : Via) (p : Packet) (s : State) :
    ∃ t, execMapStatus lb via p s = .next t ∧ t.lasting = s.lasting :=
  State.command_lasting ..

theorem execSetDeadTargetTimeout_lasting (lb : Nat) (via : Via) (p : Packet) (s : State) :
    ∃ t, execSetDeadTargetTimeout lb via p s = .next t ∧ t.lasting = s.lasting :=
  State.command_lasting ..

theorem execOpenFence_lasting (lb : Nat) (via : Via) (p : Packet) (s : State) :
    ∃ t, execOpenFence lb via p s = .next t ∧ t.lasting = s.lasting :=
  State.command_lasting ..

theorem execCloseFence_lasting (lb : Nat) (via : Via) (p : Packet) (s : State) :
    ∃ t, execCloseFence lb via p s = .next t ∧ t.lasting = s.lasting :=
  State.command_lasting ..

theorem execArmFence_lasting (lb : Nat) (via : Via) (p : Packet) (s : State) :
    ∃ t, execArmFence lb via p s = .next t ∧ t.lasting = s.lasting :=
  State.command_lasting ..

theorem execFenceStatus_lasting (lb : Nat) (via : Via) (p : Packet) (s : State) :
    ∃ t, execFenceStatus lb via p s = .next t ∧ t.lasting = s.lasting :=
  State.command_lasting ..

theorem execRemoteCounts_lasting (lb : Nat) (via : Via) (p : Packet) (s : State) :
    ∃ t, execRemoteCounts lb via p s = .next t ∧ t.lasting = s.lasting :=
  State.command_lasting ..

theorem execActivateReduction_lasting (lb : Nat) (via : Via) (p : Packet) (s : State) :
    ∃ t, execActivateReduction lb via p s = .next t ∧ t.lasting = s.lasting :=
  State.command_lasting ..

theorem execCancelReduction_lasting (lb : Nat) (via : Via) (p : Packet) (s : State) :
    ∃ t, execCancelReduction lb via p s = .next t ∧ t.lasting = s.lasting :=
  State.command_lasting ..

theorem execReductionStatus_lasting (lb : Nat) (via : Via) (p : Packet) (s : State) :
    ∃ t, execReductionStatus lb via p s = .next t ∧ t.lasting = s.lasting :=
  State.command_lasting ..

theorem execGroupStatus_lasting (lb : Nat) (via : Via) (p : Packet) (s : State) :
    ∃ t, execGroupStatus lb via p s = .next t ∧ t.lasting = s.lasting :=
  State.command_lasting ..

theorem execReductionCounts_lasting (lb : Nat) (via : Via) (p : Packet) (s : State) :
    ∃ t, execReductionCounts lb via p s = .next t ∧ t.lasting = s.lasting :=
  State.command_lasting ..

theorem execMasterStatus_lasting (lb : Nat) (via : Via) (p : Packet) (s : State) :
    ∃ t, execMasterStatus lb via p s = .next t ∧ t.lasting = s.lasting :=
  State.command_lasting ..

theorem execInternalStatus_lasting (lb : Nat) (via : Via) (p : Packet) (s : State) :
    ∃ t, execInternalStatus lb via p s = .next t ∧ t.lasting = s.lasting :=
  State.command_lasting ..

theorem execRegulationCounts_lasting (lb : Nat) (via : Via) (p : Packet) (s : State) :
    ∃ t, execRegulationCounts lb via p s = .next t ∧ t.lasting = s.lasting :=
  State.command_lasting ..

theorem execPowerStatus_lasting (lb : Nat) (via : Via) (p : Packet) (s : State) :
    ∃ t, execPowerStatus lb via p s = .next t ∧ t.lasting = s.lasting :=
  State.command_lasting ..

theorem execSetPowerLimits_lasting (lb : Nat) (via : Via) (p : Packet) (s : State) :
    ∃ t, execSetPowerLimits lb via p s = .next t ∧ t.lasting = s.lasting :=
  State.command_lasting ..

theorem execSetRailLimits_lasting (lb : Nat) (via : Via) (p : Packet) (s : State) :
    ∃ t, execSetRailLimits lb via p s = .next t ∧ t.lasting = s.lasting :=
  State.command_lasting ..

theorem execGrantLease_lasting (lb : Nat) (via : Via) (p : Packet) (s : State) :
    ∃ t, execGrantLease lb via p s = .next t ∧ t.lasting = s.lasting :=
  State.command_lasting ..

theorem execReleaseLease_lasting (lb : Nat) (via : Via) (p : Packet) (s : State) :
    ∃ t, execReleaseLease lb via p s = .next t ∧ t.lasting = s.lasting :=
  State.command_lasting ..

theorem execLoadUserCalibration_lasting (lb : Nat) (via : Via) (p : Packet) (s : State) :
    ∃ t, execLoadUserCalibration lb via p s = .next t ∧ t.lasting = s.lasting :=
  State.command_lasting ..

theorem execCalibrationStatus_lasting (lb : Nat) (via : Via) (p : Packet) (s : State) :
    ∃ t, execCalibrationStatus lb via p s = .next t ∧ t.lasting = s.lasting :=
  State.command_lasting ..

theorem execSetFrequencyMode_lasting (lb : Nat) (via : Via) (p : Packet) (s : State) :
    ∃ t, execSetFrequencyMode lb via p s = .next t ∧ t.lasting = s.lasting :=
  State.command_lasting ..

theorem execSetThermalLimit_lasting (lb : Nat) (via : Via) (p : Packet) (s : State) :
    ∃ t, execSetThermalLimit lb via p s = .next t ∧ t.lasting = s.lasting :=
  State.command_lasting ..

theorem execThrottleStatus_lasting (lb : Nat) (via : Via) (p : Packet) (s : State) :
    ∃ t, execThrottleStatus lb via p s = .next t ∧ t.lasting = s.lasting :=
  State.command_lasting ..

theorem execPowerSample_lasting (lb : Nat) (via : Via) (p : Packet) (s : State) :
    ∃ t, execPowerSample lb via p s = .next t ∧ t.lasting = s.lasting :=
  State.command_lasting ..

theorem execMarginSweep_lasting (lb : Nat) (via : Via) (p : Packet) (s : State) :
    ∃ t, execMarginSweep lb via p s = .next t ∧ t.lasting = s.lasting :=
  State.command_lasting ..

theorem execMarginStatus_lasting (lb : Nat) (via : Via) (p : Packet) (s : State) :
    ∃ t, execMarginStatus lb via p s = .next t ∧ t.lasting = s.lasting :=
  State.command_lasting ..

theorem execFaultStatus_lasting (lb : Nat) (via : Via) (p : Packet) (s : State) :
    ∃ t, execFaultStatus lb via p s = .next t ∧ t.lasting = s.lasting :=
  State.command_lasting ..

theorem execHealthStatus_lasting (lb : Nat) (via : Via) (p : Packet) (s : State) :
    ∃ t, execHealthStatus lb via p s = .next t ∧ t.lasting = s.lasting :=
  State.command_lasting ..

theorem execSetPostcards_lasting (lb : Nat) (via : Via) (p : Packet) (s : State) :
    ∃ t, execSetPostcards lb via p s = .next t ∧ t.lasting = s.lasting :=
  State.command_lasting ..

theorem execSuspectList_lasting (lb : Nat) (via : Via) (p : Packet) (s : State) :
    ∃ t, execSuspectList lb via p s = .next t ∧ t.lasting = s.lasting :=
  State.command_lasting ..

theorem execWaitForGraphSnapshot_lasting (lb : Nat) (via : Via) (p : Packet) (s : State) :
    ∃ t, execWaitForGraphSnapshot lb via p s = .next t ∧ t.lasting = s.lasting :=
  State.command_lasting ..

theorem execWaitForGraphRead_lasting (lb : Nat) (via : Via) (p : Packet) (s : State) :
    ∃ t, execWaitForGraphRead lb via p s = .next t ∧ t.lasting = s.lasting :=
  State.command_lasting ..

theorem execSetMailbagBuffer_lasting (lb : Nat) (via : Via) (p : Packet) (s : State) :
    ∃ t, execSetMailbagBuffer lb via p s = .next t ∧ t.lasting = s.lasting :=
  State.command_lasting ..

theorem execResetPartition_lasting (lb : Nat) (via : Via) (p : Packet) (s : State) :
    ∃ t, execResetPartition lb via p s = .next t ∧ t.lasting = s.lasting :=
  State.command_lasting ..

theorem execReplaySuspects_lasting (lb : Nat) (via : Via) (p : Packet) (s : State) :
    ∃ t, execReplaySuspects lb via p s = .next t ∧ t.lasting = s.lasting :=
  State.command_lasting ..

theorem execContextFaults_lasting (lb : Nat) (via : Via) (p : Packet) (s : State) :
    ∃ t, execContextFaults lb via p s = .next t ∧ t.lasting = s.lasting :=
  State.command_lasting ..

theorem execTimebaseStatus_lasting (lb : Nat) (via : Via) (p : Packet) (s : State) :
    ∃ t, execTimebaseStatus lb via p s = .next t ∧ t.lasting = s.lasting :=
  State.command_lasting ..

theorem execTraceStart_lasting (lb : Nat) (via : Via) (p : Packet) (s : State) :
    ∃ t, execTraceStart lb via p s = .next t ∧ t.lasting = s.lasting :=
  State.command_lasting ..

theorem execTraceStop_lasting (lb : Nat) (via : Via) (p : Packet) (s : State) :
    ∃ t, execTraceStop lb via p s = .next t ∧ t.lasting = s.lasting :=
  State.command_lasting ..

theorem execTraceTrigger_lasting (lb : Nat) (via : Via) (p : Packet) (s : State) :
    ∃ t, execTraceTrigger lb via p s = .next t ∧ t.lasting = s.lasting :=
  State.command_lasting ..

theorem execTraceStatus_lasting (lb : Nat) (via : Via) (p : Packet) (s : State) :
    ∃ t, execTraceStatus lb via p s = .next t ∧ t.lasting = s.lasting :=
  State.command_lasting ..

theorem execTraceMark_lasting (lb : Nat) (via : Via) (p : Packet) (s : State) :
    ∃ t, execTraceMark lb via p s = .next t ∧ t.lasting = s.lasting :=
  State.command_lasting ..

theorem execCounterSelect_lasting (lb : Nat) (via : Via) (p : Packet) (s : State) :
    ∃ t, execCounterSelect lb via p s = .next t ∧ t.lasting = s.lasting :=
  State.command_lasting ..

theorem execCounterSnapshot_lasting (lb : Nat) (via : Via) (p : Packet) (s : State) :
    ∃ t, execCounterSnapshot lb via p s = .next t ∧ t.lasting = s.lasting :=
  State.command_lasting ..

theorem execCounterRead_lasting (lb : Nat) (via : Via) (p : Packet) (s : State) :
    ∃ t, execCounterRead lb via p s = .next t ∧ t.lasting = s.lasting :=
  State.command_lasting ..

theorem execJobCounters_lasting (lb : Nat) (via : Via) (p : Packet) (s : State) :
    ∃ t, execJobCounters lb via p s = .next t ∧ t.lasting = s.lasting :=
  State.command_lasting ..

theorem execDeadLetterCounts_lasting (lb : Nat) (via : Via) (p : Packet) (s : State) :
    ∃ t, execDeadLetterCounts lb via p s = .next t ∧ t.lasting = s.lasting :=
  State.command_lasting ..

theorem execUndefinedOpcode_lasting (opcode : BitVec 16) (lb : Nat) (via : Via) (p : Packet) (s : State) :
    ∃ t, execUndefinedOpcode opcode lb via p s = .next t ∧ t.lasting = s.lasting :=
  State.command_lasting ..

theorem execPermitExpired_lasting (s : State) :
    ∃ t, execPermitExpired s = .next t ∧ t.lasting = s.lasting :=
  ⟨_, rfl, by simp only [State.ended_lasting, lasting_ite, ite_self, State.expirePermit_lasting, State.reachOpt_lasting]⟩

theorem execAdmissionProgress_lasting (handle : Nat) (ok : Bool) (s : State) :
    ∃ t, execAdmissionProgress handle ok s = .next t ∧ t.lasting = s.lasting :=
  ⟨_, rfl, by simp only [State.ended_lasting, lasting_ite, ite_self, State.admissionProgress_lasting]⟩

theorem execJobTeardownProgress_lasting (handle : Nat) (s : State) :
    ∃ t, execJobTeardownProgress handle s = .next t ∧ t.lasting = s.lasting :=
  ⟨_, rfl, by simp only [State.ended_lasting, lasting_ite, ite_self, State.teardownProgress_lasting]⟩

theorem execPartitionResizeProgress_lasting (part : Nat) (s : State) :
    ∃ t, execPartitionResizeProgress part s = .next t ∧ t.lasting = s.lasting :=
  ⟨_, rfl, by simp only [State.ended_lasting, lasting_ite, ite_self, State.partitionResizeProgress_lasting]⟩

theorem execContextCloseProgress_lasting (ctx : Nat) (s : State) :
    ∃ t, execContextCloseProgress ctx s = .next t ∧ t.lasting = s.lasting :=
  ⟨_, rfl, by simp only [State.ended_lasting, lasting_ite, ite_self, State.closeProgress_lasting]⟩

theorem execRetirementProgress_lasting (handle index : Nat) (s : State) :
    ∃ t, execRetirementProgress handle index s = .next t ∧ t.lasting = s.lasting :=
  ⟨_, rfl, by simp only [State.ended_lasting, lasting_ite, ite_self, State.retirementProgress_lasting]⟩

theorem execRedirectWaitTimeout_lasting (handle peer : Nat) (s : State) :
    ∃ t, execRedirectWaitTimeout handle peer s = .next t ∧ t.lasting = s.lasting :=
  ⟨_, rfl, by simp only [State.ended_lasting, lasting_ite, ite_self, State.reachOpt_lasting, State.redirectTimeout_lasting]⟩

theorem execMarginSweepStep_lasting (tile : Nat) (alarm : Bool) (s : State) :
    ∃ t, execMarginSweepStep tile alarm s = .next t ∧ t.lasting = s.lasting :=
  ⟨_, rfl, by simp only [State.ended_lasting, lasting_ite, ite_self, State.reachOpt_lasting, State.sweepStep_lasting]⟩

theorem execPartitionResetProgress_lasting (part : Nat) (ev : ResetEvent) (s : State) :
    ∃ t, execPartitionResetProgress part ev s = .next t ∧ t.lasting = s.lasting :=
  ⟨_, rfl, by simp only [State.ended_lasting, lasting_ite, ite_self, State.resetProgress_lasting]⟩

theorem execSuspectProbeTimeout_lasting (part : Nat) (s : State) :
    ∃ t, execSuspectProbeTimeout part s = .next t ∧ t.lasting = s.lasting :=
  ⟨_, rfl, by simp only [State.ended_lasting, lasting_ite, ite_self, State.probeTimeout_lasting, State.reachOpt_lasting]⟩

theorem execUnitReadTimeout_lasting (part : Nat) (s : State) :
    ∃ t, execUnitReadTimeout part s = .next t ∧ t.lasting = s.lasting :=
  ⟨_, rfl, by simp only [State.ended_lasting, lasting_ite, ite_self, State.reachOpt_lasting, State.unitReadTimeout_lasting]⟩

theorem execMailbagDeadline_lasting (part : Nat) (s : State) :
    ∃ t, execMailbagDeadline part s = .next t ∧ t.lasting = s.lasting :=
  ⟨_, rfl, by simp only [State.ended_lasting, lasting_ite, ite_self, State.mailbagDeadline_lasting, State.reachOpt_lasting]⟩

theorem execThrottleEnd_lasting (lb : Nat) (s : State) :
    ∃ t, execThrottleEnd lb s = .next t ∧ t.lasting = s.lasting :=
  ⟨_, rfl, by simp only [State.ended_lasting, lasting_ite, ite_self, State.reachOpt_lasting, State.throttleEnd_lasting]⟩

theorem execFabricPacketGapTimeout_lasting (lb : Nat) (sequence : BitVec 32) (s : State) :
    ∃ t, execFabricPacketGapTimeout lb sequence s = .next t ∧ t.lasting = s.lasting :=
  ⟨_, rfl, by simp only [State.ended_lasting, lasting_ite, ite_self, State.gapTimeout_lasting, State.reachOpt_lasting]⟩

theorem execManagementLinkAck_lasting (lb noticeSeq : Nat) (s : State) :
    ∃ t, execManagementLinkAck lb noticeSeq s = .next t ∧ t.lasting = s.lasting :=
  ⟨_, rfl, by simp only [State.ended_lasting, lasting_ite, ite_self, State.linkAck_lasting]⟩

theorem execPosteRestantePlaceDue_lasting (s : State) :
    ∃ t, execPosteRestantePlaceDue s = .next t ∧ t.lasting = s.lasting :=
  ⟨_, rfl, by simp only [State.ended_lasting, lasting_ite, ite_self, State.placeDue_lasting _ _ handlerFor_keeps, State.reach_lasting]⟩

theorem execMsixQuietEnd_lasting (link vector : Nat) (s : State) :
    ∃ t, execMsixQuietEnd link vector s = .next t ∧ t.lasting = s.lasting :=
  ⟨_, rfl, by simp only [State.ended_lasting, lasting_ite, ite_self, State.quietEnd_lasting, State.reachOpt_lasting]⟩

theorem execLbxControlWrite_lasting (link lb : Nat) (value : BitVec 64) (s : State) :
    ∃ t, execLbxControlWrite link lb value s = .next t ∧ t.lasting = s.lasting :=
  ⟨_, rfl, by simp only [State.ended_lasting, lasting_ite, ite_self, State.lbxControl_lasting]⟩

theorem execEnvControlWrite_lasting (link handle : Nat) (value : BitVec 64) (s : State) :
    ∃ t, execEnvControlWrite link handle value s = .next t ∧ t.lasting = s.lasting :=
  ⟨_, rfl, by simp only [State.ended_lasting, lasting_ite, ite_self, State.envControl_lasting]⟩

theorem execRegisterWrite_lasting (link offset : Nat) (value : BitVec 64) (s : State) :
    ∃ t, execRegisterWrite link offset value s = .next t ∧ t.lasting = s.lasting :=
  ⟨_, rfl, by simp only [State.ended_lasting, lasting_ite, ite_self, State.registerWrite_lasting]⟩

theorem execEnvelopeToDevice_lasting (link handle : Nat) (d : EnvDesc) (page : Bytes) (s : State) :
    ∃ t, execEnvelopeToDevice link handle d page s = .next t ∧ t.lasting = s.lasting :=
  ⟨_, rfl, by simp only [State.ended_lasting, lasting_ite, ite_self, State.envelopeTo_lasting]⟩

theorem execEnvelopeToHost_lasting (link handle : Nat) (d : EnvDesc) (s : State) :
    ∃ t, execEnvelopeToHost link handle d s = .next t ∧ t.lasting = s.lasting :=
  ⟨_, rfl, by simp only [State.ended_lasting, lasting_ite, ite_self, State.envelopeTo_lasting]⟩

theorem execFwLoadGo_lasting (link : Nat) (value : BitVec 64) (s : State) :
    ∃ t, execFwLoadGo link value s = .next t ∧ t.lasting = s.lasting :=
  ⟨_, rfl, by simp only [State.ended_lasting, lasting_ite, ite_self, State.fwControl_lasting]⟩

theorem execFirmwareImageFetched_lasting (image : FwImage) (s : State) :
    ∃ t, execFirmwareImageFetched image s = .next t ∧ t.lasting = s.lasting :=
  ⟨_, rfl, by simp only [State.ended_lasting, lasting_ite, ite_self, State.imageFetched_lasting]⟩

theorem execBar2Read_lasting (link : Nat) (offset : BitVec 64) (length tag : Nat) (s : State) :
    ∃ t, execBar2Read link offset length tag s = .next t ∧ t.lasting = s.lasting :=
  ⟨_, rfl, by simp only [State.ended_lasting, lasting_ite, ite_self, State.barReadMem_lasting]⟩

theorem execBar2Write_lasting (link : Nat) (offset : BitVec 64) (data : Bytes) (s : State) :
    ∃ t, execBar2Write link offset data s = .next t ∧ t.lasting = s.lasting :=
  ⟨_, rfl, by simp only [State.ended_lasting, lasting_ite, ite_self, State.barWriteMem_lasting]⟩

theorem execTileRead_lasting (tile : Nat) (h : TileHead) (s : State) :
    ∃ t, execTileRead tile h s = .next t ∧ t.lasting = s.lasting :=
  ⟨_, rfl, by simp only [State.ended_lasting, lasting_ite, ite_self, State.tileAccess_lasting]⟩

theorem execTileWrite_lasting (tile : Nat) (h : TileHead) (data : Bytes) (mask : List Bool) (laneFault : Bool) (s : State) :
    ∃ t, execTileWrite tile h data mask laneFault s = .next t ∧ t.lasting = s.lasting :=
  ⟨_, rfl, by simp only [State.ended_lasting, lasting_ite, ite_self, State.verifyLane_lasting, State.tileAccess_lasting]⟩

theorem execTileAtomic_lasting (tile : Nat) (h : TileHead) (s : State) :
    ∃ t, execTileAtomic tile h s = .next t ∧ t.lasting = s.lasting :=
  ⟨_, rfl, by simp only [State.ended_lasting, lasting_ite, ite_self, State.tileAccess_lasting]⟩

theorem execTileFence_lasting (tile : Nat) (h : TileHead) (s : State) :
    ∃ t, execTileFence tile h s = .next t ∧ t.lasting = s.lasting :=
  ⟨_, rfl, by simp only [State.ended_lasting, lasting_ite, ite_self, State.tileFenceAsk_lasting]⟩

theorem execReduceContribute_lasting (tile : Nat) (h : TileHead) (image : Bytes) (s : State) :
    ∃ t, execReduceContribute tile h image s = .next t ∧ t.lasting = s.lasting :=
  ⟨_, rfl, by simp only [State.ended_lasting, lasting_ite, ite_self, State.contributeAsk_lasting]⟩

theorem execKeyDelivered_lasting (request : Nat) (laneFault : Bool) (s : State) :
    ∃ t, execKeyDelivered request laneFault s = .next t ∧ t.lasting = s.lasting :=
  ⟨_, rfl, by simp only [State.ended_lasting, lasting_ite, ite_self, State.verifyLane_lasting, State.keyDelivered_lasting]⟩

theorem execMemoryReadData_lasting (stack op : Nat) (d : SectorData) (laneFault : Bool) (s : State) :
    ∃ t, execMemoryReadData stack op d laneFault s = .next t ∧ t.lasting = s.lasting :=
  ⟨_, rfl, by simp only [State.ended_lasting, lasting_ite, ite_self, State.verifyLane_lasting, State.memoryData_lasting]⟩

theorem execMemoryWriteAccepted_lasting (stack op : Nat) (s : State) :
    ∃ t, execMemoryWriteAccepted stack op s = .next t ∧ t.lasting = s.lasting :=
  ⟨_, rfl, by simp only [State.ended_lasting, lasting_ite, ite_self, State.memoryAccepted_lasting]⟩

theorem execMetadataFetchReturn_lasting (island fetch : Nat) (bytes : Bytes) (ue laneFault : Bool) (s : State) :
    ∃ t, execMetadataFetchReturn island fetch bytes ue laneFault s = .next t ∧ t.lasting = s.lasting :=
  ⟨_, rfl, by simp only [State.ended_lasting, lasting_ite, ite_self, State.verifyLane_lasting, State.metaReturn_lasting]⟩

theorem execStreamTrackerExpired_lasting (island tracker : Nat) (s : State) :
    ∃ t, execStreamTrackerExpired island tracker s = .next t ∧ t.lasting = s.lasting :=
  ⟨_, rfl, by simp only [State.ended_lasting, lasting_ite, ite_self, State.reachOpt_lasting, State.trackerExpired_lasting]⟩

theorem execWcWindowExpired_lasting (island region sector : Nat) (s : State) :
    ∃ t, execWcWindowExpired island region sector s = .next t ∧ t.lasting = s.lasting :=
  ⟨_, rfl, by simp only [State.ended_lasting, lasting_ite, ite_self, State.reachOpt_lasting, State.windowExpired_lasting]⟩

theorem execLeafWrap_lasting (island region leaf : Nat) (sectors : List SectorData) (laneFault : Bool) (s : State) :
    ∃ t, execLeafWrap island region leaf sectors laneFault s = .next t ∧ t.lasting = s.lasting :=
  ⟨_, rfl, by simp only [State.ended_lasting, lasting_ite, ite_self, State.verifyLane_lasting, State.leafWrap_lasting]⟩

theorem execCourierPassStart_lasting (s : State) :
    ∃ t, execCourierPassStart s = .next t ∧ t.lasting = s.lasting :=
  ⟨_, rfl, by simp only [State.ended_lasting, lasting_ite, ite_self, State.passStart_lasting]⟩

theorem execCourierStep_lasting (region : Nat) (d : SectorData) (laneFault : Bool) (s : State) :
    ∃ t, execCourierStep region d laneFault s = .next t ∧ t.lasting = s.lasting :=
  ⟨_, rfl, by simp only [State.ended_lasting, lasting_ite, ite_self, State.verifyLane_lasting, State.courierStep_lasting]⟩

theorem execTrayReadData_lasting (port op : Nat) (d : SectorData) (laneFault : Bool) (s : State) :
    ∃ t, execTrayReadData port op d laneFault s = .next t ∧ t.lasting = s.lasting :=
  ⟨_, rfl, by rw [State.ended_lasting]; exact (State.atPort_lasting _ _ _ (fun _ => by simp only [State.trayData_lasting])).trans (State.verifyLane_lasting ..)⟩

theorem execTrayWriteAck_lasting (port op : Nat) (s : State) :
    ∃ t, execTrayWriteAck port op s = .next t ∧ t.lasting = s.lasting :=
  ⟨_, rfl, by rw [State.ended_lasting]; exact State.atPort_lasting _ _ _ (fun _ => by simp only [State.trayAck_lasting])⟩

theorem execHelloReceived_lasting (port : Nat) (p : MsgPacket) (s : State) :
    ∃ t, execHelloReceived port p s = .next t ∧ t.lasting = s.lasting :=
  ⟨_, rfl, by rw [State.ended_lasting]; exact State.atPort_lasting _ _ _ (fun _ => by simp only [State.message_lasting])⟩

theorem execAcceptReceived_lasting (port : Nat) (p : MsgPacket) (s : State) :
    ∃ t, execAcceptReceived port p s = .next t ∧ t.lasting = s.lasting :=
  ⟨_, rfl, by rw [State.ended_lasting]; exact State.atPort_lasting _ _ _ (fun _ => by simp only [State.message_lasting])⟩

theorem execConfirmReceived_lasting (port : Nat) (p : MsgPacket) (s : State) :
    ∃ t, execConfirmReceived port p s = .next t ∧ t.lasting = s.lasting :=
  ⟨_, rfl, by rw [State.ended_lasting]; exact State.atPort_lasting _ _ _ (fun _ => by simp only [State.message_lasting])⟩

theorem execRefuseReceived_lasting (port : Nat) (p : MsgPacket) (s : State) :
    ∃ t, execRefuseReceived port p s = .next t ∧ t.lasting = s.lasting :=
  ⟨_, rfl, by rw [State.ended_lasting]; exact State.atPort_lasting _ _ _ (fun _ => by simp only [State.message_lasting])⟩

theorem execHelloResendTimer_lasting (job peer : Nat) (s : State) :
    ∃ t, execHelloResendTimer job peer s = .next t ∧ t.lasting = s.lasting :=
  ⟨_, rfl, by simp only [State.ended_lasting, lasting_ite, ite_self, State.helloResend_lasting, State.reachOpt_lasting]⟩

theorem execHandshakeTimeout_lasting (job peer : Nat) (s : State) :
    ∃ t, execHandshakeTimeout job peer s = .next t ∧ t.lasting = s.lasting :=
  ⟨_, rfl, by simp only [State.ended_lasting, lasting_ite, ite_self, State.handshakeTimeout_lasting, State.reachOpt_lasting]⟩

theorem execAnsweredAttemptExpired_lasting (job peer : Nat) (s : State) :
    ∃ t, execAnsweredAttemptExpired job peer s = .next t ∧ t.lasting = s.lasting :=
  ⟨_, rfl, by simp only [State.ended_lasting, lasting_ite, ite_self, State.attemptExpired_lasting, State.reachOpt_lasting]⟩

theorem execRatchetReceived_lasting (port : Nat) (p : MsgPacket) (s : State) :
    ∃ t, execRatchetReceived port p s = .next t ∧ t.lasting = s.lasting :=
  ⟨_, rfl, by rw [State.ended_lasting]; exact State.atPort_lasting _ _ _ (fun _ => by simp only [State.message_lasting])⟩

theorem execRatchetEpochTimer_lasting (job peer : Nat) (s : State) :
    ∃ t, execRatchetEpochTimer job peer s = .next t ∧ t.lasting = s.lasting :=
  ⟨_, rfl, by simp only [State.ended_lasting, lasting_ite, ite_self, State.epochTimer_lasting, State.reachOpt_lasting]⟩

theorem execRatchetKeysReady_lasting (job peer : Nat) (laneFault : Bool) (s : State) :
    ∃ t, execRatchetKeysReady job peer laneFault s = .next t ∧ t.lasting = s.lasting :=
  ⟨_, rfl, by simp only [State.ended_lasting, lasting_ite, ite_self, State.verifyLane_lasting, State.ratchetKeys_lasting]⟩

theorem execRatchetResendTimer_lasting (job peer : Nat) (s : State) :
    ∃ t, execRatchetResendTimer job peer s = .next t ∧ t.lasting = s.lasting :=
  ⟨_, rfl, by simp only [State.ended_lasting, lasting_ite, ite_self, State.ratchetResend_lasting, State.reachOpt_lasting]⟩

theorem execEpochDrainTimer_lasting (job peer : Nat) (s : State) :
    ∃ t, execEpochDrainTimer job peer s = .next t ∧ t.lasting = s.lasting :=
  ⟨_, rfl, by simp only [State.ended_lasting, lasting_ite, ite_self, State.drainTimer_lasting, State.reachOpt_lasting]⟩

theorem execRemoteLoad_lasting (port : Nat) (p : MsgPacket) (s : State) :
    ∃ t, execRemoteLoad port p s = .next t ∧ t.lasting = s.lasting :=
  ⟨_, rfl, by rw [State.ended_lasting]; exact State.atPort_lasting _ _ _ (fun _ => by simp only [State.message_lasting])⟩

theorem execRemoteStore_lasting (port : Nat) (p : MsgPacket) (laneFault : Bool) (s : State) :
    ∃ t, execRemoteStore port p laneFault s = .next t ∧ t.lasting = s.lasting :=
  ⟨_, rfl, by rw [State.ended_lasting]; exact (State.atPort_lasting _ _ _ (fun _ => by simp only [State.message_lasting])).trans (State.verifyLane_lasting ..)⟩

theorem execRemoteAtomic_lasting (port : Nat) (p : MsgPacket) (s : State) :
    ∃ t, execRemoteAtomic port p s = .next t ∧ t.lasting = s.lasting :=
  ⟨_, rfl, by rw [State.ended_lasting]; exact State.atPort_lasting _ _ _ (fun _ => by simp only [State.message_lasting])⟩

theorem execDrainMarker_lasting (port : Nat) (p : MsgPacket) (s : State) :
    ∃ t, execDrainMarker port p s = .next t ∧ t.lasting = s.lasting :=
  ⟨_, rfl, by rw [State.ended_lasting]; exact State.atPort_lasting _ _ _ (fun _ => by simp only [State.message_lasting])⟩

theorem execRedirectReceived_lasting (port : Nat) (p : MsgPacket) (s : State) :
    ∃ t, execRedirectReceived port p s = .next t ∧ t.lasting = s.lasting :=
  ⟨_, rfl, by rw [State.ended_lasting]; exact State.atPort_lasting _ _ _ (fun _ => by simp only [State.message_lasting])⟩

theorem execRedirectAck_lasting (port : Nat) (p : MsgPacket) (s : State) :
    ∃ t, execRedirectAck port p s = .next t ∧ t.lasting = s.lasting :=
  ⟨_, rfl, by rw [State.ended_lasting]; exact State.atPort_lasting _ _ _ (fun _ => by simp only [State.message_lasting])⟩

theorem execLoadResponse_lasting (port : Nat) (p : MsgPacket) (s : State) :
    ∃ t, execLoadResponse port p s = .next t ∧ t.lasting = s.lasting :=
  ⟨_, rfl, by rw [State.ended_lasting]; exact State.atPort_lasting _ _ _ (fun _ => by simp only [State.message_lasting])⟩

theorem execStoreAck_lasting (port : Nat) (p : MsgPacket) (s : State) :
    ∃ t, execStoreAck port p s = .next t ∧ t.lasting = s.lasting :=
  ⟨_, rfl, by rw [State.ended_lasting]; exact State.atPort_lasting _ _ _ (fun _ => by simp only [State.message_lasting])⟩

theorem execAtomicResponse_lasting (port : Nat) (p : MsgPacket) (s : State) :
    ∃ t, execAtomicResponse port p s = .next t ∧ t.lasting = s.lasting :=
  ⟨_, rfl, by rw [State.ended_lasting]; exact State.atPort_lasting _ _ _ (fun _ => by simp only [State.message_lasting])⟩

theorem execDrainAck_lasting (port : Nat) (p : MsgPacket) (s : State) :
    ∃ t, execDrainAck port p s = .next t ∧ t.lasting = s.lasting :=
  ⟨_, rfl, by rw [State.ended_lasting]; exact State.atPort_lasting _ _ _ (fun _ => by simp only [State.message_lasting])⟩

theorem execStoreNak_lasting (port : Nat) (p : MsgPacket) (s : State) :
    ∃ t, execStoreNak port p s = .next t ∧ t.lasting = s.lasting :=
  ⟨_, rfl, by rw [State.ended_lasting]; exact State.atPort_lasting _ _ _ (fun _ => by simp only [State.message_lasting])⟩

theorem execTrayDrainAnswer_lasting (port : Nat) (m : TrayMarker) (s : State) :
    ∃ t, execTrayDrainAnswer port m s = .next t ∧ t.lasting = s.lasting :=
  ⟨_, rfl, by rw [State.ended_lasting]; exact State.atPort_lasting _ _ _ (fun _ => by simp only [State.trayDrainAnswer_lasting])⟩

theorem execDrainMarkerTimeout_lasting (node marker : Nat) (s : State) :
    ∃ t, execDrainMarkerTimeout node marker s = .next t ∧ t.lasting = s.lasting :=
  ⟨_, rfl, by simp only [State.ended_lasting, lasting_ite, ite_self, State.markerTimeout_lasting, State.reachOpt_lasting]⟩

theorem execStoreAckTimer_lasting (job peer tc : Nat) (s : State) :
    ∃ t, execStoreAckTimer job peer tc s = .next t ∧ t.lasting = s.lasting :=
  ⟨_, rfl, by simp only [State.ended_lasting, lasting_ite, ite_self, State.ackTimer_lasting, State.reachOpt_lasting]⟩

theorem execRetransmitTimer_lasting (request : Nat) (s : State) :
    ∃ t, execRetransmitTimer request s = .next t ∧ t.lasting = s.lasting :=
  ⟨_, rfl, by simp only [State.ended_lasting, lasting_ite, ite_self, State.reachOpt_lasting, State.retransmit_lasting]⟩

theorem execDeadTargetTimeout_lasting (request : Nat) (s : State) :
    ∃ t, execDeadTargetTimeout request s = .next t ∧ t.lasting = s.lasting :=
  ⟨_, rfl, by simp only [State.ended_lasting, lasting_ite, ite_self, State.deadTimeout_lasting, State.reachOpt_lasting]⟩

theorem execReductionPacketReceived_lasting (port : Nat) (p : RedPacket) (s : State) :
    ∃ t, execReductionPacketReceived port p s = .next t ∧ t.lasting = s.lasting :=
  ⟨_, rfl, by rw [State.ended_lasting]; exact State.atPort_lasting _ _ _ (fun _ => by simp only [State.reductionPacket_lasting])⟩

theorem execReductionDeadline_lasting (descriptor : Nat) (s : State) :
    ∃ t, execReductionDeadline descriptor s = .next t ∧ t.lasting = s.lasting :=
  ⟨_, rfl, by simp only [State.ended_lasting, lasting_ite, ite_self, State.reachOpt_lasting, State.redDeadline_lasting]⟩

theorem execSlotBoundary_lasting (port : Nat) (laneFault : Bool) (s : State) :
    ∃ t, execSlotBoundary port laneFault s = .next t ∧ t.lasting = s.lasting :=
  ⟨_, rfl, by simp only [State.ended_lasting, lasting_ite, ite_self, State.verifyLane_lasting, State.slotBoundary_lasting]⟩

theorem execMaskingSlotCut_lasting (port : Nat) (s : State) :
    ∃ t, execMaskingSlotCut port s = .next t ∧ t.lasting = s.lasting :=
  ⟨_, rfl, by simp only [State.ended_lasting, lasting_ite, ite_self, State.slotCut_lasting]⟩

theorem execAgeingTimer_lasting (request : Nat) (s : State) :
    ∃ t, execAgeingTimer request s = .next t ∧ t.lasting = s.lasting :=
  ⟨_, rfl, by simp only [State.ended_lasting, lasting_ite, ite_self, State.ageing_lasting, State.reachOpt_lasting]⟩

theorem execBoostUpdate_lasting (s : State) :
    ∃ t, execBoostUpdate s = .next t ∧ t.lasting = s.lasting :=
  ⟨_, rfl, by simp only [State.ended_lasting, lasting_ite, ite_self, State.boostUpdate_lasting, State.reach_lasting]⟩

theorem execGuaranteeWindow_lasting (s : State) :
    ∃ t, execGuaranteeWindow s = .next t ∧ t.lasting = s.lasting :=
  ⟨_, rfl, by simp only [State.ended_lasting, lasting_ite, ite_self, State.guaranteeWindow_lasting, State.reach_lasting]⟩

theorem execPowerInterval_lasting (counts : List (Nat × Nat)) (s : State) :
    ∃ t, execPowerInterval counts s = .next t ∧ t.lasting = s.lasting :=
  ⟨_, rfl, by simp only [State.ended_lasting, lasting_ite, ite_self, State.powerInterval_lasting, State.reach_lasting]⟩

theorem execVoltageReached_lasting (rail : Nat) (s : State) :
    ∃ t, execVoltageReached rail s = .next t ∧ t.lasting = s.lasting :=
  ⟨_, rfl, by simp only [State.ended_lasting, lasting_ite, ite_self, State.voltageReached_lasting]⟩

theorem execRailPoll_lasting (rail : Nat) (answer : Option Telemetry) (s : State) :
    ∃ t, execRailPoll rail answer s = .next t ∧ t.lasting = s.lasting :=
  ⟨_, rfl, by simp only [State.ended_lasting, lasting_ite, ite_self, State.railPoll_lasting, State.reach_lasting]⟩

theorem execThermalRead_lasting (readings : List (Option Int)) (s : State) :
    ∃ t, execThermalRead readings s = .next t ∧ t.lasting = s.lasting :=
  ⟨_, rfl, by simp only [State.ended_lasting, lasting_ite, ite_self, State.reach_lasting, State.thermalRead_lasting]⟩

theorem execMarginCompute_lasting (lowest : List Nat) (s : State) :
    ∃ t, execMarginCompute lowest s = .next t ∧ t.lasting = s.lasting :=
  ⟨_, rfl, by simp only [State.ended_lasting, lasting_ite, ite_self, State.marginCompute_lasting, State.reach_lasting]⟩

theorem execHealthUpdate_lasting (s : State) :
    ∃ t, execHealthUpdate s = .next t ∧ t.lasting = s.lasting :=
  ⟨_, rfl, by simp only [State.ended_lasting, lasting_ite, ite_self, State.healthUpdate_lasting, State.reach_lasting]⟩

theorem execLinkMarginReport_lasting (port margin : Nat) (s : State) :
    ∃ t, execLinkMarginReport port margin s = .next t ∧ t.lasting = s.lasting :=
  ⟨_, rfl, by simp only [State.ended_lasting, lasting_ite, ite_self, State.marginReport_lasting]⟩

theorem execDroopAlarm_lasting (detector : Nat) (s : State) :
    ∃ t, execDroopAlarm detector s = .next t ∧ t.lasting = s.lasting :=
  ⟨_, rfl, by simp only [State.ended_lasting, lasting_ite, ite_self, State.droopAlarm_lasting]⟩

theorem execStretchRelease_lasting (zone : Nat) (s : State) :
    ∃ t, execStretchRelease zone s = .next t ∧ t.lasting = s.lasting :=
  ⟨_, rfl, by simp only [State.ended_lasting, lasting_ite, ite_self, State.reachOpt_lasting, State.stretchRelease_lasting]⟩

theorem execDroopPersistent_lasting (zone : Nat) (s : State) :
    ∃ t, execDroopPersistent zone s = .next t ∧ t.lasting = s.lasting :=
  ⟨_, rfl, by simp only [State.ended_lasting, lasting_ite, ite_self, State.droopPersistent_lasting, State.reachOpt_lasting]⟩

theorem execLeaseLapsed_lasting (s : State) :
    ∃ t, execLeaseLapsed s = .next t ∧ t.lasting = s.lasting :=
  ⟨_, rfl, by simp only [State.ended_lasting, lasting_ite, ite_self, State.leaseLapsed_lasting, State.reachOpt_lasting]⟩

theorem execThermTripAsserted_lasting (s : State) :
    ∃ t, execThermTripAsserted s = .next t ∧ t.lasting = s.lasting :=
  ⟨_, rfl, by simp only [State.ended_lasting, lasting_ite, ite_self, State.tripOn_lasting]⟩

theorem execThermTripDeasserted_lasting (s : State) :
    ∃ t, execThermTripDeasserted s = .next t ∧ t.lasting = s.lasting :=
  ⟨_, rfl, by simp only [State.ended_lasting, lasting_ite, ite_self, State.tripOff_lasting]⟩

theorem execPwrAlertAsserted_lasting (alerting : List Nat) (s : State) :
    ∃ t, execPwrAlertAsserted alerting s = .next t ∧ t.lasting = s.lasting :=
  ⟨_, rfl, by simp only [State.ended_lasting, lasting_ite, ite_self, State.alertAsserted_lasting]⟩

theorem execPwrAlertDeasserted_lasting (s : State) :
    ∃ t, execPwrAlertDeasserted s = .next t ∧ t.lasting = s.lasting :=
  ⟨_, rfl, by simp only [State.ended_lasting, lasting_ite, ite_self, State.alertDeasserted_lasting]⟩

theorem execFuseSupplyOutOfRange_lasting (s : State) :
    ∃ t, execFuseSupplyOutOfRange s = .next t ∧ t.lasting = s.lasting :=
  ⟨_, rfl, by simp only [State.ended_lasting, lasting_ite, ite_self, State.fuseSupplyLost_lasting]⟩

theorem execRefclkLost_lasting (s : State) :
    ∃ t, execRefclkLost s = .next t ∧ t.lasting = s.lasting :=
  ⟨_, rfl, by simp only [State.ended_lasting, lasting_ite, ite_self, State.clockLost_lasting]⟩

theorem execMcReady_lasting (stack : Nat) (s : State) :
    ∃ t, execMcReady stack s = .next t ∧ t.lasting = s.lasting :=
  ⟨_, rfl, by simp only [State.ended_lasting, lasting_ite, ite_self, State.mcReady_lasting]⟩

theorem execMcReadyDeadline_lasting (stack : Nat) (s : State) :
    ∃ t, execMcReadyDeadline stack s = .next t ∧ t.lasting = s.lasting :=
  ⟨_, rfl, by simp only [State.ended_lasting, lasting_ite, ite_self, State.mcDeadline_lasting, State.reach_lasting]⟩

theorem execFabricLinkDown_lasting (port : Nat) (s : State) :
    ∃ t, execFabricLinkDown port s = .next t ∧ t.lasting = s.lasting :=
  ⟨_, rfl, by simp only [State.ended_lasting, lasting_ite, ite_self, State.fabricDown_lasting]⟩

theorem execFabricLinkUp_lasting (port : Nat) (s : State) :
    ∃ t, execFabricLinkUp port s = .next t ∧ t.lasting = s.lasting :=
  ⟨_, rfl, by simp only [State.ended_lasting, lasting_ite, ite_self, State.fabricUp_lasting]⟩

theorem execHostLinkDown_lasting (link : Nat) (s : State) :
    ∃ t, execHostLinkDown link s = .next t ∧ t.lasting = s.lasting :=
  ⟨_, rfl, by simp only [State.ended_lasting, lasting_ite, ite_self, State.hostDown_lasting]⟩

theorem execHostLinkTrained_lasting (link : Nat) (s : State) :
    ∃ t, execHostLinkTrained link s = .next t ∧ t.lasting = s.lasting :=
  ⟨_, rfl, by simp only [State.ended_lasting, lasting_ite, ite_self, State.hostTrained_lasting]⟩

theorem execMemoryChannelWatchdog_lasting (stack : Nat) (s : State) :
    ∃ t, execMemoryChannelWatchdog stack s = .next t ∧ t.lasting = s.lasting :=
  ⟨_, rfl, by simp only [State.ended_lasting, lasting_ite, ite_self, State.memoryWatchdog_lasting, State.reachOpt_lasting]⟩

theorem execPortLogicWatchdog_lasting (port : Nat) (s : State) :
    ∃ t, execPortLogicWatchdog port s = .next t ∧ t.lasting = s.lasting :=
  ⟨_, rfl, by simp only [State.ended_lasting, lasting_ite, ite_self, State.portWatchdog_lasting]⟩

theorem execTileCrossbarWatchdog_lasting (tile : Nat) (s : State) :
    ∃ t, execTileCrossbarWatchdog tile s = .next t ∧ t.lasting = s.lasting :=
  ⟨_, rfl, by simp only [State.ended_lasting, lasting_ite, ite_self, State.tileWatchdog_lasting]⟩

theorem execHostLinkWatchdog_lasting (link : Nat) (s : State) :
    ∃ t, execHostLinkWatchdog link s = .next t ∧ t.lasting = s.lasting :=
  ⟨_, rfl, by simp only [State.ended_lasting, lasting_ite, ite_self, State.hostWatchdog_lasting]⟩

theorem execDigestWatchdog_lasting (pair : Nat) (kat : List Bool) (s : State) :
    ∃ t, execDigestWatchdog pair kat s = .next t ∧ t.lasting = s.lasting :=
  ⟨_, rfl, by simp only [State.ended_lasting, lasting_ite, ite_self, State.digestWatchdog_lasting]⟩

theorem execCpWatchdog_lasting (s : State) :
    ∃ t, execCpWatchdog s = .next t ∧ t.lasting = s.lasting :=
  ⟨_, rfl, by simp only [State.ended_lasting, lasting_ite, ite_self, State.cpWatchdog_lasting]⟩

theorem execDigestCallEnd_lasting (pair : Nat) (equal : Bool) (kat : List Bool) (s : State) :
    ∃ t, execDigestCallEnd pair equal kat s = .next t ∧ t.lasting = s.lasting :=
  ⟨_, rfl, by simp only [State.ended_lasting, lasting_ite, ite_self, State.callEnd_lasting]⟩

theorem execPostcardTimer_lasting (s : State) :
    ∃ t, execPostcardTimer s = .next t ∧ t.lasting = s.lasting :=
  ⟨_, rfl, by simp only [State.ended_lasting, lasting_ite, ite_self, State.postcardTimer_lasting, State.reachOpt_lasting]⟩

theorem execPostcardAckReceived_lasting (a : PostcardAck) (s : State) :
    ∃ t, execPostcardAckReceived a s = .next t ∧ t.lasting = s.lasting :=
  ⟨_, rfl, by simp only [State.ended_lasting, lasting_ite, ite_self, State.postcardAck_lasting]⟩

theorem execTraceConsumedPoll_lasting (consumed : Nat) (s : State) :
    ∃ t, execTraceConsumedPoll consumed s = .next t ∧ t.lasting = s.lasting :=
  ⟨_, rfl, by simp only [State.ended_lasting, lasting_ite, ite_self, State.consumedPoll_lasting, State.reach_lasting]⟩

theorem execTracePostmarkTrigger_lasting (s : State) :
    ∃ t, execTracePostmarkTrigger s = .next t ∧ t.lasting = s.lasting :=
  ⟨_, rfl, by simp only [State.ended_lasting, lasting_ite, ite_self, State.postmarkTrigger_lasting, State.reachOpt_lasting]⟩

theorem execTraceDrainEmpty_lasting (s : State) :
    ∃ t, execTraceDrainEmpty s = .next t ∧ t.lasting = s.lasting :=
  ⟨_, rfl, by simp only [State.ended_lasting, lasting_ite, ite_self, State.drainEmpty_lasting]⟩

theorem execCounterSnapshotLatch_lasting (s : State) :
    ∃ t, execCounterSnapshotLatch s = .next t ∧ t.lasting = s.lasting :=
  ⟨_, rfl, by simp only [State.ended_lasting, lasting_ite, ite_self, State.reachOpt_lasting, State.snapshotLatch_lasting]⟩

theorem execCounterPeriodLatch_lasting (s : State) :
    ∃ t, execCounterPeriodLatch s = .next t ∧ t.lasting = s.lasting :=
  ⟨_, rfl, by simp only [State.ended_lasting, lasting_ite, ite_self, State.periodLatch_lasting, State.reachOpt_lasting]⟩

theorem execTapInstruction_lasting (i : TapInstr) (s : State) :
    ∃ t, execTapInstruction i s = .next t ∧ t.lasting = { s.lasting with fuses := (s.tapInstruction i).fuses } :=
  ⟨_, rfl, by simp only [State.ended_lasting, State.tapInstruction_lasting]⟩

theorem execLbxDoorbellWrite_lasting (link lb : Nat) (value : BitVec 64) (s : State) :
    ∃ t, execLbxDoorbellWrite link lb value s = .next t ∧ t.lasting = s.lasting :=
  ⟨_, rfl, by simp only [State.ended_lasting, lasting_ite, ite_self, State.lbxDoorbell_lasting]⟩

theorem execRatchetSpacingElapsed_lasting (job peer : Nat) (s : State) :
    ∃ t, execRatchetSpacingElapsed job peer s = .next t ∧ t.lasting = s.lasting :=
  ⟨_, rfl, by simp only [State.ended_lasting, lasting_ite, ite_self, State.reachOpt_lasting, State.spacingElapsed_lasting]⟩

end Machine
end Sys2Proof
end

