-- ==== Sys2Proof/Laws/Seals.lean ====
section
/-!
SUPPORT. Laws/Seals.lean: what GCM sealed, GCM opens (SP 800-38D), and the bytes of a number give the number back.
-/

-- One theorem after another: side by side, each holds a thread (NOTES.md).
set_option Elab.async false

namespace Sys2Proof
namespace Machine

/-! ### Bytes and numbers -/

theorem ofLe_le (n v : Nat) : ofLe (le n v) = v % 256 ^ n := by
  induction n generalizing v with
  | zero => simp [le, ofLe, Nat.mod_one]
  | succ n ih =>
    have h : (BitVec.ofNat 8 v).toNat = v % 256 := BitVec.toNat_ofNat v 8
    simp only [le, ofLe, ih, h]
    rw [Nat.pow_succ', Nat.mod_mul]

@[simp] theorem le_length (n v : Nat) : (le n v).length = n := by
  induction n generalizing v with
  | zero => rfl
  | succ n ih => simp [le, ih]

theorem le_ofLe (b : Bytes) : le b.length (ofLe b) = b := by
  induction b with
  | nil => rfl
  | cons x r ih =>
    have hx : x.toNat < 256 := x.isLt
    have h1 : (x.toNat + 256 * ofLe r) / 256 = ofLe r := by omega
    simp only [List.length_cons, ofLe, le, h1, ih]
    congr 1
    apply BitVec.eq_of_toNat_eq
    simp only [BitVec.toNat_ofNat]
    omega

theorem ofLe_lt (b : Bytes) : ofLe b < 256 ^ b.length := by
  induction b with
  | nil => simp [ofLe]
  | cons x r ih =>
    have hx : x.toNat < 256 := x.isLt
    simp only [ofLe, List.length_cons, Nat.pow_succ']
    omega

/-- A number written as a bit vector of its bytes reads back as those bytes. -/
theorem bytesOf_ofLe (b : Bytes) (w : Nat) (h : w = 8 * b.length) : bytesOf (BitVec.ofNat w (ofLe b)) = b := by
  subst h
  have hl := ofLe_lt b
  have hp : (256 : Nat) ^ b.length = 2 ^ (8 * b.length) := by rw [Nat.pow_mul]
  simp only [bytesOf, BitVec.toNat_ofNat, Nat.mul_div_cancel_left _ (by decide : 0 < 8)]
  rw [Nat.mod_eq_of_lt (hp ▸ hl), le_ofLe]

/-! ### GCTR is its own inverse -/

/-- The key stream of `n` blocks from increment `i` on. -/
def keyStream (k : Key) (j : BitVec 128) : Nat → Nat → Bytes
  | 0, _ => []
  | n + 1, i => be 16 (aesBE k (incr j i)).toNat ++ keyStream k j n (i + 1)

theorem be_length (n v : Nat) : (be n v).length = n := by simp [be]

theorem keyStream_length (k : Key) (j : BitVec 128) (n i : Nat) : (keyStream k j n i).length = 16 * n := by
  induction n generalizing i with
  | zero => rfl
  | succ n ih => simp only [keyStream, List.length_append, be_length, ih]; omega

theorem zip_map_xor (a b : Bytes) : (a.zip b).map (fun x => x.1 ^^^ x.2) = a.zipWith (· ^^^ ·) b := by
  rw [List.zip, List.map_zipWith]

theorem take_zipWith_append (b z s : Bytes) (h : b.length ≤ s.length) :
    ((b ++ z).zipWith (· ^^^ ·) s).take b.length = b.zipWith (· ^^^ ·) s := by
  induction b generalizing s with
  | nil => simp
  | cons x r ih =>
    cases s with
    | nil => simp at h
    | cons y t =>
      simp only [List.cons_append, List.zipWith_cons_cons, List.length_cons, List.take_succ_cons]
      rw [ih t (by simpa using h)]

theorem zipWith_append_right (b s r : Bytes) (h : b.length ≤ s.length) :
    b.zipWith (· ^^^ ·) (s ++ r) = b.zipWith (· ^^^ ·) s := by
  induction b generalizing s with
  | nil => simp
  | cons x q ih =>
    cases s with
    | nil => simp at h
    | cons y t =>
      simp only [List.cons_append, List.zipWith_cons_cons]
      rw [ih t (by simpa using h)]

/-- GCTR takes a string and its key stream together, byte by byte. -/
theorem gctr_pieces (k : Key) (j : BitVec 128) (n i : Nat) (b : Bytes) (h : b.length ≤ 16 * n) :
    (((pieces n b).zipIdx i).flatMap (fun e =>
      (e.1.zip (be 16 (aesBE k (incr j e.2)).toNat)).map (fun x => x.1 ^^^ x.2))).take b.length
    = b.zipWith (· ^^^ ·) (keyStream k j n i) := by
  induction n generalizing i b with
  | zero =>
    have hb : b = [] := List.eq_nil_of_length_eq_zero (by omega)
    subst hb
    rfl
  | succ n ih =>
    have hk := be_length 16 (aesBE k (incr j i)).toNat
    have ih' := ih (i + 1) (b.drop 16) (by rw [List.length_drop]; omega)
    simp only [pieces, List.zipIdx_cons, List.flatMap_cons, zip_map_xor, keyStream] at ih' ⊢
    by_cases hb : 16 ≤ b.length
    · have hs : slice b 0 16 = b.take 16 := by
        have : (b.take 16).length = 16 := by rw [List.length_take]; omega
        simp [slice, this, zeros]
      have ht : (b.take 16).length = 16 := by rw [List.length_take]; omega
      have hx : ((b.take 16).zipWith (· ^^^ ·) (be 16 (aesBE k (incr j i)).toNat)).length = 16 := by
        rw [List.length_zipWith, ht, hk]; rfl
      rw [hs, List.take_append, hx, List.take_of_length_le (by rw [hx]; exact hb)]
      rw [List.length_drop] at ih'
      rw [ih']
      conv => rhs; rw [← List.take_append_drop 16 b]
      rw [List.zipWith_append (by rw [ht, hk])]
    · have hs : slice b 0 16 = b ++ zeros (16 - b.length) := by
        simp [slice, List.take_of_length_le (by omega : b.length ≤ 16)]
      have hz : (zeros (16 - b.length)).length = 16 - b.length := by simp [zeros]
      have hx : ((slice b 0 16).zipWith (· ^^^ ·) (be 16 (aesBE k (incr j i)).toNat)).length = 16 := by
        rw [List.length_zipWith, hs, List.length_append, hz, hk]; omega
      rw [List.take_append_of_le_length (by rw [hx]; omega), hs, take_zipWith_append _ _ _ (by omega),
        zipWith_append_right _ _ _ (by omega)]

theorem gctr_eq (k : Key) (j : BitVec 128) (b : Bytes) :
    gctr k j b = b.zipWith (· ^^^ ·) (keyStream k j ((b.length + 15) / 16) 0) :=
  gctr_pieces k j _ 0 b (by omega)

@[simp] theorem gctr_length (k : Key) (j : BitVec 128) (b : Bytes) : (gctr k j b).length = b.length := by
  rw [gctr_eq, List.length_zipWith, keyStream_length]
  omega

theorem xor_twice (b s : Bytes) (h : b.length ≤ s.length) :
    (b.zipWith (· ^^^ ·) s).zipWith (· ^^^ ·) s = b := by
  induction b generalizing s with
  | nil => simp
  | cons x r ih =>
    cases s with
    | nil => simp at h
    | cons y t =>
      simp only [List.zipWith_cons_cons, BitVec.xor_assoc, BitVec.xor_self, BitVec.xor_zero]
      rw [ih t (by simpa using h)]

theorem gctr_gctr (k : Key) (j : BitVec 128) (b : Bytes) : gctr k j (gctr k j b) = b := by
  have h : (gctr k j b).length = b.length := gctr_length k j b
  rw [gctr_eq k j (gctr k j b), h, gctr_eq k j b]
  exact xor_twice _ _ (by rw [keyStream_length]; omega)

theorem gcmTag_length (k : Key) (iv aad ct : Bytes) : (gcmTag k iv aad ct).length = 16 := by
  simp only [gcmTag, gctr_length, be_length]

/-- What GCM sealed, GCM opens under the same key, vector and head. -/
theorem gcmOpen_gcmSeal (k : Key) (iv aad pt : Bytes) :
    gcmOpen k iv aad (gcmSeal k iv aad pt).1 (gcmSeal k iv aad pt).2 = some pt := by
  unfold gcmOpen gcmSeal
  simp only [if_true, gctr_gctr]

/-- The same of a tag that is kept as a number. -/
theorem gcmOpen_tag (k : Key) (iv aad pt : Bytes) :
    gcmOpen k iv aad (gcmSeal k iv aad pt).1 (bytesOf (BitVec.ofNat 128 (ofLe (gcmSeal k iv aad pt).2))) = some pt := by
  rw [bytesOf_ofLe _ 128 (by unfold gcmSeal; simp only [gcmTag_length])]
  exact gcmOpen_gcmSeal k iv aad pt

end Machine
end Sys2Proof
end

