-- ==== Sys2Proof/WellFormed.lean ====
section
/-!
DEFINITION. WellFormed.lean: the ranges of the operands of a command, as the manual numbers what they name.

No meaning needs them: exec is total.  They say which commands a partner can present.
-/

namespace Sys2Proof

/-- A packet came through one of the two links, or from a node at one of the 32 ports (R63, R485). -/
def Via.wellFormed : Via → Bool
  | .host l => decide (l < 2)
  | .fabric p n => decide (p < 32) && decide (n < 65536)

/-- The operands of a letterbox command: one of the 64 letterboxes (R32), a way in, and a body that fits a packet (R39). -/
def boxWellFormed (lb : Nat) (via : Via) (p : Packet) : Bool :=
  decide (lb < 64) && via.wellFormed && decide (p.body.length ≤ 4032)

/-- An entry of the activity counters: one of 4,096 (R389). -/
def countWellFormed (e : Nat × Nat) : Bool := decide (e.1 < 4096)

/-- The operands of a command lie in their ranges. -/
def Instr.wellFormed (i : Instr) : Bool :=
  match i with
  | .nop lb via p => boxWellFormed lb via p
  | .identify lb via p => boxWellFormed lb via p
  | .renewSession lb via p => boxWellFormed lb via p
  | .subscribe lb via p => boxWellFormed lb via p
  | .readDropCounts lb via p => boxWellFormed lb via p
  | .cancelQueued lb via p => boxWellFormed lb via p
  | .setRootLink lb via p => boxWellFormed lb via p
  | .lifecycleStatus lb via p => boxWellFormed lb via p
  | .enterTest lb via p => boxWellFormed lb via p
  | .enrolProduction lb via p => boxWellFormed lb via p
  | .enterEndOfLife lb via p => boxWellFormed lb via p
  | .keyVaultStatus lb via p => boxWellFormed lb via p
  | .lifecycleTransitionProgress _ _ => true
  | .digestStatus lb via p => boxWellFormed lb via p
  | .attest lb via p => boxWellFormed lb via p
  | .readMeasurements lb via p => boxWellFormed lb via p
  | .nonce lb via p => boxWellFormed lb via p
  | .presentPermit lb via p => boxWellFormed lb via p
  | .closePermit lb via p => boxWellFormed lb via p
  | .permitStatus lb via p => boxWellFormed lb via p
  | .permitExpired => true
  | .admitJob lb via p => boxWellFormed lb via p
  | .admissionProgress handle _ => decide (handle < 256)
  | .teardownJob lb via p => boxWellFormed lb via p
  | .jobTeardownProgress handle => decide (handle < 256)
  | .resizeJob lb via p => boxWellFormed lb via p
  | .jobStatus lb via p => boxWellFormed lb via p
  | .createPartition lb via p => boxWellFormed lb via p
  | .resizePartition lb via p => boxWellFormed lb via p
  | .partitionResizeProgress part => decide (part < 16)
  | .destroyPartition lb via p => boxWellFormed lb via p
  | .partitionStatus lb via p => boxWellFormed lb via p
  | .openContext lb via p => boxWellFormed lb via p
  | .closeContext lb via p => boxWellFormed lb via p
  | .contextCloseProgress ctx => decide (ctx < 4096)
  | .contextStatus lb via p => boxWellFormed lb via p
  | .regionStatus lb via p => boxWellFormed lb via p
  | .sealRegion lb via p => boxWellFormed lb via p
  | .setWcWindow lb via p => boxWellFormed lb via p
  | .zeroSectors lb via p => boxWellFormed lb via p
  | .retireKeyIndex lb via p => boxWellFormed lb via p
  | .retirementProgress handle index => decide (handle < 256) && decide (index < 2 ^ 20)
  | .keyIndexStatus lb via p => boxWellFormed lb via p
  | .sectorCounts lb via p => boxWellFormed lb via p
  | .treeStatus lb via p => boxWellFormed lb via p
  | .resetSubtree lb via p => boxWellFormed lb via p
  | .startCourier lb via p => boxWellFormed lb via p
  | .courierStatus lb via p => boxWellFormed lb via p
  | .resumeRegion lb via p => boxWellFormed lb via p
  | .treeCounts lb via p => boxWellFormed lb via p
  | .assocStatus lb via p => boxWellFormed lb via p
  | .evictAssoc lb via p => boxWellFormed lb via p
  | .ratchetNow lb via p => boxWellFormed lb via p
  | .revokePeer lb via p => boxWellFormed lb via p
  | .restorePeer lb via p => boxWellFormed lb via p
  | .assocCounts lb via p => boxWellFormed lb via p
  | .envelopeStatus lb via p => boxWellFormed lb via p
  | .setNodeNumber lb via p => boxWellFormed lb via p
  | .setRoute lb via p => boxWellFormed lb via p
  | .routeStatus lb via p => boxWellFormed lb via p
  | .openWindow lb via p => boxWellFormed lb via p
  | .closeWindow lb via p => boxWellFormed lb via p
  | .windowStatus lb via p => boxWellFormed lb via p
  | .setWindowOwner lb via p => boxWellFormed lb via p
  | .redirect lb via p => boxWellFormed lb via p
  | .redirectWaitTimeout handle peer => decide (handle < 256) && decide (peer < 65536)
  | .mapStatus lb via p => boxWellFormed lb via p
  | .setDeadTargetTimeout lb via p => boxWellFormed lb via p
  | .openFence lb via p => boxWellFormed lb via p
  | .closeFence lb via p => boxWellFormed lb via p
  | .armFence lb via p => boxWellFormed lb via p
  | .fenceStatus lb via p => boxWellFormed lb via p
  | .remoteCounts lb via p => boxWellFormed lb via p
  | .activateReduction lb via p => boxWellFormed lb via p
  | .cancelReduction lb via p => boxWellFormed lb via p
  | .reductionStatus lb via p => boxWellFormed lb via p
  | .groupStatus lb via p => boxWellFormed lb via p
  | .reductionCounts lb via p => boxWellFormed lb via p
  | .masterStatus lb via p => boxWellFormed lb via p
  | .internalStatus lb via p => boxWellFormed lb via p
  | .regulationCounts lb via p => boxWellFormed lb via p
  | .powerStatus lb via p => boxWellFormed lb via p
  | .setPowerLimits lb via p => boxWellFormed lb via p
  | .setRailLimits lb via p => boxWellFormed lb via p
  | .grantLease lb via p => boxWellFormed lb via p
  | .releaseLease lb via p => boxWellFormed lb via p
  | .loadUserCalibration lb via p => boxWellFormed lb via p
  | .calibrationStatus lb via p => boxWellFormed lb via p
  | .setFrequencyMode lb via p => boxWellFormed lb via p
  | .setThermalLimit lb via p => boxWellFormed lb via p
  | .throttleStatus lb via p => boxWellFormed lb via p
  | .powerSample lb via p => boxWellFormed lb via p
  | .marginSweep lb via p => boxWellFormed lb via p
  | .marginSweepStep tile _ => decide (tile < 16)
  | .marginStatus lb via p => boxWellFormed lb via p
  | .faultStatus lb via p => boxWellFormed lb via p
  | .healthStatus lb via p => boxWellFormed lb via p
  | .setPostcards lb via p => boxWellFormed lb via p
  | .suspectList lb via p => boxWellFormed lb via p
  | .waitForGraphSnapshot lb via p => boxWellFormed lb via p
  | .waitForGraphRead lb via p => boxWellFormed lb via p
  | .setMailbagBuffer lb via p => boxWellFormed lb via p
  | .resetPartition lb via p => boxWellFormed lb via p
  | .partitionResetProgress part _ => decide (part < 16)
  | .suspectProbeTimeout part => decide (part < 16)
  | .unitReadTimeout part => decide (part < 16)
  | .mailbagDeadline part => decide (part < 16)
  | .replaySuspects lb via p => boxWellFormed lb via p
  | .contextFaults lb via p => boxWellFormed lb via p
  | .timebaseStatus lb via p => boxWellFormed lb via p
  | .traceStart lb via p => boxWellFormed lb via p
  | .traceStop lb via p => boxWellFormed lb via p
  | .traceTrigger lb via p => boxWellFormed lb via p
  | .traceStatus lb via p => boxWellFormed lb via p
  | .traceMark lb via p => boxWellFormed lb via p
  | .counterSelect lb via p => boxWellFormed lb via p
  | .counterSnapshot lb via p => boxWellFormed lb via p
  | .counterRead lb via p => boxWellFormed lb via p
  | .jobCounters lb via p => boxWellFormed lb via p
  | .deadLetterCounts lb via p => boxWellFormed lb via p
  | .throttleEnd lb => decide (lb < 64)
  | .fabricPacketGapTimeout lb _ => decide (lb < 64)
  | .managementLinkAck lb noticeSeq => decide (lb < 64) && decide (noticeSeq < 2 ^ 32)
  | .posteRestantePlaceDue => true
  | .msixQuietEnd link vector => decide (link < 2) && decide (vector < 321)
  | .lbxControlWrite link lb _ => decide (link < 2) && decide (lb < 64)
  | .envControlWrite link handle _ => decide (link < 2) && decide (handle < 256)
  | .registerWrite link offset _ => decide (link < 2) && decide (offset < 2 ^ 23)
  | .envelopeToDevice link handle _ page => decide (link < 2) && decide (handle < 256) && decide (page.length ≤ 4096)
  | .envelopeToHost link handle _ => decide (link < 2) && decide (handle < 256)
  | .fwLoadGo link _ => decide (link < 2)
  | .firmwareImageFetched _ => true
  | .bar2Read link _ length _ => decide (link < 2) && decide (1 ≤ length) && decide (length ≤ 4096)
  | .bar2Write link _ data => decide (link < 2) && decide (1 ≤ data.length) && decide (data.length ≤ 4096)
  | .tileRead tile _ => decide (tile < 16)
  | .tileWrite tile _ data mask _ => decide (tile < 16) && data.length == mask.length && decide (data.length ≤ 4096)
  | .tileAtomic tile _ => decide (tile < 16)
  | .tileFence tile _ => decide (tile < 16)
  | .reduceContribute tile _ image => decide (tile < 16) && decide (image.length ≤ 512)
  | .keyDelivered _ _ => true
  | .memoryReadData stack _ d _ => decide (stack < 16) && decide (d.bytes.length ≤ 1024)
  | .memoryWriteAccepted stack _ => decide (stack < 16)
  | .metadataFetchReturn island _ bytes _ _ => decide (island % 64 < 48) && decide (island < 128) && decide (bytes.length ≤ 72)
  | .streamTrackerExpired island _ => decide (island < 48)
  | .wcWindowExpired island region _ => decide (island < 48) && decide (region < 16384)
  | .leafWrap island region _ sectors _ => decide (island < 48) && decide (region < 16384) && decide (sectors.length ≤ 64)
  | .courierPassStart => true
  | .courierStep region d _ => decide (region < 16384) && decide (d.bytes.length ≤ 1024)
  | .trayReadData port _ d _ => decide (port < 32) && decide (d.bytes.length ≤ 1024)
  | .trayWriteAck port _ => decide (port < 64)
  | .helloReceived port _ => decide (port < 32)
  | .acceptReceived port _ => decide (port < 32)
  | .confirmReceived port _ => decide (port < 32)
  | .refuseReceived port _ => decide (port < 32)
  | .helloResendTimer job peer => decide (job < 256) && decide (peer < 65536)
  | .handshakeTimeout job peer => decide (job < 256) && decide (peer < 65536)
  | .answeredAttemptExpired job peer => decide (job < 256) && decide (peer < 65536)
  | .ratchetReceived port _ => decide (port < 32)
  | .ratchetEpochTimer job peer => decide (job < 256) && decide (peer < 65536)
  | .ratchetKeysReady job peer _ => decide (job < 256) && decide (peer < 65536)
  | .ratchetResendTimer job peer => decide (job < 256) && decide (peer < 65536)
  | .epochDrainTimer job peer => decide (job < 256) && decide (peer < 65536)
  | .remoteLoad port _ => decide (port < 32)
  | .remoteStore port _ _ => decide (port < 32)
  | .remoteAtomic port _ => decide (port < 32)
  | .drainMarker port _ => decide (port < 32)
  | .redirectReceived port _ => decide (port < 32)
  | .redirectAck port _ => decide (port < 32)
  | .loadResponse port _ => decide (port < 32)
  | .storeAck port _ => decide (port < 32)
  | .atomicResponse port _ => decide (port < 32)
  | .drainAck port _ => decide (port < 32)
  | .storeNak port _ => decide (port < 32)
  | .trayDrainAnswer port _ => decide (port < 32)
  | .drainMarkerTimeout node _ => decide (node < 65536)
  | .storeAckTimer job peer tc => decide (job < 256) && decide (peer < 65536) && decide (tc < 4)
  | .retransmitTimer _ => true
  | .deadTargetTimeout _ => true
  | .reductionPacketReceived port p => decide (port < 32) && p.lanes.length == 65
  | .reductionDeadline descriptor => decide (descriptor < 1024)
  | .slotBoundary port _ => decide (port < 32)
  | .maskingSlotCut port => decide (port < 32)
  | .ageingTimer _ => true
  | .boostUpdate => true
  | .guaranteeWindow => true
  | .powerInterval counts => counts.all countWellFormed
  | .voltageReached rail => decide (rail < 8)
  | .railPoll rail _ => decide (rail < 8)
  | .thermalRead readings => readings.length == 96
  | .marginCompute lowest => lowest.length == 64
  | .healthUpdate => true
  | .linkMarginReport port margin => decide (port < 32) && decide (margin < 256)
  | .droopAlarm detector => decide (detector < 64)
  | .stretchRelease zone => decide (zone < 16)
  | .droopPersistent zone => decide (zone < 16)
  | .leaseLapsed => true
  | .thermTripAsserted => true
  | .thermTripDeasserted => true
  | .pwrAlertAsserted alerting => alerting.all (fun r => decide (r < 8))
  | .pwrAlertDeasserted => true
  | .tamper => true
  | .rstNAsserted => true
  | .start i => i.kat.length == 4
  | .powerLoss => true
  | .fuseSupplyOutOfRange => true
  | .refclkLost => true
  | .mcReady stack => decide (stack < 16)
  | .mcReadyDeadline stack => decide (stack < 16)
  | .fabricLinkDown port => decide (port < 32)
  | .fabricLinkUp port => decide (port < 32)
  | .hostLinkDown link => decide (link < 2)
  | .hostLinkTrained link => decide (link < 2)
  | .memoryChannelWatchdog stack => decide (stack < 16)
  | .portLogicWatchdog port => decide (port < 32)
  | .tileCrossbarWatchdog tile => decide (tile < 16)
  | .hostLinkWatchdog link => decide (link < 2)
  | .digestWatchdog pair kat => decide (pair < 2) && kat.length == 4
  | .cpWatchdog => true
  | .digestCallEnd pair _ kat => decide (pair < 2) && kat.length == 4
  | .postcardTimer => true
  | .postcardAckReceived _ => true
  | .traceConsumedPoll consumed => decide (consumed < 2 ^ 32)
  | .tracePostmarkTrigger => true
  | .traceDrainEmpty => true
  | .counterSnapshotLatch => true
  | .counterPeriodLatch => true
  | .tapInstruction _ => true
  | .undefinedOpcode _ lb via p => boxWellFormed lb via p
  | .lbxDoorbellWrite link lb _ => decide (link < 2) && decide (lb < 64)
  | .ratchetSpacingElapsed job peer => decide (job < 256) && decide (peer < 65536)

end Sys2Proof
end

