-- ==== Sys2Proof/Tests/Slice0.lean ====
section
/-!
SUPPORT. Tests/Slice0.lean: small checks, each of one command on a small state: for each statement, states and operands that
meet its hypotheses; ill-formed commands that WellFormed refuses; worked examples of the manual.
-/

/- Each kernel-checked decision below waits until every earlier theorem has been checked. One after another, these theorems
hold one thread; all at once, each of them would hold a thread of its own for that wait. -/
set_option Elab.async false

namespace Sys2Proof
namespace Machine

/-! ### A small state, and commands sealed for letterbox 0 -/

/-- The key of the test's letterboxes. -/
def tKey : Key := 7

def tBox : Lbx :=
  { state := .opened, binding := .host0, cmdLog2 := 4, rplLog2 := 4, ntcLog2 := 6, enable := true, cmdProduced := 1 }

/-- Job 5 at handle 0: contexts 0 and 1, key indices 0 to 15, region 0. -/
def tJob : Job :=
  { number := 5, state := .active, partition := 0, confidential := true, exclusive := false, teardownDead := false,
    letterbox := some 2, binding := 1, ctxBase := 0, maxContexts := 2, regBase := 0, regCount := 1, fenceQuota := 2,
    powerShare := 0, modelDigest := 0, manifestDigest := 0, admittedAt := 0, keyRanges := [{ base := 0, count := 16 }],
    windows := some 4, groups := [{ group := 1, contributors := 2, descriptors := 1, lastRound := 0 }], bandwidth := [],
    keyTable := [(3, { state := .live })] }

/-- A block in full service, in TEST, with job 5 in partition 0. -/
def tBase : State :=
  { now := 4000000000
    boot := { inReset := false, blockState := .fullService, fwRunning := true, locked := true, nodeNumber := 7, hostUp := [0],
              fabricUp := [0] }
    life := { inForce := .test }
    dg := { pairs := [(0, 1)] }
    kv := { lbx0 := some tKey, lbx1 := some tKey, lbxKeys := [(2, tKey)], jobRoots := [(0, { state := .active, job := 5, jrk := 9 })] }
    sniby := { boxes := [(0, tBox), (1, { tBox with binding := .fabric }), (2, tBox)] }
    parts := [(0, { state := .active, tiles := [0, 1] })]
    jobs := [(0, tJob)]
    ctxs := [(0, { state := .opened })]
    regions := [(0, { state := .active, cls := .confidential, handle := 0, keyLast := 15, size := 4096 })] }

/-- The command of an opcode with a body: for letterbox 0 by link 0, for letterbox 1 by port 0 from node 9; sealed under the test's
key and nonce 0. -/
def tPlain (lb : Nat) (body : Bytes) : Packet :=
  { letterbox := BitVec.ofNat 8 lb, flags := 0, sequence := 1, bodyLength := BitVec.ofNat 16 body.length, status := 0,
    retryAfter := 0, nextSeq := 0, detail := 0, revision := 0x32, reserved := 0, cookie := 0xC0, inline := 0, check := 0,
    body := body }

def tCmd (lb op : Nat) (body : Bytes) : Cmd :=
  { op := op, lb := lb, via := if lb = 1 then .fabric 0 9 else .host 0,
    p := { tPlain lb body with
      check := checkValue tKey 1 0 (headerBytes (BitVec.ofNat 16 op) (tPlain lb body) ++ body) } }

def tHeld (op : Nat) : HeldCmd :=
  { opcode := op, lb := 0, via := .host 0, packet := tPlain 0 [], op := 0, since := 0 }

def tEpoch : Epoch := { number := 1, keyTx := 11, keyRx := 12, txSeq := 1, rxHigh := 0, rxSeen := [], rxThrough := 0 }

/-- A packet comes, as a Bool. -/
def tComes (s : State) (c : Cmd) : Bool :=
  match c.via with
  | .host l => (s.box c.lb).binding.link == some l && (s.box c.lb).enable && (s.box c.lb).state == .opened
      && (s.box c.lb).cmdProduced != (s.box c.lb).cmdConsumed
  | .fabric port _ => s.fabricTakes port && ((s.portAlive port).box c.lb).binding == .fabric
      && ((s.portAlive port).box c.lb).state == .opened

/-- What makes a command verified, but for its check value, and then ready, as decidable conditions. -/
def tVerified (s : State) (c : Cmd) (key : Key) : Bool :=
  tComes s c && decide (c.lb < 64) && !s.placeWaits && (s.met c).cpServes && !(s.met c).boot.tamperHeld && !(s.met c).dg.pairs.isEmpty
    && (s.met c).lbxKey c.lb == some key && framed c && ((s.checking c).box c.lb).session == 0

def tReady (s : State) (h : Handler) (c : Cmd) : Bool :=
  tVerified s c tKey && c.p.sequence.toNat == (((s.checking c).noteNode c).box c.lb).nextSeq
    && !(s.admitted c).dg.aborted && (preCheck (some h) (s.admitted c) c).isNone && (!h.service || !(s.admitted c).awaitsService)

theorem verified_of {s : State} {c : Cmd} {key : Key} (r : tVerified s c key = true)
    (hc : c.p.check = checkValue key 1 0 (headerBytes (BitVec.ofNat 16 c.op) c.p ++ c.p.body)) : Verified s c key := by
  simp only [tVerified, Bool.and_eq_true, beq_iff_eq, decide_eq_true_eq, Bool.not_eq_true'] at r
  obtain ⟨⟨⟨⟨⟨⟨⟨⟨h1, h2⟩, h0⟩, h3⟩, h4⟩, h5⟩, h6⟩, h7⟩, h8⟩ := r
  exact
    { comes := by
        unfold tComes at h1
        unfold State.comes
        cases hv : c.via <;> simp only [hv, Bool.and_eq_true, beq_iff_eq, bne_iff_ne] at h1 ⊢
        · exact ⟨h1.1.1.1, h1.1.1.2, Or.inl h1.1.2, h1.2⟩
        · exact ⟨h1.1.1, h1.1.2, Or.inl h1.2⟩
      box := h2
      first := by simp [State.ahead, State.takeDue, h0]
      serves := h3
      calm := h4
      engine := by
        intro hn
        rw [hn] at h5
        cases h5
      keyed := h6
      framed := h7
      checked := by
        rw [h8]
        unfold checked
        rw [hc]
        exact beq_self_eq_true _ }

theorem ready_of {s : State} {h : Handler} {c : Cmd} (r : tReady s h c = true)
    (hc : c.p.check = checkValue tKey 1 0 (headerBytes (BitVec.ofNat 16 c.op) c.p ++ c.p.body)) : Ready s h c tKey := by
  simp only [tReady, Bool.and_eq_true, beq_iff_eq, Option.isNone_iff_eq_none, Bool.not_eq_true'] at r
  obtain ⟨⟨⟨⟨h1, h2⟩, h5⟩, h3⟩, h4⟩ := r
  exact
    { toVerified := verified_of h1 hc
      turn := h2
      whole := h5
      passes := h3
      service := by
        intro hs
        rw [hs] at h4
        simpa using h4 }

/-- A state and operands that meet every hypothesis of a `Replies`; a command at letterbox 0 or 1 needs no token (R60). -/
def Meets {α : Type} (op : Nat) (h : Handler) (good : State → Cmd → α → Prop) : Prop :=
  ∃ (s : State) (c : Cmd) (key : Key) (a : α), c.op = op ∧ c.lb < 2 ∧ Ready s h c key ∧ good (s.admitted c) c a

/-- The same for an `Accepts`: one more operation has room. -/
def MeetsHeld {α : Type} (op : Nat) (h : Handler) (good : State → Cmd → α → Prop) : Prop :=
  ∃ (s : State) (c : Cmd) (key : Key) (a : α), c.op = op ∧ c.lb < 2 ∧ Ready s h c key ∧ good (s.admitted c) c a
    ∧ (s.admitted c).opRoom c.lb = none

theorem test_no_token_needed (s : State) (lb : Nat) (h : lb < 2) : s.hasToken lb = true ∧ s.charged lb = s := by
  unfold State.hasToken State.charged State.takeToken
  simp [h]

theorem meets_of {α : Type} {op : Nat} {h : Handler} {good : State → Cmd → α → Prop} (s : State) (lb : Nat) (body : Bytes) (a : α)
    (hl : lb < 2) (r : tReady s h (tCmd lb op body) = true) (g : good (s.admitted (tCmd lb op body)) (tCmd lb op body) a) :
    Meets op h good :=
  ⟨s, tCmd lb op body, tKey, a, rfl, hl, ready_of r rfl, g⟩

theorem meetsHeld_of {α : Type} {op : Nat} {h : Handler} {good : State → Cmd → α → Prop} (s : State) (lb : Nat) (body : Bytes) (a : α)
    (hl : lb < 2) (r : tReady s h (tCmd lb op body) = true) (g : good (s.admitted (tCmd lb op body)) (tCmd lb op body) a)
    (room : ((s.admitted (tCmd lb op body)).opRoom lb).isNone = true) : MeetsHeld op h good :=
  ⟨s, tCmd lb op body, tKey, a, rfl, hl, ready_of r rfl, g, Option.isNone_iff_eq_none.mp room⟩

theorem ofLe_bytesOf_256 (k : BitVec 256) : ofLe (bytesOf k) = k.toNat := by
  rw [bytesOf, ofLe_le]
  exact Nat.mod_eq_of_lt k.isLt

theorem ofLe_bytesOf_128 (k : BitVec 128) : ofLe (bytesOf k) = k.toNat := by
  rw [bytesOf, ofLe_le]
  exact Nat.mod_eq_of_lt k.isLt

/-! Commands whose operands carry a value that only KMAC256 or SHAKE256 gives. -/

/-- ENROL_PRODUCTION with OES 5 and policy 3. -/
def tEnrol : Bytes := le 32 5 ++ le 8 3 ++ bytesOf (oesCheck 5 0x02030031#128) ++ zeros 8

theorem enrol_field : field tEnrol 40 16 = ofLe (bytesOf (oesCheck 5 0x02030031#128)) := rfl

def tJobless : State := { tBase with jobs := [] }

theorem enrol_check : BitVec.ofNat 128 ((tCmd 0 0x0202 tEnrol).arg 40 16)
    = oesCheck (BitVec.ofNat 256 ((tCmd 0 0x0202 tEnrol).arg 0 32)) (tJobless.admitted (tCmd 0 0x0202 tEnrol)).fuses.serial := by
  have h2 : (tCmd 0 0x0202 tEnrol).arg 40 16 = (oesCheck 5 0x02030031#128).toNat := enrol_field.trans (ofLe_bytesOf_128 _)
  have h3 : (tCmd 0 0x0202 tEnrol).arg 0 32 = 5 := by decide +kernel
  rw [h2, h3, BitVec.ofNat_toNat, BitVec.setWidth_eq]
  rfl

/-- The same with the check of OES 5 and one more. -/
def tMisenrol : Bytes := le 32 5 ++ le 8 3 ++ bytesOf (oesCheck 5 0x02030031#128 + 1) ++ zeros 8

theorem misenrol_check : BitVec.ofNat 128 ((tCmd 0 0x0202 tMisenrol).arg 40 16)
    ≠ oesCheck (BitVec.ofNat 256 ((tCmd 0 0x0202 tMisenrol).arg 0 32)) (tJobless.admitted (tCmd 0 0x0202 tMisenrol)).fuses.serial := by
  have h1 : field tMisenrol 40 16 = ofLe (bytesOf (oesCheck 5 0x02030031#128 + 1)) := rfl
  have h2 : (tCmd 0 0x0202 tMisenrol).arg 40 16 = (oesCheck 5 0x02030031#128 + 1).toNat := h1.trans (ofLe_bytesOf_128 _)
  have h3 : (tCmd 0 0x0202 tMisenrol).arg 0 32 = 5 := by decide +kernel
  rw [h2, h3, BitVec.ofNat_toNat, BitVec.setWidth_eq]
  show oesCheck 5 0x02030031#128 + 1 ≠ oesCheck 5 0x02030031#128
  generalize oesCheck 5 0x02030031#128 = x
  bv_omega

/-- PRESENT_PERMIT for the rights 2 and 3, every job, one hour. -/
def tPermitHead : Bytes :=
  enc [(1, 0x32), (3, 0), (4, 12), (16, 0x02030031), (16, 0xABCD), (4, 3600000), (4, 0xFFFFFFFF), (16, 0)]
def tPermitTag : BitVec 256 := kmac256 (bytesOf tKey) (ascii "PERMIT-TAG" ++ tPermitHead) 256
def tPermit : Bytes := tPermitHead ++ bytesOf tPermitTag
def tProduction : State :=
  { tBase with
    life := { inForce := .production }
    fuses := { progressWord := 2 ^ 24, policyWord := 2 ^ 4 }
    kv := { tBase.kv with permit := some tKey, transport := some 3 }
    att := { nonces := [{ value := 0xABCD, purpose := 2, issued := 0 }] } }

theorem permit_tag : BitVec.ofNat 256 (field tPermit 64 32) = tPermitTag := by
  have h : field tPermit 64 32 = ofLe (bytesOf tPermitTag) := rfl
  rw [h, ofLe_bytesOf_256, BitVec.ofNat_toNat, BitVec.setWidth_eq]

/-- ADMIT_JOB for job 6, an empty manifest. -/
def tManifestBytes : Bytes :=
  ascii "AMFT" ++ enc [(1, 0x32), (1, 0), (1, 0), (1, 0), (4, 6), (2, 64), (2, 0), (2, 1), (2, 0), (4, 0), (32, 0), (8, 0)]
def tDigest : Key := labelled "MANIFEST" tManifestBytes
def tTokenHead : Bytes :=
  enc [(1, 1), (1, 0x32), (2, 0), (4, 6), (16, 0x02030031), (16, 0xABCD)] ++ bytesOf tDigest
def tTokenTag : BitVec 128 :=
  tokenCheck 3 tTokenHead (zeros 32) (bytesOf (BitVec.ofNat 256 (ofLe (zeros 32)) ^^^ tokenPad 3 tTokenHead))
def tToken : Bytes := tTokenHead ++ zeros 32 ++ bytesOf tTokenTag ++ zeros 8
def tAdmit : Bytes := tToken ++ tManifestBytes
def tAdmitting : State :=
  { tBase with
    kv := { tBase.kv with transport := some 3 }
    att := { nonces := [{ value := 0xABCD, purpose := 1, issued := 0 }] } }
def tManifest : Manifest :=
  { confidential := false, exclusive := false, teardownDead := false, partition := 0, binding := 0, jobNumber := 6,
    maxContexts := 1, fenceQuota := 0, powerShare := 0, modelDigest := 0, regions := [], keyRanges := [], windows := none,
    reductions := [], bandwidth := [], keyOff := 0, winOff := 0, redOff := 0, bwOff := 0 }
def tPlacement : Placement :=
  { letterbox := none, ctxBase := 2, regBase := 0, placed := [], keyBase := 0, copyA := 0, copyB := 0 }
def tMeeting : State := (tAdmitting.admitted (tCmd 0 0x0400 tAdmit)).calls (shakeCalls (8 + tManifestBytes.length)) false
def tTaken : State :=
  (State.calls { tMeeting with att := { tMeeting.att with nonces := [] } } (kmacCalls 79 256 false + kmacCalls 145 128 false)
    false).calls 2 true

theorem token_opens : tMeeting.openToken tToken tDigest
    = (.ok (BitVec.ofNat 256 (ofLe (zeros 32)) ^^^ tokenPad 3 tTokenHead), tTaken) := by
  have h1 : field tToken 40 32 = tDigest.toNat := by
    have h : field tToken 40 32 = ofLe (bytesOf tDigest) := rfl
    rw [h, ofLe_bytesOf_256]
  have h2 : BitVec.ofNat 128 (field tToken 104 16) = tTokenTag := by
    have h : field tToken 104 16 = ofLe (bytesOf tTokenTag) := rfl
    rw [h, ofLe_bytesOf_128, BitVec.ofNat_toNat, BitVec.setWidth_eq]
  have h3 : slice tToken 0 72 = tTokenHead := rfl
  have h4 : slice tToken 72 32 = zeros 32 := rfl
  unfold State.openToken
  rw [if_neg (by decide +kernel), if_neg (by decide +kernel), if_neg (by decide +kernel), if_neg (by decide +kernel),
    if_neg (by decide +kernel)]
  have h5 : tMeeting.takeNonce (BitVec.ofNat 128 (field tToken 24 16)) 1
      = (true, { tMeeting with att := { tMeeting.att with nonces := [] } }) := by
    unfold State.takeNonce
    rfl
  have h6 : tMeeting.kv.transport = some 3 := rfl
  simp only [h5, h1, h2, h3, h4, h6]
  rw [if_neg (by decide), if_neg (fun h => h rfl), if_neg (by decide +kernel), if_neg (by decide +kernel)]
  exact if_pos rfl

theorem admit_good : (fun s c (a : Manifest × Placement × Nat × Key) =>
        (s.life.inForce = .production → s.right 0 none = false ∧ s.right 1 none = false)
        ∧ parseManifest s (c.p.body.drop 128) = .ok a.1 ∧ field (c.bytes 0 128) 4 4 = a.1.jobNumber
        ∧ s.jobs.find? (fun e => e.2.number == a.1.jobNumber && e.2.state == .closing) = none
        ∧ ((s.calls (shakeCalls (8 + (c.p.body.drop 128).length)) false).openToken (c.bytes 0 128)
            (labelled "MANIFEST" (c.p.body.drop 128))).1 = .ok a.2.2.2
        ∧ ((s.calls (shakeCalls (8 + (c.p.body.drop 128).length)) false).openToken (c.bytes 0 128)
            (labelled "MANIFEST" (c.p.body.drop 128))).2.fit a.1 = .ok a.2.1
        ∧ ((s.calls (shakeCalls (8 + (c.p.body.drop 128).length)) false).openToken (c.bytes 0 128)
            (labelled "MANIFEST" (c.p.body.drop 128))).2.freeHandle = some a.2.2.1)
    (tAdmitting.admitted (tCmd 0 0x0400 tAdmit)) (tCmd 0 0x0400 tAdmit)
    (tManifest, tPlacement, 1, BitVec.ofNat 256 (ofLe (zeros 32)) ^^^ tokenPad 3 tTokenHead) := by
  have h1 : (tCmd 0 0x0400 tAdmit).p.body.drop 128 = tManifestBytes := by decide +kernel
  have hl : tToken.length = 128 := by decide +kernel
  have h2 : (tCmd 0 0x0400 tAdmit).bytes 0 128 = tToken := by
    unfold Cmd.bytes slice
    rw [show (tCmd 0 0x0400 tAdmit).p.body = tToken ++ tManifestBytes from rfl]
    rw [List.drop_zero, List.take_left' hl, hl]
    exact List.append_nil _
  have h3 : (tAdmitting.admitted (tCmd 0 0x0400 tAdmit)).calls (shakeCalls (8 + tManifestBytes.length)) false = tMeeting := rfl
  have h4 : labelled "MANIFEST" tManifestBytes = tDigest := rfl
  simp only [h1, h2, h3, h4, token_opens]
  refine ⟨?_, ?_, ?_, ?_, trivial, ?_, ?_⟩ <;> first | decide +kernel | rfl
/-! ### Small states for the events -/

def tAt (lb : Nat) (b : Lbx) : State := { tBase with sniby := { boxes := [(lb, b)] } }

def tHead (op : Nat) : TileHead :=
  { op := BitVec.ofNat 8 op, tc := 2, ctx := 0, keyIndex := 15, address := 0x0007000000000FC0, length := 64, tag := 1,
    atomicOp := 0, reserved := 0, operand := 0, compare := 0 }

/-- An operation on the last sector of region 0. -/
def tOp (stage : Stage) (island : Nat) : SecOp :=
  { id := 1, req := 0, island := island, region := 0, sector := 63, kind := .read, stage := stage, keyIndex := 15, ctx := some 0,
    tc := 2, off := 0, len := 64, bytes := [], atomicOp := 0, operand := 0, compare := 0, result := 0, retried := false,
    writes := 1, issued := [], looked := none, got := none, since := 0 }

def tData : SectorData := { bytes := zeros 64, frank := 0, flags := [false] }

def tReq : Req :=
  { id := 1, origin := .tile 0 1, kind := .read, code := 1, ctx := some 0, handle := 0, keyIndex := 15, address := 0, length := 64,
    tc := 2, level := 4, accepted := 0, timeout := 80000, left := 1, data := [], failure := none, result := 0, window := none,
    master := 0, tkind := 0, target := 0, charged := 64 }

def tRem (op : Nat) : RemReq :=
  { id := 1, req := 1, op := op, ctx := 0, handle := 0, node := 9, tc := 2, ordinal := 1, address := 0, keyIndex := 0, length := 8,
    data := [], pos := 0, atomicOp := 0, operand := 0, compare := 0, atomicSeq := 0, mapEpoch := 0, accepted := 0,
    timeout := 80000, retries := 2, sent := true, restamped := false }

def tAssoc : Assoc := { handle := 0, peer := 9, state := .opened, home := 0, epochs := [tEpoch] }

def tPaired (a : Assoc) : State := { tBase with assocs := { entries := [a] } }

/-- A packet of node 9 for node 7. -/
def tMsg (kind : Nat) (body : Bytes) : MsgPacket :=
  { kind := BitVec.ofNat 8 kind, revision := 0x32, flags := 1, reserved1 := 0, src := 9, dst := 7, job := 5,
    bodyLength := BitVec.ofNat 16 body.length, reserved2 := 0, sequence := 0, reserved3 := 0, body := body, tag := 0 }

/-- The packet of a kind that seals `plain` under the pair's newest epoch, at sequence 1. -/
def tSealed (kind : Nat) (plain : Bytes) : MsgPacket :=
  let head := { tMsg kind plain with sequence := 1 }
  let x := gcmSeal tEpoch.keyRx (dataIv 0 1) (msgHead head) plain
  { head with body := x.1, tag := BitVec.ofNat 128 (ofLe x.2) }

theorem test_sealed_opens (kind : Nat) (plain : Bytes) : openPacket tEpoch.keyRx 0 (tSealed kind plain) = some plain :=
  gcmOpen_tag _ _ _ _

theorem test_sealed_carries (kind : Nat) (plain : Bytes) (hk : kind % 2 ^ 8 = 0x10 ∨ kind % 2 ^ 8 = 0x24)
    (hd : kind % 2 ^ 8 = 0x10 → 1 ≤ plain.length ∧ plain.length ≤ 4160) (hr : kind % 2 ^ 8 = 0x24 → plain.length = 8) :
    Carries (tPaired tAssoc) 0 (tSealed kind plain) 0 tEpoch plain where
  takes := by decide
  alive := by decide
  calm := by decide
  numbered := by decide
  free := by decide
  formed := by
    have hl : (tSealed kind plain).body.length = plain.length := gctr_length _ _ _
    unfold wellFormedPacket
    rw [hl]
    have hb : (tSealed kind plain).bodyLength.toNat = plain.length % 2 ^ 16 := BitVec.toNat_ofNat _ 16
    have hkind : (tSealed kind plain).kind.toNat = kind % 2 ^ 8 := BitVec.toNat_ofNat _ 8
    rw [hb, hkind]
    rcases hk with h | h
    · obtain ⟨h1, h2⟩ := hd h
      rw [h, Nat.mod_eq_of_lt (by omega)]
      simp [h1, h2, tSealed, tMsg]
      decide
    · have h1 := hr h
      rw [h, h1]
      simp [tSealed, tMsg, bodyLength]
      decide
  revision := rfl
  job := (by decide : (tPaired tAssoc).handleOf 5 = some 0)
  open_ := ⟨tJob, by decide, by decide⟩
  trusted := (by decide : 9 ∉ (tPaired tAssoc).assocs.revoked)
  assoc := ⟨tAssoc, (by decide : (tPaired tAssoc).assoc 0 9 = some tAssoc), by decide, rfl, rfl, Or.inl rfl, test_sealed_opens kind plain⟩
  parity := rfl
  accepts := (by decide : tEpoch.accepts 1 = true)

theorem test_heard (s : State) (port : Nat) (h : (s.fabricTakes port && decide (port ∉ s.fault.portsHung) && !s.boot.tamperHeld
    && decide (s.boot.nodeNumber ≠ 0xFFFF) && !s.quarantined) = true) : Heard s port := by
  simp only [Bool.and_eq_true, decide_eq_true_eq, Bool.not_eq_true'] at h
  exact ⟨h.1.1.1.1, h.1.1.1.2, h.1.1.2, h.1.2, h.2⟩

/-- A DATA packet that carries a body of an op comes: the hypotheses of `Brings`. -/
def BringsMet (op : Nat) : Prop :=
  ∃ (s : State) (port : Nat) (p : MsgPacket) (h : Nat) (e : Epoch) (plain : Bytes), p.kind = 0x10
    ∧ Carries s port p h e plain ∧ wellFormedBody (s.carried port p h e).boot.nodeNumber plain = true ∧ hdr plain 0 1 = op

theorem bringsMet_of (op : Nat) (plain : Bytes) (hl : 1 ≤ plain.length ∧ plain.length ≤ 4160)
    (hw : wellFormedBody ((tPaired tAssoc).carried 0 (tSealed 0x10 plain) 0 tEpoch).boot.nodeNumber plain = true)
    (ho : hdr plain 0 1 = op) : BringsMet op :=
  ⟨tPaired tAssoc, 0, tSealed 0x10 plain, 0, tEpoch, plain, rfl,
    test_sealed_carries 0x10 plain (Or.inl rfl) (fun _ => hl) (fun h => absurd h (by decide)), hw, ho⟩

/-- A request body for node 7, or an answer: its op, and the length it names. -/
def tBody (op len data : Nat) : Bytes := enc [(1, op), (13, 0), (2, if op < 4 then 7 else 0), (6, 0), (2, len), (40, 0), (data, 0)]

/-- A descriptor of `n` bytes sealed under key 3 of a ring, with a page of zeros to the device, or none to the host. -/
def tDesc (op n : Nat) (plain : Bytes) : EnvDesc :=
  let d : EnvDesc :=
    { op := BitVec.ofNat 8 op, revision := 0x32, reserved1 := 0, job := 5, descSeq := 1, hostAddress := 4096, deviceOffset := 64,
      keyIndex := 15, length := BitVec.ofNat 16 n, context := 0, reserved2 := 0, tag := 0 }
  { d with tag := BitVec.ofNat 128 (ofLe (gcmSeal 3 (envIv 1 1) (descBytes d) plain).2) }

def tRing : EnvRing :=
  { state := .enabled, descLog2 := 4, cplLog2 := 4, produced := 1, sk0 := some 3, sk1 := some 4 }

def tPage (n : Nat) : Bytes := (gcmSeal 3 (envIv 1 1) (descBytes (tDesc 1 n [])) (zeros n)).1

theorem test_page_opens (n : Nat) : gcmOpen 3 (envIv 1 1) (descBytes (tDesc 1 n (zeros n))) (slice (tPage n) 0 n)
    (bytesOf (tDesc 1 n (zeros n)).tag) = some (zeros n) := by
  have hl : (tPage n).length = n := (gctr_length _ _ _).trans List.length_replicate
  have hs : slice (tPage n) 0 n = tPage n := by
    unfold slice
    rw [List.drop_zero, List.take_of_length_le (Nat.le_of_eq hl), hl]
    simp [zeros]
  rw [hs]
  exact gcmOpen_tag _ _ _ _

theorem test_bare_opens (n : Nat) :
    gcmOpen 3 (envIv 1 1) (descBytes (tDesc 2 n [])) [] (bytesOf (tDesc 2 n []).tag) = some [] := by
  have hn : (gcmSeal 3 (envIv 1 1) (descBytes (tDesc 2 n [])) []).1 = [] :=
    List.eq_nil_of_length_eq_zero (gctr_length _ _ _)
  have h := gcmOpen_tag 3 (envIv 1 1) (descBytes (tDesc 2 n [])) []
  rw [hn] at h
  exact h

def tSuspect : Suspect :=
  { ctx := 0, op := 1, tc := 2, keyIndex := 15, address := 0, length := 64, unitKind := 0, unit := 15, outcome := 0, time := 0,
    accepted := 0 }

/-! ### A chunk of zeros, masked -/

def tLanes (x : Descriptor) (km : Key) (c : Nat) : List (BitVec 64) :=
  (List.range 65).map (fun l => BitVec.ofNat 64 (x.residual km 0 c l))

theorem test_residual_lt (x : Descriptor) (km : Key) (j c l : Nat) : x.residual km j c l < fxP := by
  unfold Descriptor.residual maskOfLane fxSub
  split <;> exact Nat.mod_lt _ (by decide)

theorem test_lanes (x : Descriptor) (km : Key) (c : Nat) :
    (tLanes x km c).map (·.toNat) = (List.range 65).map (x.residual km 0 c) := by
  unfold tLanes
  rw [List.map_map]
  refine List.map_congr_left (fun l _ => ?_)
  simp only [Function.comp, BitVec.toNat_ofNat]
  exact Nat.mod_eq_of_lt (Nat.lt_trans (test_residual_lt x km 0 c l) (by decide))

theorem test_sub_self (a : Nat) (h : a < fxP) : fxSub a a = 0 := by
  unfold fxSub
  rw [Nat.mod_eq_of_lt h, Nat.add_sub_of_le (Nat.le_of_lt h), Nat.mod_self]

theorem test_check_zero (kc : Key) (c n k : Nat) :
    ((List.replicate n 0).zipIdx k).foldl (fun a e => fxAdd a (weight kc c e.2 * e.1 % fxP)) 0 = 0 := by
  induction n generalizing k with
  | zero => rfl
  | succ n ih =>
    rw [List.replicate_succ, List.zipIdx_cons, List.foldl_cons]
    simp only [Nat.mul_zero, Nat.zero_mod, fxAdd]
    exact ih (k + 1)

/-- A SUM whose lanes are its residual alone decides to zeros. -/
theorem test_zero_chunk (x : Descriptor) (keys : Key × Key) (c : Nat) :
    x.verdict keys 0 c ((tLanes x keys.1 c).map (·.toNat)) = .ok (List.replicate 64 0) := by
  rw [test_lanes]
  have hall : ((List.range 65).map (x.residual keys.1 0 c)).all (fun l => decide (l < fxP)) = true := by
    simp only [List.all_map, List.all_eq_true, Function.comp, decide_eq_true_eq]
    exact fun l _ => test_residual_lt x keys.1 0 c l
  have hl : ((List.range 65).map (x.residual keys.1 0 c)).zipIdx.map (fun e => fxSub e.1 (x.residual keys.1 0 c e.2))
      = List.replicate 65 0 := by
    apply List.ext_getElem
    · simp
    · intro i h1 h2
      simp only [List.getElem_map, List.getElem_zipIdx, List.getElem_range, List.getElem_replicate, Nat.zero_add]
      exact test_sub_self _ (test_residual_lt x keys.1 0 c i)
  have hc : checkSum keys.2 c (List.replicate 64 0) = 0 := test_check_zero keys.2 c 64 0
  have ht : (List.replicate 65 (0 : Nat)).take 64 = List.replicate 64 0 := by decide
  have hg : (List.replicate 65 (0 : Nat)).getD 64 0 = 0 := by decide
  have hm : (List.replicate 64 (0 : Nat)).map fxSigned = List.replicate 64 (0 : Int) := by decide
  unfold Descriptor.verdict
  simp only [hall, hl, ht, hc, hg, hm, ne_eq, not_true_eq_false, if_false]
  have ha : (List.replicate 64 (0 : Int)).any (fun v => decide ((x.n : Int) * maxIn < v.natAbs)) = false := by
    simp only [List.any_eq_false, decide_eq_true_eq]
    intro v hv
    rw [List.eq_of_mem_replicate hv]
    have : (0 : Int) ≤ (x.n : Int) * maxIn := Int.mul_nonneg (Int.natCast_nonneg _) (by decide)
    simpa using this
  simp only [ha, Bool.and_false, Bool.false_eq_true, if_false]
  rfl

/-- `GeneralCommands`: each row is ready somewhere. -/
theorem test_GeneralCommands_ready :
    Meets 0x0100 hNop always
    ∧ Meets 0x0101 hIdentify always
    ∧ Meets 0x0102 hRenewSession always
    ∧ Meets 0x0103 hSubscribe always
    ∧ Meets 0x0104 hReadDropCounts always
    ∧ Meets 0x0105 hCancelQueued (fun s c (_ : Unit) => ∃ e ∈ s.sniby.heldBehind, e.2.lb = c.arg 0 1 ∧ e.2.packet.sequence.toNat = c.arg 4 4)
    ∧ Meets 0x0106 hSetRootLink always :=
  ⟨meets_of (tBase) 0 ([1, 2, 3, 4]) (()) (by decide) (by decide +kernel) (trivial),
   meets_of (tBase) 0 ([]) (()) (by decide) (by decide +kernel) (trivial),
   meets_of (tBase) 0 ([]) (()) (by decide) (by decide +kernel) (trivial),
   meets_of (tBase) 0 (enc [(2, 0x3FFE), (6, 0)]) (()) (by decide) (by decide +kernel) (trivial),
   meets_of (tBase) 0 ([]) (()) (by decide) (by decide +kernel) (trivial),
   meets_of ({ tBase with sniby := { tBase.sniby with heldBehind := [(.ctx 0, tHeld 0x0408)] } }) 0 (enc [(1, 0), (3, 0), (4, 1)]) (()) (by decide) (by decide +kernel) (by and_intros <;> first | decide +kernel | rfl),
   meets_of (tBase) 0 (enc [(1, 1), (7, 0)]) (()) (by decide) (by decide +kernel) (trivial)⟩

/-- `LifeCycleCommands`: each row is ready somewhere. -/
theorem test_LifeCycleCommands_ready :
    Meets 0x0200 hLifecycleStatus always
    ∧ MeetsHeld 0x0201 hEnterTest (fun s _ (_ : Unit) => s.canTransit = true ∧ markSet s.fuses.progressWord mkRootsComplete = true)
    ∧ MeetsHeld 0x0202 hEnrolProduction (fun s c (_ : Unit) => BitVec.ofNat 128 (c.arg 40 16) = oesCheck (BitVec.ofNat 256 (c.arg 0 32)) s.fuses.serial ∧ c.arg 56 8 = 0 ∧ s.canTransit = true ∧ s.jobs = [] ∧ s.fuses.enrolFree ≠ [])
    ∧ Meets 0x0202 hEnrolProduction (fun s c (_ : Unit) =>
        BitVec.ofNat 128 (c.arg 40 16) ≠ oesCheck (BitVec.ofNat 256 (c.arg 0 32)) s.fuses.serial)
    ∧ MeetsHeld 0x0203 hEnterEndOfLife (fun s _ (_ : Unit) => s.canTransit = true)
    ∧ Meets 0x0204 hKeyVaultStatus always :=
  ⟨meets_of (tBase) 0 ([]) (()) (by decide) (by decide +kernel) (trivial),
   meetsHeld_of ({ tBase with life := { inForce := .blank }, fuses := { progressWord := 0x1000 } }) 0 (enc [(16, 0x02030031)]) (()) (by decide) (by decide +kernel) (by and_intros <;> first | decide +kernel | rfl) (by decide +kernel),
   meetsHeld_of tJobless 0 tEnrol () (by decide) (by decide +kernel)
     ⟨enrol_check, by decide +kernel, by decide +kernel, by decide +kernel, by decide +kernel⟩ (by decide +kernel),
   meets_of tJobless 0 tMisenrol () (by decide) (by decide +kernel) misenrol_check,
   meetsHeld_of (tBase) 0 (enc [(16, 0x02030031)] ++ ascii "ENDOFLIF") (()) (by decide) (by decide +kernel) (by and_intros <;> first | decide +kernel | rfl) (by decide +kernel),
   meets_of (tBase) 0 ([]) (()) (by decide) (by decide +kernel) (trivial)⟩

/-- `AttestCommands`: each row is ready somewhere. -/
theorem test_AttestCommands_ready :
    Meets 0x0300 hDigestStatus always
    ∧ Meets 0x0301 hAttest (fun s c (a : Key × Option Job) => s.kv.attest = some a.1 ∧ ((c.arg 32 4 = 0xFFFFFFFF ∧ a.2 = none) ∨ (c.arg 32 4 ≠ 0xFFFFFFFF ∧ ∃ j, (s.handleOf (c.arg 32 4)).bind s.job = some j ∧ j.state ≠ .admitting ∧ j.state ≠ .resizing ∧ s.partGate j.partition false false = none ∧ a.2 = some j)))
    ∧ Meets 0x0302 hReadMeasurements always
    ∧ Meets 0x0303 hNonce always
    ∧ Meets 0x0304 hPresentPermit (fun s c (a : Key × Nonce) =>
        bit s.fuses.policy 1 = true ∧ s.expirePermit = s ∧ s.att.permit = none ∧ field c.p.body 8 16 = s.fuses.serial.toNat
        ∧ s.att.nonces.find? (fun n => n.value == BitVec.ofNat 128 (field c.p.body 24 16)) = some a.2
        ∧ a.2.purpose = 2 ∧ s.now ≤ a.2.issued + nonceLife ∧ s.kv.permit = some a.1
        ∧ BitVec.ofNat 256 (field c.p.body 64 32)
            = kmac256 (bytesOf a.1) (ascii "PERMIT-TAG" ++ slice c.p.body 0 64) 256
        ∧ s.att.log.length < 64
        ∧ ((bit (field c.p.body 4 4) 0 = true ∨ bit (field c.p.body 4 4) 1 = true) → s.jobs = []))
    ∧ Meets 0x0305 hClosePermit (fun s _ (_ : Unit) => s.expirePermit.att.permit.isSome = true)
    ∧ Meets 0x0306 hPermitStatus always :=
  ⟨meets_of (tBase) 0 ([]) (()) (by decide) (by decide +kernel) (trivial),
   meets_of ({ tBase with life := { inForce := .production }, kv := { tBase.kv with attest := some 3 } }) 0 (enc [(32, 1), (4, 5), (4, 0)]) ((3, some tJob)) (by decide) (by decide +kernel) (⟨rfl, Or.inr ⟨by decide, tJob, by decide, by decide, by decide, by decide +kernel, rfl⟩⟩),
   meets_of (tBase) 0 ([]) (()) (by decide) (by decide +kernel) (trivial),
   meets_of (tBase) 0 (enc [(1, 2), (7, 0)]) (()) (by decide) (by decide +kernel) (trivial),
   meets_of (tProduction) 0 (tPermit) ((tKey, { value := 0xABCD, purpose := 2, issued := 0 })) (by decide) (by decide +kernel) (by
      refine ⟨?_, ?_, ?_, ?_, ?_, ?_, ?_, ?_, permit_tag, ?_, ?_⟩ <;> first | decide +kernel | rfl),
   meets_of ({ tBase with att := { permit := some { rights := 4, scope := 0xFFFFFFFF, lifetime := 3600000, opened := 0 } } }) 0 ([]) (()) (by decide) (by decide +kernel) (by and_intros <;> first | decide +kernel | rfl),
   meets_of (tBase) 0 ([]) (()) (by decide) (by decide +kernel) (trivial)⟩

/-- `PartitionCommands`: each row is ready somewhere. -/
theorem test_PartitionCommands_ready :
    Meets 0x0404 hCreatePartition (fun s c (_ : Unit) => (s.part (c.arg 0 1)).state = .free ∧ ∀ t ∈ tilesOf (c.arg 2 2), s.tileTaken t = false)
    ∧ MeetsHeld 0x0405 hResizePartition (fun s c (_ : Unit) => (s.part (c.arg 0 1)).state = .active ∧ (∃ t ∈ tilesOf (c.arg 2 2), t ∈ (s.part (c.arg 0 1)).tiles) ∧ (∀ t ∈ tilesOf (c.arg 2 2), t ∉ (s.part (c.arg 0 1)).tiles → s.tileTaken t = false) ∧ (∀ t ∈ (s.part (c.arg 0 1)).tiles, t ∉ tilesOf (c.arg 2 2) → s.stackHeld t = false) ∧ 2 ≤ (tilesOf (c.arg 2 2)).length)
    ∧ Meets 0x0406 hDestroyPartition (fun s c (_ : Unit) => (s.part (c.arg 0 1)).state = .active ∧ s.jobsIn (c.arg 0 1) = [])
    ∧ Meets 0x0407 hPartitionStatus always :=
  ⟨meets_of (tBase) 0 (enc [(1, 15), (1, 0), (2, 0xFFFC)]) (()) (by decide) (by decide +kernel) (by and_intros <;> first | decide +kernel | rfl),
   meetsHeld_of (tBase) 0 (enc [(1, 0), (1, 0), (2, 7)]) (()) (by decide) (by decide +kernel) (by and_intros <;> first | decide +kernel | rfl) (by decide +kernel),
   meets_of ({ tBase with parts := [(15, { state := .active, tiles := [15] })] }) 0 (enc [(1, 15), (7, 0)]) (()) (by decide) (by decide +kernel) (by and_intros <;> first | decide +kernel | rfl),
   meets_of (tBase) 0 (enc [(1, 15), (7, 0)]) (()) (by decide) (by decide +kernel) (trivial)⟩

/-- `JobCommands`: each row is ready somewhere. -/
theorem test_JobCommands_ready :
    MeetsHeld 0x0400 hAdmitJob (fun s c (a : Manifest × Placement × Nat × Key) =>
        (s.life.inForce = .production → s.right 0 none = false ∧ s.right 1 none = false)
        ∧ parseManifest s (c.p.body.drop 128) = .ok a.1 ∧ field (c.bytes 0 128) 4 4 = a.1.jobNumber
        ∧ s.jobs.find? (fun e => e.2.number == a.1.jobNumber && e.2.state == .closing) = none
        ∧ ((s.calls (shakeCalls (8 + (c.p.body.drop 128).length)) false).openToken (c.bytes 0 128)
            (labelled "MANIFEST" (c.p.body.drop 128))).1 = .ok a.2.2.2
        ∧ ((s.calls (shakeCalls (8 + (c.p.body.drop 128).length)) false).openToken (c.bytes 0 128)
            (labelled "MANIFEST" (c.p.body.drop 128))).2.fit a.1 = .ok a.2.1
        ∧ ((s.calls (shakeCalls (8 + (c.p.body.drop 128).length)) false).openToken (c.bytes 0 128)
            (labelled "MANIFEST" (c.p.body.drop 128))).2.freeHandle = some a.2.2.1)
    ∧ MeetsHeld 0x0401 hTeardownJob (fun s c (a : Nat × Job) => s.named (c.arg 0 4) = some a ∧ a.2.state ≠ .closing)
    ∧ MeetsHeld 0x0402 hResizeJob (fun s c (a : (Nat × Job) × List (Nat × Rec) × (Nat × Nat × Nat)) => s.jobGate (c.arg 0 4) = .ok a.1
        ∧ resizeRecords c.p.body = .ok a.2.1 ∧ s.resizeHeld a.1.1 (a.1.2.resize a.2.1 (c.arg 4 4)) = false
        ∧ s.resizeFit a.1.1 a.1.2 a.2.1 (a.1.2.resize a.2.1 (c.arg 4 4)) = .ok a.2.2)
    ∧ Meets 0x0403 hJobStatus (fun s c (a : Nat × Job) => s.named (c.arg 0 4) = some a
      ∧ s.partGate a.2.partition false false = none) :=
  ⟨⟨tAdmitting, tCmd 0 0x0400 tAdmit, tKey, (tManifest, tPlacement, 1, BitVec.ofNat 256 (ofLe (zeros 32)) ^^^ tokenPad 3 tTokenHead), rfl, by decide,
    ready_of (by decide +kernel) rfl, admit_good, by decide +kernel⟩,
   meetsHeld_of (tBase) 0 (enc [(4, 5), (4, 0)]) ((0, tJob)) (by decide) (by decide +kernel) (by and_intros <;> first | decide +kernel | rfl) (by decide +kernel),
   meetsHeld_of (tBase) 0 (enc [(4, 5), (4, 0xFFFFFFFF)]) (((0, tJob), [], (0, 0, 0))) (by decide) (by decide +kernel) (by and_intros <;> first | decide +kernel | rfl) (by decide +kernel),
   meets_of (tBase) 0 (enc [(4, 5), (4, 0)]) ((0, tJob)) (by decide) (by decide +kernel) (by and_intros <;> first | decide +kernel | rfl)⟩

/-- `ContextCommands`: each row is ready somewhere. -/
theorem test_ContextCommands_ready :
    Meets 0x0408 hOpenContext (fun s c (a : Nat × Job) => s.ctxGate (c.arg 0 2) true false = .ok a.1 ∧ s.job a.1 = some a.2 ∧ a.2.takesCtx = true
        ∧ (s.ctx (c.arg 0 2)).state = .free)
    ∧ MeetsHeld 0x0409 hCloseContext (fun s c (a : Nat × Job) => s.ctxGate (c.arg 0 2) true false = .ok a.1 ∧ s.job a.1 = some a.2 ∧ a.2.takesCtx = true
        ∧ (s.ctx (c.arg 0 2)).state = .opened)
    ∧ Meets 0x040A hContextStatus (fun s c (h : Nat) => s.ctxGate (c.arg 0 2) true true = .ok h) :=
  ⟨meets_of (tBase) 0 (enc [(2, 1), (6, 0)]) ((0, tJob)) (by decide) (by decide +kernel) (by and_intros <;> first | decide +kernel | rfl),
   meetsHeld_of (tBase) 0 (enc [(2, 0), (6, 0)]) ((0, tJob)) (by decide) (by decide +kernel) (by and_intros <;> first | decide +kernel | rfl) (by decide +kernel),
   meets_of (tBase) 0 (enc [(2, 1), (6, 0)]) (0) (by decide) (by decide +kernel) (by and_intros <;> first | decide +kernel | rfl)⟩

/-- `RegionCommands`: each row is ready somewhere. -/
theorem test_RegionCommands_ready :
    Meets 0x0500 hRegionStatus (fun s c (_ : Unit) => (s.region (c.arg 0 2)).state ≠ .free)
    ∧ MeetsHeld 0x0501 hSealRegion (fun s c (_ : Unit) => (s.region (c.arg 0 2)).state = .loading ∧ (s.region (c.arg 0 2)).cls = .weights)
    ∧ Meets 0x0502 hSetWcWindow (fun s c (_ : Unit) => (s.region (c.arg 0 2)).state ≠ .free ∧ (s.region (c.arg 0 2)).state ≠ .sealed ∧ (s.region (c.arg 0 2)).state ≠ .closing ∧ (s.region (c.arg 0 2)).cls ≠ .opened)
    ∧ MeetsHeld 0x0503 hZeroSectors (fun s c (_ : Unit) => (s.region (c.arg 0 2)).zeroable = true ∧ s.entryAwaited (c.arg 0 2) (c.arg 4 4) = false ∧ s.sealable (c.arg 0 2) (c.arg 4 4) = true ∧ c.arg 8 8 + c.arg 16 8 ≤ (s.region (c.arg 0 2)).sectors)
    ∧ MeetsHeld 0x0504 hRetireKeyIndex (fun s c (a : Nat × Job) => s.jobGate (c.arg 0 4) = .ok a
        ∧ (∀ r ∈ s.courier.retirements, ¬(r.handle = a.1 ∧ r.index = c.arg 4 4))
        ∧ (s.entry a.1 (c.arg 4 4)).state = .live ∧ s.courier.retirements.length < 64)
    ∧ Meets 0x0505 hKeyIndexStatus (fun s c (a : Nat × Job) => s.jobGate (c.arg 0 4) = .ok a ∧ a.2.keyRanges ≠ [] ∧ s.entryLost a.1 (c.arg 4 4) = false ∧ s.entryAtHand a.1 (c.arg 4 4) = true)
    ∧ Meets 0x0506 hSectorCounts always :=
  ⟨meets_of (tBase) 0 (enc [(2, 0), (6, 0)]) (()) (by decide) (by decide +kernel) (by and_intros <;> first | decide +kernel | rfl),
   meetsHeld_of ({ tBase with regions := [(0, { state := .loading, cls := .weights, handle := 0, keyLast := 15, size := 4096 })] }) 0 (enc [(2, 0), (6, 0)]) (()) (by decide) (by decide +kernel) (by and_intros <;> first | decide +kernel | rfl) (by decide +kernel),
   meets_of (tBase) 0 (enc [(2, 0), (2, 0), (4, 10000)]) (()) (by decide) (by decide +kernel) (by and_intros <;> first | decide +kernel | rfl),
   meetsHeld_of ({ tBase with mem := { lines := [{ island := stackOf tJob.keyBase, key := .keySector 0 0, val := .keySector, dirty := false, lastUse := 0, writing := 0, wid := 0 }] } }) 0 (enc [(2, 0), (2, 0), (4, 3), (8, 0), (8, 64)]) (()) (by decide) (by decide +kernel) (by and_intros <;> first | decide +kernel | rfl) (by decide +kernel),
   meetsHeld_of (tBase) 0 (enc [(4, 5), (4, 3)]) ((0, tJob)) (by decide) (by decide +kernel) (by and_intros <;> first | decide +kernel | rfl) (by decide +kernel),
   meets_of ({ tBase with mem := { lines := [{ island := stackOf tJob.keyBase, key := .keySector 0 1, val := .keySector, dirty := false, lastUse := 0, writing := 0, wid := 0 }] } }) 0 (enc [(4, 5), (4, 15)]) ((0, tJob)) (by decide) (by decide +kernel) (by and_intros <;> first | decide +kernel | rfl),
   meets_of (tBase) 0 ([]) (()) (by decide) (by decide +kernel) (trivial)⟩

/-- `TreeCommands`: each row is ready somewhere. -/
theorem test_TreeCommands_ready :
    Meets 0x0600 hTreeStatus (fun s c (a : Nat × Tree) => s.target c = .ok a)
    ∧ MeetsHeld 0x0601 hResetSubtree (fun s c (a : Nat × Tree) => s.target c = .ok a ∧ ¬(a.1 < 65536 ∧ ((s.region a.1).state = .suspended ∨ (s.region a.1).state = .closing)) ∧ c.arg 8 1 ≠ 0 ∧ c.arg 8 1 ≤ a.2.depth ∧ c.arg 16 8 < a.2.width (c.arg 8 1) ∧ a.2.rootLost = false ∧ (List.range a.2.depth).any (fun j => decide (c.arg 8 1 < j + 1) && s.knownLost a.1 (j + 1) (c.arg 16 8 / 64 ^ (j + 1 - c.arg 8 1))) = false)
    ∧ MeetsHeld 0x0602 hStartCourier (fun s c (a : Nat × Job) => s.jobGate (c.arg 0 4) = .ok a ∧ (s.entry a.1 (c.arg 4 4)).state = .live
        ∧ (s.entry a.1 (c.arg 4 4)).gen ≠ 0xFE ∧ s.passOf a.1 (c.arg 4 4) = none
        ∧ s.courier.armed.length < 4096)
    ∧ Meets 0x0603 hCourierStatus (fun s c (a : Nat × Job) => s.jobGate (c.arg 0 4) = .ok a)
    ∧ MeetsHeld 0x0604 hResumeRegion (fun s c (a : Job) => (s.region (c.arg 0 2)).state = .suspended ∧ (s.region (c.arg 0 2)).tree.rootLost = false
        ∧ (s.region (c.arg 0 2)).resumeOp = none ∧ s.job (s.region (c.arg 0 2)).handle = some a)
    ∧ Meets 0x0605 hTreeCounts always :=
  ⟨meets_of (tBase) 0 (enc [(2, 0xFFFF), (2, 0), (4, 5)]) ((65536, {})) (by decide) (by decide +kernel) (by and_intros <;> first | decide +kernel | rfl),
   meetsHeld_of ({ tBase with regions := [(0, { state := .active, cls := .fresh, handle := 0, keyLast := 15, size := 8192, tree := { sectors := 128 } })] }) 0 (enc [(2, 0), (2, 0), (4, 0), (1, 1), (7, 0), (8, 1)]) ((0, { sectors := 128 })) (by decide) (by decide +kernel) (by and_intros <;> first | decide +kernel | rfl) (by decide +kernel),
   meetsHeld_of (tBase) 0 (enc [(4, 5), (4, 3)]) ((0, tJob)) (by decide) (by decide +kernel) (by and_intros <;> first | decide +kernel | rfl) (by decide +kernel),
   meets_of (tBase) 0 (enc [(4, 5), (4, 3)]) ((0, tJob)) (by decide) (by decide +kernel) (by and_intros <;> first | decide +kernel | rfl),
   meetsHeld_of ({ tBase with regions := [(0, { state := .suspended, cls := .fresh, pooled := true, handle := 0, keyLast := 15, size := 8192 })] }) 0 (enc [(2, 0), (6, 0)]) (tJob) (by decide) (by decide +kernel) (by and_intros <;> first | decide +kernel | rfl) (by decide +kernel),
   meets_of (tBase) 0 ([]) (()) (by decide) (by decide +kernel) (trivial)⟩

/-- `AssociationCommands`: each row is ready somewhere. -/
theorem test_AssociationCommands_ready :
    Meets 0x0700 hAssocStatus (fun s c (a : Nat × Job) => s.jobGate (c.arg 0 4) = .ok a)
    ∧ MeetsHeld 0x0701 hEvictAssoc (fun s c (a : (Nat × Job) × Assoc) => s.jobGate (c.arg 0 4) = .ok a.1 ∧ s.assoc a.1.1 (c.arg 4 2) = some a.2
        ∧ a.2.state ≠ .closing)
    ∧ MeetsHeld 0x0702 hRatchetNow (fun s c (a : (Nat × Job) × Assoc) => s.jobGate (c.arg 0 4) = .ok a.1 ∧ s.assoc a.1.1 (c.arg 4 2) = some a.2
        ∧ a.2.state = .opened)
    ∧ MeetsHeld 0x0703 hRevokePeer (fun s _ (_ : Unit) => s.assocs.revoked.length < 1024)
    ∧ Meets 0x0704 hRestorePeer (fun s c (_ : Unit) => c.arg 0 2 ∈ s.assocs.revoked)
    ∧ Meets 0x0705 hAssocCounts always
    ∧ Meets 0x0706 hEnvelopeStatus (fun s c (a : Nat × Job) => s.jobGate (c.arg 0 4) = .ok a) :=
  ⟨meets_of (tBase) 0 (enc [(4, 5), (2, 9), (2, 0)]) ((0, tJob)) (by decide) (by decide +kernel) (by and_intros <;> first | decide +kernel | rfl),
   meetsHeld_of ({ tBase with assocs := { entries := [{ handle := 0, peer := 9, state := .opened, home := 0, epochs := [tEpoch] }] } }) 0 (enc [(4, 5), (2, 9), (2, 0)]) (((0, tJob), { handle := 0, peer := 9, state := .opened, home := 0, epochs := [tEpoch] })) (by decide) (by decide +kernel) (by and_intros <;> first | decide +kernel | rfl) (by decide +kernel),
   meetsHeld_of ({ tBase with assocs := { entries := [{ handle := 0, peer := 9, state := .opened, home := 0, epochs := [tEpoch] }] } }) 0 (enc [(4, 5), (2, 9), (2, 0)]) (((0, tJob), { handle := 0, peer := 9, state := .opened, home := 0, epochs := [tEpoch] })) (by decide) (by decide +kernel) (by and_intros <;> first | decide +kernel | rfl) (by decide +kernel),
   meetsHeld_of (tBase) 0 (enc [(2, 9), (6, 0)]) (()) (by decide) (by decide +kernel) (by and_intros <;> first | decide +kernel | rfl) (by decide +kernel),
   meets_of ({ tBase with assocs := { revoked := [9] } }) 0 (enc [(2, 9), (6, 0)]) (()) (by decide) (by decide +kernel) (by and_intros <;> first | decide +kernel | rfl),
   meets_of (tBase) 0 ([]) (()) (by decide) (by decide +kernel) (trivial),
   meets_of (tBase) 0 (enc [(4, 5), (1, 1), (3, 0)]) ((0, tJob)) (by decide) (by decide +kernel) (by and_intros <;> first | decide +kernel | rfl)⟩

/-- `RouteCommands`: each row is ready somewhere. -/
theorem test_RouteCommands_ready :
    Meets 0x0800 hSetNodeNumber (fun s _ (_ : Unit) => s.jobs = [])
    ∧ MeetsHeld 0x0801 hSetRoute (fun s c (_ : Unit) => ¬((s.route (c.arg 0 2)).valid = true ∧ (s.route (c.arg 0 2)).port = c.arg 2 1) ∧ ¬((s.route (c.arg 0 2)).valid = false ∧ c.arg 2 1 = 0xFF) ∧ s.draining (c.arg 0 2) < 3)
    ∧ Meets 0x0802 hRouteStatus always
    ∧ Meets 0x0803 hOpenWindow (fun s c (a : Nat × Job) => s.jobGate (c.arg 0 4) = .ok a ∧ (s.window (c.arg 4 2)).state = .free ∧ (c.arg 6 1 = a.2.mapEpoch ∨ c.arg 6 1 = (a.2.mapEpoch + 1) % 256) ∧ (∀ e ∈ s.jobWindows a.1, e.2.mapEpoch = c.arg 6 1 → c.arg 8 8 + c.arg 16 8 ≤ e.2.base ∨ e.2.base + e.2.size ≤ c.arg 8 8) ∧ firstBad (s.openWindowRanges c a.1 a.2) = none ∧ (s.jobWindows a.1).length < a.2.windows.getD 0)
    ∧ MeetsHeld 0x0804 hCloseWindow (fun s c (a : Nat × Job) => s.jobGate (c.arg 0 4) = .ok a ∧ (s.window (c.arg 4 2)).state = .opened
        ∧ (s.window (c.arg 4 2)).handle = a.1)
    ∧ Meets 0x0805 hWindowStatus (fun s c (a : Nat × Job) => s.jobGate (c.arg 0 4) = .ok a
        ∧ ((s.window (c.arg 4 2)).state = .free ∨ (s.window (c.arg 4 2)).handle = a.1))
    ∧ Meets 0x0806 hSetWindowOwner (fun s c (a : Nat × Job) => s.jobGate (c.arg 0 4) = .ok a ∧ (s.window (c.arg 4 2)).state = .opened
        ∧ (s.window (c.arg 4 2)).handle = a.1)
    ∧ MeetsHeld 0x0807 hRedirect (fun s c (a : Nat × Job) => s.jobGate (c.arg 0 4) = .ok a ∧ a.2.redirect = none)
    ∧ Meets 0x0808 hMapStatus (fun s c (a : Nat × Job) => s.jobGate (c.arg 0 4) = .ok a)
    ∧ Meets 0x0809 hSetDeadTargetTimeout (fun s c (a : Nat × Job) => s.jobGate (c.arg 0 4) = .ok a) :=
  ⟨meets_of ({ tBase with jobs := [] }) 0 (enc [(2, 0xFFFE), (6, 0)]) (()) (by decide) (by decide +kernel) (by and_intros <;> first | decide +kernel | rfl),
   meetsHeld_of (tBase) 0 (enc [(2, 9), (1, 31), (5, 0)]) (()) (by decide) (by decide +kernel) (by and_intros <;> first | decide +kernel | rfl) (by decide +kernel),
   meets_of (tBase) 0 (enc [(2, 9), (6, 0)]) (()) (by decide) (by decide +kernel) (trivial),
   meets_of (tBase) 0 (enc [(4, 5), (2, 1), (1, 0), (1, 7), (8, 4096), (8, 4096), (8, 0), (2, 0), (2, 0xFFFF), (2, 0), (2, 0), (4, 0), (4, 0)]) ((0, tJob)) (by decide) (by decide +kernel) (by and_intros <;> first | decide +kernel | rfl),
   meetsHeld_of ({ tBase with remote := { windows := [(1, { state := .opened, read := true, handle := 0, base := 0, size := 4096 })] } }) 0 (enc [(4, 5), (2, 1), (2, 0)]) ((0, tJob)) (by decide) (by decide +kernel) (by and_intros <;> first | decide +kernel | rfl) (by decide +kernel),
   meets_of ({ tBase with remote := { windows := [(1, { state := .opened, read := true, handle := 0, base := 0, size := 4096 })] } }) 0 (enc [(4, 5), (2, 1), (2, 0)]) ((0, tJob)) (by decide) (by decide +kernel) (by and_intros <;> first | decide +kernel | rfl),
   meets_of ({ tBase with remote := { windows := [(1, { state := .opened, read := true, handle := 0, base := 0, size := 4096 })] } }) 0 (enc [(4, 5), (2, 1), (2, 9)]) ((0, tJob)) (by decide) (by decide +kernel) (by and_intros <;> first | decide +kernel | rfl),
   meetsHeld_of (tBase) 0 (enc [(4, 5), (4, 0)]) ((0, tJob)) (by decide) (by decide +kernel) (by and_intros <;> first | decide +kernel | rfl) (by decide +kernel),
   meets_of (tBase) 0 (enc [(4, 5), (4, 0)]) ((0, tJob)) (by decide) (by decide +kernel) (by and_intros <;> first | decide +kernel | rfl),
   meets_of (tBase) 0 (enc [(4, 5), (4, 200)]) ((0, tJob)) (by decide) (by decide +kernel) (by and_intros <;> first | decide +kernel | rfl)⟩

/-- `FenceCommands`: each row is ready somewhere. -/
theorem test_FenceCommands_ready :
    Meets 0x080A hOpenFence (fun s c (a : Nat × Job) => s.jobGate (c.arg 0 4) = .ok a ∧ (s.fenceObj (c.arg 4 2)).state = .free
        ∧ (s.remote.fences.filter (fun e => e.2.state != .free && e.2.handle == a.1 && decide (e.1 < 8128))).length
            < a.2.fenceQuota)
    ∧ MeetsHeld 0x080B hCloseFence (fun s c (a : Nat × Job) => s.jobGate (c.arg 0 4) = .ok a ∧ (s.fenceObj (c.arg 4 2)).handle = a.1
        ∧ ((s.fenceObj (c.arg 4 2)).state = .idle ∨ (s.fenceObj (c.arg 4 2)).state = .armed))
    ∧ MeetsHeld 0x080C hArmFence (fun s c (a : Nat × Job) => s.jobGate (c.arg 0 4) = .ok a ∧ (s.fenceObj (c.arg 4 2)).handle = a.1
        ∧ (s.fenceObj (c.arg 4 2)).state = .idle)
    ∧ Meets 0x080D hFenceStatus (fun s c (a : Nat × Job) => s.jobGate (c.arg 0 4) = .ok a
        ∧ ((s.fenceObj (c.arg 4 2)).state = .free ∨ (s.fenceObj (c.arg 4 2)).handle = a.1))
    ∧ Meets 0x080E hRemoteCounts always :=
  ⟨meets_of (tBase) 0 (enc [(4, 5), (2, 1), (2, 0)]) ((0, tJob)) (by decide) (by decide +kernel) (by and_intros <;> first | decide +kernel | rfl),
   meetsHeld_of ({ tBase with remote := { fences := [(1, { state := .idle, handle := 0 })] } }) 0 (enc [(4, 5), (2, 1), (2, 0)]) ((0, tJob)) (by decide) (by decide +kernel) (by and_intros <;> first | decide +kernel | rfl) (by decide +kernel),
   meetsHeld_of ({ tBase with remote := { fences := [(1, { state := .idle, handle := 0 })] } }) 0 (enc [(4, 5), (2, 1), (2, 0xFFFF)]) ((0, tJob)) (by decide) (by decide +kernel) (by and_intros <;> first | decide +kernel | rfl) (by decide +kernel),
   meets_of ({ tBase with remote := { fences := [(1, { state := .idle, handle := 0 })] } }) 0 (enc [(4, 5), (2, 1), (2, 0)]) ((0, tJob)) (by decide) (by decide +kernel) (by and_intros <;> first | decide +kernel | rfl),
   meets_of (tBase) 0 ([]) (()) (by decide) (by decide +kernel) (trivial)⟩

/-- `ReductionCommands`: each row is ready somewhere. -/
theorem test_ReductionCommands_ready :
    MeetsHeld 0x0900 hActivateReduction (fun s c (a : (Nat × Job) × RedGroup) => s.named (c.arg 0 4) = some a.1 ∧ (s.part a.1.2.partition).state = .active
        ∧ s.serving a.1.1 = true ∧ (s.ctx (c.arg 22 2)).state = .opened ∧ (s.desc (c.arg 4 2)).state = .free
        ∧ a.1.2.group (c.arg 6 2) = some a.2 ∧ a.2.lastRound < c.arg 8 4
        ∧ (s.red.descs.filter (fun e => e.2.state == .active && e.2.handle == a.1.1 && e.2.group == a.2.group)).length
            < a.2.descriptors)
    ∧ MeetsHeld 0x0901 hCancelReduction (fun s c (a : Nat × Job) => s.jobGate (c.arg 0 4) = .ok a ∧ (s.desc (c.arg 4 2)).state = .active
        ∧ (s.desc (c.arg 4 2)).handle = a.1 ∧ (s.desc (c.arg 4 2)).ending = none)
    ∧ Meets 0x0902 hReductionStatus (fun s c (a : Nat × Job) => s.jobGate (c.arg 0 4) = .ok a
        ∧ ((s.desc (c.arg 4 2)).state = .free ∨ (s.desc (c.arg 4 2)).handle = a.1))
    ∧ Meets 0x0903 hGroupStatus (fun s c (a : (Nat × Job) × RedGroup) => s.jobGate (c.arg 0 4) = .ok a.1 ∧ a.1.2.group (c.arg 4 2) = some a.2)
    ∧ Meets 0x0904 hReductionCounts always :=
  ⟨meetsHeld_of (tBase) 0 (enc [(4, 5), (2, 1), (2, 1), (4, 1), (2, 2), (2, 1), (1, 0), (1, 1), (1, 1), (1, 0), (1, 31), (1, 0), (2, 0), (4, 1), (4, 0), (4, 0), (2, 0), (2, 0), (4, 10), (4, 0), (8, 0), (8, 0)]) (((0, tJob), { group := 1, contributors := 2, descriptors := 1, lastRound := 0 })) (by decide) (by decide +kernel) (by and_intros <;> first | decide +kernel | rfl) (by decide +kernel),
   meetsHeld_of ({ tBase with red := { descs := [(1, { state := .active, handle := 0, group := 1, n := 2 })] } }) 0 (enc [(4, 5), (2, 1), (2, 0)]) ((0, tJob)) (by decide) (by decide +kernel) (by and_intros <;> first | decide +kernel | rfl) (by decide +kernel),
   meets_of ({ tBase with red := { descs := [(1, { state := .active, handle := 0, group := 1, n := 2 })] } }) 0 (enc [(4, 5), (2, 1), (2, 0)]) ((0, tJob)) (by decide) (by decide +kernel) (by and_intros <;> first | decide +kernel | rfl),
   meets_of (tBase) 0 (enc [(4, 5), (2, 1), (2, 0)]) (((0, tJob), { group := 1, contributors := 2, descriptors := 1, lastRound := 0 })) (by decide) (by decide +kernel) (by and_intros <;> first | decide +kernel | rfl),
   meets_of (tBase) 0 ([]) (()) (by decide) (by decide +kernel) (trivial)⟩

/-- `RegulationCommands`: each row is ready somewhere. -/
theorem test_RegulationCommands_ready :
    Meets 0x0A00 hMasterStatus (fun s c (a : Nat × Job) => s.jobGate (c.arg 0 4) = .ok a
        ∧ (c.arg 5 1 = 0 → c.arg 6 1 ∈ (s.part a.2.partition).tiles))
    ∧ Meets 0x0A01 hInternalStatus always
    ∧ Meets 0x0A02 hRegulationCounts always :=
  ⟨meets_of (tBase) 0 (enc [(4, 5), (1, 3), (1, 0), (1, 1), (1, 0)]) ((0, tJob)) (by decide) (by decide +kernel) (by and_intros <;> first | decide +kernel | rfl),
   meets_of (tBase) 0 (enc [(1, 7), (1, 2), (1, 0), (5, 0)]) (()) (by decide) (by decide +kernel) (trivial),
   meets_of (tBase) 0 ([]) (()) (by decide) (by decide +kernel) (trivial)⟩

/-- `PowerCommands`: each row is ready somewhere. -/
theorem test_PowerCommands_ready :
    Meets 0x0B00 hPowerStatus always
    ∧ Meets 0x0B01 hSetPowerLimits always
    ∧ Meets 0x0B02 hSetRailLimits always
    ∧ Meets 0x0B03 hGrantLease (fun s c (l : Lease) => s.power.leaseMode ≠ 0
        ∧ l = { id := c.arg 0 4, budget := c.arg 4 2, ends := s.now + c.arg 8 4 * Config.ms }
        ∧ s.packageLimit ≤ (s.takeLease l).packageLimit)
    ∧ MeetsHeld 0x0B03 hGrantLease (fun s c (l : Lease) => s.power.leaseMode ≠ 0
        ∧ l = { id := c.arg 0 4, budget := c.arg 4 2, ends := s.now + c.arg 8 4 * Config.ms }
        ∧ (s.takeLease l).packageLimit < s.packageLimit)
    ∧ MeetsHeld 0x0B04 hReleaseLease (fun s c (a : Lease) => s.liveLease = some a ∧ a.id = c.arg 0 4)
    ∧ Meets 0x0B05 hLoadUserCalibration always
    ∧ Meets 0x0B06 hCalibrationStatus always :=
  ⟨meets_of (tBase) 0 ([]) (()) (by decide) (by decide +kernel) (trivial),
   meets_of (tBase) 0 (enc [(2, 1400), (2, 300), (2, 400), (1, 1), (1, 0)]) (()) (by decide) (by decide +kernel) (trivial),
   meets_of (tBase) 0 (enc [(1, 7), (1, 0), (2, 0), (2, 1), (2, 0)]) (()) (by decide) (by decide +kernel) (trivial),
   meets_of ({ tBase with power := { leaseMode := 1 } }) 1 (enc [(4, 1), (2, 600), (2, 0), (4, 10), (4, 0)]) ({ id := 1, budget := 600, ends := 4000000000 + 10 * Config.ms }) (by decide) (by decide +kernel) (by and_intros <;> first | decide +kernel | rfl),
   meetsHeld_of ({ tBase with power := { leaseMode := 1, boardLimit := 900, safeBudget := 500, lease := some { id := 1, budget := 900, ends := 5000000000 } } }) 1 (enc [(4, 2), (2, 600), (2, 0), (4, 60000), (4, 0)]) ({ id := 2, budget := 600, ends := 4000000000 + 60000 * Config.ms }) (by decide) (by decide +kernel) (by and_intros <;> first | decide +kernel | rfl) (by decide +kernel),
   meetsHeld_of ({ tBase with power := { leaseMode := 1, boardLimit := 900, safeBudget := 500, lease := some { id := 1, budget := 900, ends := 5000000000 } } }) 1 (enc [(4, 1), (4, 0)]) ({ id := 1, budget := 900, ends := 5000000000 }) (by decide) (by decide +kernel) (by and_intros <;> first | decide +kernel | rfl) (by decide +kernel),
   meets_of (tBase) 0 (enc [(8, 2), (8, 0), (34, 0), (6, 0), (96, 0), (64, 0)]) (()) (by decide) (by decide +kernel) (trivial),
   meets_of (tBase) 0 ([]) (()) (by decide) (by decide +kernel) (trivial)⟩

/-- `ClockCommands`: each row is ready somewhere. -/
theorem test_ClockCommands_ready :
    Meets 0x0B07 hSetFrequencyMode (fun s c (_ : Unit) => (s.part (c.arg 0 1)).state = .active)
    ∧ Meets 0x0B08 hSetThermalLimit always
    ∧ Meets 0x0B09 hThrottleStatus always
    ∧ Meets 0x0B0A hPowerSample always
    ∧ MeetsHeld 0x0B0B hMarginSweep (fun s c (_ : Unit) => s.power.sweep = none
        ∧ (∀ t q, (t = c.arg 0 1 ∨ (c.arg 1 1 = 0 ∧ tileRail t = tileRail (c.arg 0 1))) → s.partOfTile t = some q → s.jobsIn q = []))
    ∧ Meets 0x0B0C hMarginStatus always :=
  ⟨meets_of (tBase) 0 (enc [(1, 0), (1, 1), (2, 1800), (4, 0)]) (()) (by decide) (by decide +kernel) (by and_intros <;> first | decide +kernel | rfl),
   meets_of (tBase) 0 (enc [(1, 105), (7, 0)]) (()) (by decide) (by decide +kernel) (trivial),
   meets_of (tBase) 0 (enc [(1, 15), (7, 0)]) (()) (by decide) (by decide +kernel) (trivial),
   meets_of (tBase) 0 ([]) (()) (by decide) (by decide +kernel) (trivial),
   meetsHeld_of ({ tBase with jobs := [] }) 0 (enc [(1, 0), (1, 0), (6, 0)]) (()) (by decide) (by decide +kernel) (⟨rfl, fun _ q _ _ => rfl⟩) (by decide +kernel),
   meets_of (tBase) 0 (enc [(1, 15), (7, 0)]) (()) (by decide) (by decide +kernel) (trivial)⟩

/-- `FaultCommands`: each row is ready somewhere. -/
theorem test_FaultCommands_ready :
    Meets 0x0C00 hFaultStatus always
    ∧ Meets 0x0C01 hHealthStatus always
    ∧ Meets 0x0C02 hSetPostcards (fun s c (_ : Unit) => ¬(c.arg 0 1 = 1 ∧ c.arg 2 2 = 0xFFFF ∧ (s.box 1).lastNode = none))
    ∧ Meets 0x0C03 hSuspectList (fun s c (_ : Unit) => (s.part (c.arg 0 1)).state = .active)
    ∧ Meets 0x0C04 hWaitForGraph (fun _ c (_ : Unit) => c.arg 0 1 = 0)
    ∧ Meets 0x0C04 hWaitForGraph (fun s c (_ : Unit) => c.arg 0 1 ≠ 0 ∧ c.arg 4 4 = s.fault.snapshot.gen)
    ∧ Meets 0x0C05 hSetMailbagBuffer always
    ∧ MeetsHeld 0x0C06 hResetPartition (fun s c (_ : Unit) => (s.part (c.arg 0 1)).state = .active ∧ ∀ e ∈ s.jobsIn (c.arg 0 1), e.2.state ≠ .admitting)
    ∧ MeetsHeld 0x0C07 hReplaySuspects (fun s c (_ : Unit) => (s.part (c.arg 0 1)).state = .active ∧ s.fault.mailbagSize ≠ 0 ∧ s.jobsIn (c.arg 0 1) = []
        ∧ s.mailLink ∈ s.boot.hostUp ∧ s.mailLink ∉ s.boot.dmaAbandoned)
    ∧ Meets 0x0C08 hContextFaults (fun s c (h : Nat) => s.ctxGate (c.arg 0 2) false false = .ok h) :=
  ⟨meets_of (tBase) 0 ([]) (()) (by decide) (by decide +kernel) (trivial),
   meets_of (tBase) 0 ([]) (()) (by decide) (by decide +kernel) (trivial),
   meets_of (tBase) 0 (enc [(1, 1), (1, 0), (2, 9), (4, 50)]) (()) (by decide) (by decide +kernel) (by and_intros <;> first | decide +kernel | rfl),
   meets_of (tBase) 0 (enc [(1, 0), (7, 0)]) (()) (by decide) (by decide +kernel) (by and_intros <;> first | decide +kernel | rfl),
   meets_of (tBase) 0 (enc [(4, 0), (4, 0), (4, 0), (4, 0)]) (()) (by decide) (by decide +kernel) (by and_intros <;> first | decide +kernel | rfl),
   meets_of (tBase) 0 (enc [(4, 1), (4, 0), (4, 0), (4, 0)]) (()) (by decide) (by decide +kernel) (by and_intros <;> first | decide +kernel | rfl),
   meets_of (tBase) 0 (enc [(8, 4096), (8, 4096)]) (()) (by decide) (by decide +kernel) (trivial),
   meetsHeld_of (tBase) 0 (enc [(1, 0), (1, 3), (2, 0), (4, 65536), (2, 0), (6, 0)]) (()) (by decide) (by decide +kernel) (by and_intros <;> first | decide +kernel | rfl) (by decide +kernel),
   meetsHeld_of ({ tBase with jobs := [], fault := { mailbagSize := 4096 } }) 0 (enc [(1, 0), (1, 0), (2, 1), (4, 0), (32, 0)]) (()) (by decide) (by decide +kernel) (by and_intros <;> first | decide +kernel | rfl) (by decide +kernel),
   meets_of (tBase) 0 (enc [(2, 0), (6, 0)]) (0) (by decide) (by decide +kernel) (by and_intros <;> first | decide +kernel | rfl)⟩

/-- `TraceCommands`: each row is ready somewhere. -/
theorem test_TraceCommands_ready :
    Meets 0x0D00 hTimebaseStatus always
    ∧ MeetsHeld 0x0D01 hTraceStart (fun s c (_ : Unit) => s.trace.session.state = .idle ∧ s.scopeGate (c.arg 4 4) = none ∧ c.arg 1 1 ∈ s.boot.hostUp ∧ c.arg 1 1 ∉ s.boot.dmaAbandoned)
    ∧ Meets 0x0D02 hTraceStop (fun s _ (_ : Unit) => s.trace.session.writes = true)
    ∧ Meets 0x0D03 hTraceTrigger (fun s _ (_ : Unit) => s.trace.session.state = .armed)
    ∧ Meets 0x0D04 hTraceStatus always
    ∧ Meets 0x0D05 hTraceMark (fun s _ (_ : Unit) => s.trace.session.writes = true ∧ s.trace.session.islands.getLsbD islandCP = true)
    ∧ Meets 0x0D06 hCounterSelect always
    ∧ MeetsHeld 0x0D07 hCounterSnapshot always
    ∧ Meets 0x0D08 hCounterRead (fun s _ (m : Nat) => s.trace.latchMark = some m)
    ∧ Meets 0x0D09 hJobCounters (fun s c (a : Nat × Job) => s.named (c.arg 0 4) = some a ∧ a.2.state ≠ .admitting)
    ∧ Meets 0x0D0A hDeadLetterCounts always :=
  ⟨meets_of (tBase) 0 ([]) (()) (by decide) (by decide +kernel) (trivial),
   meetsHeld_of (tBase) 0 (enc [(1, 0), (1, 0), (1, 0), (1, 0), (4, 0xFFFFFFFF), (8, 1), (8, 1), (8, 4096), (8, 65536), (2, 0), (2, 0), (4, 0), (8, 0), (2, 0xFFFF), (6, 0)]) (()) (by decide) (by decide +kernel) (by and_intros <;> first | decide +kernel | rfl) (by decide +kernel),
   meets_of ({ tBase with trace := { session := { state := .running, islands := 2 ^ 50 } } }) 0 ([]) (()) (by decide) (by decide +kernel) (by and_intros <;> first | decide +kernel | rfl),
   meets_of ({ tBase with trace := { session := { state := .armed, islands := 2 ^ 50 } } }) 0 ([]) (()) (by decide) (by decide +kernel) (by and_intros <;> first | decide +kernel | rfl),
   meets_of (tBase) 0 ([]) (()) (by decide) (by decide +kernel) (trivial),
   meets_of ({ tBase with trace := { session := { state := .running, islands := 2 ^ 50 } } }) 0 (enc [(16, 0xFFFF)]) (()) (by decide) (by decide +kernel) (by and_intros <;> first | decide +kernel | rfl),
   meets_of (tBase) 0 (enc [(1, 0), (1, 7), (2, 0x8001), (4, 0)]) (()) (by decide) (by decide +kernel) (trivial),
   meetsHeld_of ({ tBase with jobs := [] }) 0 (enc [(8, 0)]) (()) (by decide) (by decide +kernel) (trivial) (by decide +kernel),
   meets_of ({ tBase with jobs := [], trace := { latchMark := some 5 } }) 0 (enc [(1, 0), (7, 0)]) (5) (by decide) (by decide +kernel) (by and_intros <;> first | decide +kernel | rfl),
   meets_of (tBase) 0 (enc [(4, 5), (4, 0)]) ((0, tJob)) (by decide) (by decide +kernel) (by and_intros <;> first | decide +kernel | rfl),
   meets_of (tBase) 0 ([]) (()) (by decide) (by decide +kernel) (trivial)⟩

/-- `CarriedMessages`: a packet of each op is heard and opens, the longest loads and stores among them. -/
theorem test_CarriedMessages_brought :
    BringsMet 0x01 ∧ BringsMet 0x02 ∧ BringsMet 0x03 ∧ BringsMet 0x04 ∧ BringsMet 0x05 ∧ BringsMet 0x06 ∧ BringsMet 0x81
    ∧ BringsMet 0x82 ∧ BringsMet 0x83 ∧ BringsMet 0x84 ∧ BringsMet 0x86 :=
  ⟨bringsMet_of 0x01 (tBody 0x01 4096 0) (by decide +kernel) (by decide +kernel) (by decide +kernel),
   bringsMet_of 0x02 (tBody 0x02 1 1) (by decide +kernel) (by decide +kernel) (by decide +kernel),
   bringsMet_of 0x03 (tBody 0x03 8 0) (by decide +kernel) (by decide +kernel) (by decide +kernel),
   bringsMet_of 0x04 (tBody 0x04 0 0) (by decide +kernel) (by decide +kernel) (by decide +kernel),
   bringsMet_of 0x05 (tBody 0x05 0 0) (by decide +kernel) (by decide +kernel) (by decide +kernel),
   bringsMet_of 0x06 (tBody 0x06 0 0) (by decide +kernel) (by decide +kernel) (by decide +kernel),
   bringsMet_of 0x81 (tBody 0x81 64 64) (by decide +kernel) (by decide +kernel) (by decide +kernel),
   bringsMet_of 0x82 (tBody 0x82 0 0) (by decide +kernel) (by decide +kernel) (by decide +kernel),
   bringsMet_of 0x83 (tBody 0x83 0 0) (by decide +kernel) (by decide +kernel) (by decide +kernel),
   bringsMet_of 0x84 (tBody 0x84 0 0) (by decide +kernel) (by decide +kernel) (by decide +kernel),
   bringsMet_of 0x86 (tBody 0x86 0 0) (by decide +kernel) (by decide +kernel) (by decide +kernel)⟩

/-- `LetterboxTimers`: each clause with hypotheses is met somewhere. -/
theorem test_LetterboxTimers_met :
    (∃ (s : State) (lb : Nat), s.live = true ∧ (s.box lb).state = .throttled ∧ (s.box lb).binding ≠ .fabric)
    ∧ (∃ (s : State) (lb : Nat), s.live = true ∧ (s.box lb).state = .throttled ∧ (s.box lb).binding = .fabric)
    ∧ (∃ (s : State) (lb : Nat) (k : HeldCmd) (key : Key), s.live = true ∧ s.cpServes = true ∧ s.boot.tamperHeld = false ∧ s.dg.pairs ≠ [] ∧ (s.box lb).state ≠ .throttled ∧ k.lb = lb ∧ (s.box lb).waiting.find? (fun x => x.packet.sequence == k.packet.sequence) = some k ∧ s.lbxKey lb = some key)
    ∧ (∃ (s : State) (lb q : Nat), q ∈ (s.box lb).fabricRing)
    ∧ (∃ (s : State) (x : Place), s.live = true ∧ s.cpServes = true ∧ s.boot.blockState = .fullService ∧ s.sniby.places.head? = some x)
    ∧ (∃ (s : State) (link vector : Nat), s.live = true ∧ link * 512 + vector ∈ s.boot.msixDeferred) :=
  ⟨⟨tAt 0 { tBox with state := .throttled, throttledUntil := 5000000000 }, 0, by and_intros <;> first | decide +kernel | rfl | exact test_heard _ _ (by decide +kernel) | (intro _ h; cases h; done) | (intro k q h; cases h; done) | (intro k q h; cases List.eq_of_mem_replicate h)⟩,
   ⟨tAt 1 { tBox with state := .throttled, binding := .fabric, waiting := [tHeld 1] }, 1, by and_intros <;> first | decide +kernel | rfl | exact test_heard _ _ (by decide +kernel) | (intro _ h; cases h; done) | (intro k q h; cases h; done) | (intro k q h; cases List.eq_of_mem_replicate h)⟩,
   ⟨tAt 1 { tBox with binding := .fabric, waiting := [{ tHeld 1 with lb := 1 }] }, 1, { tHeld 1 with lb := 1 }, tKey, by and_intros <;> first | decide +kernel | rfl | exact test_heard _ _ (by decide +kernel) | (intro _ h; cases h; done) | (intro k q h; cases h; done) | (intro k q h; cases List.eq_of_mem_replicate h)⟩,
   ⟨tAt 1 { tBox with fabricRing := [5, 3] }, 1, 3, by and_intros <;> first | decide +kernel | rfl | exact test_heard _ _ (by decide +kernel) | (intro _ h; cases h; done) | (intro k q h; cases h; done) | (intro k q h; cases List.eq_of_mem_replicate h)⟩,
   ⟨{ tBase with sniby := { places := [.hello 0 9] } }, .hello 0 9, by and_intros <;> first | decide +kernel | rfl | exact test_heard _ _ (by decide +kernel) | (intro _ h; cases h; done) | (intro k q h; cases h; done) | (intro k q h; cases List.eq_of_mem_replicate h)⟩,
   ⟨{ tBase with boot := { tBase.boot with msixDeferred := [1023] } }, 1, 511, by and_intros <;> first | decide +kernel | rfl | exact test_heard _ _ (by decide +kernel) | (intro _ h; cases h; done) | (intro k q h; cases h; done) | (intro k q h; cases List.eq_of_mem_replicate h)⟩⟩

/-- `HostWrites`: each clause with hypotheses is met somewhere. -/
theorem test_HostWrites_met :
    (∃ (s : State) (link lb : Nat) (v : BitVec 64), lb < 64 ∧ link ∈ s.boot.hostUp ∧ s.pagesLive = true ∧ (s.box lb).onLink link = true ∧ (s.box lb).state = .idle ∧ bit v.toNat 0 = true ∧ 1 ≤ (s.box lb).cmdLog2 ∧ (s.box lb).cmdLog2 ≤ 8 ∧ (s.box lb).rplLog2 = (s.box lb).cmdLog2 ∧ 6 ≤ (s.box lb).ntcLog2 ∧ (s.box lb).ntcLog2 ≤ 12)
    ∧ (∃ (s : State) (link lb : Nat) (v : BitVec 64), lb < 64 ∧ link ∈ s.boot.hostUp ∧ s.pagesLive = true ∧ (s.box lb).onLink link = true ∧ (s.box lb).state = .idle ∧ bit v.toNat 0 = true ∧ ((s.box lb).cmdLog2 = 0 ∨ 8 < (s.box lb).cmdLog2 ∨ (s.box lb).rplLog2 ≠ (s.box lb).cmdLog2 ∨ (s.box lb).ntcLog2 < 6 ∨ 12 < (s.box lb).ntcLog2))
    ∧ (∃ (s : State) (link lb : Nat) (v : BitVec 64), lb < 64 ∧ link ∈ s.boot.hostUp ∧ s.pagesLive = true ∧ (s.box lb).onLink link = true ∧ (s.box lb).state = .throttled)
    ∧ (∃ (s : State) (link lb : Nat) (v : BitVec 64), lb < 64 ∧ link ∈ s.boot.hostUp ∧ s.pagesLive = true ∧ (s.box lb).onLink link = true ∧ (s.box lb).state = .opened ∧ bit v.toNat 0 = false)
    ∧ (∃ (s : State) (link lb : Nat) (v : BitVec 64), lb < 64 ∧ link ∈ s.boot.hostUp ∧ s.pagesLive = true ∧ s.boot.tamperHeld = false ∧ (s.box lb).onLink link = true ∧ (s.box lb).state ≠ .unbound ∧ (s.box lb).state ≠ .closed)
    ∧ (∃ (s : State) (v : BitVec 64), 0 ∈ s.boot.hostUp)
    ∧ (∃ (s : State) (link lb : Nat) (v : BitVec 64), link < 2 ∧ link ∈ s.boot.hostUp ∧ lb < 64 ∧ s.pagesLive = true ∧ (s.box lb).onLink link = true)
    ∧ (∃ (s : State) (link lb : Nat) (v : BitVec 64), link < 2 ∧ link ∈ s.boot.hostUp ∧ lb < 64 ∧ s.pagesLive = true ∧ (s.box lb).onLink link = true ∧ (s.box lb).state = .idle)
    ∧ (∃ (s : State) (link lb off : Nat) (v : BitVec 64), link < 2 ∧ link ∈ s.boot.hostUp ∧ lb < 64 ∧ off < 4096 ∧ (off ∉ [0, 8, 16, 24, 32, 40] ∨ (off ∈ [0, 8, 16] ∧ (s.box lb).state ≠ .idle) ∨ (off ≠ 32 ∧ (s.pageTakes link lb = false ∨ s.pagesLive = false))))
    ∧ (∃ (s : State) (link h : Nat) (v : BitVec 64), link < 2 ∧ link ∈ s.boot.hostUp ∧ h < 256 ∧ s.pagesLive = true)
    ∧ (∃ (s : State) (link h off : Nat) (v : BitVec 64), link < 2 ∧ link ∈ s.boot.hostUp ∧ h < 256 ∧ off < 4096 ∧ (off ∉ [0, 8, 16, 24] ∨ (off ∈ [0, 8] ∧ (s.ring link h).state ≠ .disabled) ∨ s.pagesLive = false))
    ∧ (∃ (s : State) (link off : Nat) (v : BitVec 64), link < 2 ∧ link ∈ s.boot.hostUp ∧ off < 5136)
    ∧ (∃ (s : State) (link off : Nat) (v : BitVec 64), link < 2 ∧ link ∈ s.boot.hostUp ∧ (off ∉ [16, 24] ∧ off < 1048576 ∨ off = 16 ∧ link = 1 ∨ 1310720 ≤ off ∧ off < 2097152 ∨ 3145728 ≤ off ∧ off < 4194304 ∨ 4199440 ≤ off))
    ∧ (∃ (s : State) (link h : Nat) (v : BitVec 64) (r : JobRoot) (e : EnvRing), link < 2 ∧ link ∈ s.boot.hostUp ∧ h < 256 ∧ s.pagesLive = true ∧ tget s.kv.jobRoots h = some r ∧ r.state = .active ∧ e = ((s.modRing link h (fun e => { e with msix := bit v.toNat 1 })).ring link h) ∧ e.state = .disabled ∧ e.valid = true ∧ bit v.toNat 0 = true ∧ (s.modRing link h (fun e => { e with msix := bit v.toNat 1 })).serving h = true)
    ∧ (∃ (s : State) (v : BitVec 64), s.live = true ∧ 0 ∈ s.boot.hostUp ∧ s.wantsImage = true ∧ bit v.toNat 63 = true ∧ 4160 ≤ v.toNat % 2 ^ 32 ∧ v.toNat % 2 ^ 32 ≤ 4259840)
    ∧ (∃ (s : State) (v : BitVec 64), s.boot.powered = true ∧ s.boot.inReset = true ∧ 0 ∈ s.boot.hostUp ∧ s.wantsImage = true ∧ bit v.toNat 63 = true) :=
  ⟨⟨tAt 63 ({ tBox with state := .idle, cmdLog2 := 8, rplLog2 := 8, ntcLog2 := 12 }), 0, 63, 1, by and_intros <;> first | decide +kernel | rfl | exact test_heard _ _ (by decide +kernel) | (intro _ h; cases h; done) | (intro k q h; cases h; done) | (intro k q h; cases List.eq_of_mem_replicate h)⟩,
   ⟨tAt 63 ({ tBox with state := .idle, cmdLog2 := 9, rplLog2 := 9 }), 0, 63, 1, by and_intros <;> first | decide +kernel | rfl | exact test_heard _ _ (by decide +kernel) | (intro _ h; cases h; done) | (intro k q h; cases h; done) | (intro k q h; cases List.eq_of_mem_replicate h)⟩,
   ⟨tAt 63 ({ tBox with state := .throttled }), 0, 63, 1, by and_intros <;> first | decide +kernel | rfl | exact test_heard _ _ (by decide +kernel) | (intro _ h; cases h; done) | (intro k q h; cases h; done) | (intro k q h; cases List.eq_of_mem_replicate h)⟩,
   ⟨tAt 63 tBox, 0, 63, 0, by and_intros <;> first | decide +kernel | rfl | exact test_heard _ _ (by decide +kernel) | (intro _ h; cases h; done) | (intro k q h; cases h; done) | (intro k q h; cases List.eq_of_mem_replicate h)⟩,
   ⟨tAt 63 tBox, 0, 63, 5, by and_intros <;> first | decide +kernel | rfl | exact test_heard _ _ (by decide +kernel) | (intro _ h; cases h; done) | (intro k q h; cases h; done) | (intro k q h; cases List.eq_of_mem_replicate h)⟩,
   ⟨tBase, -1, by and_intros <;> first | decide +kernel | rfl | exact test_heard _ _ (by decide +kernel) | (intro _ h; cases h; done) | (intro k q h; cases h; done) | (intro k q h; cases List.eq_of_mem_replicate h)⟩,
   ⟨tAt 63 tBox, 0, 63, 5, by and_intros <;> first | decide +kernel | rfl | exact test_heard _ _ (by decide +kernel) | (intro _ h; cases h; done) | (intro k q h; cases h; done) | (intro k q h; cases List.eq_of_mem_replicate h)⟩,
   ⟨tAt 63 ({ tBox with state := .idle, cmdLog2 := 1, rplLog2 := 1, ntcLog2 := 6 }), 0, 63, 4096, by and_intros <;> first | decide +kernel | rfl | exact test_heard _ _ (by decide +kernel) | (intro _ h; cases h; done) | (intro k q h; cases h; done) | (intro k q h; cases List.eq_of_mem_replicate h)⟩,
   ⟨tAt 63 tBox, 0, 63, 4095, 5, by and_intros <;> first | decide +kernel | rfl | exact test_heard _ _ (by decide +kernel) | (intro _ h; cases h; done) | (intro k q h; cases h; done) | (intro k q h; cases List.eq_of_mem_replicate h)⟩,
   ⟨{ tBase with boot := { tBase.boot with hostUp := [0, 1] } }, 1, 255, 5, by and_intros <;> first | decide +kernel | rfl | exact test_heard _ _ (by decide +kernel) | (intro _ h; cases h; done) | (intro k q h; cases h; done) | (intro k q h; cases List.eq_of_mem_replicate h)⟩,
   ⟨{ tBase with boot := { tBase.boot with hostUp := [0, 1] } }, 1, 255, 4095, 5, by and_intros <;> first | decide +kernel | rfl | exact test_heard _ _ (by decide +kernel) | (intro _ h; cases h; done) | (intro k q h; cases h; done) | (intro k q h; cases List.eq_of_mem_replicate h)⟩,
   ⟨tBase, 0, 5135, 5, by and_intros <;> first | decide +kernel | rfl | exact test_heard _ _ (by decide +kernel) | (intro _ h; cases h; done) | (intro k q h; cases h; done) | (intro k q h; cases List.eq_of_mem_replicate h)⟩,
   ⟨tBase, 0, 4199440, 5, by and_intros <;> first | decide +kernel | rfl | exact test_heard _ _ (by decide +kernel) | (intro _ h; cases h; done) | (intro k q h; cases h; done) | (intro k q h; cases List.eq_of_mem_replicate h)⟩,
   ⟨{ tBase with env := [(ringKey 0 0, { descLog2 := 12, cplLog2 := 12 })] }, 0, 0, 1, { state := .active, job := 5, jrk := 9 }, { descLog2 := 12, cplLog2 := 12 }, by and_intros <;> first | decide +kernel | rfl | exact test_heard _ _ (by decide +kernel) | (intro _ h; cases h; done) | (intro k q h; cases h; done) | (intro k q h; cases List.eq_of_mem_replicate h)⟩,
   ⟨{ tBase with boot := { tBase.boot with bootCode := 5 } }, BitVec.ofNat 64 (2 ^ 63 + 4259840), by and_intros <;> first | decide +kernel | rfl | exact test_heard _ _ (by decide +kernel) | (intro _ h; cases h; done) | (intro k q h; cases h; done) | (intro k q h; cases List.eq_of_mem_replicate h)⟩,
   ⟨{ State.reset with boot := { State.reset.boot with hostUp := [0] } }, BitVec.ofNat 64 (2 ^ 63), by and_intros <;> first | decide +kernel | rfl | exact test_heard _ _ (by decide +kernel) | (intro _ h; cases h; done) | (intro k q h; cases h; done) | (intro k q h; cases List.eq_of_mem_replicate h)⟩⟩

/-- `HostMemory`: each clause with hypotheses is met somewhere. -/
theorem test_HostMemory_met :
    (∃ (s : State) (i : FwImage), s.live = true ∧ s.boot.bootCode = 0xFE ∧ s.fwCheck i = 0)
    ∧ (∃ (s : State) (i : FwImage), s.live = true ∧ s.boot.bootCode = 0xFE ∧ s.fwCheck i ≠ 0)
    ∧ (∃ (s : State) (link len tag : Nat) (off : BitVec 64), s.barServes link = true ∧ 0 < len ∧ len ≤ 4096 ∧ s.barRefused off.toNat len = false)
    ∧ (∃ (s : State) (link len tag : Nat) (off : BitVec 64), s.live = true ∧ link ∈ s.boot.hostUp ∧ s.barServes link = false ∧ 0 < len ∧ len ≤ 4096)
    ∧ (∃ (s : State) (link len tag : Nat) (off : BitVec 64), s.barServes link = true ∧ 0 < len ∧ len ≤ 4096 ∧ s.barRefused off.toNat len = true)
    ∧ (∃ (s : State) (link : Nat) (off : BitVec 64) (data : Bytes), s.barServes link = true ∧ 0 < data.length ∧ data.length ≤ 4096 ∧ s.barRefused off.toNat data.length = false)
    ∧ (∃ (s : State) (link : Nat) (off : BitVec 64) (data : Bytes), s.barServes link = true ∧ 0 < data.length ∧ data.length ≤ 4096 ∧ s.barRefused off.toNat data.length = true) :=
  ⟨⟨{ tBase with boot := { tBase.boot with bootCode := 0xFE, fetchLength := 4160 } }, { magic := BitVec.ofNat 64 (ofLe (ascii "AETHOKFW")), revision := 0x32, signing := 0, keyId := 0, reserved1 := 0, version := 1, bodyLength := 4096, signatureLength := 0, reserved2 := 0, body := zeros 4096, signature := [] }, by and_intros <;> first | decide +kernel | rfl | exact test_heard _ _ (by decide +kernel) | (intro _ h; cases h; done) | (intro k q h; cases h; done) | (intro k q h; cases List.eq_of_mem_replicate h)⟩,
   ⟨{ tBase with boot := { tBase.boot with bootCode := 0xFE, fetchLength := 4160 } }, { magic := BitVec.ofNat 64 (ofLe (ascii "AETHOKFW")), revision := 0x32, signing := 0, keyId := 0, reserved1 := 0, version := 1, bodyLength := 4095, signatureLength := 0, reserved2 := 0, body := zeros 4096, signature := [] }, by and_intros <;> first | decide +kernel | rfl | exact test_heard _ _ (by decide +kernel) | (intro _ h; cases h; done) | (intro k q h; cases h; done) | (intro k q h; cases List.eq_of_mem_replicate h)⟩,
   ⟨tBase, 0, 64, 1, BitVec.ofNat 64 (0xC00000000 - 64), by and_intros <;> first | decide +kernel | rfl | exact test_heard _ _ (by decide +kernel) | (intro _ h; cases h; done) | (intro k q h; cases h; done) | (intro k q h; cases List.eq_of_mem_replicate h)⟩,
   ⟨{ tBase with boot := { tBase.boot with blockState := .handshakeReady } }, 0, 4096, 1, 0, by and_intros <;> first | decide +kernel | rfl | exact test_heard _ _ (by decide +kernel) | (intro _ h; cases h; done) | (intro k q h; cases h; done) | (intro k q h; cases List.eq_of_mem_replicate h)⟩,
   ⟨tBase, 0, 64, 1, BitVec.ofNat 64 (0xC00000000 - 63), by and_intros <;> first | decide +kernel | rfl | exact test_heard _ _ (by decide +kernel) | (intro _ h; cases h; done) | (intro k q h; cases h; done) | (intro k q h; cases List.eq_of_mem_replicate h)⟩,
   ⟨tBase, 0, BitVec.ofNat 64 (0xC00000000 - 4096), zeros 4096, by decide, by rw [show (zeros 4096).length = 4096 from List.length_replicate]; decide, Nat.le_of_eq List.length_replicate, by rw [show (zeros 4096).length = 4096 from List.length_replicate]; decide +kernel⟩,
   ⟨tBase, 0, BitVec.ofNat 64 (2 ^ 40), [1], by and_intros <;> first | decide +kernel | rfl | exact test_heard _ _ (by decide +kernel) | (intro _ h; cases h; done) | (intro k q h; cases h; done) | (intro k q h; cases List.eq_of_mem_replicate h)⟩⟩

/-- `Envelopes`: each clause with hypotheses is met somewhere. -/
theorem test_Envelopes_met :
    (∃ (s : State) (link h : Nat) (d : EnvDesc) (page plain : Bytes) (j : Job) (k : Key), d.op = 1 ∧ s.envReads link h = true ∧ firstBad (descFields d) = none ∧ s.job h = some j ∧ (s.ring link h).sk0 = some k ∧ d.descSeq.toNat = (s.ring link h).nextSeq ∧ d.descSeq.toNat < 0xFFFFF000 ∧ d.job.toNat = j.number ∧ gcmOpen k (envIv d.descSeq 1) (descBytes d) (slice page 0 d.length.toNat) (bytesOf d.tag) = some plain)
    ∧ (∃ (s : State) (link h : Nat) (d : EnvDesc) (plain : Bytes) (j : Job) (k : Key), d.op = 2 ∧ s.envReads link h = true ∧ firstBad (descFields d) = none ∧ s.job h = some j ∧ (s.ring link h).sk0 = some k ∧ d.descSeq.toNat = (s.ring link h).nextSeq ∧ d.descSeq.toNat < 0xFFFFF000 ∧ d.job.toNat = j.number ∧ gcmOpen k (envIv d.descSeq 1) (descBytes d) [] (bytesOf d.tag) = some plain) :=
  ⟨⟨{ tBase with env := [(ringKey 0 0, tRing)] }, 0, 0, tDesc 1 4096 (zeros 4096), tPage 4096, zeros 4096, tJob, 3, rfl, by decide +kernel, by decide +kernel, by decide, by decide, by decide +kernel, by decide +kernel, by decide +kernel, test_page_opens 4096⟩,
   ⟨{ tBase with env := [(ringKey 0 0, tRing)] }, 0, 0, tDesc 2 4096 [], [], tJob, 3, rfl, by decide +kernel, by decide +kernel, by decide, by decide, by decide +kernel, by decide +kernel, by decide +kernel, test_bare_opens 4096⟩⟩

/-- `TileRequests`: each clause with hypotheses is met somewhere. -/
theorem test_TileRequests_met :
    (∃ (s : State) (t j : Nat) (h : TileHead), h.op = 1 ∧ s.tileEntry t h = .job j ∧ h.address.toNat / 2 ^ 48 = s.boot.nodeNumber ∧ s.boot.nodeNumber ≠ 0xFFFF)
    ∧ (∃ (s : State) (t j : Nat) (h : TileHead) (data : Bytes) (mask : List Bool) (lane : Bool), h.op = 2 ∧ s.tileEntry t h = .job j ∧ h.address.toNat / 2 ^ 48 = s.boot.nodeNumber ∧ s.boot.nodeNumber ≠ 0xFFFF)
    ∧ (∃ (s : State) (t j : Nat) (h : TileHead), h.op = 3 ∧ s.tileEntry t h = .job j ∧ h.address.toNat / 2 ^ 48 = s.boot.nodeNumber ∧ s.boot.nodeNumber ≠ 0xFFFF)
    ∧ (∃ (s : State) (a : RemAsk) (n : Nat) (r : Region), s.regionAt a.handle false (a.address % 2 ^ 48) a.length = some (n, r) ∧ s.regionCheck a.handle r a.op a.keyIndex = none)
    ∧ (∃ (s : State) (t j : Nat) (h : TileHead) (data : Bytes) (mask : List Bool) (lane : Bool), h.op = 2 ∧ s.tileEntry t h = .job j ∧ h.address.toNat / 2 ^ 48 ≠ s.boot.nodeNumber ∧ h.address.toNat / 2 ^ 48 ≠ 0xFFFF ∧ s.boot.nodeNumber ≠ 0xFFFF ∧ s.isTray (h.address.toNat / 2 ^ 48) = false)
    ∧ (∃ (s : State) (t j : Nat) (h : TileHead), h.op = 4 ∧ s.tileEntry t h = .job j ∧ bits h.address.toNat 12 0 ≤ 8127 ∧ (s.fenceObj (bits h.address.toNat 12 0)).state = .idle ∧ (s.fenceObj (bits h.address.toNat 12 0)).handle = j)
    ∧ (∃ (s : State) (t j : Nat) (h : TileHead) (image : Bytes), h.op = 5 ∧ s.tileEntry t h = .job j ∧ s.chunkRefusal j h (bits h.address.toNat 9 0) (bits h.address.toNat 39 16) = none ∧ s.tc0Full h.ctx.toNat j h.tc.toNat (s.desc (bits h.address.toNat 9 0)).port = false)
    ∧ (∃ (s u : State) (t : Nat) (h : TileHead) (data : Bytes) (mask : List Bool) (lane : Bool), s.tileEntry t h = .answered u)
    ∧ (∃ (s : State) (t : Nat) (h : TileHead) (data : Bytes) (mask : List Bool) (lane : Bool), s.tileEntry t h = .withheld) :=
  ⟨⟨tBase, 0, 0, tHead 1, by and_intros <;> first | decide +kernel | rfl | exact test_heard _ _ (by decide +kernel) | (intro _ h; cases h; done) | (intro k q h; cases h; done) | (intro k q h; cases List.eq_of_mem_replicate h)⟩,
   ⟨tBase, 0, 0, tHead 2, zeros 64, List.replicate 64 true, false, by and_intros <;> first | decide +kernel | rfl | exact test_heard _ _ (by decide +kernel) | (intro _ h; cases h; done) | (intro k q h; cases h; done) | (intro k q h; cases List.eq_of_mem_replicate h)⟩,
   ⟨tBase, 0, 0, { tHead 3 with length := 8, atomicOp := 6, compare := 3 }, by and_intros <;> first | decide +kernel | rfl | exact test_heard _ _ (by decide +kernel) | (intro _ h; cases h; done) | (intro k q h; cases h; done) | (intro k q h; cases List.eq_of_mem_replicate h)⟩,
   ⟨tBase, remAsk 0 0 (tHead 1) [] [], 0, { state := .active, cls := .confidential, handle := 0, keyLast := 15, size := 4096 }, by and_intros <;> first | decide +kernel | rfl | exact test_heard _ _ (by decide +kernel) | (intro _ h; cases h; done) | (intro k q h; cases h; done) | (intro k q h; cases List.eq_of_mem_replicate h)⟩,
   ⟨tBase, 0, 0, { tHead 2 with address := 0x0009000000000000 }, zeros 64, List.replicate 64 true, false, by and_intros <;> first | decide +kernel | rfl | exact test_heard _ _ (by decide +kernel) | (intro _ h; cases h; done) | (intro k q h; cases h; done) | (intro k q h; cases List.eq_of_mem_replicate h)⟩,
   ⟨{ tBase with remote := { fences := [(8127, { state := .idle, handle := 0 })] } }, 0, 0, { tHead 4 with length := 0, address := 0xFFFF1FBF }, by and_intros <;> first | decide +kernel | rfl | exact test_heard _ _ (by decide +kernel) | (intro _ h; cases h; done) | (intro k q h; cases h; done) | (intro k q h; cases List.eq_of_mem_replicate h)⟩,
   ⟨{ tBase with red := { descs := [(1023, { state := .active, handle := 0, n := 2, chunks := 16777215, inFmt := 0 })] } }, 0, 0, { tHead 5 with length := BitVec.ofNat 16 (imageSize 0), address := 0xFFFFFE03FF }, [], by and_intros <;> first | decide +kernel | rfl | exact test_heard _ _ (by decide +kernel) | (intro _ h; cases h; done) | (intro k q h; cases h; done) | (intro k q h; cases List.eq_of_mem_replicate h)⟩,
   ⟨tBase, tBase.tileRefuse 0 { tHead 1 with length := 4097 } .badParam 0, 0, { tHead 1 with length := 4097 }, [], [], false, by and_intros <;> first | decide +kernel | rfl | exact test_heard _ _ (by decide +kernel) | (intro _ h; cases h; done) | (intro k q h; cases h; done) | (intro k q h; cases List.eq_of_mem_replicate h)⟩,
   ⟨State.reset, 0, tHead 1, [], [], false, by and_intros <;> first | decide +kernel | rfl | exact test_heard _ _ (by decide +kernel) | (intro _ h; cases h; done) | (intro k q h; cases h; done) | (intro k q h; cases List.eq_of_mem_replicate h)⟩⟩

/-- A derivation of key index 3 that has ended. -/
def tReady0 : KeyReq := { id := 1, island := 0, handle := 0, kind := .data 3 0, ready := true }

/-- A line that is being written back. -/
def tLeaving : Line := { island := 0, key := .frank 0 0, val := .franks [], dirty := false, lastUse := 0, writing := 1, wid := 0 }

/-- Island 0 holds as many lines as it has, and all of them are being written back. -/
def tCacheFull : State := { tBase with kv := { tBase.kv with requests := [tReady0] }, mem := { lines := List.replicate 28672 tLeaving } }

theorem test_evict_stays (s : State) (island want n : Nat)
    (h : s.linesHeld island + want ≤ s.capacity island + s.linesLeaving island) : State.evict island want (n + 1) s = s := if_pos h

theorem test_room_after (s t : State) (island : Nat) (h : State.evict island Config.scheduleLines 16 s = t) :
    (s.scheduleRoom island).1 = t.hasRoom island Config.scheduleLines := by
  subst h
  rfl

theorem test_full : ((tCacheFull.verifyLane false).scheduleRoom 0).1 = false := by
  have hl : (tCacheFull.verifyLane false).mem.lines = List.replicate 28672 tLeaving := rfl
  have hh : (tCacheFull.verifyLane false).linesHeld 0 = 28672 := by
    unfold State.linesHeld
    rw [hl, List.filter_replicate, if_pos (by decide), List.length_replicate]
    rfl
  have hv : (tCacheFull.verifyLane false).linesLeaving 0 = 28672 := by
    unfold State.linesLeaving
    rw [hl, List.filter_replicate, if_pos (by rfl), List.length_replicate]
  have hc : (tCacheFull.verifyLane false).capacity 0 = 28671 := by decide +kernel
  have he : State.evict 0 Config.scheduleLines 16 (tCacheFull.verifyLane false) = tCacheFull.verifyLane false := by
    apply test_evict_stays (n := 15)
    rw [hh, hv, hc]
    decide
  rw [test_room_after _ _ _ he]
  unfold State.hasRoom
  rw [hh, hc]
  decide

/-- `ReturningData`: each clause with hypotheses is met somewhere. -/
theorem test_ReturningData_met :
    (∃ (s u v : State) (r : KeyReq) (i g : Nat) (root : JobRoot) (lane : Bool), s.kv.requests.find? (fun x => x.id == r.id && x.ready) = some r ∧ r.kind = .data i g ∧ u = s.verifyLane lane ∧ (u.scheduleRoom r.island).1 = true ∧ v = (State.scheduleRoom (State.keyHeldBy { u with kv := { u.kv with requests := u.kv.requests.filter (fun x => x.id != r.id) } } r.handle r.island) r.island).2 ∧ tget v.kv.jobRoots r.handle = some root)
    ∧ (∃ (s : State) (r : KeyReq) (i g : Nat) (lane : Bool), s.kv.requests.find? (fun x => x.id == r.id && x.ready) = some r ∧ r.kind = .data i g ∧ ((s.verifyLane lane).scheduleRoom r.island).1 = false)
    ∧ (∃ (s : State) (r : KeyReq) (n : Nat) (lane : Bool), s.kv.requests.find? (fun x => x.id == r.id && x.ready) = some r ∧ r.kind = .reduce n)
    ∧ (∃ (s : State) (o : SecOp) (d : SectorData) (lane : Bool), s.secOp o.id = some o ∧ o.stage = .reading ∧ o.got = none ∧ (s.regionX o.region).cls ≠ .opened)
    ∧ (∃ (s : State) (o : SecOp) (d : SectorData) (lane : Bool), s.secOp o.id = some o ∧ o.stage = .reading ∧ o.got = none ∧ (s.regionX o.region).cls = .opened ∧ d.ue = false ∧ o.kind ≠ .atomic)
    ∧ (∃ (s : State) (o : SecOp), s.secOp o.id = some o ∧ o.stage = .writing ∧ o.writes ≤ 1)
    ∧ (∃ (s : State) (port : Nat) (o : SecOp) (d : SectorData) (lane : Bool), s.fabricTakes port = true ∧ port ∉ s.fault.portsHung ∧ s.secOp o.id = some o ∧ o.island = islandP port ∧ o.stage = .reading ∧ o.got = none ∧ (s.regionX o.region).cls ≠ .opened)
    ∧ (∃ (s : State) (port nth : Nat) (o : SecOp), port < 32 ∧ s.fabricTakes port = true ∧ port ∉ s.fault.portsHung ∧ s.secOp o.id = some o ∧ o.island = islandP port ∧ o.stage = .writing ∧ 1 < o.writes ∧ ((s.count (islandP port) 5 (some 3) 64).resumeAck port nth o.id).secOp o.id = some o)
    ∧ (∃ (s : State) (f : Fetch) (b : Bytes) (ue root lane : Bool), s.mem.fetches.find? (fun x => x.id == f.id && x.island == f.island && x.got.isNone) = some f ∧ f.island < 48) :=
  ⟨⟨{ tBase with kv := { tBase.kv with requests := [{ id := 1, island := 0, handle := 0, kind := .data 3 0, ready := true }] } }, _, _, { id := 1, island := 0, handle := 0, kind := .data 3 0, ready := true }, 3, 0, { state := .active, job := 5, jrk := 9, holders := [0] }, false, by decide +kernel, by decide +kernel, rfl, by decide +kernel, rfl, by decide +kernel⟩,
   ⟨tCacheFull, tReady0, 3, 0, false, by decide +kernel, rfl, test_full⟩,
   ⟨{ tBase with kv := { tBase.kv with requests := [{ id := 1, island := 0, handle := 0, kind := .reduce 1023, ready := true }] } }, { id := 1, island := 0, handle := 0, kind := .reduce 1023, ready := true }, 1023, false, by and_intros <;> first | decide +kernel | rfl | exact test_heard _ _ (by decide +kernel) | (intro _ h; cases h; done) | (intro k q h; cases h; done) | (intro k q h; cases List.eq_of_mem_replicate h)⟩,
   ⟨{ tBase with mem := { ops := [tOp .reading 0] } }, tOp .reading 0, tData, true, by and_intros <;> first | decide +kernel | rfl | exact test_heard _ _ (by decide +kernel) | (intro _ h; cases h; done) | (intro k q h; cases h; done) | (intro k q h; cases List.eq_of_mem_replicate h)⟩,
   ⟨{ tBase with regions := [(0, { state := .active, cls := .opened, size := 4096 })], mem := { ops := [tOp .reading 0] } }, tOp .reading 0, tData, false, by and_intros <;> first | decide +kernel | rfl | exact test_heard _ _ (by decide +kernel) | (intro _ h; cases h; done) | (intro k q h; cases h; done) | (intro k q h; cases List.eq_of_mem_replicate h)⟩,
   ⟨{ tBase with mem := { ops := [tOp .writing 0] } }, tOp .writing 0, by and_intros <;> first | decide +kernel | rfl | exact test_heard _ _ (by decide +kernel) | (intro _ h; cases h; done) | (intro k q h; cases h; done) | (intro k q h; cases List.eq_of_mem_replicate h)⟩,
   ⟨{ tBase with mem := { ops := [tOp .reading 47] } }, 31, tOp .reading 47, tData, false, by and_intros <;> first | decide +kernel | rfl | exact test_heard _ _ (by decide +kernel) | (intro _ h; cases h; done) | (intro k q h; cases h; done) | (intro k q h; cases List.eq_of_mem_replicate h)⟩,
   ⟨{ tBase with mem := { ops := [{ tOp .writing 47 with writes := 2 }] } }, 31, 1, { tOp .writing 47 with writes := 2 }, by and_intros <;> first | decide +kernel | rfl | exact test_heard _ _ (by decide +kernel) | (intro _ h; cases h; done) | (intro k q h; cases h; done) | (intro k q h; cases List.eq_of_mem_replicate h)⟩,
   ⟨{ tBase with mem := { fetches := [{ id := 1, island := 15, key := .frank 0 7, copyB := false, ahead := false, tc := 2, failed := 0, got := none, since := 0 }] } }, { id := 1, island := 15, key := .frank 0 7, copyB := false, ahead := false, tc := 2, failed := 0, got := none, since := 0 }, zeros 64, false, false, by and_intros <;> first | decide +kernel | rfl | exact test_heard _ _ (by decide +kernel) | (intro _ h; cases h; done) | (intro k q h; cases h; done) | (intro k q h; cases List.eq_of_mem_replicate h)⟩⟩

/-- `SectorTimers`: each clause with hypotheses is met somewhere. -/
theorem test_SectorTimers_met :
    (∃ (s : State) (island k : Nat) (t : Tracker), s.live = true ∧ (s.mem.trackers.filter (fun x => x.island == island))[k]? = some t)
    ∧ (∃ (s : State) (region sector : Nat) (e : WcEntry), s.live = true ∧ s.wcEntry region sector = some e)
    ∧ (∃ (s : State) (island region leaf : Nat) (data : List SectorData) (o : SecOp) (old : Node) (dk : Key), (s.wrapsOf island).find? (fun x => x.region == region && x.sector / 64 == leaf) = some o ∧ (∀ x ∈ s.mem.ops, x.region = region → x.sector / 64 = leaf → x.stage ≠ .reading ∧ x.stage ≠ .writing) ∧ (s.region region).pooled = false ∧ (s.entry (s.region region).handle o.keyIndex).seals + (s.leafGroup region leaf).length ≤ 2 ^ 34 ∧ (∀ k ∈ s.leafGroup region leaf, ∀ g ∈ s.openGens region (s.region region).handle k o.keyIndex, s.schedule? island (s.region region).handle o.keyIndex g ≠ none) ∧ s.schedule? island (s.region region).handle o.keyIndex (s.entry (s.region region).handle o.keyIndex).gen = some dk ∧ s.nodeAt region 1 leaf = .found old ∧ s.laneOff = false ∧ usableKey dk = true)
    ∧ (∃ (s : State) (h i : Nat) (ops : List Nat) (rest : List (Nat × Nat × List Nat)), s.courier.armed = (h, i, ops) :: rest ∧ s.courier.passes.length < 64 ∧ (∀ n ∈ s.passRegions h i, (s.region n).courier = none ∧ (s.region n).state ≠ .suspended) ∧ (s.entry h i).state = .live ∧ (s.entry h i).gen ≠ 0xFE)
    ∧ (∃ (s : State) (n island : Nat) (d : SectorData) (c : CourierField) (p : Pass) (leaf : Node) (old new : Key), (s.region n).courier = some c ∧ s.courier.passes.find? (fun p => decide (n ∈ p.regions) && s.walks p n) = some p ∧ s.regionIsland (s.region n) = some island ∧ (s.region n).pooled = false ∧ atLimit (s.entry (s.region n).handle c.index) = false ∧ c.watermark < (s.region n).sectors ∧ (∀ o ∈ s.mem.ops, o.region = n → o.sector ≠ c.watermark ∧ ¬((o.stage = .wrapping ∨ o.group = true) ∧ o.sector / 64 = c.watermark / 64)) ∧ ((s.region n).cls ≠ .fresh ∧ leaf = {} ∨ (s.region n).cls = .fresh ∧ s.nodeAt n 1 (c.watermark / 64) = .found leaf ∧ leaf.childZero (c.watermark % 64) = false) ∧ s.schedule? island (s.region n).handle c.index (c.gen - 1) = some old ∧ s.schedule? island (s.region n).handle c.index c.gen = some new ∧ d.ue = false ∧ usableKey old = true ∧ usableKey new = true ∧ frankOf old (lbnOf n (s.region n) c.watermark) (versionOf (s.region n).cls leaf c.watermark) d.bytes = s.storedFrank (s.passOp n c.watermark island c.index) d ∧ s.laneOff = false) :=
  ⟨⟨{ tBase with mem := { trackers := [{ island := 0, ctx := 0, region := 0, key := 15, last := 0, stride := 4, at_ := 3999960000 }] } }, 0, 0, { island := 0, ctx := 0, region := 0, key := 15, last := 0, stride := 4, at_ := 3999960000 }, by and_intros <;> first | decide +kernel | rfl | exact test_heard _ _ (by decide +kernel) | (intro _ h; cases h; done) | (intro k q h; cases h; done) | (intro k q h; cases List.eq_of_mem_replicate h)⟩,
   ⟨{ tBase with mem := { wc := [{ island := 0, region := 0, sector := 63, keyIndex := 15, ctx := some 0, tc := 2, bytes := [], first := 0 }] } }, 0, 63, { island := 0, region := 0, sector := 63, keyIndex := 15, ctx := some 0, tc := 2, bytes := [], first := 0 }, by and_intros <;> first | decide +kernel | rfl | exact test_heard _ _ (by decide +kernel) | (intro _ h; cases h; done) | (intro k q h; cases h; done) | (intro k q h; cases List.eq_of_mem_replicate h)⟩,
   ⟨{ tBase with regions := [(0, { state := .active, cls := .fresh, handle := 0, keyLast := 15, size := 8192, tree := { sectors := 128 } })], mem := { ops := [{ tOp .wrapping 0 with keyIndex := 3 }] }, kv := { tBase.kv with schedules := [{ island := 0, handle := 0, index := 3, gen := 0, key := 5 }] } }, 0, 0, 0, [], { tOp .wrapping 0 with keyIndex := 3 }, {}, 5, by and_intros <;> first | decide +kernel | rfl | exact test_heard _ _ (by decide +kernel) | (intro _ h; cases h; done) | (intro k q h; cases h; done) | (intro k q h; cases List.eq_of_mem_replicate h)⟩,
   ⟨{ tBase with courier := { armed := [(0, 3, [])] } }, 0, 3, [], [], by and_intros <;> first | decide +kernel | rfl | exact test_heard _ _ (by decide +kernel) | (intro _ h; cases h; done) | (intro k q h; cases h; done) | (intro k q h; cases List.eq_of_mem_replicate h)⟩,
   ⟨{ tBase with regions := [(0, { state := .rekeying, cls := .confidential, handle := 0, keyLast := 15, size := 4096, courier := some { index := 3, gen := 1, watermark := 63 } })], courier := { passes := [{ handle := 0, index := 3, gen := 1, state := .running, regions := [0], ops := [], waits := [] }] }, kv := { tBase.kv with schedules := [{ island := 0, handle := 0, index := 3, gen := 0, key := 5 }, { island := 0, handle := 0, index := 3, gen := 1, key := 6 }] } }, 0, 0, { bytes := zeros 64, frank := frankOf 5 63 (versionOf .confidential {} 63) (zeros 64), flags := [false] }, { index := 3, gen := 1, watermark := 63 }, { handle := 0, index := 3, gen := 1, state := .running, regions := [0], ops := [], waits := [] }, {}, 5, 6, by
    and_intros
    · decide +kernel
    · decide +kernel
    · decide +kernel
    · decide +kernel
    · decide +kernel
    · decide +kernel
    · decide +kernel
    · exact Or.inl (by decide +kernel)
    · decide +kernel
    · decide +kernel
    · rfl
    · decide +kernel
    · decide +kernel
    · exact (congrArg (fun v => v) rfl : frankOf 5 63 (versionOf .confidential {} 63) (zeros 64) = frankOf 5 63 (versionOf .confidential {} 63) (zeros 64))
    · rfl⟩⟩

/-- `HandshakeMessages`: each clause with hypotheses is met somewhere. -/
theorem test_HandshakeMessages_met :
    (∃ (s : State) (port h : Nat) (p : MsgPacket), Heard s port ∧ p.kind = 0x20 ∧ p.revision = Config.revisionByte ∧ wellFormedPacket s.boot.nodeNumber p = true ∧ s.handleOf p.job.toNat = some h ∧ s.serving h = true ∧ p.src.toNat ∉ s.assocs.revoked ∧ (∀ k q, Place.message k q ∈ s.sniby.places → q ≠ p) ∧ s.sniby.places.length < 80)
    ∧ (∃ (s : State) (port h : Nat) (p : MsgPacket), Heard s port ∧ p.kind = 0x20 ∧ p.revision = Config.revisionByte ∧ wellFormedPacket s.boot.nodeNumber p = true ∧ s.handleOf p.job.toNat = some h ∧ s.serving h = true ∧ p.src.toNat ∉ s.assocs.revoked ∧ (∀ k q, Place.message k q ∈ s.sniby.places → q ≠ p) ∧ 80 ≤ s.sniby.places.length)
    ∧ (∃ (s : State) (port h : Nat) (p : MsgPacket), Heard s port ∧ p.revision = Config.revisionByte ∧ wellFormedPacket s.boot.nodeNumber p = true ∧ s.handleOf p.job.toNat = some h ∧ s.serving h = true ∧ p.src.toNat ∉ s.assocs.revoked ∧ s.sniby.places.length < 4096)
    ∧ (∃ (s : State) (port h : Nat) (p : MsgPacket), Heard s port ∧ p.kind = 0x23 ∧ wellFormedPacket s.boot.nodeNumber p = true ∧ s.handleOf p.job.toNat = some h ∧ p.src.toNat ∉ s.assocs.revoked) :=
  ⟨⟨tBase, 0, 0, tMsg 0x20 (zeros 16), by and_intros <;> first | decide +kernel | rfl | exact test_heard _ _ (by decide +kernel) | (intro _ h; cases h; done) | (intro k q h; cases h; done) | (intro k q h; cases List.eq_of_mem_replicate h)⟩,
   ⟨{ tBase with sniby := { places := List.replicate 80 (.hello 0 9) } }, 0, 0, tMsg 0x20 (zeros 16), by and_intros <;> first | decide +kernel | rfl | exact test_heard _ _ (by decide +kernel) | (intro _ h; cases h; done) | (intro k q h; cases h; done) | (intro k q h; cases List.eq_of_mem_replicate h)⟩,
   ⟨{ tBase with sniby := { places := List.replicate 4095 (.hello 0 9) } }, 0, 0, tMsg 0x21 (zeros 32), by and_intros <;> first | decide +kernel | rfl | exact test_heard _ _ (by decide +kernel) | (intro _ h; cases h; done) | (intro k q h; cases h; done) | (intro k q h; cases List.eq_of_mem_replicate h)⟩,
   ⟨tPaired { tAssoc with state := .calling }, 0, 0, tMsg 0x23 (enc [(2, 0x0101), (6, 0)]), by and_intros <;> first | decide +kernel | rfl | exact test_heard _ _ (by decide +kernel) | (intro _ h; cases h; done) | (intro k q h; cases h; done) | (intro k q h; cases List.eq_of_mem_replicate h)⟩⟩

/-- `AssociationTimers`: each clause with hypotheses is met somewhere. -/
theorem test_AssociationTimers_met :
    (∃ (s : State) (h peer : Nat) (a : Assoc) (q : MsgPacket), s.live = true ∧ s.assoc h peer = some a ∧ a.state = .calling ∧ a.sends < 8 ∧ a.deferred ≤ 1000 * Config.ms ∧ a.hello = some q ∧ s.fault.isolated = false)
    ∧ (∃ (s : State) (h peer t : Nat) (a : Assoc), s.live = true ∧ s.assoc h peer = some a ∧ a.state = .calling ∧ a.sends ≠ 0 ∧ a.deferred ≤ 1000 * Config.ms ∧ s.handshakeDue h peer = some t)
    ∧ (∃ (s : State) (h peer t e : Nat) (a : Assoc) (salt : BitVec 48) (ni nr : BitVec 64), s.live = true ∧ s.assoc h peer = some a ∧ a.answer = some (e, salt, ni, nr, t) ∧ a.state ≠ .answered)
    ∧ (∃ (s : State) (h peer t e : Nat) (a : Assoc) (salt : BitVec 48) (ni nr : BitVec 64), s.live = true ∧ s.assoc h peer = some a ∧ a.answer = some (e, salt, ni, nr, t) ∧ a.state = .answered ∧ (∀ q ∈ ((s.reach (t + 200 * Config.us)).removeAssoc h peer).remote.reqs, ¬(q.handle = h ∧ q.node = peer)))
    ∧ (∃ (s : State) (h peer : Nat) (a : Assoc), s.live = true ∧ s.assoc h peer = some a ∧ a.seals = true ∧ a.waitKeys = false)
    ∧ (∃ (s : State) (h peer : Nat) (a : Assoc) (r : KeyReq) (root : JobRoot) (lane : Bool), s.assoc h peer = some a ∧ s.kv.requests.find? (fun x => x.handle == h && x.ready && x.kind == .assoc peer (a.epoch + 1)) = some r ∧ tget s.kv.jobRoots h = some root ∧ a.waitKeys = true)
    ∧ (∃ (s : State) (h peer : Nat) (a : Assoc) (new old : Epoch), s.live = true ∧ s.assoc h peer = some a ∧ a.state = .ratcheting ∧ a.learnedAt = none ∧ a.epochs = [new, old] ∧ a.resends < 8)
    ∧ (∃ (s : State) (h peer : Nat) (a : Assoc) (new old : Epoch), s.live = true ∧ s.assoc h peer = some a ∧ a.state = .ratcheting ∧ a.learnedAt = none ∧ a.epochs = [new, old] ∧ a.resends = 8)
    ∧ (∃ (s : State) (h peer t : Nat) (a : Assoc), s.live = true ∧ s.assoc h peer = some a ∧ a.learnedAt = some t)
    ∧ (∃ (s : State) (h peer t : Nat) (a : Assoc), s.live = true ∧ s.assoc h peer = some a ∧ a.trigger = true ∧ a.lastStep = some t ∧ (s.reach (t + Config.ms)).mayStep a = true) :=
  ⟨⟨tPaired { tAssoc with state := .calling, sends := 7, deferred := 4000000000, hello := some (tMsg 0x20 []), calledAt := 0, dueAt := 0 }, 0, 9, { tAssoc with state := .calling, sends := 7, deferred := 4000000000, hello := some (tMsg 0x20 []), calledAt := 0, dueAt := 0 }, tMsg 0x20 [], by and_intros <;> first | decide +kernel | rfl | exact test_heard _ _ (by decide +kernel) | (intro _ h; cases h; done) | (intro k q h; cases h; done) | (intro k q h; cases List.eq_of_mem_replicate h)⟩,
   ⟨tPaired { tAssoc with state := .calling, sends := 7, deferred := 4000000000, hello := some (tMsg 0x20 []), calledAt := 0, dueAt := 0 }, 0, 9, 0 + 2 * Config.ms + 4000000000, { tAssoc with state := .calling, sends := 7, deferred := 4000000000, hello := some (tMsg 0x20 []), calledAt := 0, dueAt := 0 }, by and_intros <;> first | decide +kernel | rfl | exact test_heard _ _ (by decide +kernel) | (intro _ h; cases h; done) | (intro k q h; cases h; done) | (intro k q h; cases List.eq_of_mem_replicate h)⟩,
   ⟨tPaired { tAssoc with state := .opened, answer := some (1, 0, 1, 2, 3999200000) }, 0, 9, 3999200000, 1, { tAssoc with state := .opened, answer := some (1, 0, 1, 2, 3999200000) }, 0, 1, 2, by and_intros <;> first | decide +kernel | rfl | exact test_heard _ _ (by decide +kernel) | (intro _ h; cases h; done) | (intro k q h; cases h; done) | (intro k q h; cases List.eq_of_mem_replicate h)⟩,
   ⟨tPaired { tAssoc with state := .answered, answer := some (1, 0, 1, 2, 3999200000) }, 0, 9, 3999200000, 1, { tAssoc with state := .answered, answer := some (1, 0, 1, 2, 3999200000) }, 0, 1, 2, by and_intros <;> first | decide +kernel | rfl | exact test_heard _ _ (by decide +kernel) | (intro _ h; cases h; done) | (intro k q h; cases h; done) | (intro k q h; cases List.eq_of_mem_replicate h)⟩,
   ⟨tPaired tAssoc, 0, 9, tAssoc, by and_intros <;> first | decide +kernel | rfl | exact test_heard _ _ (by decide +kernel) | (intro _ h; cases h; done) | (intro k q h; cases h; done) | (intro k q h; cases List.eq_of_mem_replicate h)⟩,
   ⟨{ tPaired { tAssoc with waitKeys := true } with kv := { tBase.kv with requests := [{ id := 1, island := 16, handle := 0, kind := .assoc 9 2, ready := true }] } }, 0, 9, { tAssoc with waitKeys := true }, { id := 1, island := 16, handle := 0, kind := .assoc 9 2, ready := true }, { state := .active, job := 5, jrk := 9 }, false, by and_intros <;> first | decide +kernel | rfl | exact test_heard _ _ (by decide +kernel) | (intro _ h; cases h; done) | (intro k q h; cases h; done) | (intro k q h; cases List.eq_of_mem_replicate h)⟩,
   ⟨tPaired { tAssoc with state := .ratcheting, epochs := [tEpoch, { tEpoch with number := 0 }], resends := 7 }, 0, 9, { tAssoc with state := .ratcheting, epochs := [tEpoch, { tEpoch with number := 0 }], resends := 7 }, tEpoch, { tEpoch with number := 0 }, by and_intros <;> first | decide +kernel | rfl | exact test_heard _ _ (by decide +kernel) | (intro _ h; cases h; done) | (intro k q h; cases h; done) | (intro k q h; cases List.eq_of_mem_replicate h)⟩,
   ⟨tPaired { tAssoc with state := .ratcheting, epochs := [tEpoch, { tEpoch with number := 0 }], resends := 8 }, 0, 9, { tAssoc with state := .ratcheting, epochs := [tEpoch, { tEpoch with number := 0 }], resends := 8 }, tEpoch, { tEpoch with number := 0 }, by and_intros <;> first | decide +kernel | rfl | exact test_heard _ _ (by decide +kernel) | (intro _ h; cases h; done) | (intro k q h; cases h; done) | (intro k q h; cases List.eq_of_mem_replicate h)⟩,
   ⟨tPaired { tAssoc with learnedAt := some 5 }, 0, 9, 5, { tAssoc with learnedAt := some 5 }, by and_intros <;> first | decide +kernel | rfl | exact test_heard _ _ (by decide +kernel) | (intro _ h; cases h; done) | (intro k q h; cases h; done) | (intro k q h; cases List.eq_of_mem_replicate h)⟩,
   ⟨tPaired { tAssoc with trigger := true, lastStep := some 4000000000 }, 0, 9, 4000000000, { tAssoc with trigger := true, lastStep := some 4000000000 }, by and_intros <;> first | decide +kernel | rfl | exact test_heard _ _ (by decide +kernel) | (intro _ h; cases h; done) | (intro k q h; cases h; done) | (intro k q h; cases List.eq_of_mem_replicate h)⟩⟩

/-- `CarriedMessages`: each clause with hypotheses is met somewhere. -/
theorem test_CarriedMessages_met :
    ∃ (s : State) (port : Nat) (p : MsgPacket) (h : Nat) (e : Epoch) (plain : Bytes), p.kind = 0x24 ∧ Carries s port p h e plain ∧ field plain 4 4 = 0 :=
  ⟨tPaired tAssoc, 0, tSealed 0x24 (zeros 8), 0, tEpoch, zeros 8, rfl, test_sealed_carries _ _ (Or.inr rfl) (fun h => absurd h (by decide)) (fun _ => rfl), by decide⟩

/-- `RemoteRequests`: each clause with hypotheses is met somewhere. -/
theorem test_RemoteRequests_met :
    (∃ (s : State) (h peer tc port : Nat) (b : Bytes) (a : Assoc), s.assoc h peer = some a ∧ hdr b 4 4 = (a.streams.getD tc {}).cursor)
    ∧ (∃ (s : State) (i : Inbound) (b : Bytes) (j : Job) (n key : Nat) (w : Window), s.job i.handle = some j ∧ j.state ≠ .closing ∧ ¬(i.op = 3 ∧ (i.dup = true ∨ hdr b 1 1 = 1)) ∧ (s.confirmHoles i (hdr b 32 4)).windowCheck i j b = .ok (n, w, key))
    ∧ (∃ (s : State) (i : Inbound) (b : Bytes) (j : Job) (r : Row) (p : Pigeonhole), s.job i.handle = some j ∧ j.state ≠ .closing ∧ i.op = 3 ∧ (i.dup = true ∨ hdr b 1 1 = 1) ∧ (s.confirmHoles i (hdr b 32 4)).remote.rows.find? (fun x => x.bound i) = some r ∧ r.holes.find? (fun x => x.seq == i.atomicSeq) = some p)
    ∧ (∃ (s : State) (h peer tc : Nat) (b : Bytes) (q : RemReq), (hdr b 0 1 = 0x81 ∨ hdr b 0 1 = 0x83) ∧ s.remote.reqs.find? (fun q => q.handle == h && q.node == peer && q.tc == tc && q.op == asked (hdr b 0 1) && q.sent && q.ordinal == hdr b 4 4) = some q ∧ Status.ofCode (hdr b 38 2) = some .done)
    ∧ (∃ (s : State) (h peer tc : Nat) (b : Bytes) (q : RemReq) (st : Status), hdr b 0 1 = 0x86 ∧ s.remote.reqs.find? (fun q => q.handle == h && q.node == peer && q.tc == tc && q.op == 2 && q.sent && q.ordinal == hdr b 4 4) = some q ∧ Status.ofCode (hdr b 38 2) = some st ∧ ¬(st = .badState ∧ hdr b 56 1 = 1 ∧ q.restamped = false))
    ∧ (∃ (s : State) (h peer tc : Nat) (b : Bytes) (q : RemReq), hdr b 0 1 = 0x86 ∧ s.remote.reqs.find? (fun q => q.handle == h && q.node == peer && q.tc == tc && q.op == 2 && q.sent && q.ordinal == hdr b 4 4) = some q ∧ Status.ofCode (hdr b 38 2) = some .badState ∧ hdr b 56 1 = 1 ∧ q.restamped = false) :=
  ⟨⟨tPaired tAssoc, 0, 9, 2, 0, enc [(4, 2), (4, 1), (56, 0)], tAssoc, by and_intros <;> first | decide +kernel | rfl | exact test_heard _ _ (by decide +kernel) | (intro _ h; cases h; done) | (intro k q h; cases h; done) | (intro k q h; cases List.eq_of_mem_replicate h)⟩,
   ⟨{ tBase with remote := { windows := [(1, { state := .opened, read := true, handle := 0, base := 0, size := 4096 })] } }, { handle := 0, peer := 9, tc := 2, ordinal := 1, op := 1, dup := false, ctx := 0, atomicSeq := 1, incarnation := 0, address := 4032, length := 64, window := 0 }, zeros 64, tJob, 1, 0, { state := .opened, read := true, handle := 0, base := 0, size := 4096 }, by and_intros <;> first | decide +kernel | rfl | exact test_heard _ _ (by decide +kernel) | (intro _ h; cases h; done) | (intro k q h; cases h; done) | (intro k q h; cases List.eq_of_mem_replicate h)⟩,
   ⟨{ tBase with remote := { rows := [{ src := 9, handle := 0, ctx := 0, incarnation := 0, holes := [{ seq := 1, confirmed := false, status := .done, reason := 0, result := 0, applied := 0 }] }] } }, { handle := 0, peer := 9, tc := 2, ordinal := 1, op := 3, dup := true, ctx := 0, atomicSeq := 1, incarnation := 0, address := 4032, length := 64, window := 0 }, zeros 64, tJob, { src := 9, handle := 0, ctx := 0, incarnation := 0, holes := [{ seq := 1, confirmed := false, status := .done, reason := 0, result := 0, applied := 0 }] }, { seq := 1, confirmed := false, status := .done, reason := 0, result := 0, applied := 0 }, by and_intros <;> first | decide +kernel | rfl | exact test_heard _ _ (by decide +kernel) | (intro _ h; cases h; done) | (intro k q h; cases h; done) | (intro k q h; cases List.eq_of_mem_replicate h)⟩,
   ⟨{ tBase with remote := { reqs := [tRem 1] } }, 0, 9, 2, enc [(4, 0x81), (4, 1), (30, 0), (2, Status.done.code), (24, 0)], tRem 1, by and_intros <;> first | decide +kernel | rfl | exact test_heard _ _ (by decide +kernel) | (intro _ h; cases h; done) | (intro k q h; cases h; done) | (intro k q h; cases List.eq_of_mem_replicate h)⟩,
   ⟨{ tBase with remote := { reqs := [tRem 2] } }, 0, 9, 2, enc [(4, 0x86), (4, 1), (30, 0), (2, Status.badState.code), (16, 0), (1, 2), (7, 0)], tRem 2, .badState, by and_intros <;> first | decide +kernel | rfl | exact test_heard _ _ (by decide +kernel) | (intro _ h; cases h; done) | (intro k q h; cases h; done) | (intro k q h; cases List.eq_of_mem_replicate h)⟩,
   ⟨{ tBase with remote := { reqs := [tRem 2] } }, 0, 9, 2, enc [(4, 0x86), (4, 1), (30, 0), (2, Status.badState.code), (16, 0), (1, 1), (7, 0)], tRem 2, by and_intros <;> first | decide +kernel | rfl | exact test_heard _ _ (by decide +kernel) | (intro _ h; cases h; done) | (intro k q h; cases h; done) | (intro k q h; cases List.eq_of_mem_replicate h)⟩⟩

/-- `RemoteTimers`: each clause with hypotheses is met somewhere. -/
theorem test_RemoteTimers_met :
    (∃ (s : State) (port : Nat) (m : TrayMarker), Heard s port ∧ m.kind = 0x31 ∧ m.revision = 0x32 ∧ m.routeEpoch.toNat < 16 ∧ m.reserved1 = 0 ∧ m.reserved2 = 0 ∧ m.src.toNat = s.boot.nodeNumber ∧ m.subtype = 3)
    ∧ (∃ (s : State) (port : Nat) (m : TrayMarker), Heard s port ∧ m.subtype ≠ 3)
    ∧ (∃ (s : State) (m : Marker), s.live = true ∧ s.remote.markers.find? (fun x => x.id == m.id && x.node == m.node) = some m)
    ∧ (∃ (s : State) (h peer tc : Nat), s.live = true ∧ (s.stream h peer tc).appliedRx ≠ (s.stream h peer tc).acked ∧ 0 < (s.stream h peer tc).stores)
    ∧ (∃ (s : State) (q : RemReq) (a : Assoc), s.live = true ∧ s.remote.reqs.find? (fun x => x.id == q.id) = some q ∧ q.retries < 3 ∧ s.fault.isolated = false ∧ s.assoc q.handle q.node = some a ∧ a.seals = true ∧ q.parked = false)
    ∧ (∃ (s : State) (q : RemReq), s.live = true ∧ s.remote.reqs.find? (fun x => x.id == q.id) = some q ∧ q.req ≠ 0)
    ∧ (∃ (s : State) (h peer acks due : Nat) (j : Job) (r : Redirect), s.live = true ∧ s.job h = some j ∧ j.redirect = some r ∧ r.peers.find? (fun x => x.1 == peer && x.2.1 != 15) = some (peer, acks, due)) :=
  ⟨⟨tBase, 31, { subtype := 3, kind := 0x31, revision := 0x32, routeEpoch := 0, reserved1 := 0, src := 7, dst := 9, markerId := 1, reserved2 := 0 }, by and_intros <;> first | decide +kernel | rfl | exact test_heard _ _ (by decide +kernel) | (intro _ h; cases h; done) | (intro k q h; cases h; done) | (intro k q h; cases List.eq_of_mem_replicate h)⟩,
   ⟨tBase, 31, { subtype := 2, kind := 0x31, revision := 0x32, routeEpoch := 0, reserved1 := 0, src := 7, dst := 9, markerId := 1, reserved2 := 0 }, by and_intros <;> first | decide +kernel | rfl | exact test_heard _ _ (by decide +kernel) | (intro _ h; cases h; done) | (intro k q h; cases h; done) | (intro k q h; cases List.eq_of_mem_replicate h)⟩,
   ⟨{ tBase with remote := { markers := [{ id := 1, node := 9, epoch := 0, tray := false, sentAt := 0, op := none }] } }, { id := 1, node := 9, epoch := 0, tray := false, sentAt := 0, op := none }, by and_intros <;> first | decide +kernel | rfl | exact test_heard _ _ (by decide +kernel) | (intro _ h; cases h; done) | (intro k q h; cases h; done) | (intro k q h; cases List.eq_of_mem_replicate h)⟩,
   ⟨tPaired { tAssoc with streams := [{}, {}, { appliedRx := 1, stores := 1 }, {}] }, 0, 9, 2, by and_intros <;> first | decide +kernel | rfl | exact test_heard _ _ (by decide +kernel) | (intro _ h; cases h; done) | (intro k q h; cases h; done) | (intro k q h; cases List.eq_of_mem_replicate h)⟩,
   ⟨{ tPaired tAssoc with remote := { reqs := [tRem 1] } }, tRem 1, tAssoc, by and_intros <;> first | decide +kernel | rfl | exact test_heard _ _ (by decide +kernel) | (intro _ h; cases h; done) | (intro k q h; cases h; done) | (intro k q h; cases List.eq_of_mem_replicate h)⟩,
   ⟨{ tBase with remote := { reqs := [tRem 1] } }, tRem 1, by and_intros <;> first | decide +kernel | rfl | exact test_heard _ _ (by decide +kernel) | (intro _ h; cases h; done) | (intro k q h; cases h; done) | (intro k q h; cases List.eq_of_mem_replicate h)⟩,
   ⟨{ tBase with jobs := [(0, { tJob with redirect := some { op := 1, peers := [(9, 14, 5)], missed := 0 } })] }, 0, 9, 14, 5, { tJob with redirect := some { op := 1, peers := [(9, 14, 5)], missed := 0 } }, { op := 1, peers := [(9, 14, 5)], missed := 0 }, by and_intros <;> first | decide +kernel | rfl | exact test_heard _ _ (by decide +kernel) | (intro _ h; cases h; done) | (intro k q h; cases h; done) | (intro k q h; cases List.eq_of_mem_replicate h)⟩⟩

/-- `ReductionEvents`: each clause with hypotheses is met somewhere. -/
theorem test_ReductionEvents_met :
    (∃ (s : State) (port n : Nat) (p : RedPacket) (x : Descriptor), Heard s port ∧ p.tag0.toNat / 2 ^ 56 = 0x32 ∧ bits p.tag0.toNat 54 52 = 0 ∧ p.tag2.toNat % 2 ^ 40 = 0 ∧ p.lanes.length = 65 ∧ s.descOf p = some (n, x) ∧ (if x.gather then p.tag2.toNat / 2 ^ 52 < x.n ∧ p.tag0.toNat % 2 ^ 24 < x.chunks else x.rxFirst ≤ p.tag0.toNat % 2 ^ 24 ∧ p.tag0.toNat % 2 ^ 24 < x.rxFirst + x.rxCount) ∧ x.place (p.tag2.toNat / 2 ^ 52) (p.tag0.toNat % 2 ^ 24) ∉ x.decided ∧ x.decided.length < x.rxCount)
    ∧ (∃ (s : State) (port : Nat) (p : RedPacket), Heard s port ∧ p.tag0.toNat / 2 ^ 56 = 0x32 ∧ bits p.tag0.toNat 54 52 = 0 ∧ p.tag2.toNat % 2 ^ 40 = 0 ∧ p.lanes.length = 65 ∧ s.descOf p = none)
    ∧ (∃ (s : State) (n : Nat) (x : Descriptor) (p : RedPacket) (keys : Key × Key) (sums : List Int), s.desc n = x ∧ x.keys = some keys ∧ s.masksFor x = true ∧ x.place (if x.gather then p.tag2.toNat / 2 ^ 52 else 0) (p.tag0.toNat % 2 ^ 24) ∉ x.decided ∧ x.decided.length < x.rxCount ∧ x.verdict keys (if x.gather then p.tag2.toNat / 2 ^ 52 else 0) (p.tag0.toNat % 2 ^ 24) (p.lanes.map (·.toNat)) = .ok sums)
    ∧ (∃ (s : State) (n : Nat), s.live = true ∧ (s.desc n).state = .active ∧ (s.desc n).ending = none)
    ∧ (∃ (s : State) (port : Nat) (lane : Bool), s.boot.fwRunning = true ∧ ((s.slotsOfPort port).masking = true → s.laneOff = false ∧ lane = false))
    ∧ (∃ (s : State) (port : Nat), s.boot.fwRunning = true ∧ (s.slotsOfPort port).masking = true)
    ∧ (∃ (s : State) (port : Nat), (s.slotsOfPort port).masking = true)
    ∧ (∃ (s : State) (n : Nat) (p : RedPacket), (s.desc n).held = [] ∧ ((s.desc n).staged.length < 4 ∨ s.sharedSlots < 3072))
    ∧ (∃ (s : State) (n : Nat) (p : RedPacket), 4 ≤ (s.desc n).staged.length ∧ 3072 ≤ s.sharedSlots)
    ∧ (∃ (s : State) (n : Nat) (p : RedPacket), (s.desc n).keys = none ∨ s.masksFor (s.desc n) = false)
    ∧ (∃ (s : State) (n : Nat) (keys : Key × Key), (s.desc n).keys = some keys ∧ s.masksFor (s.desc n) = false) :=
  ⟨⟨{ tBase with red := { descs := [(1, { state := .active, handle := 0, group := 1, round := 3, n := 2, chunks := 16, rxFirst := 4, rxCount := 4, deadline := 10 })] } }, 31, 1, { src := 9, dst := 7, tc := 2, tag0 := BitVec.ofNat 64 (0x32 * 2 ^ 56 + 1 * 2 ^ 40 + 7), tag1 := BitVec.ofNat 64 (3 * 2 ^ 32 + 5), tag2 := BitVec.ofNat 64 (1 * 2 ^ 40), lanes := List.replicate 65 0 }, { state := .active, handle := 0, group := 1, round := 3, n := 2, chunks := 16, rxFirst := 4, rxCount := 4, deadline := 10 }, by and_intros <;> first | decide +kernel | rfl | exact test_heard _ _ (by decide +kernel) | (intro _ h; cases h; done) | (intro k q h; cases h; done) | (intro k q h; cases List.eq_of_mem_replicate h)⟩,
   ⟨tBase, 31, { src := 9, dst := 7, tc := 2, tag0 := BitVec.ofNat 64 (0x32 * 2 ^ 56 + 1 * 2 ^ 40 + 7), tag1 := BitVec.ofNat 64 (3 * 2 ^ 32 + 5), tag2 := BitVec.ofNat 64 (1 * 2 ^ 40), lanes := List.replicate 65 0 }, by and_intros <;> first | decide +kernel | rfl | exact test_heard _ _ (by decide +kernel) | (intro _ h; cases h; done) | (intro k q h; cases h; done) | (intro k q h; cases List.eq_of_mem_replicate h)⟩,
   ⟨{ tBase with red := { descs := [(1023, { state := .active, handle := 0, n := 2, chunks := 16, rxFirst := 4, rxCount := 4, keys := some (5, 6) })], ports := [(0, { ahead := 1056 })] } }, 1023, { state := .active, handle := 0, n := 2, chunks := 16, rxFirst := 4, rxCount := 4, keys := some (5, 6) }, { src := 9, dst := 7, tc := 2, tag0 := 7, tag1 := 0, tag2 := 0, lanes := tLanes { state := .active, handle := 0, n := 2, chunks := 16, rxFirst := 4, rxCount := 4, keys := some (5, 6) } 5 7 }, (5, 6), List.replicate 64 0, rfl, rfl, by decide +kernel, by decide +kernel, by decide +kernel, test_zero_chunk _ _ _⟩,
   ⟨{ tBase with red := { descs := [(1, { state := .active, handle := 0, group := 1, round := 3, n := 2, chunks := 16, rxFirst := 4, rxCount := 4, deadline := 10 })] } }, 1, by and_intros <;> first | decide +kernel | rfl | exact test_heard _ _ (by decide +kernel) | (intro _ h; cases h; done) | (intro k q h; cases h; done) | (intro k q h; cases List.eq_of_mem_replicate h)⟩,
   ⟨tBase, 31, true, by and_intros <;> first | decide +kernel | rfl | exact test_heard _ _ (by decide +kernel) | (intro _ h; cases h; done) | (intro k q h; cases h; done) | (intro k q h; cases List.eq_of_mem_replicate h)⟩,
   ⟨{ tBase with red := { ports := [(31, { masking := true })] } }, 31, by and_intros <;> first | decide +kernel | rfl | exact test_heard _ _ (by decide +kernel) | (intro _ h; cases h; done) | (intro k q h; cases h; done) | (intro k q h; cases List.eq_of_mem_replicate h)⟩,
   ⟨{ tBase with red := { ports := [(31, { masking := true })] } }, 31, by and_intros <;> first | decide +kernel | rfl | exact test_heard _ _ (by decide +kernel) | (intro _ h; cases h; done) | (intro k q h; cases h; done) | (intro k q h; cases List.eq_of_mem_replicate h)⟩,
   ⟨{ tBase with red := { descs := [(1, { staged := List.replicate 3 { src := 9, dst := 7, tc := 2, tag0 := 0, tag1 := 0, tag2 := 0, lanes := [] } }), (2, { staged := List.replicate 4000 { src := 9, dst := 7, tc := 2, tag0 := 0, tag1 := 0, tag2 := 0, lanes := [] } })] } }, 1, { src := 9, dst := 7, tc := 2, tag0 := 0, tag1 := 0, tag2 := 0, lanes := [] }, by decide +kernel, by decide +kernel⟩,
   ⟨{ tBase with red := { descs := [(1, { staged := List.replicate 4 { src := 9, dst := 7, tc := 2, tag0 := 0, tag1 := 0, tag2 := 0, lanes := [] } }), (2, { staged := List.replicate 3076 { src := 9, dst := 7, tc := 2, tag0 := 0, tag1 := 0, tag2 := 0, lanes := [] } })] } }, 1, { src := 9, dst := 7, tc := 2, tag0 := 0, tag1 := 0, tag2 := 0, lanes := [] }, by decide +kernel, by decide +kernel⟩,
   ⟨tBase, 1023, { src := 9, dst := 7, tc := 2, tag0 := 0, tag1 := 0, tag2 := 0, lanes := [] }, by decide +kernel⟩,
   ⟨{ tBase with red := { descs := [(1, { keys := some (5, 6) })], ports := [(0, { ahead := 1055 })] } }, 1, (5, 6), by decide +kernel, by decide +kernel⟩⟩

/-- `RegulationTimers`: each clause with hypotheses is met somewhere. -/
theorem test_RegulationTimers_met :
    (∃ (s : State) (id level t : Nat) (done : Option Nat) (x : Master), s.live = true ∧ s.waiting id = some (level, done, x) ∧ s.waitsSince id = some t ∧ level < 5 ∧ done ≠ some t)
    ∧ (∃ (s : State) (id level t : Nat) (done : Option Nat) (x : Master), s.live = true ∧ s.waiting id = some (level, done, x) ∧ s.waitsSince id = some t ∧ (5 ≤ level ∨ done = some t))
    ∧ (∃ (s : State) (id : Nat), s.waitsSince id = none)
    ∧ (∃ (s : State), s.live = true)
    ∧ (∃ (s : State) (x : Master) (b : Bandwidth), s.contract x.handle x.tc x.targetKind = some b ∧ x.below 100 b.latency = true)
    ∧ (∃ (s : State) (x : Master) (b : Bandwidth), s.contract x.handle x.tc x.targetKind = some b ∧ b.latency ≠ 0 ∧ x.below 100 b.latency = false ∧ x.missedSince = none)
    ∧ (∃ (s : State) (x : Master) (b : Bandwidth) (t : Nat), s.contract x.handle x.tc x.targetKind = some b ∧ b.latency ≠ 0 ∧ x.below 100 b.latency = false ∧ x.missedSince = some t ∧ t + Config.ms ≤ s.now)
    ∧ (∃ (s : State) (x : Master), s.latencyTarget x = 0)
    ∧ (∃ (s : State), s.live = true)
    ∧ (∃ (s : State) (x : Master) (b : Bandwidth), s.contract x.handle x.tc x.targetKind = some b ∧ 0 < b.minBw ∧ x.waitedAll = true ∧ x.windowBytes < b.minBw * 1000)
    ∧ (∃ (s : State) (x : Master), (s.minimum x = 0 ∨ x.waitedAll = false ∨ s.minimum x * 1000 ≤ x.windowBytes)) :=
  ⟨⟨{ tBase with mem := { reqs := [tReq], ops := [{ tOp .waiting 0 with req := 1 }] } }, 1, 4, 0, none, { handle := 0, tc := 2, targetKind := 0, target := 0 }, by and_intros <;> first | decide +kernel | rfl⟩,
   ⟨{ tBase with mem := { reqs := [{ tReq with level := 5 }], ops := [{ tOp .waiting 0 with req := 1 }] } }, 1, 5, 0, none, { handle := 0, tc := 2, targetKind := 0, target := 0 }, by and_intros <;> first | decide +kernel | rfl | exact Or.inl (by decide)⟩,
   ⟨tBase, 7, by and_intros <;> first | decide +kernel | rfl⟩,
   ⟨tBase, by and_intros <;> first | decide +kernel | rfl⟩,
   ⟨{ tBase with now := 0, jobs := [(0, { tJob with bandwidth := [{ tc := 2, targetKind := 0, minBw := 1, outstanding := 4, latency := 100 }] })] }, { handle := 0, tc := 2, targetKind := 0, target := 0, latencies := [396] }, { tc := 2, targetKind := 0, minBw := 1, outstanding := 4, latency := 100 }, by and_intros <;> first | decide +kernel | rfl⟩,
   ⟨{ tBase with now := 0, jobs := [(0, { tJob with bandwidth := [{ tc := 2, targetKind := 0, minBw := 1, outstanding := 4, latency := 100 }] })] }, { handle := 0, tc := 2, targetKind := 0, target := 0, latencies := [400] }, { tc := 2, targetKind := 0, minBw := 1, outstanding := 4, latency := 100 }, by and_intros <;> first | decide +kernel | rfl⟩,
   ⟨{ tBase with now := 4000007, jobs := [(0, { tJob with bandwidth := [{ tc := 2, targetKind := 0, minBw := 1, outstanding := 4, latency := 100 }] })] }, { handle := 0, tc := 2, targetKind := 0, target := 0, latencies := [400], missedSince := some 7 }, { tc := 2, targetKind := 0, minBw := 1, outstanding := 4, latency := 100 }, 7, by and_intros <;> first | decide +kernel | rfl⟩,
   ⟨tBase, { handle := 0, tc := 2, targetKind := 0, target := 0, latencies := [400] }, by and_intros <;> first | decide +kernel | rfl⟩,
   ⟨tBase, by and_intros <;> first | decide +kernel | rfl⟩,
   ⟨{ tBase with now := 0, jobs := [(0, { tJob with bandwidth := [{ tc := 2, targetKind := 0, minBw := 1, outstanding := 4, latency := 100 }] })] }, { handle := 0, tc := 2, targetKind := 0, target := 0, latencies := [236], waitedAll := true, windowBytes := 999 }, { tc := 2, targetKind := 0, minBw := 1, outstanding := 4, latency := 100 }, by and_intros <;> first | decide +kernel | rfl⟩,
   ⟨{ tBase with now := 0, jobs := [(0, { tJob with bandwidth := [{ tc := 2, targetKind := 0, minBw := 1, outstanding := 4, latency := 100 }] })] }, { handle := 0, tc := 2, targetKind := 0, target := 0, latencies := [236], waitedAll := true, windowBytes := 1000 }, by and_intros <;> first | decide +kernel | rfl⟩⟩

/-- `PowerEvents`: each clause with hypotheses is met somewhere. -/
theorem test_PowerEvents_met :
    (∃ (s u : State) (counts : List (Nat × Nat)), s.live = true ∧ u = s.reach (s.power.intervalAt + 2 * Config.us) ∧ s.power.running = true)
    ∧ (∃ (s : State) (r : Nat), (s.rail r).silent = true)
    ∧ (∃ (s : State) (r : Nat), s.live = true ∧ s.power.running = true ∧ (s.rail r).silent = false)
    ∧ (∃ (s : State) (r : Nat) (a : Telemetry), s.live = true ∧ s.power.running = true ∧ r < 8)
    ∧ (∃ (s : State) (r : Nat), s.live = true ∧ s.power.running = true ∧ r < 8 ∧ (s.rail r).silent = false ∧ (s.rail r).silentPolls = 2)
    ∧ (∃ (s u : State) (readings : List (Option Int)), s.live = true ∧ s.power.running = true ∧ u = s.reach (s.power.thermalAt + 20 * Config.us))
    ∧ (∃ (s u : State) (lowest : List Nat), s.live = true ∧ s.power.running = true ∧ u = s.reach (s.power.marginAt + Config.ms))
    ∧ (∃ (s u : State) (v t o : Option (Nat × Nat)), s.live = true ∧ s.power.running = true ∧ u = s.reach (s.fault.healthAt + Config.ms) ∧ u.components = (v, t, o) ∧ bandOf s.fault.band (nextScore s.fault.score (([v, t, o].filterMap (fun x => x.map (·.1))).foldl min 1023)) = s.fault.band)
    ∧ (∃ (s : State) (port margin : Nat), s.live = true ∧ port < 32 ∧ margin ≤ 255)
    ∧ (∃ (s : State) (d : Nat), s.live = true ∧ s.power.running = true ∧ d < 64 ∧ (tgetD s.power.zones (d / 4) {}).stretched = false)
    ∧ (∃ (s : State) (z : Nat) (x : Zone), s.live = true ∧ s.power.running = true ∧ tget s.power.zones z = some x ∧ x.stretched = true)
    ∧ (∃ (s : State) (z : Nat) (x : Zone) (a : Alarm), s.live = true ∧ s.power.running = true ∧ tget s.power.zones z = some x ∧ x.oldest = some a)
    ∧ (∃ (s : State) (l : Lease), s.live = true ∧ s.power.lease = some l)
    ∧ (∃ (s : State), s.live = true ∧ s.power.running = true ∧ (s.power.thermTrip = false ∨ s.power.tripCleared = true))
    ∧ (∃ (s : State), s.live = true)
    ∧ (∃ (s u : State) (r : Nat) (l : List Nat), s.live = true ∧ s.power.running = true ∧ u = s.modPower (fun p => { p with alertOn := true, alertCleared := false, alertPin := p.alertPin.falls (p.alertOn && !p.alertCleared) s.now }))
    ∧ (∃ (s : State), s.live = true ∧ s.power.running = true)
    ∧ (∃ (s : State), s.live = true ∧ s.power.running = false ∧ s.power.alertPin.low + (if s.power.alertPin.chatter then 10 * Config.ms else 100 * Config.us) ≤ s.now)
    ∧ (∃ (s : State) (w : Sweep), s.live = true ∧ s.power.running = true ∧ s.power.sweep = some w ∧ w.squash = false ∧ w.step < w.last)
    ∧ (∃ (s : State) (w : Sweep), s.live = true ∧ s.power.running = true ∧ s.power.sweep = some w ∧ w.squash = false) :=
  ⟨⟨{ tBase with power := { running := true } }, ({ tBase with power := { running := true } }).reach (({ tBase with power := { running := true } }).power.intervalAt + 2 * Config.us), [], by and_intros <;> first | decide +kernel | rfl | exact test_heard _ _ (by decide +kernel) | (intro _ h; cases h; done) | (intro k q h; cases h; done) | (intro k q h; cases List.eq_of_mem_replicate h)⟩,
   ⟨{ tBase with power := { rails := List.replicate 8 { mv := 750, continuous := 1, peak := 2, silent := true } } }, 7, by and_intros <;> first | decide +kernel | rfl⟩,
   ⟨{ tBase with power := { running := true } }, 7, by and_intros <;> first | decide +kernel | rfl | exact test_heard _ _ (by decide +kernel) | (intro _ h; cases h; done) | (intro k q h; cases h; done) | (intro k q h; cases List.eq_of_mem_replicate h)⟩,
   ⟨{ tBase with power := { running := true } }, 7, { vout := 0xFFFF, iout := 0xFFFF, status := 0 }, by and_intros <;> first | decide +kernel | rfl | exact test_heard _ _ (by decide +kernel) | (intro _ h; cases h; done) | (intro k q h; cases h; done) | (intro k q h; cases List.eq_of_mem_replicate h)⟩,
   ⟨{ tBase with power := { running := true, rails := List.replicate 8 { mv := 750, continuous := 1, peak := 2, silentPolls := 2 } } }, 7, by and_intros <;> first | decide +kernel | rfl | exact test_heard _ _ (by decide +kernel) | (intro _ h; cases h; done) | (intro k q h; cases h; done) | (intro k q h; cases List.eq_of_mem_replicate h)⟩,
   ⟨{ tBase with power := { running := true } }, ({ tBase with power := { running := true } }).reach (({ tBase with power := { running := true } }).power.thermalAt + 20 * Config.us), [], by and_intros <;> first | decide +kernel | rfl | exact test_heard _ _ (by decide +kernel) | (intro _ h; cases h; done) | (intro k q h; cases h; done) | (intro k q h; cases List.eq_of_mem_replicate h)⟩,
   ⟨{ tBase with power := { running := true } }, ({ tBase with power := { running := true } }).reach (({ tBase with power := { running := true } }).power.marginAt + Config.ms), [], by and_intros <;> first | decide +kernel | rfl | exact test_heard _ _ (by decide +kernel) | (intro _ h; cases h; done) | (intro k q h; cases h; done) | (intro k q h; cases List.eq_of_mem_replicate h)⟩,
   ⟨{ tBase with power := { running := true }, boot := { tBase.boot with fabricUp := [] }, fault := { band := .failing }, fuses := { tBase.fuses with calibration := { tBase.fuses.calibration with headrooms := List.replicate 64 1 } } }, (({ tBase with power := { running := true }, boot := { tBase.boot with fabricUp := [] }, fault := { band := .failing }, fuses := { tBase.fuses with calibration := { tBase.fuses.calibration with headrooms := List.replicate 64 1 } } } : State)).reach Config.ms, ((({ tBase with power := { running := true }, boot := { tBase.boot with fabricUp := [] }, fault := { band := .failing }, fuses := { tBase.fuses with calibration := { tBase.fuses.calibration with headrooms := List.replicate 64 1 } } } : State)).reach Config.ms).components.1, ((({ tBase with power := { running := true }, boot := { tBase.boot with fabricUp := [] }, fault := { band := .failing }, fuses := { tBase.fuses with calibration := { tBase.fuses.calibration with headrooms := List.replicate 64 1 } } } : State)).reach Config.ms).components.2.1, ((({ tBase with power := { running := true }, boot := { tBase.boot with fabricUp := [] }, fault := { band := .failing }, fuses := { tBase.fuses with calibration := { tBase.fuses.calibration with headrooms := List.replicate 64 1 } } } : State)).reach Config.ms).components.2.2, by decide +kernel, by decide +kernel, rfl, rfl, by decide +kernel⟩,
   ⟨tBase, 31, 255, by and_intros <;> first | decide +kernel | rfl | exact test_heard _ _ (by decide +kernel) | (intro _ h; cases h; done) | (intro k q h; cases h; done) | (intro k q h; cases List.eq_of_mem_replicate h)⟩,
   ⟨{ tBase with power := { running := true } }, 63, by and_intros <;> first | decide +kernel | rfl | exact test_heard _ _ (by decide +kernel) | (intro _ h; cases h; done) | (intro k q h; cases h; done) | (intro k q h; cases List.eq_of_mem_replicate h)⟩,
   ⟨{ tBase with power := { running := true, zones := [(15, { alarms := [{ detector := 63, since := 5 }], stretched := true })] } }, 15, { alarms := [{ detector := 63, since := 5 }], stretched := true }, by and_intros <;> first | decide +kernel | rfl | exact test_heard _ _ (by decide +kernel) | (intro _ h; cases h; done) | (intro k q h; cases h; done) | (intro k q h; cases List.eq_of_mem_replicate h)⟩,
   ⟨{ tBase with power := { running := true, zones := [(15, { alarms := [{ detector := 63, since := 5 }], stretched := true })] } }, 15, { alarms := [{ detector := 63, since := 5 }], stretched := true }, { detector := 63, since := 5 }, by and_intros <;> first | decide +kernel | rfl | exact test_heard _ _ (by decide +kernel) | (intro _ h; cases h; done) | (intro k q h; cases h; done) | (intro k q h; cases List.eq_of_mem_replicate h)⟩,
   ⟨{ tBase with power := { lease := some { id := 1, budget := 2, ends := 3 } } }, { id := 1, budget := 2, ends := 3 }, by and_intros <;> first | decide +kernel | rfl | exact test_heard _ _ (by decide +kernel) | (intro _ h; cases h; done) | (intro k q h; cases h; done) | (intro k q h; cases List.eq_of_mem_replicate h)⟩,
   ⟨{ tBase with power := { running := true, thermTrip := true, tripCleared := true } }, by and_intros <;> first | decide +kernel | rfl | exact test_heard _ _ (by decide +kernel) | (intro _ h; cases h; done) | (intro k q h; cases h; done) | (intro k q h; cases List.eq_of_mem_replicate h)⟩,
   ⟨tBase, by and_intros <;> first | decide +kernel | rfl | exact test_heard _ _ (by decide +kernel) | (intro _ h; cases h; done) | (intro k q h; cases h; done) | (intro k q h; cases List.eq_of_mem_replicate h)⟩,
   ⟨{ tBase with power := { running := true } }, _, 7, [0], by and_intros <;> first | decide +kernel | rfl | exact test_heard _ _ (by decide +kernel) | (intro _ h; cases h; done) | (intro k q h; cases h; done) | (intro k q h; cases List.eq_of_mem_replicate h)⟩,
   ⟨{ tBase with power := { running := true } }, by and_intros <;> first | decide +kernel | rfl | exact test_heard _ _ (by decide +kernel) | (intro _ h; cases h; done) | (intro k q h; cases h; done) | (intro k q h; cases List.eq_of_mem_replicate h)⟩,
   ⟨tBase, by and_intros <;> first | decide +kernel | rfl | exact test_heard _ _ (by decide +kernel) | (intro _ h; cases h; done) | (intro k q h; cases h; done) | (intro k q h; cases List.eq_of_mem_replicate h)⟩,
   ⟨{ tBase with power := { running := true, sweep := some { tile := 15, kind := 1, step := 29, op := 1, nextAt := 5, squash := false, mv := 750 } } }, { tile := 15, kind := 1, step := 29, op := 1, nextAt := 5, squash := false, mv := 750 }, by and_intros <;> first | decide +kernel | rfl | exact test_heard _ _ (by decide +kernel) | (intro _ h; cases h; done) | (intro k q h; cases h; done) | (intro k q h; cases List.eq_of_mem_replicate h)⟩,
   ⟨{ tBase with power := { running := true, sweep := some { tile := 15, kind := 1, step := 29, op := 1, nextAt := 5, squash := false, mv := 750 } } }, { tile := 15, kind := 1, step := 29, op := 1, nextAt := 5, squash := false, mv := 750 }, by and_intros <;> first | decide +kernel | rfl | exact test_heard _ _ (by decide +kernel) | (intro _ h; cases h; done) | (intro k q h; cases h; done) | (intro k q h; cases List.eq_of_mem_replicate h)⟩⟩

/-- `PowerOn`: each clause with hypotheses is met somewhere. -/
theorem test_PowerOn_met :
    (∃ (s : State) (i : StartInput), s.boot.inReset = true)
    ∧ (∃ (s : State), s.boot.powered = true)
    ∧ (∃ (s u : State), s.boot.powered = true ∧ s.boot.tamperHeld = false ∧ u = ((State.endSession (State.failAll (State.tamperClear { s with boot := { s.boot with tamperHeld := true } }).answerWaiting .tamperHeld) .squashed false)))
    ∧ (∃ (s : State), s.live = true)
    ∧ (∃ (s : State), s.live = true ∧ s.boot.refclkLost = false)
    ∧ (∃ (s : State) (n : Nat), s.boot.powered = true ∧ n < 16 ∧ n ∉ s.boot.mcReady)
    ∧ (∃ (s u : State) (n : Nat), s.live = true ∧ n < 16 ∧ n ∉ s.boot.mcReady ∧ u = ((s.reach (s.boot.startedAt + 1000 * Config.ms)).unitHung 0 n [0, 1] []).fenceStack n)
    ∧ (∃ (s : State) (fails : BitVec 64) (ok : Bool), s.live = true ∧ s.boot.vddAuxOk = true ∧ s.boot.tamperHeld = false ∧ s.life.transition = .toTest)
    ∧ (∃ (s : State) (fails : BitVec 64) (ok : Bool), s.live = true ∧ s.boot.vddAuxOk = true ∧ s.life.transition = .toEndOfLife ∧ (s.boot.tamperHeld = true → s.life.killOwed = true) ∧ s.life.step ≠ 1)
    ∧ (∃ (s : State) (fails : BitVec 64) (ok : Bool), s.live = true ∧ s.boot.vddAuxOk = true ∧ s.life.transition = .toEndOfLife ∧ (s.boot.tamperHeld = true → s.life.killOwed = true) ∧ s.life.step = 1)
    ∧ (∃ (s : State) (fails : BitVec 64) (ok : Bool), s.live = true ∧ s.boot.vddAuxOk = true ∧ s.boot.tamperHeld = false ∧ s.life.transition = .toProduction)
    ∧ (∃ (s : State) (fails : BitVec 64) (ok : Bool), s.live = false ∨ s.boot.vddAuxOk = false ∨ (s.boot.tamperHeld = true ∧ (s.life.killOwed = false ∨ s.life.transition ≠ .toEndOfLife)))
    ∧ (∃ (s : State) (i : TapInstr), (∀ rows, i ≠ .program rows)) :=
  ⟨⟨State.reset, { tamper := false, kat := [true, true, true, true], entropyFail := [], slotFail := [], markFail := 0, groupFail := 0, plainFail := 0, cut := none, auxInRange := true }, by and_intros <;> first | decide +kernel | rfl | exact test_heard _ _ (by decide +kernel) | (intro _ h; cases h; done) | (intro k q h; cases h; done) | (intro k q h; cases List.eq_of_mem_replicate h)⟩,
   ⟨tBase, by and_intros <;> first | decide +kernel | rfl | exact test_heard _ _ (by decide +kernel) | (intro _ h; cases h; done) | (intro k q h; cases h; done) | (intro k q h; cases List.eq_of_mem_replicate h)⟩,
   ⟨tBase, _, by and_intros <;> first | decide +kernel | rfl | exact test_heard _ _ (by decide +kernel) | (intro _ h; cases h; done) | (intro k q h; cases h; done) | (intro k q h; cases List.eq_of_mem_replicate h)⟩,
   ⟨tBase, by and_intros <;> first | decide +kernel | rfl | exact test_heard _ _ (by decide +kernel) | (intro _ h; cases h; done) | (intro k q h; cases h; done) | (intro k q h; cases List.eq_of_mem_replicate h)⟩,
   ⟨tBase, by and_intros <;> first | decide +kernel | rfl | exact test_heard _ _ (by decide +kernel) | (intro _ h; cases h; done) | (intro k q h; cases h; done) | (intro k q h; cases List.eq_of_mem_replicate h)⟩,
   ⟨tBase, 15, by and_intros <;> first | decide +kernel | rfl | exact test_heard _ _ (by decide +kernel) | (intro _ h; cases h; done) | (intro k q h; cases h; done) | (intro k q h; cases List.eq_of_mem_replicate h)⟩,
   ⟨tBase, _, 15, by and_intros <;> first | decide +kernel | rfl | exact test_heard _ _ (by decide +kernel) | (intro _ h; cases h; done) | (intro k q h; cases h; done) | (intro k q h; cases List.eq_of_mem_replicate h)⟩,
   ⟨{ tBase with life := { tBase.life with transition := .toTest, step := 1 } }, 0, true, by and_intros <;> first | decide +kernel | rfl | exact test_heard _ _ (by decide +kernel) | (intro _ h; cases h; done) | (intro k q h; cases h; done) | (intro k q h; cases List.eq_of_mem_replicate h)⟩,
   ⟨{ tBase with life := { tBase.life with transition := .toEndOfLife, step := 2 } }, 0, true, by and_intros <;> first | decide +kernel | rfl | exact test_heard _ _ (by decide +kernel) | (intro _ h; cases h; done) | (intro k q h; cases h; done) | (intro k q h; cases List.eq_of_mem_replicate h)⟩,
   ⟨{ tBase with life := { tBase.life with transition := .toEndOfLife, step := 1 }, kv := { tBase.kv with requests := [{ id := 1, island := 0, handle := 0, kind := .data 3 0, ready := false }] } }, 0, true, by and_intros <;> first | decide +kernel | rfl | exact test_heard _ _ (by decide +kernel) | (intro _ h; cases h; done) | (intro k q h; cases h; done) | (intro k q h; cases List.eq_of_mem_replicate h)⟩,
   ⟨{ tBase with life := { tBase.life with transition := .toProduction, step := 3 } }, 0, true, by and_intros <;> first | decide +kernel | rfl | exact test_heard _ _ (by decide +kernel) | (intro _ h; cases h; done) | (intro k q h; cases h; done) | (intro k q h; cases List.eq_of_mem_replicate h)⟩,
   ⟨{ tBase with boot := { tBase.boot with vddAuxOk := false } }, 0, true, Or.inr (Or.inl rfl)⟩,
   ⟨tBase, .scan, fun _ h => nomatch h⟩⟩

/-- `LinksAndWatchdogs`: each clause with hypotheses is met somewhere. -/
theorem test_LinksAndWatchdogs_met :
    (∃ (s : State) (p : Nat), s.boot.powered = true ∧ p < 32 ∧ p ∉ s.boot.fabricUp)
    ∧ (∃ (s : State) (l : Nat), l ∈ s.boot.hostUp)
    ∧ (∃ (s : State) (l : Nat), s.boot.powered = true ∧ l < 2 ∧ l ∉ s.boot.hostUp)
    ∧ (∃ (s u : State) (n : Nat), s.live = true ∧ n < 16 ∧ u = s.reachOpt (s.channelDue n) ∧ (∃ t ∈ u.issuedAt n, t + 50 * Config.us ≤ u.now))
    ∧ (∃ (s : State) (p : Nat), s.live = true ∧ p ∈ s.boot.fabricUp ∧ p ∉ s.fault.portsHung)
    ∧ (∃ (s : State) (t : Nat), s.live = true ∧ t < 16 ∧ t ∉ s.fault.tilesHung)
    ∧ (∃ (s u : State) (l : Nat), s.live = true ∧ l ∈ s.boot.hostUp ∧ l ∉ s.boot.dmaAbandoned ∧ u = (s.hangCounted.modFault (fun f => { f with linksHung := l :: f.linksHung })).linkAway l)
    ∧ (∃ (s : State) (pair id : Nat) (kat : List Bool) (x : Stream), pair < s.dg.pairs.length ∧ x ∈ s.dg.streams ∧ x.pair = some pair ∧ x.purpose = .key id)
    ∧ (∃ (s : State), s.live = true ∧ s.boot.fwRunning = true ∧ s.boot.blockState ≠ .cpHung)
    ∧ (∃ (s : State) (pair : Nat) (kat : List Bool) (x : Stream) (id : Nat), pair < s.dg.pairs.length ∧ s.dg.streams.find? (fun y => y.pair == some pair) = some x ∧ x.purpose = .key id ∧ x.left ≤ 1)
    ∧ (∃ (s : State) (pair id : Nat) (kat : List Bool) (x : Stream), pair < s.dg.pairs.length ∧ s.dg.streams.find? (fun y => y.pair == some pair) = some x ∧ x.purpose = .key id)
    ∧ (∃ (s : State) (pair : Nat) (kat : List Bool), s.dg.streams.find? (fun y => y.pair == some pair) = none ∧ pair < s.dg.pairs.length ∧ s.boot.fwRunning = true) :=
  ⟨⟨tBase, 31, by and_intros <;> first | decide +kernel | rfl | exact test_heard _ _ (by decide +kernel) | (intro _ h; cases h; done) | (intro k q h; cases h; done) | (intro k q h; cases List.eq_of_mem_replicate h)⟩,
   ⟨tBase, 0, by and_intros <;> first | decide +kernel | rfl | exact test_heard _ _ (by decide +kernel) | (intro _ h; cases h; done) | (intro k q h; cases h; done) | (intro k q h; cases List.eq_of_mem_replicate h)⟩,
   ⟨tBase, 1, by and_intros <;> first | decide +kernel | rfl | exact test_heard _ _ (by decide +kernel) | (intro _ h; cases h; done) | (intro k q h; cases h; done) | (intro k q h; cases List.eq_of_mem_replicate h)⟩,
   ⟨{ tBase with mem := { ops := [{ tOp .reading 15 with since := 4000000000 }] } }, _, 15, by and_intros <;> first | decide +kernel | rfl | exact test_heard _ _ (by decide +kernel) | (intro _ h; cases h; done) | (intro k q h; cases h; done) | (intro k q h; cases List.eq_of_mem_replicate h)⟩,
   ⟨tBase, 0, by and_intros <;> first | decide +kernel | rfl | exact test_heard _ _ (by decide +kernel) | (intro _ h; cases h; done) | (intro k q h; cases h; done) | (intro k q h; cases List.eq_of_mem_replicate h)⟩,
   ⟨tBase, 15, by and_intros <;> first | decide +kernel | rfl | exact test_heard _ _ (by decide +kernel) | (intro _ h; cases h; done) | (intro k q h; cases h; done) | (intro k q h; cases List.eq_of_mem_replicate h)⟩,
   ⟨tBase, _, 0, by and_intros <;> first | decide +kernel | rfl | exact test_heard _ _ (by decide +kernel) | (intro _ h; cases h; done) | (intro k q h; cases h; done) | (intro k q h; cases List.eq_of_mem_replicate h)⟩,
   ⟨{ tBase with dg := { pairs := [(0, 1)], streams := [{ id := 1, prio := 0, left := 1, purpose := .key 1, pair := some 0 }] } }, 0, 1, [], { id := 1, prio := 0, left := 1, purpose := .key 1, pair := some 0 }, by and_intros <;> first | decide +kernel | rfl | exact test_heard _ _ (by decide +kernel) | (intro _ h; cases h; done) | (intro k q h; cases h; done) | (intro k q h; cases List.eq_of_mem_replicate h)⟩,
   ⟨tBase, by and_intros <;> first | decide +kernel | rfl | exact test_heard _ _ (by decide +kernel) | (intro _ h; cases h; done) | (intro k q h; cases h; done) | (intro k q h; cases List.eq_of_mem_replicate h)⟩,
   ⟨{ tBase with dg := { pairs := [(0, 1)], streams := [{ id := 1, prio := 0, left := 1, purpose := .key 1, pair := some 0 }] } }, 0, [], { id := 1, prio := 0, left := 1, purpose := .key 1, pair := some 0 }, 1, by and_intros <;> first | decide +kernel | rfl | exact test_heard _ _ (by decide +kernel) | (intro _ h; cases h; done) | (intro k q h; cases h; done) | (intro k q h; cases List.eq_of_mem_replicate h)⟩,
   ⟨{ tBase with dg := { pairs := [(0, 1)], streams := [{ id := 1, prio := 0, left := 1, purpose := .key 1, pair := some 0 }] } }, 0, 1, [], { id := 1, prio := 0, left := 1, purpose := .key 1, pair := some 0 }, by and_intros <;> first | decide +kernel | rfl | exact test_heard _ _ (by decide +kernel) | (intro _ h; cases h; done) | (intro k q h; cases h; done) | (intro k q h; cases List.eq_of_mem_replicate h)⟩,
   ⟨{ tBase with dg := { pairs := [(0, 1), (2, 3)] } }, 1, [], by and_intros <;> first | decide +kernel | rfl⟩⟩

/-- An isolated node that sent postcards 1 and 2 before its isolation and 3 in it. -/
def tIsolated : State :=
  { tBase with fault := { postcards := true, manager := 9, postcardSeq := 3, isolated := true, isolatedSeq := 3 } }

/-- The acknowledgement of a postcard, with verdict LIVE. -/
def tAck (n : Nat) : PostcardAck :=
  { subtype := 2, kind := 0x41, revision := 0x32, node := 7, seq := BitVec.ofNat _ n, postmark := 0, health := 0, blockSt := 0, flags := 0, verdict := 0,
    reserved := 0, check := checkValue tKey 5 0 (cardBytes 0x41 7 n 0 0 0 0 0) }

/-- `ManagementEvents`: each clause with hypotheses is met somewhere. -/
theorem test_ManagementEvents_met :
    (∃ (s u : State) (key : Key) (node port : Nat), s.lbxKey 1 = some key ∧ s.cards = true ∧ s.fault.postcards = true ∧ s.fault.postcardSeq < s.fault.highestAcked + 4 ∧ u = (s.reach s.fault.nextPostcard).modFault (fun f => { f with postcardSeq := s.fault.postcardSeq + 1, nextPostcard := f.nextPostcard + f.period * Config.us }) ∧ u.cardNode = some node ∧ u.portTo node = some port)
    ∧ (∃ (s u : State) (key : Key) (node port : Nat), s.lbxKey 1 = some key ∧ s.cards = true ∧ s.fault.postcards = true ∧ s.fault.highestAcked + 4 ≤ s.fault.postcardSeq ∧ u = ((s.reach s.fault.nextPostcard).isolate 1).modFault (fun f => { f with postcardSeq := s.fault.postcardSeq + 1, nextPostcard := f.nextPostcard + f.period * Config.us }))
    ∧ (∃ (s : State) (a : PostcardAck), a.subtype ≠ 2)
    ∧ (∃ (s : State) (a : PostcardAck) (key : Key), s.lbxKey 1 = some key ∧ s.cards = true ∧ a.subtype = 2 ∧ a.kind = 0x41 ∧ a.revision = 0x32 ∧ a.health = 0 ∧ a.blockSt = 0 ∧ a.flags = 0 ∧ a.verdict.toNat ≤ 1 ∧ a.reserved = 0 ∧ a.check = checkValue key 5 (s.box 1).session (cardBytes a.kind.toNat a.node.toNat a.seq.toNat a.postmark.toNat a.health.toNat a.blockSt.toNat a.flags.toNat a.verdict.toNat) ∧ a.node.toNat = s.boot.nodeNumber ∧ a.seq.toNat ≤ s.fault.postcardSeq)
    ∧ (∃ (s : State) (p : Nat) (r : ResetRun), s.live = true ∧ s.runOf p = some r)
    ∧ (∃ (s : State) (p : Nat) (r : ResetRun) (x : Suspect) (time : Nat) (error : Bool), s.live = true ∧ s.runOf p = some r ∧ r.suspects[r.probe]? = some x ∧ s.probeJob r x = none)
    ∧ (∃ (s : State) (p t : Nat) (r : ResetRun) (x : Suspect), s.live = true ∧ s.runOf p = some r ∧ r.probeAt = some t ∧ r.suspects[r.probe]? = some x ∧ r.step = 9)
    ∧ (∃ (s : State) (p : Nat) (r : ResetRun), s.live = true ∧ s.runOf p = some r ∧ s.unitsRead r = true)
    ∧ (∃ (s : State) (p : Nat) (r : ResetRun), s.live = true ∧ s.runOf p = some r ∧ s.unitsRead r = true)
    ∧ (∃ (s : State) (a : PostcardAck), s.takesAck a ∧ a.verdict = 0 ∧ s.fault.isolated = true ∧ s.fault.isolatedSeq ≤ a.seq.toNat)
    ∧ (∃ (s : State) (a : PostcardAck), s.takesAck a ∧ a.verdict = 0 ∧ s.fault.isolated = true ∧ a.seq.toNat < s.fault.isolatedSeq) :=
  ⟨⟨{ tBase with fault := { postcards := true, manager := 9, postcardSeq := 3, highestAcked := 0 }, sniby := { tBase.sniby with nodePorts := [(9, 31)] } }, _, tKey, 9, 31, by and_intros <;> first | decide +kernel | rfl | exact test_heard _ _ (by decide +kernel) | (intro _ h; cases h; done) | (intro k q h; cases h; done) | (intro k q h; cases List.eq_of_mem_replicate h)⟩,
   ⟨{ tBase with fault := { postcards := true, manager := 9, postcardSeq := 4, highestAcked := 0 }, sniby := { tBase.sniby with nodePorts := [(9, 31)] } }, _, tKey, 9, 31, by and_intros <;> first | decide +kernel | rfl | exact test_heard _ _ (by decide +kernel) | (intro _ h; cases h; done) | (intro k q h; cases h; done) | (intro k q h; cases List.eq_of_mem_replicate h)⟩,
   ⟨tBase, { tAck 3 with subtype := 1 }, by and_intros <;> first | decide +kernel | rfl | exact test_heard _ _ (by decide +kernel) | (intro _ h; cases h; done) | (intro k q h; cases h; done) | (intro k q h; cases List.eq_of_mem_replicate h)⟩,
   ⟨{ tBase with fault := { postcards := true, manager := 9, postcardSeq := 3, highestAcked := 0 }, sniby := { tBase.sniby with nodePorts := [(9, 31)] } }, { subtype := 2, kind := 0x41, revision := 0x32, node := 7, seq := 3, postmark := 0, health := 0, blockSt := 0, flags := 0, verdict := 1, reserved := 0, check := checkValue tKey 5 0 (cardBytes 0x41 7 3 0 0 0 0 1) }, tKey, by and_intros <;> first | decide +kernel | rfl | exact test_heard _ _ (by decide +kernel) | (intro _ h; cases h; done) | (intro k q h; cases h; done) | (intro k q h; cases List.eq_of_mem_replicate h)⟩,
   ⟨{ tBase with fault := { runs := [{ part := 0, reset := true, op := 1, step := 2, started := 0, mailbag := true, suspects := [tSuspect], probeAt := some 5 }] } }, 0, { part := 0, reset := true, op := 1, step := 2, started := 0, mailbag := true, suspects := [tSuspect], probeAt := some 5 }, by and_intros <;> first | decide +kernel | rfl | exact test_heard _ _ (by decide +kernel) | (intro _ h; cases h; done) | (intro k q h; cases h; done) | (intro k q h; cases List.eq_of_mem_replicate h)⟩,
   ⟨{ tBase with fault := { runs := [{ part := 0, reset := false, op := 1, step := 9, started := 0, mailbag := true, suspects := [tSuspect], probeAt := some 5 }] } }, 0, { part := 0, reset := false, op := 1, step := 9, started := 0, mailbag := true, suspects := [tSuspect], probeAt := some 5 }, tSuspect, 65535, false, by and_intros <;> first | decide +kernel | rfl | exact test_heard _ _ (by decide +kernel) | (intro _ h; cases h; done) | (intro k q h; cases h; done) | (intro k q h; cases List.eq_of_mem_replicate h)⟩,
   ⟨{ tBase with fault := { runs := [{ part := 0, reset := false, op := 1, step := 9, started := 0, mailbag := true, suspects := [tSuspect], probeAt := some 5 }] } }, 0, 5, { part := 0, reset := false, op := 1, step := 9, started := 0, mailbag := true, suspects := [tSuspect], probeAt := some 5 }, tSuspect, by and_intros <;> first | decide +kernel | rfl | exact test_heard _ _ (by decide +kernel) | (intro _ h; cases h; done) | (intro k q h; cases h; done) | (intro k q h; cases List.eq_of_mem_replicate h)⟩,
   ⟨{ tBase with fault := { runs := [{ part := 0, reset := true, op := 1, step := 3, started := 0, mailbag := true, suspects := [tSuspect], probeAt := some 5 }] } }, 0, { part := 0, reset := true, op := 1, step := 3, started := 0, mailbag := true, suspects := [tSuspect], probeAt := some 5 }, by and_intros <;> first | decide +kernel | rfl | exact test_heard _ _ (by decide +kernel) | (intro _ h; cases h; done) | (intro k q h; cases h; done) | (intro k q h; cases List.eq_of_mem_replicate h)⟩,
   ⟨{ tBase with fault := { runs := [{ part := 0, reset := true, op := 1, step := 3, started := 0, mailbag := true, suspects := [tSuspect], probeAt := some 5 }] } }, 0, { part := 0, reset := true, op := 1, step := 3, started := 0, mailbag := true, suspects := [tSuspect], probeAt := some 5 }, by and_intros <;> first | decide +kernel | rfl | exact test_heard _ _ (by decide +kernel) | (intro _ h; cases h; done) | (intro k q h; cases h; done) | (intro k q h; cases List.eq_of_mem_replicate h)⟩,
   ⟨tIsolated, tAck 3, ⟨tKey, by and_intros <;> first | decide +kernel | rfl | exact test_heard _ _ (by decide +kernel)⟩, by decide +kernel⟩,
   ⟨tIsolated, tAck 2, ⟨tKey, by and_intros <;> first | decide +kernel | rfl | exact test_heard _ _ (by decide +kernel)⟩, by decide +kernel⟩⟩

/-- `TraceEvents`: each clause with hypotheses is met somewhere. -/
theorem test_TraceEvents_met :
    (∃ (s : State) (consumed : Nat), s.live = true ∧ s.trace.session.state ≠ .idle ∧ s.trace.session.state ≠ .armed ∧ s.trace.session.free < 128 ∧ s.trace.session.link ∈ s.boot.hostUp ∧ s.trace.session.link ∉ s.boot.dmaAbandoned)
    ∧ (∃ (s : State), s.live = true ∧ s.trace.session.trigKind = 3 ∧ s.trace.session.fired = false ∧ s.trace.session.state = .armed)
    ∧ (∃ (s : State), s.trace.session.state = .draining ∧ s.trace.session.trigWritten = true ∧ (∀ e ∈ s.trace.buffers, e.2.records = []))
    ∧ (∃ (s : State) (t id : Nat), s.live = true ∧ s.trace.snapAt = [(t, id)] ∧ s.now ≤ t)
    ∧ (∃ (s : State), s.live = true ∧ s.trace.session.writes = true ∧ s.trace.session.period ≠ 0)
    ∧ (∃ (s : State), s.live = true)
    ∧ (∃ (s : State) (data : List (Nat × Nat)), s.trace.session.state = .running ∧ s.trace.session.scope = 0xFFFFFFFF ∧ s.trace.session.islands.getLsbD islandCP = true ∧ s.trace.session.kinds.getLsbD 3 = true ∧ islandCP ∉ s.trace.session.atLimit ∧ (tgetD s.trace.buffers islandCP {}).drained ≤ s.now ∧ (tgetD s.trace.buffers islandCP {}).records.length < 2048 ∧ (∀ o ∈ (tgetD s.trace.buffers islandCP {}).records, o.postmark ≤ s.now)) :=
  ⟨⟨{ tBase with trace := { session := { state := .running, ringSize := 4096, produced := 64 } } }, 64, by and_intros <;> first | decide +kernel | rfl | exact test_heard _ _ (by decide +kernel) | (intro _ h; cases h; done) | (intro k q h; cases h; done) | (intro k q h; cases List.eq_of_mem_replicate h)⟩,
   ⟨{ tBase with trace := { session := { state := .armed, trigKind := 3, trigValue := 5 } } }, by and_intros <;> first | decide +kernel | rfl | exact test_heard _ _ (by decide +kernel) | (intro _ h; cases h; done) | (intro k q h; cases h; done) | (intro k q h; cases List.eq_of_mem_replicate h)⟩,
   ⟨{ tBase with trace := { session := { state := .draining } } }, by and_intros <;> first | decide +kernel | rfl | exact test_heard _ _ (by decide +kernel) | (intro _ h; cases h; done) | (intro k q h; cases h; done) | (intro k q h; cases List.eq_of_mem_replicate h)⟩,
   ⟨{ tBase with trace := { snapAt := [(4000000000, 1)] } }, 4000000000, 1, by and_intros <;> first | decide +kernel | rfl | exact test_heard _ _ (by decide +kernel) | (intro _ h; cases h; done) | (intro k q h; cases h; done) | (intro k q h; cases List.eq_of_mem_replicate h)⟩,
   ⟨{ tBase with trace := { session := { state := .running, period := 1 } } }, by and_intros <;> first | decide +kernel | rfl | exact test_heard _ _ (by decide +kernel) | (intro _ h; cases h; done) | (intro k q h; cases h; done) | (intro k q h; cases List.eq_of_mem_replicate h)⟩,
   ⟨tBase, by decide +kernel⟩,
   ⟨{ tBase with trace := { woken := [islandCP], session := { state := .running, scope := 0xFFFFFFFF, islands := 1 <<< 50, kinds := 8 } } }, [], by decide +kernel⟩⟩

/-- `OperationProgress`: each clause with hypotheses is met somewhere. -/
theorem test_OperationProgress_met :
    (∃ (s : State) (p : Permit), s.live = true ∧ s.att.permit = some p)
    ∧ (∃ (s : State) (h : Nat) (j : Job), s.job h = some j ∧ j.state = .admitting ∧ j.step < 11)
    ∧ (∃ (s : State) (h : Nat) (j : Job), s.job h = some j ∧ j.state = .admitting ∧ j.step = 7)
    ∧ (∃ (s u v : State) (h lb : Nat) (j : Job) (r : JobRoot) (x : Lbx), s.job h = some j ∧ j.state = .admitting ∧ j.step = 9 ∧ j.letterbox = some lb ∧ tget s.kv.jobRoots h = some r ∧ u = (s.draw 64).2 ∧ v = (u.draw 64).2 ∧ x = { state := if j.binding = 3 then .opened else .idle, binding := if j.binding = 1 then .host0 else if j.binding = 2 then .host1 else .fabric, session := (u.draw 64).1, tokenAt := s.now })
    ∧ (∃ (s : State) (h : Nat) (j : Job), s.job h = some j ∧ j.state = .admitting ∧ j.step = 9)
    ∧ (∃ (s : State) (h : Nat) (j : Job), s.job h = some j ∧ j.state = .admitting ∧ j.step = 10)
    ∧ (∃ (s t : State) (h : Nat) (j : Job) (st : Status), s.tablesSorted = true ∧ s.job h = some j ∧ t = s.undoAdmission h st)
    ∧ (∃ (s : State) (h : Nat) (j : Job), s.job h = some j ∧ j.state = .admitting ∧ j.step = 8)
    ∧ (∃ (s : State) (h : Nat) (j : Job) (good : Bool), s.job h = some j ∧ j.state = .admitting ∧ 10 < j.step)
    ∧ (∃ (s : State) (h : Nat) (j : Job), s.live = true ∧ s.job h = some j ∧ j.state = .closing ∧ j.step = 2)
    ∧ (∃ (s t : State) (h : Nat) (j : Job) (op : Option Nat), s.job h = some j ∧ t = s.teardownStart h op)
    ∧ (∃ (s : State) (h : Nat) (j : Job), s.live = true ∧ s.job h = some j ∧ j.state = .closing ∧ (s.part j.partition).state ≠ .resetting)
    ∧ (∃ (s t : State) (h : Nat), t = s.stopWalkers h)
    ∧ (∃ (s t : State) (h : Nat) (j : Job), s.job h = some j ∧ j.state = .closing ∧ t = s.dropPeers h)
    ∧ (∃ (s t : State) (h : Nat), t = s.dropTables h)
    ∧ (∃ (s t : State) (h lb : Nat) (j : Job), s.tablesSorted = true ∧ s.job h = some j ∧ j.letterbox = some lb ∧ (s.box lb).state ≠ .unbound ∧ t = s.closeBox h)
    ∧ (∃ (s : State) (h : Nat) (j : Job), s.live = true ∧ s.job h = some j ∧ j.state = .closing ∧ 12 < j.step ∧ (s.part j.partition).state ≠ .resetting)
    ∧ (∃ (s : State) (p : Nat), (s.part p).state = .resizing ∧ (∃ t ∈ (s.part p).tiles, t ∉ (s.part p).newTiles))
    ∧ (∃ (s : State) (p : Nat), (s.part p).state = .resizing ∧ (∀ t ∈ (s.part p).tiles, t ∈ (s.part p).newTiles) ∧ s.leftBehind p (s.part p).tiles = false)
    ∧ (∃ (s : State) (c h : Nat) (j : Job), s.live = true ∧ s.jobOfCtx c = some h ∧ s.job h = some j ∧ (s.part j.partition).state ≠ .resetting ∧ (s.ctx c).state = .closing)
    ∧ (∃ (s : State) (r : Retirement), s.courier.retirements.find? (fun x => x.handle == r.handle && x.index == r.index) = some r ∧ s.retireDue r = true)
    ∧ (∃ (s : State) (h i : Nat) (j : Job), (∀ r ∈ s.courier.retirements, ¬(r.handle = h ∧ r.index = i)) ∧ s.courier.retirements.length < 64 ∧ s.job h = some j ∧ j.state = .resizing ∧ (∃ k ∈ j.removing, k.base ≤ i ∧ i < k.base + k.count) ∧ (s.entry h i).state = .live) :=
  ⟨⟨{ tBase with att := { permit := some { rights := 4, scope := 0xFFFFFFFF, lifetime := 3600000, opened := 0 } } }, { rights := 4, scope := 0xFFFFFFFF, lifetime := 3600000, opened := 0 }, by and_intros <;> first | decide +kernel | rfl | exact test_heard _ _ (by decide +kernel) | (intro _ h; cases h; done) | (intro k q h; cases h; done) | (intro k q h; cases List.eq_of_mem_replicate h)⟩,
   ⟨{ tBase with jobs := [(0, { tJob with state := .admitting })] }, 0, { tJob with state := .admitting }, by and_intros <;> first | decide +kernel | rfl | exact test_heard _ _ (by decide +kernel) | (intro _ h; cases h; done) | (intro k q h; cases h; done) | (intro k q h; cases List.eq_of_mem_replicate h)⟩,
   ⟨{ tBase with jobs := [(0, { tJob with state := .admitting, step := 7, placed := [], keyRanges := [] })] }, 0, { tJob with state := .admitting, step := 7, placed := [], keyRanges := [] }, by and_intros <;> first | decide +kernel | rfl | exact test_heard _ _ (by decide +kernel) | (intro _ h; cases h; done) | (intro k q h; cases h; done) | (intro k q h; cases List.eq_of_mem_replicate h)⟩,
   ⟨{ tBase with jobs := [(0, { tJob with state := .admitting, step := 9 })], kv := { tBase.kv with jobRoots := [(0, { state := .loaded, job := 5, jrk := 9 })] } }, _, _, 0, 2, { tJob with state := .admitting, step := 9 }, { state := .loaded, job := 5, jrk := 9 }, _, by decide +kernel, rfl, rfl, rfl, by decide +kernel, rfl, rfl, rfl⟩,
   ⟨{ tBase with jobs := [(0, { tJob with state := .admitting, step := 9 })] }, 0, { tJob with state := .admitting, step := 9 }, by and_intros <;> first | decide +kernel | rfl | exact test_heard _ _ (by decide +kernel) | (intro _ h; cases h; done) | (intro k q h; cases h; done) | (intro k q h; cases List.eq_of_mem_replicate h)⟩,
   ⟨{ tBase with jobs := [(0, { tJob with state := .admitting, step := 10 })] }, 0, { tJob with state := .admitting, step := 10 }, by and_intros <;> first | decide +kernel | rfl | exact test_heard _ _ (by decide +kernel) | (intro _ h; cases h; done) | (intro k q h; cases h; done) | (intro k q h; cases List.eq_of_mem_replicate h)⟩,
   ⟨{ tBase with jobs := [(0, { tJob with state := .admitting, step := 10 })] }, _, 0, { tJob with state := .admitting, step := 10 }, .integrityLost, by decide +kernel, by decide +kernel, rfl⟩,
   ⟨{ tBase with jobs := [(0, { tJob with state := .admitting, step := 8 })] }, 0, { tJob with state := .admitting, step := 8 }, by and_intros <;> first | decide +kernel | rfl | exact test_heard _ _ (by decide +kernel) | (intro _ h; cases h; done) | (intro k q h; cases h; done) | (intro k q h; cases List.eq_of_mem_replicate h)⟩,
   ⟨{ tBase with jobs := [(0, { tJob with state := .admitting, step := 11 })] }, 0, { tJob with state := .admitting, step := 11 }, by and_intros <;> first | decide +kernel | rfl | exact test_heard _ _ (by decide +kernel) | (intro _ h; cases h; done) | (intro k q h; cases h; done) | (intro k q h; cases List.eq_of_mem_replicate h)⟩,
   ⟨{ tBase with jobs := [(0, { tJob with state := .closing, step := 2 })] }, 0, { tJob with state := .closing, step := 2 }, by and_intros <;> first | decide +kernel | rfl | exact test_heard _ _ (by decide +kernel) | (intro _ h; cases h; done) | (intro k q h; cases h; done) | (intro k q h; cases List.eq_of_mem_replicate h)⟩,
   ⟨{ tBase with jobs := [(0, { tJob with state := .admitting, step := 8 })] }, _, 0, { tJob with state := .admitting, step := 8 }, none, by decide +kernel, rfl⟩,
   ⟨{ tBase with jobs := [(0, { tJob with state := .closing, step := 3 })] }, 0, { tJob with state := .closing, step := 3 }, by and_intros <;> first | decide +kernel | rfl | exact test_heard _ _ (by decide +kernel) | (intro _ h; cases h; done) | (intro k q h; cases h; done) | (intro k q h; cases List.eq_of_mem_replicate h)⟩,
   ⟨tBase, _, 0, rfl⟩,
   ⟨{ tBase with jobs := [(0, { tJob with state := .closing, step := 8 })] }, _, 0, { tJob with state := .closing, step := 8 }, by decide +kernel, rfl, rfl⟩,
   ⟨tBase, _, 0, rfl⟩,
   ⟨tBase, _, 0, 2, tJob, by decide +kernel, by decide +kernel, rfl, by decide +kernel, rfl⟩,
   ⟨{ tBase with jobs := [(0, { tJob with state := .closing, step := 13 })] }, 0, { tJob with state := .closing, step := 13 }, by and_intros <;> first | decide +kernel | rfl | exact test_heard _ _ (by decide +kernel) | (intro _ h; cases h; done) | (intro k q h; cases h; done) | (intro k q h; cases List.eq_of_mem_replicate h)⟩,
   ⟨{ tBase with parts := [(0, { state := .resizing, tiles := [0, 15], newTiles := [0] })] }, 0, by decide +kernel, 15, by decide +kernel, by decide +kernel⟩,
   ⟨{ tBase with parts := [(0, { state := .resizing, tiles := [0], newTiles := [0, 15] })] }, 0, by and_intros <;> first | decide +kernel | rfl | exact test_heard _ _ (by decide +kernel) | (intro _ h; cases h; done) | (intro k q h; cases h; done) | (intro k q h; cases List.eq_of_mem_replicate h)⟩,
   ⟨{ tBase with ctxs := [(1, { state := .closing, step := 3 })] }, 1, 0, tJob, by and_intros <;> first | decide +kernel | rfl | exact test_heard _ _ (by decide +kernel) | (intro _ h; cases h; done) | (intro k q h; cases h; done) | (intro k q h; cases List.eq_of_mem_replicate h)⟩,
   ⟨{ tBase with courier := { retirements := [{ handle := 0, index := 3, op := none, waits := [], since := 0 }] } }, { handle := 0, index := 3, op := none, waits := [], since := 0 }, by and_intros <;> first | decide +kernel | rfl | exact test_heard _ _ (by decide +kernel) | (intro _ h; cases h; done) | (intro k q h; cases h; done) | (intro k q h; cases List.eq_of_mem_replicate h)⟩,
   ⟨{ tBase with jobs := [(0, { tJob with state := .resizing, removing := [{ base := 3, count := 13 }] })] }, 0, 3, { tJob with state := .resizing, removing := [{ base := 3, count := 13 }] }, by and_intros <;> first | decide +kernel | rfl | exact test_heard _ _ (by decide +kernel) | (intro _ h; cases h; done) | (intro k q h; cases h; done) | (intro k q h; cases List.eq_of_mem_replicate h)⟩⟩

/-- `OperationProgress`: each step of an admission, a teardown and a close is met, waiting and going on. -/
theorem test_OperationProgress_steps :
    (∃ (s : State) (h : Nat) (j : Job), s.job h = some j ∧ j.state = .admitting ∧ j.step = 7 ∧ s.mirrorUnrouted j = true)
    ∧ (∃ (s : State) (h : Nat) (j : Job), s.job h = some j ∧ j.state = .admitting ∧ j.step = 7 ∧ s.mirrorUnrouted j = false ∧ s.sweepHits j.partition = true)
    ∧ (∃ (s : State) (h : Nat) (j : Job), s.job h = some j ∧ j.state = .admitting ∧ j.step = 7 ∧ s.mirrorUnrouted j = false ∧ s.sweepHits j.partition = false ∧ j.keyRanges = [])
    ∧ (∃ (s : State) (h : Nat) (j : Job), s.job h = some j ∧ j.state = .admitting ∧ j.step = 7 ∧ s.mirrorUnrouted j = false ∧ s.sweepHits j.partition = false ∧ j.keyRanges ≠ [] ∧ (s.tableRoom j).1 = true ∧ (State.slotKey { (s.tableRoom j).2 with regions := j.regions.foldl (fun t e => tput t e.1 (newRegion h j.keyRanges e.2)) (s.tableRoom j).2.regions } h (.data 0 0xFF)).isSome = true)
    ∧ (∃ (s : State) (h : Nat) (j : Job), s.job h = some j ∧ j.state = .admitting ∧ j.step = 9 ∧ j.letterbox = none)
    ∧ (∃ (s : State) (h : Nat) (j : Job), s.job h = some j ∧ j.state = .admitting ∧ j.step = 9 ∧ j.letterbox ≠ none ∧ tget s.kv.jobRoots h = none)
    ∧ (∃ (s : State) (h : Nat) (j : Job), s.job h = some j ∧ j.state = .admitting ∧ j.step = 10 ∧ (tget s.kv.jobRoots h).isSome = true)
    ∧ (∃ (s : State) (h : Nat) (j : Job), s.job h = some j ∧ j.state = .admitting ∧ j.step = 10 ∧ tget s.kv.jobRoots h = none)
    ∧ (∃ (s : State) (h : Nat) (j : Job), s.live = true ∧ s.job h = some j ∧ j.state = .closing ∧ (s.part j.partition).state ≠ .resetting ∧ j.step = 3 ∧ j.ctxs.filter (fun c => (s.ctx c).state == .opened) ≠ [])
    ∧ (∃ (s : State) (h : Nat) (j : Job), s.live = true ∧ s.job h = some j ∧ j.state = .closing ∧ (s.part j.partition).state ≠ .resetting ∧ j.step = 3 ∧ (∀ c ∈ j.ctxs, (s.ctx c).state ≠ .opened) ∧ (∃ c ∈ j.ctxs, (s.ctx c).state ≠ .free))
    ∧ (∃ (s : State) (h : Nat) (j : Job), s.live = true ∧ s.job h = some j ∧ j.state = .closing ∧ (s.part j.partition).state ≠ .resetting ∧ j.step = 3 ∧ (∀ c ∈ j.ctxs, (s.ctx c).state = .free))
    ∧ (∃ (s : State) (h : Nat) (j : Job), s.live = true ∧ s.job h = some j ∧ j.state = .closing ∧ (s.part j.partition).state ≠ .resetting ∧ j.step = 4 ∧ True)
    ∧ (∃ (s : State) (h : Nat) (j : Job), s.live = true ∧ s.job h = some j ∧ j.state = .closing ∧ (s.part j.partition).state ≠ .resetting ∧ j.step = 5 ∧ (∃ q ∈ s.mem.reqs, q.handle = h ∧ q.window ≠ none))
    ∧ (∃ (s : State) (h : Nat) (j : Job), s.live = true ∧ s.job h = some j ∧ j.state = .closing ∧ (s.part j.partition).state ≠ .resetting ∧ j.step = 5 ∧ (∀ q ∈ s.mem.reqs, q.handle = h → q.window = none) ∧ (∀ e ∈ s.red.descs, e.2.handle ≠ h))
    ∧ (∃ (s : State) (h : Nat) (j : Job), s.live = true ∧ s.job h = some j ∧ j.state = .closing ∧ (s.part j.partition).state ≠ .resetting ∧ j.step = 6 ∧ True)
    ∧ (∃ (s : State) (h : Nat) (j : Job), s.live = true ∧ s.job h = some j ∧ j.state = .closing ∧ (s.part j.partition).state ≠ .resetting ∧ j.step = 7 ∧ True)
    ∧ (∃ (s : State) (h : Nat) (j : Job), s.live = true ∧ s.job h = some j ∧ j.state = .closing ∧ (s.part j.partition).state ≠ .resetting ∧ j.step = 8 ∧ (∃ w ∈ s.mem.wipes, w.handle = h))
    ∧ (∃ (s : State) (h : Nat) (j : Job), s.live = true ∧ s.job h = some j ∧ j.state = .closing ∧ (s.part j.partition).state ≠ .resetting ∧ j.step = 8 ∧ (∀ w ∈ s.mem.wipes, w.handle ≠ h))
    ∧ (∃ (s : State) (h : Nat) (j : Job), s.live = true ∧ s.job h = some j ∧ j.state = .closing ∧ (s.part j.partition).state ≠ .resetting ∧ j.step = 9 ∧ s.jobBusy h = true)
    ∧ (∃ (s : State) (h : Nat) (j : Job), s.live = true ∧ s.job h = some j ∧ j.state = .closing ∧ (s.part j.partition).state ≠ .resetting ∧ j.step = 9 ∧ s.jobBusy h = false)
    ∧ (∃ (s : State) (h : Nat) (j : Job), s.live = true ∧ s.job h = some j ∧ j.state = .closing ∧ (s.part j.partition).state ≠ .resetting ∧ j.step = 10 ∧ s.jobBusy h = true)
    ∧ (∃ (s : State) (h : Nat) (j : Job), s.live = true ∧ s.job h = some j ∧ j.state = .closing ∧ (s.part j.partition).state ≠ .resetting ∧ j.step = 10 ∧ s.jobBusy h = false)
    ∧ (∃ (s : State) (h : Nat) (j : Job), s.live = true ∧ s.job h = some j ∧ j.state = .closing ∧ (s.part j.partition).state ≠ .resetting ∧ j.step = 11 ∧ ∃ r, tget s.kv.jobRoots h = some r ∧ r.holders = [])
    ∧ (∃ (s : State) (h : Nat) (j : Job), s.live = true ∧ s.job h = some j ∧ j.state = .closing ∧ (s.part j.partition).state ≠ .resetting ∧ j.step = 12 ∧ True)
    ∧ (∃ (s : State) (c h : Nat) (j : Job), s.live = true ∧ s.jobOfCtx c = some h ∧ s.job h = some j ∧ (s.part j.partition).state ≠ .resetting ∧ (s.ctx c).state = .closing ∧ (s.ctx c).step = 4 ∧ s.localBusy c = false)
    ∧ (∃ (s : State) (c h : Nat) (j : Job), s.live = true ∧ s.jobOfCtx c = some h ∧ s.job h = some j ∧ (s.part j.partition).state ≠ .resetting ∧ (s.ctx c).state = .closing ∧ (s.ctx c).step = 4 ∧ s.localBusy c = true)
    ∧ (∃ (s : State) (c h : Nat) (j : Job), s.live = true ∧ s.jobOfCtx c = some h ∧ s.job h = some j ∧ (s.part j.partition).state ≠ .resetting ∧ (s.ctx c).state = .closing ∧ (s.ctx c).step = 5 ∧ s.red.descs.filter (fun e => e.2.handle == h && e.2.ctx == c && e.2.state != .free) = [])
    ∧ (∃ (s : State) (c h : Nat) (j : Job), s.live = true ∧ s.jobOfCtx c = some h ∧ s.job h = some j ∧ (s.part j.partition).state ≠ .resetting ∧ (s.ctx c).state = .closing ∧ (s.ctx c).step = 5 ∧ s.red.descs.filter (fun e => e.2.handle == h && e.2.ctx == c && e.2.state != .free) ≠ [])
    ∧ (∃ (s : State) (c h : Nat) (j : Job), s.live = true ∧ s.jobOfCtx c = some h ∧ s.job h = some j ∧ (s.part j.partition).state ≠ .resetting ∧ (s.ctx c).state = .closing ∧ (s.ctx c).step = 6 ∧ (s.ctx c).fence = none ∧ s.freeFences.length ≤ s.resetsAtFence.length)
    ∧ (∃ (s : State) (c h : Nat) (j : Job), s.live = true ∧ s.jobOfCtx c = some h ∧ s.job h = some j ∧ (s.part j.partition).state ≠ .resetting ∧ (s.ctx c).state = .closing ∧ (s.ctx c).step = 6 ∧ (s.ctx c).fence = none ∧ s.resetsAtFence.length < s.freeFences.length)
    ∧ (∃ (s : State) (c h : Nat) (j : Job), s.live = true ∧ s.jobOfCtx c = some h ∧ s.job h = some j ∧ (s.part j.partition).state ≠ .resetting ∧ (s.ctx c).state = .closing ∧ (s.ctx c).step = 6 ∧ (∃ n, (s.ctx c).fence = some n ∧ (s.fenceObj n).state = .armed))
    ∧ (∃ (s : State) (c h : Nat) (j : Job), s.live = true ∧ s.jobOfCtx c = some h ∧ s.job h = some j ∧ (s.part j.partition).state ≠ .resetting ∧ (s.ctx c).state = .closing ∧ (s.ctx c).step = 6 ∧ (∃ n, (s.ctx c).fence = some n ∧ (s.fenceObj n).state ≠ .armed))
    ∧ (∃ (s : State) (c h : Nat) (j : Job), s.live = true ∧ s.jobOfCtx c = some h ∧ s.job h = some j ∧ (s.part j.partition).state ≠ .resetting ∧ (s.ctx c).state = .closing ∧ (s.ctx c).step = 7 ∧ s.remoteBusy c = true)
    ∧ (∃ (s : State) (c h : Nat) (j : Job), s.live = true ∧ s.jobOfCtx c = some h ∧ s.job h = some j ∧ (s.part j.partition).state ≠ .resetting ∧ (s.ctx c).state = .closing ∧ (s.ctx c).step = 7 ∧ s.remoteBusy c = false)
    ∧ (∃ (s : State) (c h : Nat) (j : Job), s.live = true ∧ s.jobOfCtx c = some h ∧ s.job h = some j ∧ (s.part j.partition).state ≠ .resetting ∧ (s.ctx c).state = .closing ∧ (s.ctx c).step = 8 ∧ s.envBusy [c] = true)
    ∧ (∃ (s : State) (c h : Nat) (j : Job), s.live = true ∧ s.jobOfCtx c = some h ∧ s.job h = some j ∧ (s.part j.partition).state ≠ .resetting ∧ (s.ctx c).state = .closing ∧ (s.ctx c).step = 8 ∧ s.envBusy [c] = false)
    ∧ (∃ (s : State) (c h : Nat) (j : Job), s.live = true ∧ s.jobOfCtx c = some h ∧ s.job h = some j ∧ (s.part j.partition).state ≠ .resetting ∧ (s.ctx c).state = .closing ∧ (s.ctx c).step = 9 ∧ s.inFlight c ≠ 0)
    ∧ (∃ (s : State) (c h : Nat) (j : Job), s.live = true ∧ s.jobOfCtx c = some h ∧ s.job h = some j ∧ (s.part j.partition).state ≠ .resetting ∧ (s.ctx c).state = .closing ∧ (s.ctx c).step = 9 ∧ s.inFlight c = 0)
    ∧ (∃ (s : State) (c h : Nat) (j : Job), s.live = true ∧ s.jobOfCtx c = some h ∧ s.job h = some j ∧ (s.part j.partition).state ≠ .resetting ∧ (s.ctx c).state = .closing ∧ (s.ctx c).step = 10 ∧ 9 < (s.ctx c).step) :=
  ⟨⟨{ tBase with jobs := [(0, { tJob with state := .admitting, step := 7, placed := [{ record := { offset := 0, count := 1, cls := .fresh, sectorLog := 6, size := 4096, stackMask := 0, pooled := true, keyRange := 0, address := 0 }, base := 0, size := 4096, treeA := 0, treeB := 9 * 2 ^ 48 }] })] }, 0, { tJob with state := .admitting, step := 7, placed := [{ record := { offset := 0, count := 1, cls := .fresh, sectorLog := 6, size := 4096, stackMask := 0, pooled := true, keyRange := 0, address := 0 }, base := 0, size := 4096, treeA := 0, treeB := 9 * 2 ^ 48 }] }, by and_intros <;> first | decide +kernel | rfl | exact test_heard _ _ (by decide +kernel) | (intro _ h; cases h; done) | (intro k q h; cases h; done) | (intro k q h; cases List.eq_of_mem_replicate h)⟩,
   ⟨{ tBase with jobs := [(0, { tJob with state := .admitting, step := 7 })], power := { sweep := some { tile := 1, kind := 1, step := 29, op := 1, nextAt := 5, squash := false, mv := 750 } } }, 0, { tJob with state := .admitting, step := 7 }, by and_intros <;> first | decide +kernel | rfl | exact test_heard _ _ (by decide +kernel) | (intro _ h; cases h; done) | (intro k q h; cases h; done) | (intro k q h; cases List.eq_of_mem_replicate h)⟩,
   ⟨{ tBase with jobs := [(0, { tJob with state := .admitting, step := 7, keyRanges := [] })] }, 0, { tJob with state := .admitting, step := 7, keyRanges := [] }, by and_intros <;> first | decide +kernel | rfl | exact test_heard _ _ (by decide +kernel) | (intro _ h; cases h; done) | (intro k q h; cases h; done) | (intro k q h; cases List.eq_of_mem_replicate h)⟩,
   ⟨{ tBase with jobs := [(0, { tJob with state := .admitting, step := 7 })] }, 0, { tJob with state := .admitting, step := 7 }, by and_intros <;> first | decide +kernel | rfl | exact test_heard _ _ (by decide +kernel) | (intro _ h; cases h; done) | (intro k q h; cases h; done) | (intro k q h; cases List.eq_of_mem_replicate h)⟩,
   ⟨{ tBase with jobs := [(0, { tJob with state := .admitting, step := 9, letterbox := none })] }, 0, { tJob with state := .admitting, step := 9, letterbox := none }, by and_intros <;> first | decide +kernel | rfl | exact test_heard _ _ (by decide +kernel) | (intro _ h; cases h; done) | (intro k q h; cases h; done) | (intro k q h; cases List.eq_of_mem_replicate h)⟩,
   ⟨{ tBase with jobs := [(0, { tJob with state := .admitting, step := 9 })], kv := {} }, 0, { tJob with state := .admitting, step := 9 }, by and_intros <;> first | decide +kernel | rfl | exact test_heard _ _ (by decide +kernel) | (intro _ h; cases h; done) | (intro k q h; cases h; done) | (intro k q h; cases List.eq_of_mem_replicate h)⟩,
   ⟨{ tBase with jobs := [(0, { tJob with state := .admitting, step := 10 })] }, 0, { tJob with state := .admitting, step := 10 }, by and_intros <;> first | decide +kernel | rfl | exact test_heard _ _ (by decide +kernel) | (intro _ h; cases h; done) | (intro k q h; cases h; done) | (intro k q h; cases List.eq_of_mem_replicate h)⟩,
   ⟨{ tBase with jobs := [(0, { tJob with state := .admitting, step := 10 })], kv := {} }, 0, { tJob with state := .admitting, step := 10 }, by and_intros <;> first | decide +kernel | rfl | exact test_heard _ _ (by decide +kernel) | (intro _ h; cases h; done) | (intro k q h; cases h; done) | (intro k q h; cases List.eq_of_mem_replicate h)⟩,
   ⟨{ tBase with jobs := [(0, { tJob with state := .closing, step := 3 })] }, 0, { tJob with state := .closing, step := 3 }, by and_intros <;> first | decide +kernel | rfl | exact test_heard _ _ (by decide +kernel) | (intro _ h; cases h; done) | (intro k q h; cases h; done) | (intro k q h; cases List.eq_of_mem_replicate h)⟩,
   ⟨{ tBase with jobs := [(0, { tJob with state := .closing, step := 3 })], ctxs := [(1, { state := .closing })] }, 0, { tJob with state := .closing, step := 3 }, by decide +kernel, rfl, rfl, by decide +kernel, rfl, by decide +kernel, 1, by decide +kernel, by decide +kernel⟩,
   ⟨{ tBase with jobs := [(0, { tJob with state := .closing, step := 3 })], ctxs := [] }, 0, { tJob with state := .closing, step := 3 }, by and_intros <;> first | decide +kernel | rfl | exact test_heard _ _ (by decide +kernel) | (intro _ h; cases h; done) | (intro k q h; cases h; done) | (intro k q h; cases List.eq_of_mem_replicate h)⟩,
   ⟨{ tBase with jobs := [(0, { tJob with state := .closing, step := 4 })] }, 0, { tJob with state := .closing, step := 4 }, by and_intros <;> first | decide +kernel | rfl | exact test_heard _ _ (by decide +kernel) | (intro _ h; cases h; done) | (intro k q h; cases h; done) | (intro k q h; cases List.eq_of_mem_replicate h)⟩,
   ⟨{ tBase with jobs := [(0, { tJob with state := .closing, step := 5 })], mem := { reqs := [{ tReq with window := some 1 }] } }, 0, { tJob with state := .closing, step := 5 }, by decide +kernel, rfl, rfl, by decide +kernel, rfl, { tReq with window := some 1 }, by decide +kernel, rfl, by decide⟩,
   ⟨{ tBase with jobs := [(0, { tJob with state := .closing, step := 5 })], mem := { reqs := [tReq] } }, 0, { tJob with state := .closing, step := 5 }, by and_intros <;> first | decide +kernel | rfl | exact test_heard _ _ (by decide +kernel) | (intro _ h; cases h; done) | (intro k q h; cases h; done) | (intro k q h; cases List.eq_of_mem_replicate h)⟩,
   ⟨{ tBase with jobs := [(0, { tJob with state := .closing, step := 6 })] }, 0, { tJob with state := .closing, step := 6 }, by and_intros <;> first | decide +kernel | rfl | exact test_heard _ _ (by decide +kernel) | (intro _ h; cases h; done) | (intro k q h; cases h; done) | (intro k q h; cases List.eq_of_mem_replicate h)⟩,
   ⟨{ tBase with jobs := [(0, { tJob with state := .closing, step := 7 })] }, 0, { tJob with state := .closing, step := 7 }, by and_intros <;> first | decide +kernel | rfl | exact test_heard _ _ (by decide +kernel) | (intro _ h; cases h; done) | (intro k q h; cases h; done) | (intro k q h; cases List.eq_of_mem_replicate h)⟩,
   ⟨{ tBase with jobs := [(0, { tJob with state := .closing, step := 8 })], mem := { wipes := [{ handle := 0, stack := 15, id := 1, address := 0, length := 64, left := 0, since := 0 }] } }, 0, { tJob with state := .closing, step := 8 }, by decide +kernel, rfl, rfl, by decide +kernel, rfl, { handle := 0, stack := 15, id := 1, address := 0, length := 64, left := 0, since := 0 }, by decide +kernel, rfl⟩,
   ⟨{ tBase with jobs := [(0, { tJob with state := .closing, step := 8 })] }, 0, { tJob with state := .closing, step := 8 }, by and_intros <;> first | decide +kernel | rfl | exact test_heard _ _ (by decide +kernel) | (intro _ h; cases h; done) | (intro k q h; cases h; done) | (intro k q h; cases List.eq_of_mem_replicate h)⟩,
   ⟨{ tBase with jobs := [(0, { tJob with state := .closing, step := 9 })], mem := { reqs := [tReq] } }, 0, { tJob with state := .closing, step := 9 }, by and_intros <;> first | decide +kernel | rfl | exact test_heard _ _ (by decide +kernel) | (intro _ h; cases h; done) | (intro k q h; cases h; done) | (intro k q h; cases List.eq_of_mem_replicate h)⟩,
   ⟨{ tBase with jobs := [(0, { tJob with state := .closing, step := 9 })] }, 0, { tJob with state := .closing, step := 9 }, by and_intros <;> first | decide +kernel | rfl | exact test_heard _ _ (by decide +kernel) | (intro _ h; cases h; done) | (intro k q h; cases h; done) | (intro k q h; cases List.eq_of_mem_replicate h)⟩,
   ⟨{ tBase with jobs := [(0, { tJob with state := .closing, step := 10 })], mem := { reqs := [tReq] } }, 0, { tJob with state := .closing, step := 10 }, by and_intros <;> first | decide +kernel | rfl | exact test_heard _ _ (by decide +kernel) | (intro _ h; cases h; done) | (intro k q h; cases h; done) | (intro k q h; cases List.eq_of_mem_replicate h)⟩,
   ⟨{ tBase with jobs := [(0, { tJob with state := .closing, step := 10 })] }, 0, { tJob with state := .closing, step := 10 }, by and_intros <;> first | decide +kernel | rfl | exact test_heard _ _ (by decide +kernel) | (intro _ h; cases h; done) | (intro k q h; cases h; done) | (intro k q h; cases List.eq_of_mem_replicate h)⟩,
   ⟨{ tBase with jobs := [(0, { tJob with state := .closing, step := 11 })] }, 0, { tJob with state := .closing, step := 11 }, by decide +kernel, rfl, rfl, by decide +kernel, rfl, _, rfl, rfl⟩,
   ⟨{ tBase with jobs := [(0, { tJob with state := .closing, step := 12 })] }, 0, { tJob with state := .closing, step := 12 }, by and_intros <;> first | decide +kernel | rfl | exact test_heard _ _ (by decide +kernel) | (intro _ h; cases h; done) | (intro k q h; cases h; done) | (intro k q h; cases List.eq_of_mem_replicate h)⟩,
   ⟨{ tBase with ctxs := [(1, { state := .closing, step := 4 })] }, 1, 0, tJob, by and_intros <;> first | decide +kernel | rfl | exact test_heard _ _ (by decide +kernel) | (intro _ h; cases h; done) | (intro k q h; cases h; done) | (intro k q h; cases List.eq_of_mem_replicate h)⟩,
   ⟨{ tBase with ctxs := [(1, { state := .closing, step := 4 })], mem := { reqs := [tReq], ops := [{ tOp .reading 0 with ctx := some 1 }] } }, 1, 0, tJob, by and_intros <;> first | decide +kernel | rfl | exact test_heard _ _ (by decide +kernel) | (intro _ h; cases h; done) | (intro k q h; cases h; done) | (intro k q h; cases List.eq_of_mem_replicate h)⟩,
   ⟨{ tBase with ctxs := [(1, { state := .closing, step := 5 })] }, 1, 0, tJob, by and_intros <;> first | decide +kernel | rfl | exact test_heard _ _ (by decide +kernel) | (intro _ h; cases h; done) | (intro k q h; cases h; done) | (intro k q h; cases List.eq_of_mem_replicate h)⟩,
   ⟨{ tBase with ctxs := [(1, { state := .closing, step := 5 })], red := { descs := [(1023, { state := .active, handle := 0, ctx := 1 })] } }, 1, 0, tJob, by and_intros <;> first | decide +kernel | rfl | exact test_heard _ _ (by decide +kernel) | (intro _ h; cases h; done) | (intro k q h; cases h; done) | (intro k q h; cases List.eq_of_mem_replicate h)⟩,
   ⟨{ tBase with ctxs := [(1, { state := .closing, step := 6 })], remote := { fences := (List.range 64).map (fun n => (8128 + n, { state := .armed })) } }, 1, 0, tJob, by and_intros <;> first | decide +kernel | rfl | exact test_heard _ _ (by decide +kernel) | (intro _ h; cases h; done) | (intro k q h; cases h; done) | (intro k q h; cases List.eq_of_mem_replicate h)⟩,
   ⟨{ tBase with ctxs := [(1, { state := .closing, step := 6 })], remote := { fences := (List.range 63).map (fun n => (8128 + n, { state := .armed })) } }, 1, 0, tJob, by and_intros <;> first | decide +kernel | rfl | exact test_heard _ _ (by decide +kernel) | (intro _ h; cases h; done) | (intro k q h; cases h; done) | (intro k q h; cases List.eq_of_mem_replicate h)⟩,
   ⟨{ tBase with ctxs := [(1, { state := .closing, step := 6, fence := some 8191 })], remote := { fences := [(8191, { state := .armed })] } }, 1, 0, tJob, by decide +kernel, by decide +kernel, rfl, by decide +kernel, by decide +kernel, by decide +kernel, 8191, by decide +kernel, by decide +kernel⟩,
   ⟨{ tBase with ctxs := [(1, { state := .closing, step := 6, fence := some 8191 })], remote := { fences := [(8191, { state := .idle })] } }, 1, 0, tJob, by decide +kernel, by decide +kernel, rfl, by decide +kernel, by decide +kernel, by decide +kernel, 8191, by decide +kernel, by decide +kernel⟩,
   ⟨{ tBase with ctxs := [(1, { state := .closing, step := 7 })], remote := { reqs := [{ tRem 1 with ctx := 1 }] } }, 1, 0, tJob, by and_intros <;> first | decide +kernel | rfl | exact test_heard _ _ (by decide +kernel) | (intro _ h; cases h; done) | (intro k q h; cases h; done) | (intro k q h; cases List.eq_of_mem_replicate h)⟩,
   ⟨{ tBase with ctxs := [(1, { state := .closing, step := 7 })] }, 1, 0, tJob, by and_intros <;> first | decide +kernel | rfl | exact test_heard _ _ (by decide +kernel) | (intro _ h; cases h; done) | (intro k q h; cases h; done) | (intro k q h; cases List.eq_of_mem_replicate h)⟩,
   ⟨{ tBase with ctxs := [(1, { state := .closing, step := 8 })], env := [(0, { flights := [{ slot := 0, req := 0, desc := { tDesc 1 64 [] with context := 1 } }] })] }, 1, 0, tJob, by and_intros <;> first | decide +kernel | rfl | exact test_heard _ _ (by decide +kernel) | (intro _ h; cases h; done) | (intro k q h; cases h; done) | (intro k q h; cases List.eq_of_mem_replicate h)⟩,
   ⟨{ tBase with ctxs := [(1, { state := .closing, step := 8 })] }, 1, 0, tJob, by and_intros <;> first | decide +kernel | rfl | exact test_heard _ _ (by decide +kernel) | (intro _ h; cases h; done) | (intro k q h; cases h; done) | (intro k q h; cases List.eq_of_mem_replicate h)⟩,
   ⟨{ tBase with ctxs := [(1, { state := .closing, step := 9 })], mem := { reqs := [{ tReq with ctx := some 1 }] } }, 1, 0, tJob, by and_intros <;> first | decide +kernel | rfl | exact test_heard _ _ (by decide +kernel) | (intro _ h; cases h; done) | (intro k q h; cases h; done) | (intro k q h; cases List.eq_of_mem_replicate h)⟩,
   ⟨{ tBase with ctxs := [(1, { state := .closing, step := 9 })] }, 1, 0, tJob, by and_intros <;> first | decide +kernel | rfl | exact test_heard _ _ (by decide +kernel) | (intro _ h; cases h; done) | (intro k q h; cases h; done) | (intro k q h; cases List.eq_of_mem_replicate h)⟩,
   ⟨{ tBase with ctxs := [(1, { state := .closing, step := 10 })] }, 1, 0, tJob, by and_intros <;> first | decide +kernel | rfl | exact test_heard _ _ (by decide +kernel) | (intro _ h; cases h; done) | (intro k q h; cases h; done) | (intro k q h; cases List.eq_of_mem_replicate h)⟩⟩

/-! ### What every command meets -/

def tNop : Cmd := tCmd 0 0x0100 []

theorem tNop_row : RowOf (.nop 0 (.host 0) tNop.p) tNop := fun _ => rfl

theorem tNop_verified : Verified tBase tNop tKey := verified_of (by decide +kernel) rfl

/-- `UnknownOpcode`: an opcode that no handler serves, in turn and at the last number before the limit. -/
theorem test_UnknownOpcode_met :
    (∃ (s : State) (op : BitVec 16) (lb : Nat) (via : Via) (p : Packet) (key : Key), handlerFor op.toNat = none ∧ Verified s { op := op.toNat, lb := lb, via := via, p := p } key ∧ p.sequence.toNat = (((s.checking { op := op.toNat, lb := lb, via := via, p := p }).noteNode { op := op.toNat, lb := lb, via := via, p := p }).box lb).nextSeq ∧ p.revision = Config.revisionByte ∧ p.sequence.toNat < 0xFFFFF000 ∧ (s.admitted { op := op.toNat, lb := lb, via := via, p := p }).dg.aborted = false ∧ (s.admitted { op := op.toNat, lb := lb, via := via, p := p }).quarantined = false ∧ ((s.admitted { op := op.toNat, lb := lb, via := via, p := p }).box lb).state ≠ .closing) :=
  ⟨tBase, 0x0EFF, 0, .host 0, (tCmd 0 0x0EFF []).p, tKey, by decide +kernel,
    (verified_of (c := tCmd 0 0x0EFF []) (by decide +kernel) rfl : Verified tBase (tCmd 0 0x0EFF []) tKey),
    by decide +kernel, by decide +kernel, by decide +kernel, by decide +kernel, by decide +kernel⟩

def tBad : Cmd := { tNop with p := { tNop.p with check := tNop.p.check ^^^ 1 } }

theorem tBad_unchecked : checked tKey ((tBase.checking tBad).box 0).session tBad = false := by
  have h : checked tKey ((tBase.checking tBad).box 0).session tBad = (tNop.p.check ^^^ 1 == tNop.p.check) := rfl
  rw [h]
  refine beq_eq_false_iff_ne.mpr (fun e => ?_)
  have e2 : tNop.p.check ^^^ (tNop.p.check ^^^ 1) = tNop.p.check ^^^ tNop.p.check := congrArg (tNop.p.check ^^^ ·) e
  rw [← BitVec.xor_assoc, BitVec.xor_self, BitVec.zero_xor] at e2
  exact absurd e2 (by decide)

def tMail : Cmd := tCmd 1 0x0100 []

/-- `CommandChecks`: a packet for each of its clauses; the last place of a gap, and the first one too many, among them. -/
theorem test_CommandChecks_met :
    (∃ (i : Instr) (c : Cmd) (s : State), RowOf i c ∧ c.lb < 64 ∧ s.comes c ∧ s.ahead c.lb = s ∧ (s.met c).cpServes = true
      ∧ (s.met c).boot.tamperHeld = true)
    ∧ (∃ (i : Instr) (c : Cmd) (s : State), RowOf i c ∧ c.lb < 64 ∧ s.comes c ∧ s.ahead c.lb = s ∧ (s.met c).cpServes = true
      ∧ (s.met c).boot.tamperHeld = false ∧ (s.met c).dg.pairs = [])
    ∧ (∃ (i : Instr) (c : Cmd) (s : State), RowOf i c ∧ c.lb < 64 ∧ s.comes c ∧ s.ahead c.lb = s ∧ (s.met c).cpServes = true
      ∧ (s.met c).boot.tamperHeld = false ∧ (s.met c).lbxKey c.lb = none)
    ∧ (∃ (i : Instr) (c : Cmd) (s : State) (key : Key), RowOf i c ∧ c.lb < 64 ∧ s.comes c ∧ s.ahead c.lb = s
      ∧ (s.met c).cpServes = true ∧ Verified s c key ∧ c.p.sequence.toNat = (((s.checking c).noteNode c).box c.lb).nextSeq
      ∧ (s.admitted c).dg.aborted = true)
    ∧ (∃ (i : Instr) (c : Cmd) (s : State) (key : Key), RowOf i c ∧ c.lb < 64 ∧ s.comes c ∧ s.ahead c.lb = s ∧ (s.met c).cpServes = true
      ∧ (s.met c).boot.tamperHeld = false ∧ (s.met c).dg.pairs ≠ [] ∧ (s.met c).lbxKey c.lb = some key
      ∧ framed c = false)
    ∧ (∃ (i : Instr) (c : Cmd) (s : State) (key : Key), RowOf i c ∧ c.lb < 64 ∧ s.comes c ∧ s.ahead c.lb = s ∧ (s.met c).cpServes = true
      ∧ (s.met c).boot.tamperHeld = false ∧ (s.met c).dg.pairs ≠ [] ∧ (s.met c).lbxKey c.lb = some key
      ∧ framed c = true ∧ checked key ((s.checking c).box c.lb).session c = false)
    ∧ (∃ (i : Instr) (c : Cmd) (s : State) (key : Key), RowOf i c ∧ c.lb < 64 ∧ s.comes c ∧ s.ahead c.lb = s ∧ (s.met c).cpServes = true
      ∧ Verified s c key ∧ c.p.sequence.toNat < (((s.checking c).noteNode c).box c.lb).nextSeq)
    ∧ (∃ (i : Instr) (c : Cmd) (s : State) (key : Key), RowOf i c ∧ c.lb < 64 ∧ s.comes c ∧ s.ahead c.lb = s ∧ (s.met c).cpServes = true
      ∧ Verified s c key ∧ (((s.checking c).noteNode c).box c.lb).nextSeq < c.p.sequence.toNat ∧ ∃ l, c.via = .host l)
    ∧ (∃ (i : Instr) (c : Cmd) (s : State) (key : Key), RowOf i c ∧ c.lb < 64 ∧ s.comes c ∧ s.ahead c.lb = s ∧ (s.met c).cpServes = true
      ∧ Verified s c key ∧ (((s.checking c).noteNode c).box c.lb).nextSeq < c.p.sequence.toNat
      ∧ (∃ port n, c.via = .fabric port n) ∧ (((s.checking c).noteNode c).box c.lb).waiting.length < 16)
    ∧ (∃ (i : Instr) (c : Cmd) (s : State) (key : Key), RowOf i c ∧ c.lb < 64 ∧ s.comes c ∧ s.ahead c.lb = s ∧ (s.met c).cpServes = true
      ∧ Verified s c key ∧ (((s.checking c).noteNode c).box c.lb).nextSeq < c.p.sequence.toNat
      ∧ (∃ port n, c.via = .fabric port n) ∧ 16 ≤ (((s.checking c).noteNode c).box c.lb).waiting.length)
    ∧ (∃ (i : Instr) (c : Cmd) (s : State) (key : Key) (st : Status) (d : Nat), RowOf i c ∧ c.lb < 64 ∧ s.comes c ∧ s.ahead c.lb = s
      ∧ (s.met c).cpServes = true ∧ Verified s c key ∧ c.p.sequence.toNat = (((s.checking c).noteNode c).box c.lb).nextSeq
      ∧ (s.admitted c).dg.aborted = false ∧ preCheck (handlerFor c.op) (s.admitted c) c = some (st, d)) := by
  have hcomes : ∀ s : State, s.box 0 = tBox → s.comes tNop := by
    intro s hs
    unfold State.comes
    rw [show tNop.via = .host 0 from rfl, show tNop.lb = 0 from rfl]
    dsimp only
    rw [hs]
    decide
  have v2 : Verified (tAt 0 { tBox with nextSeq := 2 }) tNop tKey := verified_of (by decide +kernel) rfl
  have v0 : Verified (tAt 0 { tBox with nextSeq := 0 }) tNop tKey := verified_of (by decide +kernel) rfl
  have v1 : Verified (tAt 1 { tBox with nextSeq := 0, binding := .fabric, waiting := List.replicate 15 (tHeld 1) }) tMail tKey :=
    verified_of (by decide +kernel) rfl
  have v16 : Verified (tAt 1 { tBox with nextSeq := 0, binding := .fabric, waiting := List.replicate 16 (tHeld 1) }) tMail tKey :=
    verified_of (by decide +kernel) rfl
  have va : Verified { tBase with dg := { pairs := [(0, 1)], aborted := true } } tNop tKey := verified_of (by decide +kernel) rfl
  have vc : Verified { tBase with life := { inForce := .test, transition := .complete } } tNop tKey :=
    verified_of (by decide +kernel) rfl
  exact ⟨⟨_, tNop, { tBase with boot := { tBase.boot with tamperHeld := true } }, tNop_row, by decide, hcomes _ rfl, rfl, rfl, rfl⟩,
    ⟨_, tNop, { tBase with dg := {} }, tNop_row, by decide, hcomes _ rfl, rfl, rfl, rfl, rfl⟩,
    ⟨_, tNop, { tBase with kv := {} }, tNop_row, by decide, hcomes _ rfl, rfl, rfl, rfl, rfl⟩,
    ⟨_, tNop, _, tKey, tNop_row, by decide, va.comes, va.first, va.serves, va, by decide +kernel, rfl⟩,
    ⟨.nop 0 (.host 0) { tNop.p with bodyLength := 4033 }, { tNop with p := { tNop.p with bodyLength := 4033 } }, tBase, tKey,
      fun _ => rfl, by decide, hcomes tBase rfl, rfl, rfl, rfl, by decide, by decide +kernel, by decide +kernel⟩,
    ⟨.nop 0 (.host 0) tBad.p, tBad, tBase, tKey, fun _ => rfl, by decide, hcomes tBase rfl, rfl, rfl, rfl, by decide,
      by decide +kernel, by decide +kernel, tBad_unchecked⟩,
    ⟨_, tNop, _, tKey, tNop_row, by decide, v2.comes, v2.first, v2.serves, v2, by decide +kernel⟩,
    ⟨_, tNop, _, tKey, tNop_row, by decide, v0.comes, v0.first, v0.serves, v0, by decide +kernel, 0, rfl⟩,
    ⟨.nop 1 (.fabric 0 9) tMail.p, tMail, _, tKey, fun _ => rfl, by decide, v1.comes, v1.first, v1.serves, v1, by decide +kernel, ⟨0, 9, rfl⟩,
      by decide +kernel⟩,
    ⟨.nop 1 (.fabric 0 9) tMail.p, tMail, _, tKey, fun _ => rfl, by decide, v16.comes, v16.first, v16.serves, v16, by decide +kernel,
      ⟨0, 9, rfl⟩, by decide +kernel⟩,
    ⟨_, tNop, _, tKey, .lifecycleLocked, 0, tNop_row, by decide, vc.comes, vc.first, vc.serves, vc, by decide +kernel, by decide +kernel, by decide +kernel⟩⟩

def tCounts : Cmd := tCmd 1 0x0904 []
def tTrace : Cmd := tCmd 1 0x0D01 (enc [(4, 0), (4, 0xFFFFFFFF), (24, 0), (8, 65536), (24, 0)])
def tFull : List PendingOp :=
  List.replicate 32 { id := 1, lb := 0, opcode := 0x0400, sequence := 1, cookie := 0, via := .host 0, accepted := 0, bound := none }

/-- What step 13 of R46 asks of a command that passes the checks before it. -/
def Decided (i : Instr) (c : Cmd) (s : State) (key : Key) (h : Handler) : Prop :=
  RowOf i c ∧ handlerFor c.op = some h ∧ Verified s c key ∧ c.p.sequence.toNat = (((s.checking c).noteNode c).box c.lb).nextSeq
    ∧ (s.admitted c).dg.aborted = false ∧ preCheck (some h) (s.admitted c) c = none

def tCreate : Cmd := tCmd 0 0x0404 (enc [(1, 15), (1, 0), (2, 0xFFFC)])
def tCreate0 : Cmd := tCmd 0 0x0404 (enc [(1, 0), (1, 0), (2, 0xFFFC)])
def tOpen : Cmd := tCmd 0 0x0408 (enc [(2, 0), (6, 0)])
def tClose (lb : Nat) : Cmd := tCmd lb 0x0409 (enc [(2, 0), (6, 0)])
def tEntry : Cmd := tCmd 0 0x0505 (enc [(4, 5), (4, 3)])
def tEarly : State := { tBase with boot := { tBase.boot with blockState := .handshakeReady } }
def tNoRoom (s : State) : State := { s with sniby := { s.sniby with pendingOps := tFull } }
def tDry : State := tAt 2 { tBox with tokens := 0, tokenAt := 4000000000 }
def tClosing : State := { tBase with ctxs := [(0, { state := .closing })] }
def tTwice : State := { tClosing with sniby := { tClosing.sniby with heldBehind := [(.ctx 0, tHeld 0x0408)] } }

theorem decided_of {i : Instr} {c : Cmd} {s : State} {h : Handler} (hi : RowOf i c) (hh : handlerFor c.op = some h)
    (v : tVerified s c tKey = true)
    (hc : c.p.check = checkValue tKey 1 0 (headerBytes (BitVec.ofNat 16 c.op) c.p ++ c.p.body))
    (hq : (c.p.sequence.toNat == (((s.checking c).noteNode c).box c.lb).nextSeq) = true)
    (ha : (s.admitted c).dg.aborted = false) (hp : (preCheck (some h) (s.admitted c) c).isNone = true) : Decided i c s tKey h :=
  ⟨hi, hh, verified_of v hc, by simpa using hq, ha, Option.isNone_iff_eq_none.mp hp⟩

/-- `LimitsAndHolds`: each of its clauses is met somewhere. -/
theorem test_LimitsAndHolds_met :
    (∃ i c s key h e, Decided i c s key h ∧ h.service = true ∧ (s.admitted c).awaitsService = true ∧ c.lb = 0
      ∧ (s.admitted c).opRoom 0 = some e)
    ∧ (∃ i c s key h, Decided i c s key h ∧ h.service = true ∧ (s.admitted c).awaitsService = true ∧ c.lb = 0
      ∧ (s.admitted c).opRoom 0 = none ∧ (s.admitted c).sniby.places.length < 4096)
    ∧ (∃ i c s key h a u after, Decided i c s key h ∧ h.service = true ∧ (s.admitted c).awaitsService = true ∧ c.lb = 1
      ∧ h.run (s.admitted c) c = .reply a u after)
    ∧ (∃ i c s key h body bound start spent, Decided i c s key h ∧ h.service = true ∧ (s.admitted c).awaitsService = true ∧ c.lb = 1
      ∧ h.run (s.admitted c) c = .accept body bound start spent)
    ∧ (∃ i c s key h a, Decided i c s key h ∧ (s.admitted c).awaitsService = false ∧ h.run (s.admitted c) c = .stop a)
    ∧ (∃ i c s key h u, Decided i c s key h ∧ (s.admitted c).awaitsService = false ∧ h.run (s.admitted c) c = .wait u)
    ∧ (∃ i c s key h body bound start spent e, Decided i c s key h ∧ (s.admitted c).awaitsService = false
      ∧ h.run (s.admitted c) c = .accept body bound start spent ∧ (spent (s.admitted c)).takeToken c.lb = .error e)
    ∧ (∃ i c s key h body bound start spent u e, Decided i c s key h ∧ (s.admitted c).awaitsService = false
      ∧ h.run (s.admitted c) c = .accept body bound start spent ∧ (spent (s.admitted c)).takeToken c.lb = .ok u ∧ u.opRoom c.lb = some e)
    ∧ (∃ i c s key h o remain, Decided i c s key h ∧ (s.admitted c).awaitsService = false
      ∧ h.run (s.admitted c) c = .behind o remain ∧ (s.admitted c).sniby.heldBehind.any (fun e => e.1 == o) = true)
    ∧ (∃ i c s key h o remain, Decided i c s key h ∧ (s.admitted c).awaitsService = false
      ∧ h.run (s.admitted c) c = .behind o remain ∧ (s.admitted c).sniby.heldBehind.any (fun e => e.1 == o) = false
      ∧ (s.admitted c).opRoom c.lb = none) := by
  have d1 : Decided (.createPartition 0 (.host 0) tCreate.p) tCreate (tNoRoom tEarly) tKey hCreatePartition :=
    decided_of (fun _ => rfl) rfl (by decide +kernel) rfl (by decide +kernel) rfl (by decide +kernel)
  have d2 : Decided (.createPartition 0 (.host 0) tCreate.p) tCreate tEarly tKey hCreatePartition :=
    decided_of (fun _ => rfl) rfl (by decide +kernel) rfl (by decide +kernel) rfl (by decide +kernel)
  have d3 : Decided (.createPartition 0 (.host 0) tCreate0.p) tCreate0 tBase tKey hCreatePartition :=
    decided_of (fun _ => rfl) rfl (by decide +kernel) rfl (by decide +kernel) rfl (by decide +kernel)
  have d4 : Decided (.closeContext 2 (.host 0) (tClose 2).p) (tClose 2) tDry tKey hCloseContext :=
    decided_of (fun _ => rfl) rfl (by decide +kernel) rfl (by decide +kernel) rfl (by decide +kernel)
  have d5 : Decided (.closeContext 0 (.host 0) (tClose 0).p) (tClose 0) (tNoRoom tBase) tKey hCloseContext :=
    decided_of (fun _ => rfl) rfl (by decide +kernel) rfl (by decide +kernel) rfl (by decide +kernel)
  have d6 : Decided (.openContext 0 (.host 0) tOpen.p) tOpen tTwice tKey hOpenContext :=
    decided_of (fun _ => rfl) rfl (by decide +kernel) rfl (by decide +kernel) rfl (by decide +kernel)
  have d7 : Decided (.openContext 0 (.host 0) tOpen.p) tOpen tClosing tKey hOpenContext :=
    decided_of (fun _ => rfl) rfl (by decide +kernel) rfl (by decide +kernel) rfl (by decide +kernel)
  have d8 : Decided (.keyIndexStatus 0 (.host 0) tEntry.p) tEntry tBase tKey hKeyIndexStatus :=
    decided_of (fun _ => rfl) rfl (by decide +kernel) rfl (by decide +kernel) rfl (by decide +kernel)
  have d9 : Decided (.reductionCounts 1 (.fabric 0 9) tCounts.p) tCounts tEarly tKey hReductionCounts :=
    decided_of (fun _ => rfl) rfl (by decide +kernel) rfl (by decide +kernel) rfl (by decide +kernel)
  have d10 : Decided (.traceStart 1 (.fabric 0 9) tTrace.p) tTrace tEarly tKey hTraceStart :=
    decided_of (fun _ => rfl) rfl (by decide +kernel) rfl (by decide +kernel) rfl (by decide +kernel)
  have r1 : (((tNoRoom tEarly).admitted tCreate).opRoom 0).isSome = true := by decide +kernel
  have r5 : (((tNoRoom tBase).admitted (tClose 0)).opRoom 0).isSome = true := by decide +kernel
  obtain ⟨e1, h1⟩ := Option.isSome_iff_exists.mp r1
  obtain ⟨e5, h5⟩ := Option.isSome_iff_exists.mp r5
  exact ⟨⟨_, _, _, _, _, e1, d1, rfl, by decide +kernel, rfl, h1⟩,
    ⟨_, _, _, _, _, d2, rfl, by decide +kernel, rfl, Option.isNone_iff_eq_none.mp (by decide +kernel), by decide +kernel⟩,
    ⟨_, _, _, _, _, _, _, _, d9, rfl, by decide +kernel, rfl, rfl⟩,
    ⟨_, _, _, _, _, _, _, _, _, d10, rfl, by decide +kernel, rfl, rfl⟩,
    ⟨_, _, _, _, _, _, d3, by decide +kernel, rfl⟩,
    ⟨_, _, _, _, _, _, d8, by decide +kernel, rfl⟩,
    ⟨_, _, _, _, _, _, _, _, _, _, d4, by decide +kernel, rfl, rfl⟩,
    ⟨_, _, _, _, _, _, _, _, _, _, e5, d5, by decide +kernel, rfl, rfl, h5⟩,
    ⟨_, _, _, _, _, _, _, d6, by decide +kernel, rfl, by decide +kernel⟩,
    ⟨_, _, _, _, _, _, _, d7, by decide +kernel, rfl, by decide +kernel, Option.isNone_iff_eq_none.mp (by decide +kernel)⟩⟩

/-- `CheckFailures`: a command through a link, the seventh and the eighth failure in a row, with the job of the letterbox and without
one, and another letterbox. -/
theorem test_CheckFailures_met :
    (∃ (c : Cmd) (l : Nat), c.via = .host l)
    ∧ (∃ (s : State) (c : Cmd) (jobs : List Nat), (s.box c.lb).state = .opened ∧ 7 ≤ (s.box c.lb).failCount
      ∧ (∀ h, h ∈ jobs ↔ ∃ j, s.jobs.find? (fun e => e.2.letterbox == some c.lb) = some (h, j)) ∧ jobs.length ≤ 1 ∧ jobs ≠ [])
    ∧ (∃ (s : State) (c : Cmd) (jobs : List Nat), (s.box c.lb).state = .opened ∧ 7 ≤ (s.box c.lb).failCount
      ∧ (∀ h, h ∈ jobs ↔ ∃ j, s.jobs.find? (fun e => e.2.letterbox == some c.lb) = some (h, j)) ∧ jobs.length ≤ 1 ∧ jobs = [])
    ∧ (∃ (s : State) (c : Cmd), (s.box c.lb).state = .opened ∧ 7 ≤ (s.box c.lb).failCount)
    ∧ (∃ (s : State) (c : Cmd), ¬((s.box c.lb).state = .opened ∧ 7 ≤ (s.box c.lb).failCount))
    ∧ (∃ (c : Cmd) (lb : Nat), lb ≠ c.lb) :=
  ⟨⟨tNop, 0, rfl⟩,
   ⟨tAt 2 { tBox with failCount := 7 }, tCmd 2 0x0100 [], [0], by decide, by decide, fun h => by
      rw [show (tAt 2 { tBox with failCount := 7 }).jobs.find? (fun e => e.2.letterbox == some (tCmd 2 0x0100 []).lb) = some (0, tJob)
        from rfl]
      simp [eq_comm], by decide, by decide⟩,
   ⟨tAt 0 { tBox with failCount := 7 }, tNop, [], by decide, by decide, fun h => by
      rw [show (tAt 0 { tBox with failCount := 7 }).jobs.find? (fun e => e.2.letterbox == some tNop.lb) = none from rfl]
      simp, by decide, rfl⟩,
   ⟨tAt 0 { tBox with failCount := 7 }, tNop, by decide, by decide⟩,
   ⟨tAt 0 { tBox with failCount := 6 }, tNop, by decide⟩, ⟨tNop, 1, by decide⟩⟩

/-- `CommandRate`: a letterbox without a need of tokens, one that has none yet, one that gets its next this moment, and a command
through a host link. -/
theorem test_CommandRate_met :
    (∃ lb : Nat, lb < 2)
    ∧ (∃ (s : State) (lb : Nat), 2 ≤ lb ∧ (s.box lb).tokens = 0 ∧ s.now < (s.box lb).tokenAt + 80000)
    ∧ (∃ (s : State) (lb : Nat), 2 ≤ lb ∧ (0 < (s.box lb).tokens ∨ (s.box lb).tokenAt + 80000 ≤ s.now))
    ∧ (∃ (c : Cmd) (l : Nat), c.via = .host l) :=
  ⟨⟨1, by decide⟩, ⟨tAt 2 { tBox with tokens := 0, tokenAt := 3999920001 }, 2, by decide, by decide, by decide⟩,
   ⟨tAt 2 { tBox with tokens := 0, tokenAt := 3999920000 }, 2, by decide, by decide⟩, ⟨tNop, 0, rfl⟩⟩

/-- `DroppedNotices`: a letterbox that is not enabled, a full ring, and one whose next notice is to say it. -/
theorem test_DroppedNotices_met :
    (∃ (s : State) (lb : Nat), (s.box lb).binding ≠ .fabric ∧ (s.box lb).enable = false)
    ∧ (∃ (s : State) (lb : Nat), (s.box lb).ringDepth ≤ (s.box lb).ringUsed + s.reserved lb)
    ∧ (∃ (s : State) (lb k : Nat) (key : Key), s.lbxKey lb = some key ∧ (s.box lb).dropsPending = true ∧ k ≠ lb) :=
  ⟨⟨tAt 0 { tBox with enable := false }, 0, by decide, by decide⟩,
   ⟨tAt 0 { tBox with ntcProduced := 64 }, 0, by decide⟩,
   ⟨tAt 0 { tBox with dropsPending := true }, 0, 1, tKey, rfl, rfl, by decide⟩⟩

/-- `QuietVectors`: a letterbox that raises no vector, one that raises it at the end of its quiet interval, and one inside it. -/
theorem test_QuietVectors_met :
    (∃ (s : State) (lb l : Nat), (s.box lb).binding.link = some l ∧ (s.box lb).msixEnable = false)
    ∧ (∃ (s : State) (lb l : Nat) (c : Cmd) (k : Nat) (key : Key), (s.box lb).binding.link = some l ∧ (s.box lb).msixEnable = true
      ∧ tgetD s.boot.msixQuiet (l * 512 + lb) 0 ≤ s.now ∧ c.lb = lb ∧ c.via = .host k ∧ s.lbxKey lb = some key)
    ∧ (∃ (s : State) (lb l : Nat), (s.box lb).binding.link = some l ∧ (s.box lb).msixEnable = true
      ∧ s.now < tgetD s.boot.msixQuiet (l * 512 + lb) 0)
    ∧ (∃ (s : State) (lb l : Nat), (s.box lb).binding.link = some l ∧ s.live = true ∧ l * 512 + lb ∈ s.boot.msixDeferred) :=
  ⟨⟨tBase, 0, 0, rfl, rfl⟩,
   ⟨{ tAt 0 { tBox with msixEnable := true } with boot := { tBase.boot with msixQuiet := [(0, 4000000000)] } }, 0, 0, tNop, 0, tKey,
    rfl, rfl, by decide, rfl, rfl, rfl⟩,
   ⟨{ tAt 0 { tBox with msixEnable := true } with boot := { tBase.boot with msixQuiet := [(0, 4000000001)] } }, 0, 0,
    rfl, rfl, by decide⟩,
   ⟨{ tBase with boot := { tBase.boot with msixQuiet := [(0, 4000000001)], msixDeferred := [0] } }, 0, 0, rfl, rfl, by decide⟩⟩

/-- `TakesTheFront` and `StepAnswers`: a queue with commands, and the idle block with and without power. -/
theorem test_TakesTheFront_met :
    (∃ (s : State) (c : Instr) (rest : List Instr), s.pending = c :: rest)
    ∧ (∃ s : State, s.pending = [] ∧ s.live = true) ∧ (∃ s : State, s.pending = [] ∧ s.live = false) :=
  ⟨⟨{ tBase with pending := [.tamper, .powerLoss] }, .tamper, [.powerLoss], rfl⟩, ⟨tBase, rfl, by decide⟩,
   ⟨State.reset, rfl, by decide⟩⟩

/-- `TablesStaySorted`: a command and a step of a state with letterboxes, a partition, a job, a context and a region. -/
theorem test_TablesStaySorted_met :
    (∃ (s t : State) (i : Instr), s.tablesSorted = true ∧ exec i s = .next t)
    ∧ (∃ s t : State, s.tablesSorted = true ∧ step s = .next t) :=
  ⟨⟨tBase, _, .powerLoss, by decide +kernel, rfl⟩, ⟨{ tBase with pending := [.powerLoss] }, _, by decide +kernel, rfl⟩⟩

/-- `TamperKeepsClear`: a block that TAMPER_HELD holds, a part without power, and a block in service with its keys. -/
theorem test_TamperKeepsClear_met :
    (∃ (s t : State) (i : Instr), s.tamperClean = true ∧ s.boot.tamperHeld = true ∧ exec i s = .next t)
    ∧ (∃ (s t : State) (i : Instr), s.tamperClean = true ∧ s.keysGone = false ∧ exec i s = .next t)
    ∧ (∃ s t : State, s.tamperClean = true ∧ s.boot.powered = false ∧ step s = .next t) := by
  refine ⟨⟨{ tBase with kv := {}, dg := {}, boot := { tBase.boot with tamperHeld := true, blockState := .tamperHeld } }, _, .tamper,
    by decide +kernel, rfl, rfl⟩, ⟨tBase, _, .tamper, by decide +kernel, by decide +kernel, rfl⟩,
    ⟨{ State.reset with boot := { State.reset.boot with powered := false } }, _, by decide +kernel, rfl, rfl⟩⟩

/-- `FusesOnlyBlow`: a step of a part that has started, one of a part that has not, and one in which its factory rows are programmed. -/
theorem test_FusesOnlyBlow_met :
    (∃ s t : State, step s = .next t ∧ s.boot.hasStarted = true)
    ∧ (∃ s t : State, step s = .next t ∧ ∀ rows, s.pending.head? ≠ some (.tapInstruction (.program rows)))
    ∧ (∃ (s t : State) (rows : FactoryRows), step s = .next t ∧ s.pending.head? = some (.tapInstruction (.program rows))
      ∧ t.fuses ≠ s.fuses) := by
  have r : ∃ rows : FactoryRows, ∃ t, step { State.reset with pending := [.tapInstruction (.program rows)] } = .next t
      ∧ t.fuses ≠ State.reset.fuses :=
    ⟨{ serial := 5, calibration := {}, rowRepair := 0 }, _, rfl, by decide +kernel⟩
  obtain ⟨rows, t, h, d⟩ := r
  exact ⟨⟨{ tBase with boot := { tBase.boot with hasStarted := true }, pending := [.powerLoss] }, _, rfl, rfl⟩,
    ⟨{ tBase with pending := [.powerLoss] }, _, rfl, fun _ h => by cases h⟩, ⟨_, t, rows, h, rfl, d⟩⟩

/-- `LifeCycleForward` and `TamperLasts`: a step of a state whose end of life has begun and that TAMPER_HELD holds. -/
theorem test_LifeCycleForward_met :
    ∃ s t : State, step s = .next t ∧ s.fuses.recorded = .endOfLife ∧ markSet s.fuses.progressWord mkEolBegun = true
      ∧ s.boot.tamperHeld = true ∧ s.pending.head? ≠ some .powerLoss ∧ s.pending ≠ [] := by
  have h : ∃ t, step { tBase with fuses := { progressWord := 2 ^ 28 }, boot := { tBase.boot with tamperHeld := true }, pending := [.tamper] }
      = .next t := ⟨_, rfl⟩
  obtain ⟨t, h⟩ := h
  exact ⟨_, t, h, by decide, by decide, by decide, by decide, by decide⟩

/-- `RecordedState`: two arrays that agree where the recorded state looks. -/
theorem test_RecordedState_met :
    ∃ f g : Fuses, (∀ i, i < 48 → g.lifecycleWord.getLsbD i = f.lifecycleWord.getLsbD i) ∧ g.progressWord = f.progressWord
      ∧ f.lifecycleWord ≠ g.lifecycleWord :=
  ⟨{ lifecycleWord := 0x1FF }, { lifecycleWord := 0x10000000001FF#64 }, by decide, rfl, by decide⟩

def tStart : StartInput :=
  { tamper := false, kat := List.replicate 4 true, entropyFail := [], slotFail := [], markFail := 0, groupFail := 0, plainFail := 0, cut := none, auxInRange := true }

/-- `TamperLasts` and `KeysCleared`: a powered block, free and held, a start held by TAMPER_N, and a fault with keys in store. -/
theorem test_TamperLasts_met :
    (∃ s : State, s.boot.powered = true ∧ s.boot.tamperHeld = false ∧ s.kv.lbx0 ≠ none)
    ∧ (∃ s : State, s.boot.powered = true ∧ s.boot.tamperHeld = true)
    ∧ (∃ (s : State) (i : StartInput), s.boot.inReset = true ∧ i.tamper = true)
    ∧ (∃ (s : State) (i : StartInput), s.boot.inReset = true ∧ i.tamper = false ∧ s.boot.tamperHeld = true)
    ∧ (∃ s : State, s.boot.tamperHeld = false ∧ s.quarantined = false ∧ (s.box 2).state ≠ .unbound ∧ s.kv.lbxKeys ≠ []) :=
  ⟨⟨tBase, by decide, by decide, by decide⟩, ⟨{ tBase with boot := { tBase.boot with tamperHeld := true } }, by decide, by decide⟩,
   ⟨State.reset, { tStart with tamper := true }, by decide, by decide⟩,
   ⟨{ State.reset with boot := { State.reset.boot with tamperHeld := true } }, tStart, by decide, by decide, by decide⟩,
   ⟨tBase, by decide, by decide, by decide, by decide⟩⟩

/-- `QueryFrame`: a block at rest with a job. -/
theorem test_QueryFrame_met :
    (∃ s : State, s.atRest = true ∧ s.awaitsService = false ∧ s.jobs ≠ [])
    ∧ (∃ (s : State) (p : Packet), s.atRest = true ∧ s.awaitsService = false
      ∧ (∃ h j, s.jobGate (field p.body 0 4) = .ok (h, j)) ∧ ∀ h j, s.jobGate (field p.body 0 4) = .ok (h, j) →
        s.entryLost h (field p.body 4 4) = true ∨ s.entryFenced h (field p.body 4 4) = true
        ∨ s.entryAtHand h (field p.body 4 4) = true) := by
  have f : field tEntry.p.body 0 4 = 5 := by decide +kernel
  refine ⟨⟨tBase, by decide +kernel, by decide, by decide⟩,
    ⟨{ tBase with jobs := [(0, { tJob with keyLost := [0] })] }, tEntry.p, by decide +kernel, by decide,
      ⟨0, { tJob with keyLost := [0] }, by rw [f]; rfl⟩, fun h j g => ?_⟩⟩
  rw [f] at g
  have e : h = 0 := by cases g; rfl
  subst e
  exact .inl (by decide +kernel)

/-- `PartitionCommands`, its refusals: a partition that is there, a tile that is taken, one to destroy that is free, one with a job, no tile, a new one. -/
theorem test_PartitionCommands_met :
    (∃ (s : State) (lb : Nat) (via : Via) (p : Packet) (key : Key), Ready s hCreatePartition { op := 0x0404, lb := lb, via := via, p := p } key
      ∧ ((s.admitted { op := 0x0404, lb := lb, via := via, p := p }).part (field p.body 0 1)).state ≠ .free)
    ∧ (∃ (s : State) (lb : Nat) (via : Via) (p : Packet) (key : Key), Ready s hCreatePartition { op := 0x0404, lb := lb, via := via, p := p } key
      ∧ ∃ t ∈ tilesOf (field p.body 2 2), (s.admitted { op := 0x0404, lb := lb, via := via, p := p }).tileTaken t = true)
    ∧ (∃ (s : State) (lb : Nat) (via : Via) (p : Packet) (key : Key), Ready s hDestroyPartition { op := 0x0406, lb := lb, via := via, p := p } key
      ∧ ((s.admitted { op := 0x0406, lb := lb, via := via, p := p }).part (field p.body 0 1)).state = .free)
    ∧ (∃ (s : State) (lb : Nat) (via : Via) (p : Packet) (key : Key), Ready s hDestroyPartition { op := 0x0406, lb := lb, via := via, p := p } key
      ∧ ((s.admitted { op := 0x0406, lb := lb, via := via, p := p }).part (field p.body 0 1)).state = .active
      ∧ (s.admitted { op := 0x0406, lb := lb, via := via, p := p }).jobsIn (field p.body 0 1) ≠ [])
    ∧ (∃ c : Cmd, field c.p.body 0 1 < 16 ∧ field c.p.body 1 1 = 0 ∧ field c.p.body 2 2 = 0
      ∧ (headerParams hCreatePartition c).all (·.2) = true)
    ∧ (∃ (s : State) (p t : Nat) (tiles : List Nat), (s.part p).state = .free ∧ t ∈ tiles ∧ (∀ u ∈ tiles, s.partOfTile u = none)) := by
  have r1 : Ready tBase hCreatePartition tCreate0 tKey := ready_of (by decide +kernel) rfl
  have r2 : Ready tBase hCreatePartition (tCmd 0 0x0404 (enc [(1, 15), (1, 0), (2, 0xFFFF)])) tKey := ready_of (by decide +kernel) rfl
  have r3 : Ready tBase hDestroyPartition (tCmd 0 0x0406 (enc [(1, 15), (7, 0)])) tKey := ready_of (by decide +kernel) rfl
  have r4 : Ready tBase hDestroyPartition (tCmd 0 0x0406 (enc [(1, 0), (7, 0)])) tKey := ready_of (by decide +kernel) rfl
  exact ⟨⟨tBase, 0, .host 0, _, tKey, r1, by decide +kernel⟩, ⟨tBase, 0, .host 0, _, tKey, r2, by decide +kernel⟩,
    ⟨tBase, 0, .host 0, _, tKey, r3, by decide +kernel⟩, ⟨tBase, 0, .host 0, _, tKey, r4, by decide +kernel, by decide +kernel⟩,
    ⟨tCmd 0 0x0404 (enc [(1, 15), (1, 0), (2, 0)]), by decide +kernel, by decide +kernel, by decide +kernel, by decide +kernel⟩,
    ⟨tBase, 15, 15, [2, 15], by decide, by decide, by decide⟩⟩

/-- `ReplayWindow`: numbers on both sides of each of its bounds. -/
theorem test_ReplayWindow_met :
    (∃ (e : Epoch) (q : Nat), 1 ≤ q ∧ e.rxHigh < q) ∧ (∃ (e : Epoch) (q : Nat), q + 511 < e.rxHigh)
    ∧ (∃ (e : Epoch) (q : Nat), 1 ≤ q ∧ q ≤ e.rxHigh ∧ e.rxHigh ≤ q + 511) ∧ (∃ (e : Epoch) (q : Nat), e.accepts q = true)
    ∧ (∃ (e : Epoch) (q r : Nat), r ≠ q ∧ e.accepts r = false)
    ∧ (∃ (e : Epoch) (q r : Nat), (∀ x ∈ e.rxSeen, x ≤ e.rxHigh) ∧ (e.accept q).rxHigh ≤ r + 511 ∧ r ≠ q ∧ e.accepts r = true) :=
  ⟨⟨tEpoch, 1, by decide⟩, ⟨{ tEpoch with rxHigh := 513 }, 1, by decide⟩, ⟨{ tEpoch with rxHigh := 512 }, 1, by decide⟩,
   ⟨{ tEpoch with rxHigh := 512, rxSeen := [512, 2] }, 1, by decide⟩, ⟨{ tEpoch with rxHigh := 513 }, 5, 1, by decide⟩,
   ⟨{ tEpoch with rxHigh := 512, rxSeen := [512, 2] }, 513, 2 + 1, by decide⟩⟩

/-- `MaskedReduction`: the greatest number of contributors, each with the greatest or the least input. -/
theorem test_MaskedReduction_met :
    (∃ (x : Descriptor) (vs : Nat → List Int), x.gather = false ∧ 1 ≤ x.n ∧ x.n ≤ 4096 ∧ (∀ i, (vs i).length = 64)
      ∧ (∀ i, ∀ v ∈ vs i, -maxIn ≤ v ∧ v ≤ maxIn))
    ∧ (∃ (x : Descriptor) (vs : List Int), x.gather = true ∧ vs.length = 64 ∧ (∀ v ∈ vs, -maxIn ≤ v ∧ v ≤ maxIn)) := by
  refine ⟨⟨{ n := 4096 }, fun i => List.replicate 64 (if i = 0 then -maxIn else maxIn), rfl, by decide, by decide,
    fun _ => List.length_replicate, ?_⟩,
    ⟨{ gather := true }, List.replicate 64 maxIn, rfl, List.length_replicate, ?_⟩⟩
  · intro i v h
    rw [List.eq_of_mem_replicate h]
    split <;> decide
  · intro v h
    rw [List.eq_of_mem_replicate h]
    decide

/-- `ConversionIn` and `ConversionOut`: an exact value, a tie, a value that saturates, and codes at the ends of a format; the last
integer that fits and the first that does not; a float past the greatest of its format, at it, and half way between two codes; integers
below, in and above their range; chunks of each kind of format, with a block of zeros and one of the greatest scale. -/
theorem test_Conversions_met :
    (∃ (m e q : Int), 0 ≤ e + q ∧ (convertIn (.fin m e) q).2.1 = false)
    ∧ (∃ (m e q : Int), e + q < 0 ∧ (convertIn (.fin m e) q).2.1 = false
      ∧ 2 * (m - (convertIn (.fin m e) q).1 * 2 ^ (-(e + q)).toNat).natAbs = 2 ^ (-(e + q)).toNat)
    ∧ (∃ (m e q : Int), (convertIn (.fin m e) q).2.1 = true)
    ∧ (∃ f ∈ [fp64, fp32, fp16, bf16, e4m3, e5m2, e3m2, e2m3, e2m1], ∃ c sign, 0 < c ∧ c ≤ f.maxCode ∧ sign < 2)
    ∧ (∃ w c : Nat, 1 ≤ w ∧ c < 2 ^ w)
    ∧ (∃ (m e q r : Int), Nearest m (e + q) r ∧ r = 2 ^ 48 - 1) ∧ (∃ (m e q r : Int), Nearest m (e + q) r ∧ r = -(2 ^ 48))
    ∧ (∃ (m e q r : Int), Nearest m (e + q) r ∧ e + q < 0 ∧ r = 2 ∧ m = 5)
    ∧ (∃ f ∈ [fp64, fp32, fp16, bf16, e4m3, e5m2, e3m2, e2m3, e2m1], ∃ m e g x k : Int, f.decode f.maxCode = .fin g x ∧ m ≠ 0
      ∧ k ≤ e ∧ k ≤ x ∧ g * 2 ^ (x - k).toNat < m.natAbs * 2 ^ (e - k).toNat)
    ∧ (∃ f ∈ [fp64, fp32, fp16, bf16, e4m3, e5m2, e3m2, e2m3, e2m1], ∃ m e g x k : Int, f.decode f.maxCode = .fin g x ∧ m ≠ 0
      ∧ k ≤ e ∧ k ≤ x ∧ m.natAbs * 2 ^ (e - k).toNat = g * 2 ^ (x - k).toNat)
    ∧ (∃ f ∈ [fp64, fp32, fp16, bf16, e4m3, e5m2, e3m2, e2m3, e2m1], ∃ m e n x n' x' k : Int, ∃ c c' sign,
      f.encode m e = (c, false) ∧ f.decode c = .fin n x ∧ c' ≤ f.maxCode ∧ sign < 2
      ∧ f.decode (sign * 2 ^ (f.ebits + f.mbits) + c') = .fin n' x' ∧ k ≤ e ∧ k ≤ x ∧ k ≤ x'
      ∧ (m * 2 ^ (e - k).toNat - n * 2 ^ (x - k).toNat).natAbs = (m * 2 ^ (e - k).toNat - n' * 2 ^ (x' - k).toNat).natAbs
      ∧ n * 2 ^ (x - k).toNat ≠ n' * 2 ^ (x' - k).toNat)
    ∧ (∃ (w frac c : Nat) (m e r : Int) (sat : Bool), 1 ≤ w ∧ Nearest m (e + frac) r ∧ (ElemFmt.int w frac).encode m e = (c, sat)
      ∧ r = -2 ^ (w - 1))
    ∧ (∃ (w frac c : Nat) (m e r : Int) (sat : Bool), 1 ≤ w ∧ Nearest m (e + frac) r ∧ (ElemFmt.int w frac).encode m e = (c, sat)
      ∧ r = 2 ^ (w - 1))
    ∧ (∃ (code : Nat) (sums : List Int), code < 16 ∧ sums.length = 64 ∧ isMx code = false)
    ∧ (∃ (code : Nat) (sums : List Int) (q : Int) (k X : Nat) (l : List Int), code < 16 ∧ sums.length = 64 ∧ isMx code = true ∧ k < 64
      ∧ l = (sums.drop (32 * (k / 32))).take 32 ∧ field (convertOut code sums q).1 (k / 32) 1 = X ∧ ∀ v ∈ l, v = 0)
    ∧ (∃ (code : Nat) (sums : List Int) (q : Int) (k X a n : Nat) (l : List Int), code < 16 ∧ sums.length = 64 ∧ isMx code = true ∧ k < 64
      ∧ l = (sums.drop (32 * (k / 32))).take 32 ∧ field (convertOut code sums q).1 (k / 32) 1 = X ∧ a ∈ l.map Int.natAbs
      ∧ (∀ v ∈ l, v.natAbs ≤ a) ∧ 2 ^ n ≤ a ∧ a < 2 ^ (n + 1)) :=
  ⟨⟨2 ^ 47, 0, 0, by decide⟩, ⟨5, 0, -1, by decide⟩, ⟨1, 48, 0, by decide⟩,
   ⟨fp64, by decide, 0x7FEFFFFFFFFFFFFF, 1, by decide⟩, ⟨1, 1, by decide⟩,
   ⟨2 ^ 49 - 2, 0, -1, 2 ^ 48 - 1, by unfold Nearest; decide +kernel, rfl⟩, ⟨-(2 ^ 48), 0, 0, -(2 ^ 48), by unfold Nearest; decide +kernel, rfl⟩,
   ⟨5, 0, -1, 2, by unfold Nearest; decide +kernel, by decide, rfl, rfl⟩,
   ⟨e2m1, by decide, -13, -1, 3, 1, -1, by decide +kernel⟩, ⟨e2m1, by decide, -6, 0, 3, 1, 0, by decide +kernel⟩,
   ⟨e2m1, by decide, 5, 0, 2, 1, 3, 1, 0, 6, 7, 0, by decide +kernel⟩,
   ⟨8, 0, 0x80, -128, 0, -128, false, by decide, by unfold Nearest; decide +kernel, by decide +kernel, by decide⟩,
   ⟨8, 0, 0x7F, 128, 0, 128, true, by decide, by unfold Nearest; decide +kernel, by decide +kernel, by decide⟩,
   ⟨0, List.replicate 64 1, by decide⟩,
   ⟨15, List.replicate 64 0, 0, 63, _, List.replicate 32 0, by decide, by decide, by decide, by decide, rfl, rfl,
    fun _ h => List.eq_of_mem_replicate h⟩,
   ⟨15, List.replicate 64 4, 0, 0, _, 4, 2, _, by decide, by decide, by decide, by decide, rfl, rfl, by decide +kernel, by decide +kernel,
    by decide, by decide⟩⟩

/-- `HealthScore`: the moment of an update, with no score before and with one on each side; and the ends of the bands. -/
theorem test_HealthScore_met :
    (∃ s : State, s.pwRuns = true ∧ s.fault.healthAt + Config.ms ≤ s.now ∧ s.fault.score = none)
    ∧ (∃ (s : State) (old : Nat), s.pwRuns = true ∧ s.fault.healthAt + Config.ms ≤ s.now ∧ s.fault.score = some old
      ∧ s.healthUpdate.fault.raw < old)
    ∧ (∃ (s : State) (old : Nat), s.pwRuns = true ∧ s.fault.healthAt + Config.ms ≤ s.now ∧ s.fault.score = some old
      ∧ old ≤ s.healthUpdate.fault.raw)
    ∧ bandOf .good 255 = .failing ∧ bandOf .good 256 = .poor ∧ bandOf .failing 319 = .failing ∧ bandOf .failing 320 = .poor
    ∧ bandOf .poor 512 = .poor ∧ bandOf .good 767 = .fair ∧ bandOf .fair 831 = .fair ∧ bandOf .failing 832 = .good :=
  ⟨⟨{ tBase with power := { running := true } }, by decide, by decide, by decide⟩,
   ⟨{ now := 4000000000, boot := tBase.boot, power := { running := true }, fault := { score := some 1024 },
      fuses := { calibration := { tileMargins := List.replicate 16 1, headrooms := List.replicate 64 1 } } }, 1024, by decide, by decide,
    by decide, by decide +kernel⟩,
   ⟨{ tBase with power := { running := true }, fault := { score := some 0 } }, 0, by decide, by decide, by decide,
    Nat.zero_le _⟩,
   rfl, rfl, rfl, rfl, rfl, rfl, rfl, rfl⟩

/-! ### Standards: the published vectors (FIPS 197 appendix C.3, FIPS 202) -/

/-- A number written with its first byte leftmost, as those bytes. -/
def tHex (n v : Nat) : Bytes := (le n v).reverse

theorem test_aes_256 :
    aes256 (BitVec.ofNat 256 (ofLe (tHex 32 0x000102030405060708090a0b0c0d0e0f101112131415161718191a1b1c1d1e1f)))
      (BitVec.ofNat 128 (ofLe (tHex 16 0x00112233445566778899aabbccddeeff)))
      = BitVec.ofNat 128 (ofLe (tHex 16 0x8ea2b7ca516745bfeafc49904b496089)) := by decide +kernel

theorem test_shake256_empty :
    shake256 [] 256 = BitVec.ofNat 256 (ofLe (tHex 32 0x46b9dd2b0ba88d13233b3feb743eeb243fcd52ea62b81b82b50c27646ed5762f)) := by
  decide +kernel

/-! ### The manual's worked examples -/

/-- R42's example: the header of an IDENTIFY command, and the permutation calls of its check. -/
theorem test_example_identify :
    headerBytes 0x0101 { tPlain 0 [] with sequence := 7, cookie := 0x1234 }
      = [0x01, 0x01, 0, 0, 7, 0, 0, 0] ++ zeros 14 ++ [0x32, 0, 0x34, 0x12] ++ zeros 6 ++ zeros 16
    ∧ kmacCalls 57 128 false = 3 ∧ kmacCalls 4089 128 false = 33 := by decide +kernel

/-- The example of R163 and of R166 to R168: sector 0x3A4001 of region 0x0123. -/
theorem test_example_sector :
    let r : Region := { state := .active, cls := .fresh, handle := 7, base := 0x3100000000, size := 0x400000000, sectorLog := 8 }
    r.sectors = 67108864 ∧ (0x313A400140 - r.base) / r.sector = 0x3A4001 ∧ r.frankAddress 0x3A4001 = 0x3501D20008
      ∧ stackOf r.base = 3 ∧ lbnOf 0x0123 r 0x3A4001 = 0x01230000003A4001
      ∧ versionOf .fresh { major := 0x1F, minors := List.replicate 64 5 } 0x3A4001 = 0x80000000000007C5
      ∧ bytesOf (tweak 0x01230000003A4001 0x80000000000007C5)
        = [0x01, 0x40, 0x3A, 0, 0, 0, 0x23, 0x01, 0xC5, 0x07, 0, 0, 0, 0, 0, 0x80] := by decide +kernel

/-- R96's example: the input of a data key, with its length, fits one block. -/
theorem test_example_data_key :
    ascii "DATA" ++ enc [(4, 0x3A5C1), (1, 4)] = [0x44, 0x41, 0x54, 0x41, 0xC1, 0xA5, 0x03, 0x00, 0x04]
    ∧ rightEncode 256 = [0x01, 0x00, 0x02] ∧ kmacCalls 9 256 true = 1 := by decide +kernel

/-- R116's and R122's examples: calls of a measurement, of a pad and of a token's check. -/
theorem test_example_calls :
    shakeCalls (8 + 64 + 4194304) = 30842 ∧ kmacCalls 79 256 false = 3 ∧ kmacCalls 145 128 false = 4 := by decide +kernel

/-- R204's example: the tree of region 0x0123, and that of a key-index table. -/
theorem test_example_tree :
    treeLevels 67108864 = [1048576, 16384, 256, 4] ∧ treeBytes 67108864 = 68174080
    ∧ nodeOffset 67108864 1 0xE900 = 0x3A4000 ∧ nodeOffset 67108864 2 932 = 0x400E900 ∧ nodeOffset 67108864 3 14 = 0x4100380
    ∧ nodeOffset 67108864 4 0 = 0x4104000 ∧ treeLevels 131072 = [2048, 32] ∧ treeBytes 131072 = 133120 := by decide +kernel

/-- R208's example: the identity of leaf 0xE900, and its parent's counter for it. -/
theorem test_example_node :
    nodeIdentity false 1 0x0123 0xE900 = 0x1048C0000000E900
    ∧ Node.childCounter { major := 3, minors := 0x2A :: List.replicate 63 0 } 0 = 0xC0000000000000EA := by decide +kernel

/-- The examples of R241 and R245: the input of the keys of epoch 5, and an initialisation vector. -/
theorem test_example_association :
    ascii "ASSOC" ++ enc [(2, 0x12), (2, 0x34), (4, 5)]
      = [0x41, 0x53, 0x53, 0x4F, 0x43, 0x12, 0, 0x34, 0, 5, 0, 0, 0]
    ∧ dataIv (BitVec.ofNat 48 (ofLe [0x9C, 0x41, 0x07, 0xE2, 0x5D, 0x3A])) 0x2F1B
      = [0x9C, 0x41, 0x07, 0xE2, 0x5D, 0x3A, 0x1B, 0x2F, 0, 0, 0, 0] := by decide +kernel

/-- The examples of R336: E4M3 at q = 9, and the inputs of the worked reduction at q = 8. -/
theorem test_example_conversion :
    convertIn ((ElemFmt.float e4m3).decode 0x7E) 9 = (229376, false, false)
    ∧ [0x3FC0, 0xBE80, 0x4030, 0x3E00, 0xBF00, 0x4040].map (fun c => (convertIn ((ElemFmt.float bf16).decode c) 8).1)
      = [384, -64, 704, 32, -128, 768] := by decide +kernel

/-- R428's example: a dip of 3 ms, and a drop that reaches FAILING. -/
theorem test_example_health :
    nextScore (some 1023) 299 = 1007 ∧ nextScore (some 1007) 299 = 991 ∧ nextScore (some 991) 299 = 975
    ∧ nextScore (some 975) 1023 = 977 ∧ nextScore (some 303) 299 = 299 ∧ bandOf .good 975 = .good ∧ bandOf .fair 299 = .poor
    ∧ bandOf .poor 255 = .failing := by decide +kernel

/-- R446's example: the samples that a mailbag of 1,024 units holds. -/
theorem test_example_mailbag : sampleBytes 65536 1024 = 16128 ∧ 2304 + 1024 * (64 + sampleBytes 65536 1024) = 16582912 := by decide +kernel

/-! ### WellFormed refuses -/

/-- One ill-formed command for each check of `Instr.wellFormed`. -/
theorem test_wellFormed_refuses_boxes :
    [Instr.nop 64 (.host 0) tNop.p, .nop 0 (.host 2) tNop.p, .nop 1 (.fabric 32 0) tNop.p, .nop 1 (.fabric 0 65536) tNop.p,
     .undefinedOpcode 0 64 (.host 0) tNop.p, .throttleEnd 64, .fabricPacketGapTimeout 64 0, .managementLinkAck 64 0,
     .managementLinkAck 0 (2 ^ 32), .msixQuietEnd 2 0, .msixQuietEnd 0 321, .lbxControlWrite 2 0 0, .lbxControlWrite 0 64 0,
     .lbxDoorbellWrite 2 0 0, .lbxDoorbellWrite 0 64 0, .envControlWrite 2 0 0, .envControlWrite 0 256 0, .registerWrite 2 0 0,
     .registerWrite 0 (2 ^ 23) 0, .fwLoadGo 2 0, .bar2Read 2 0 64 0, .bar2Read 0 0 0 0, .bar2Read 0 0 4097 0, .bar2Write 2 0 [1],
     .bar2Write 0 0 [], .envelopeToDevice 2 0 (tDesc 1 64 []) [], .envelopeToDevice 0 256 (tDesc 1 64 []) [],
     .envelopeToHost 2 0 (tDesc 2 64 []), .envelopeToHost 0 256 (tDesc 2 64 [])].all (fun i => !i.wellFormed) = true := by
  decide +kernel

theorem test_wellFormed_refuses_lengths :
    (Instr.nop 0 (.host 0) (tPlain 0 (zeros 4033))).wellFormed = false
    ∧ (Instr.bar2Write 0 0 (zeros 4097)).wellFormed = false
    ∧ (Instr.envelopeToDevice 0 0 (tDesc 1 64 []) (zeros 4097)).wellFormed = false
    ∧ (Instr.tileWrite 0 (tHead 2) (zeros 4097) (List.replicate 4097 true) false).wellFormed = false
    ∧ (Instr.tileWrite 0 (tHead 2) (zeros 64) (List.replicate 63 true) false).wellFormed = false
    ∧ (Instr.reduceContribute 0 (tHead 5) (zeros 513)).wellFormed = false
    ∧ (Instr.memoryReadData 0 1 { tData with bytes := zeros 1025 } false).wellFormed = false
    ∧ (Instr.metadataFetchReturn 0 1 (zeros 73) false false).wellFormed = false
    ∧ (Instr.leafWrap 0 0 0 (List.replicate 65 tData) false).wellFormed = false
    ∧ (Instr.courierStep 0 { tData with bytes := zeros 1025 } false).wellFormed = false
    ∧ (Instr.trayReadData 0 1 { tData with bytes := zeros 1025 } false).wellFormed = false
    ∧ (Instr.thermalRead (List.replicate 95 none)).wellFormed = false
    ∧ (Instr.marginCompute (List.replicate 63 0)).wellFormed = false
    ∧ (Instr.start { tStart with kat := [] }).wellFormed = false
    ∧ (Instr.digestWatchdog 0 []).wellFormed = false ∧ (Instr.digestCallEnd 0 true []).wellFormed = false
    ∧ (Instr.reductionPacketReceived 0 { src := 9, dst := 7, tc := 2, tag0 := 0, tag1 := 0, tag2 := 0, lanes := [] }).wellFormed = false := by decide +kernel

theorem test_wellFormed_refuses_numbers :
    [Instr.admissionProgress 256 true, .jobTeardownProgress 256, .partitionResizeProgress 16, .contextCloseProgress 4096,
     .retirementProgress 256 0, .retirementProgress 0 (2 ^ 20), .redirectWaitTimeout 256 0, .redirectWaitTimeout 0 65536,
     .marginSweepStep 16 false, .partitionResetProgress 16 .done, .suspectProbeTimeout 16, .unitReadTimeout 16, .mailbagDeadline 16,
     .tileRead 16 (tHead 1), .tileWrite 16 (tHead 2) [] [] false, .tileAtomic 16 (tHead 3), .tileFence 16 (tHead 4),
     .reduceContribute 16 (tHead 5) [], .memoryReadData 16 1 tData false, .memoryWriteAccepted 16 1,
     .metadataFetchReturn 48 1 [] false false, .metadataFetchReturn 128 1 [] false false, .streamTrackerExpired 48 0, .wcWindowExpired 48 0 0, .wcWindowExpired 0 16384 0,
     .leafWrap 48 0 0 [] false, .leafWrap 0 16384 0 [] false, .courierStep 16384 tData false, .trayReadData 32 1 tData false,
     .trayWriteAck 64 1, .helloReceived 32 (tMsg 0x20 []), .acceptReceived 32 (tMsg 0x21 []), .confirmReceived 32 (tMsg 0x22 []),
     .refuseReceived 32 (tMsg 0x23 []), .helloResendTimer 256 0, .helloResendTimer 0 65536, .handshakeTimeout 256 0,
     .handshakeTimeout 0 65536, .answeredAttemptExpired 256 0, .answeredAttemptExpired 0 65536, .ratchetReceived 32 (tMsg 0x24 []),
     .ratchetEpochTimer 256 0, .ratchetEpochTimer 0 65536, .ratchetKeysReady 256 0 false, .ratchetKeysReady 0 65536 false,
     .ratchetResendTimer 256 0, .ratchetResendTimer 0 65536, .epochDrainTimer 256 0, .epochDrainTimer 0 65536,
     .ratchetSpacingElapsed 256 0, .ratchetSpacingElapsed 0 65536].all (fun i => !i.wellFormed) = true := by decide +kernel

theorem test_wellFormed_refuses_ports :
    [Instr.remoteLoad 32 (tMsg 0x10 []), .remoteStore 32 (tMsg 0x10 []) false, .remoteAtomic 32 (tMsg 0x10 []),
     .drainMarker 32 (tMsg 0x10 []), .redirectReceived 32 (tMsg 0x10 []), .redirectAck 32 (tMsg 0x10 []),
     .loadResponse 32 (tMsg 0x10 []), .storeAck 32 (tMsg 0x10 []), .atomicResponse 32 (tMsg 0x10 []), .drainAck 32 (tMsg 0x10 []),
     .storeNak 32 (tMsg 0x10 []), .drainMarkerTimeout 65536 0, .storeAckTimer 256 0 0, .storeAckTimer 0 65536 0, .storeAckTimer 0 0 4,
     .reductionDeadline 1024, .slotBoundary 32 false, .maskingSlotCut 32, .powerInterval [(4096, 1)], .voltageReached 8,
     .railPoll 8 none, .linkMarginReport 32 0, .linkMarginReport 0 256, .droopAlarm 64, .stretchRelease 16, .droopPersistent 16,
     .pwrAlertAsserted [8], .mcReady 16, .mcReadyDeadline 16, .fabricLinkDown 32, .fabricLinkUp 32, .hostLinkDown 2,
     .hostLinkTrained 2, .memoryChannelWatchdog 16, .portLogicWatchdog 32, .tileCrossbarWatchdog 16, .hostLinkWatchdog 2,
     .digestWatchdog 2 [true, true, true, true], .digestCallEnd 2 true [true, true, true, true], .traceConsumedPoll (2 ^ 32)].all
      (fun i => !i.wellFormed) = true := by decide +kernel

/-- What a partner can present is well formed: the widest operands of a letterbox command, and the longest page. -/
theorem test_wellFormed_accepts :
    (Instr.nop 63 (.fabric 31 65535) (tPlain 63 (zeros 4032))).wellFormed = true
    ∧ (Instr.metadataFetchReturn 47 1 (zeros 72) false false).wellFormed = true
    ∧ (Instr.metadataFetchReturn 111 1 (zeros 72) false false).wellFormed = true ∧ (Instr.start tStart).wellFormed = true
    ∧ Instr.tamper.wellFormed = true := by decide +kernel

end Machine
end Sys2Proof
end

section
/-!
PROOFS. What a trace record, a reply and a notice change, and a check that fails (R38, R45).
-/

namespace Sys2Proof
namespace Machine

/-! ### What a trace record changes -/

/-- `t` is `s` but for its trace. -/
def OnlyTrace (s t : State) : Prop := ∃ x, t = { s with trace := x }

theorem OnlyTrace.refl (s : State) : OnlyTrace s s := ⟨_, rfl⟩

theorem OnlyTrace.trans {s t u : State} (h : OnlyTrace s t) (k : OnlyTrace t u) : OnlyTrace s u := by
  obtain ⟨x, rfl⟩ := h
  obtain ⟨y, rfl⟩ := k
  exact ⟨y, rfl⟩

theorem State.modBuf_onlyTrace (s : State) (i : Nat) (f : TraceBuf → TraceBuf) : OnlyTrace s (s.modBuf i f) := ⟨_, rfl⟩

theorem State.modSession_onlyTrace (s : State) (f : Session → Session) : OnlyTrace s (s.modSession f) := ⟨_, rfl⟩

theorem State.dropRec_onlyTrace (s : State) (i mark : Nat) : OnlyTrace s (s.dropRec i mark) := ⟨_, rfl⟩

theorem State.limitsMet_onlyTrace (s : State) : OnlyTrace s s.limitsMet := by
  unfold State.limitsMet
  dsimp only
  split
  · exact State.modSession_onlyTrace ..
  · exact .refl s

theorem State.trigger_onlyTrace (s : State) (mark : Nat) : OnlyTrace s (s.trigger mark) := by
  unfold State.trigger
  split
  · exact OnlyTrace.trans ⟨_, rfl⟩ (State.limitsMet_onlyTrace _)
  · exact State.modSession_onlyTrace ..
  · exact .refl s

theorem State.bufferRec_onlyTrace (s : State) (r : TraceRec) : OnlyTrace s (s.bufferRec r) := by
  unfold State.bufferRec
  dsimp only
  split
  · exact State.dropRec_onlyTrace ..
  · split
    · split
      · exact State.modBuf_onlyTrace ..
      · exact State.dropRec_onlyTrace ..
    · split
      · exact State.modBuf_onlyTrace ..
      · split
        · exact State.dropRec_onlyTrace ..
        · exact (State.dropRec_onlyTrace ..).trans (State.modBuf_onlyTrace ..)
    · split
      · have hc : OnlyTrace s (if s.trace.session.postLimit ≤ (tgetD s.trace.buffers r.island {}).post + 1
            then (s.modBuf r.island (fun b => { b with post := b.post + 1 })).modSession
              (fun n => { n with atLimit := r.island :: n.atLimit })
            else s.modBuf r.island (fun b => { b with post := b.post + 1 })) := by
          split
          · exact (State.modBuf_onlyTrace ..).trans (State.modSession_onlyTrace ..)
          · exact State.modBuf_onlyTrace ..
        split
        · exact hc.trans (State.modBuf_onlyTrace ..)
        · split
          · exact (hc.trans (State.dropRec_onlyTrace ..)).trans (State.modBuf_onlyTrace ..)
          · exact State.dropRec_onlyTrace ..
      · split
        · exact State.modBuf_onlyTrace ..
        · exact State.dropRec_onlyTrace ..
    · exact .refl s

theorem State.traceAt_onlyTrace (s : State) (mark island kind : Nat) (handle ctx : Option Nat) (payload : List (Nat × Nat)) :
    OnlyTrace s (s.traceAt mark island kind handle ctx payload) := by
  unfold State.traceAt
  split
  · extract_lets r kept s₁ n s₂
    have h₁ : OnlyTrace s s₁ := by
      unfold s₁
      split
      · exact (State.bufferRec_onlyTrace s r).trans ⟨_, rfl⟩
      · exact State.bufferRec_onlyTrace s r
    have h₂ : OnlyTrace s₁ s₂ := by
      unfold s₂
      split
      · exact State.trigger_onlyTrace s₁ mark
      · exact .refl s₁
    exact (h₁.trans h₂).trans (State.limitsMet_onlyTrace s₂)
  · exact .refl s

/-! ### What writing replies and notices leaves -/

/-- A letterbox without what a reply or a notice written to it changes: its rings' counts, the notices' number and drops, and the
notices held. -/
def Lbx.unwritten (b : Lbx) : Lbx :=
  { b with cmdConsumed := 0, ntcProduced := 0, noticeSeq := 0, dropsPending := false, ringFullDrops := 0, heldNotices := [],
           fabricRing := [] }

/-- From `s` to `t` replies and notices are written: no output is lost, and of letterboxes only what writing changes is changed. -/
structure Wrote (s t : State) : Prop where
  boxes : ∀ lb, (t.box lb).unwritten = (s.box lb).unwritten
  out   : s.out ⊆ t.out

theorem Wrote.refl (s : State) : Wrote s s := ⟨fun _ => rfl, List.Subset.refl _⟩

theorem Wrote.trans {s t u : State} (h : Wrote s t) (k : Wrote t u) : Wrote s u :=
  ⟨fun lb => (k.boxes lb).trans (h.boxes lb), List.Subset.trans h.out k.out⟩

/-- Nothing of a letterbox is changed, and no output lost. -/
theorem Wrote.of_sniby {s t : State} (h : t.sniby = s.sniby) (k : s.out ⊆ t.out) : Wrote s t :=
  ⟨fun lb => by unfold State.box; rw [h], k⟩

theorem foldl_wrote {α : Type} (f : State → α → State) (l : List α) (s : State) (h : ∀ s a, Wrote s (f s a)) :
    Wrote s (l.foldl f s) := by
  induction l generalizing s with
  | nil => exact .refl s
  | cons a l ih => exact (h s a).trans (ih (f s a))

theorem State.modBox_wrote (s : State) (lb : Nat) (f : Lbx → Lbx) (h : ∀ b, (f b).unwritten = b.unwritten := by intro b; rfl) :
    Wrote s (s.modBox lb f) := by
  refine ⟨fun j => ?_, List.Subset.refl _⟩
  by_cases hj : j = lb
  · rw [hj, State.box_modBox_self]; exact h _
  · rw [State.box_modBox_of_ne s f hj]

theorem State.emit_wrote (s : State) (i : Item) : Wrote s (s.emit i) := .of_sniby rfl (List.subset_append_left ..)

theorem State.emitPort_wrote (s : State) (port : Nat) (i : Item) : Wrote s (s.emitPort port i) := by
  refine .of_sniby (State.emitPort_sniby ..) ?_
  rcases State.emitPort_cases s port i with h | h | ⟨x, h⟩ <;> rw [h]
  · exact List.Subset.refl _
  · rw [State.count_out]; exact List.subset_append_left ..
  · exact List.Subset.refl _

theorem State.raise_wrote (s : State) (link vector : Nat) : Wrote s (s.raise link vector) := by
  unfold State.raise
  dsimp only
  split
  · exact .of_sniby rfl (List.Subset.refl _)
  · exact .of_sniby rfl (List.subset_append_left ..)

theorem State.raiseBox_wrote (s : State) (lb : Nat) : Wrote s (s.raiseBox lb) := by
  unfold State.raiseBox
  dsimp only
  split
  · split
    · exact State.raise_wrote ..
    · exact .refl s
  · exact .refl s

theorem OnlyTrace.wrote {s t : State} (h : OnlyTrace s t) : Wrote s t := by
  obtain ⟨x, rfl⟩ := h
  exact .of_sniby rfl (List.Subset.refl _)

theorem State.traceAt_wrote (s : State) (mark island kind : Nat) (handle ctx : Option Nat) (payload : List (Nat × Nat)) :
    Wrote s (s.traceAt mark island kind handle ctx payload) := (State.traceAt_onlyTrace ..).wrote

theorem State.writeNotice_wrote (s : State) (lb : Nat) (dest : Option (Nat × Nat)) (n : Notice) :
    Wrote s (s.writeNotice lb dest n) := by
  unfold State.writeNotice
  split
  · exact .refl s
  · dsimp only
    refine .trans ?_ (State.traceAt_wrote ..)
    refine .trans ?_ (State.raiseBox_wrote ..)
    refine .trans ?_ (.of_sniby (State.calls_sniby ..) (List.Subset.refl _))
    refine .trans (State.modBox_wrote s lb (fun b => { b with
      noticeSeq := b.noticeSeq + 1, dropsPending := false,
      ntcProduced := if b.binding = .fabric then b.ntcProduced else (b.ntcProduced + 1) % 65536,
      fabricRing := if b.binding = .fabric then b.fabricRing ++ [b.noticeSeq + 1] else b.fabricRing })) ?_
    split
    · exact State.emitPort_wrote ..
    · refine .trans ?_ (State.emit_wrote ..)
      split
      · exact .of_sniby (State.dma_sniby ..) (List.Subset.refl _)
      · exact .refl _

theorem State.deliver_wrote (s : State) (lb : Nat) (node : Option Nat) (n : Notice) : Wrote s (s.deliver lb node n) := by
  unfold State.deliver
  dsimp only
  split
  · exact .refl s
  · split
    · split
      · exact State.writeNotice_wrote ..
      · exact State.modBox_wrote ..
    · split
      · exact State.writeNotice_wrote ..
      · exact State.modBox_wrote ..

theorem State.eventTo_wrote (s : State) (lb : Nat) (n : Notice) : Wrote s (s.eventTo lb n) := by
  unfold State.eventTo
  dsimp only
  split
  · exact State.deliver_wrote ..
  · exact State.modBox_wrote ..

theorem State.noticeSeen_wrote (s : State) (mark type : Nat) (jobs : List Nat) : Wrote s (s.noticeSeen mark type jobs) := by
  unfold State.noticeSeen
  dsimp only
  split
  · exact (State.trigger_onlyTrace ..).wrote
  · exact .refl s

theorem State.post_wrote (s : State) (type : Nat) (status : Status) (object payload : List (Nat × Nat)) (jobs : List Nat) :
    Wrote s (s.post type status object payload jobs) := by
  unfold State.post State.postAt
  split
  · dsimp only
    split
    · exact (State.noticeSeen_wrote ..).trans ⟨fun _ => rfl, List.Subset.refl _⟩
    · exact (State.noticeSeen_wrote ..).trans (foldl_wrote _ _ _ (fun _ _ => State.eventTo_wrote ..))
  · exact .refl s

theorem State.emitReply_wrote (s : State) (c : Cmd) (r : Reply) : Wrote s (s.emitReply c r) := by
  unfold State.emitReply
  split
  · exact .trans (.of_sniby (State.dma_sniby ..) (List.Subset.refl _)) (State.emit_wrote ..)
  · exact State.emitPort_wrote ..

theorem State.replied_wrote (s : State) (c : Cmd) (st : Status) : Wrote s (s.replied c st) := by
  unfold State.replied
  dsimp only
  refine .trans (.trans ?_ (State.raiseBox_wrote ..)) (State.traceAt_wrote ..)
  split
  · exact State.modBox_wrote ..
  · exact .refl s

/-! ### Replies -/

/-- The retry_after of an answer, with the draw that it takes (R48). -/
def State.retryOf (s : State) (a : Ans) : Nat × State := if a.status = .busy then s.retryAfter a.wait else (0, s)

/-- The reply that gives an answer, under a key and a session nonce (R41, R49). -/
def State.replyOf (s : State) (c : Cmd) (key : Key) (nonce : BitVec 64) (a : Ans) : Reply :=
  let r : Reply := { opcode := c.op, letterbox := c.lb, sequence := c.p.sequence, status := a.status,
                     retryAfter := (s.retryOf a).1, nextSeq := (s.box c.lb).nextSeq, detail := a.detail, cookie := c.p.cookie,
                     inline := a.inline, body := a.body, check := 0 }
  { r with check := checkValue key 2 nonce (replyBytes r ++ a.body) }

theorem State.retryOf_box (s : State) (a : Ans) (lb : Nat) : (s.retryOf a).2.box lb = s.box lb := by
  unfold State.retryOf
  split <;> rfl

theorem State.retryOf_out (s : State) (a : Ans) : (s.retryOf a).2.out = s.out := by
  unfold State.retryOf
  split <;> rfl

theorem State.replyWith_eq (s : State) (c : Cmd) (key : Key) (nonce : BitVec 64) (a : Ans) :
    s.replyWith c key nonce a = (((s.retryOf a).2.emitReply c (s.replyOf c key nonce a)).calls
      (kmacCalls (57 + a.body.length) 128 false) false).replied c a.status := by
  have h : (s.retryOf a).2.box c.lb = s.box c.lb := State.retryOf_box ..
  unfold State.replyOf
  rw [← h]
  rfl

/-- What follows the reply's hand-over loses no output and no letterbox's state. -/
theorem State.replyWith_wrote_emitReply (s : State) (c : Cmd) (key : Key) (nonce : BitVec 64) (a : Ans) :
    Wrote ((s.retryOf a).2.emitReply c (s.replyOf c key nonce a)) (s.replyWith c key nonce a) := by
  rw [State.replyWith_eq]
  exact .trans (.of_sniby (State.calls_sniby ..) (List.Subset.refl _)) (State.replied_wrote ..)

theorem State.replyWith_wrote (s : State) (c : Cmd) (key : Key) (nonce : BitVec 64) (a : Ans) :
    Wrote s (s.replyWith c key nonce a) :=
  .trans (.trans ⟨fun _ => congrArg _ (State.retryOf_box ..), (State.retryOf_out s a).symm ▸ List.Subset.refl _⟩
    (State.emitReply_wrote ..)) (State.replyWith_wrote_emitReply ..)

/-- Through a host link the reply is written to the slot that has its command's index (R36). -/
theorem State.reply_mem_replyWith (s : State) {c : Cmd} {l : Nat} (hv : c.via = .host l) (key : Key) (nonce : BitVec 64) (a : Ans) :
    Item.reply c.lb c.via (s.box c.lb).rplSlot (s.replyOf c key nonce a) ∈ (s.replyWith c key nonce a).out := by
  refine (State.replyWith_wrote_emitReply ..).out ?_
  have h : (s.retryOf a).2.box c.lb = s.box c.lb := State.retryOf_box ..
  rw [← h]
  generalize s.replyOf c key nonce a = r
  unfold State.emitReply
  rw [hv]
  exact List.mem_append_right _ (List.mem_singleton_self _)

theorem State.replyWith_now (s : State) (c : Cmd) (key : Key) (nonce : BitVec 64) (a : Ans) :
    (s.replyWith c key nonce a).now = s.now := congrArg (fun x => x.1.now) (State.replyWith_apartCp s c key nonce a)

theorem State.replyWith_jobs (s : State) (c : Cmd) (key : Key) (nonce : BitVec 64) (a : Ans) :
    (s.replyWith c key nonce a).jobs = s.jobs := congrArg (fun x => x.1.jobs) (State.replyWith_apartCp s c key nonce a)

/-! ### A check that fails -/

/-- The reply to a command whose check fails: it carries the session nonce (R45). -/
def State.checkReply (s : State) (c : Cmd) (key : Key) : State :=
  s.replyWith c key (s.box c.lb).session { status := .checkFail, inline := pay [(8, (s.box c.lb).session.toNat)] }

/-- The job of a letterbox, as the notice of its throttling names it (R513). -/
def State.jobsOfBox (s : State) (lb : Nat) : List Nat :=
  match s.jobs.find? (fun e => e.2.letterbox == some lb) with | some e => [e.1] | none => []

/-- The eighth failure in a row on an OPEN letterbox (R38). -/
abbrev State.eighth (s : State) (lb : Nat) : Prop := (s.box lb).state = .opened ∧ 7 ≤ (s.box lb).failCount

/-- The letterbox of the eighth failure is throttled for 10 ms. -/
def State.throttle (s : State) (lb now : Nat) : State :=
  s.modBox lb (fun b => { b with state := .throttled, failCount := 0, throttledUntil := now + 10 * Config.ms })

theorem State.checkFailed_throttles {s : State} {c : Cmd} (key : Key) (h : s.eighth c.lb) :
    s.checkFailed c key = ((s.checkReply c key).throttle c.lb s.now).post 0x0101 .checkFail [(1, c.lb)]
      [(8, s.now + 10 * Config.ms)] (s.jobsOfBox c.lb) := by
  have hn : (s.checkReply c key).now = s.now := State.replyWith_now ..
  have hj : (s.checkReply c key).jobs = s.jobs := State.replyWith_jobs ..
  unfold State.jobsOfBox
  rw [← hn, ← hj]
  unfold State.checkFailed
  dsimp only
  rw [if_pos ⟨h.1, Nat.succ_le_succ h.2⟩]
  rfl

theorem State.checkFailed_counts {s : State} {c : Cmd} (key : Key) (h : ¬ s.eighth c.lb) :
    s.checkFailed c key = (s.checkReply c key).modBox c.lb (fun b => { b with failCount := b.failCount + 1 }) := by
  unfold State.checkFailed
  dsimp only
  rw [if_neg (fun hc => h ⟨hc.1, Nat.le_of_succ_le_succ hc.2⟩)]
  rfl

/-- What a failed check changes of letterboxes, up to what replies and notices write there: the state and the count of its own. -/
theorem State.checkFailed_box (s : State) (c : Cmd) (key : Key) (lb : Nat) :
    ((s.checkFailed c key).box lb).unwritten = Lbx.unwritten
      (if lb ≠ c.lb then s.box lb
       else if s.eighth c.lb then { s.box lb with state := .throttled, failCount := 0, throttledUntil := s.now + 10 * Config.ms }
       else { s.box lb with failCount := (s.box lb).failCount + 1 }) := by
  have hr : Wrote s (s.checkReply c key) := State.replyWith_wrote ..
  by_cases h8 : s.eighth c.lb
  · rw [State.checkFailed_throttles key h8, (State.post_wrote ..).boxes]
    unfold State.throttle
    by_cases hl : lb = c.lb
    · subst hl
      rw [if_neg (not_not_intro rfl), if_pos h8, State.box_modBox_self]
      exact congrArg (fun b : Lbx => { b with state := .throttled, failCount := 0, throttledUntil := s.now + 10 * Config.ms })
        (hr.boxes c.lb)
    · rw [if_pos hl, State.box_modBox_of_ne _ _ hl, hr.boxes]
  · rw [State.checkFailed_counts key h8]
    by_cases hl : lb = c.lb
    · subst hl
      rw [if_neg (not_not_intro rfl), if_neg h8, State.box_modBox_self]
      exact congrArg (fun b : Lbx => { b with failCount := b.failCount + 1 }) (hr.boxes c.lb)
    · rw [if_pos hl, State.box_modBox_of_ne _ _ hl, hr.boxes]

theorem State.checkFailed_out (s : State) (c : Cmd) (key : Key) : (s.checkReply c key).out ⊆ (s.checkFailed c key).out := by
  by_cases h8 : s.eighth c.lb
  · rw [State.checkFailed_throttles key h8]
    exact (State.post_wrote ((s.checkReply c key).throttle c.lb s.now) ..).out
  · rw [State.checkFailed_counts key h8]
    exact List.Subset.refl _

/-- A list of at most one job that names exactly the letterbox's is that of the notice. -/
theorem State.jobsOfBox_unique {s : State} {lb : Nat} {jobs : List Nat}
    (hm : ∀ h, h ∈ jobs ↔ ∃ j, s.jobs.find? (fun e => e.2.letterbox == some lb) = some (h, j)) (hl : jobs.length ≤ 1) :
    jobs = s.jobsOfBox lb := by
  unfold State.jobsOfBox
  cases hf : s.jobs.find? (fun e => e.2.letterbox == some lb) with
  | none =>
    refine List.eq_nil_iff_forall_not_mem.mpr (fun h hh => ?_)
    obtain ⟨j, hj⟩ := (hm h).mp hh
    rw [hf] at hj
    cases hj
  | some e =>
    have hin : e.1 ∈ jobs := (hm e.1).mpr ⟨e.2, hf⟩
    obtain ⟨x, hx⟩ := List.length_eq_one_iff.mp (Nat.le_antisymm hl (List.length_pos_of_mem hin))
    rw [hx, List.mem_singleton] at hin
    rw [hx, ← hin]

/-- Settles O40: the reply is written before the letterbox changes, and the notice changes no letterbox's state or count. -/
theorem checkFailures : Obligations.CheckFailures := by
  intro s c key
  refine ⟨fun l hv => ?_, fun u hu => ⟨fun ho h7 jobs hm hl => ?_, fun h8 => ?_⟩, fun ho h7 => ?_, fun h8 => ?_,
    fun lb hl => ?_, fun lb => ?_⟩
  · exact ⟨s.replyOf c key (s.box c.lb).session { status := .checkFail, inline := pay [(8, (s.box c.lb).session.toNat)] },
      rfl, rfl, rfl, rfl, rfl, rfl, rfl, rfl, rfl, rfl, by simp only [State.replyOf, List.append_nil],
      State.checkFailed_out s c key (State.reply_mem_replyWith s hv ..)⟩
  · rw [State.checkFailed_throttles key ⟨ho, h7⟩, State.jobsOfBox_unique hm hl, hu]
    rfl
  · rw [State.checkFailed_counts key h8, hu]
    rfl
  · have hb := State.checkFailed_box s c key c.lb
    rw [if_neg (not_not_intro rfl), if_pos ⟨ho, h7⟩] at hb
    exact ⟨(congrArg Lbx.state hb :), (congrArg Lbx.failCount hb :), (congrArg Lbx.throttledUntil hb :)⟩
  · have hb := State.checkFailed_box s c key c.lb
    rw [if_neg (not_not_intro rfl), if_neg h8] at hb
    exact ⟨(congrArg Lbx.state hb :), (congrArg Lbx.failCount hb :)⟩
  · have hb := State.checkFailed_box s c key lb
    rw [if_pos hl] at hb
    exact ⟨(congrArg Lbx.state hb :), (congrArg Lbx.failCount hb :)⟩
  · have hb := State.checkFailed_box s c key lb
    split at hb
    · exact ⟨(congrArg Lbx.session hb :), (congrArg Lbx.nextSeq hb :)⟩
    · split at hb
      · exact ⟨(congrArg Lbx.session hb :), (congrArg Lbx.nextSeq hb :)⟩
      · exact ⟨(congrArg Lbx.session hb :), (congrArg Lbx.nextSeq hb :)⟩

end Machine
end Sys2Proof
end

section
/-!
PROOFS. The checks of R46 from the first to the limits, each as a branch of `State.serve`, `State.verified` and `State.decideCmd`.
-/

namespace Sys2Proof
namespace Machine

/-! ### The first checks -/

/-- A packet that comes while the CP serves is served in the state that has met it (R33, R36, R63). -/
theorem State.command_of_comes {s : State} {c : Cmd} (hlb : c.lb < 64) (hc : s.comes c) (hf : s.ahead c.lb = s)
    (hs : (s.met c).cpServes = true) :
    s.command c.op c.lb c.via c.p = .next ((s.met c).serve (handlerFor c.op) c).ended := by
  obtain ⟨op, lb, via, p⟩ := c
  unfold State.command
  rw [hf]
  unfold State.met at hs ⊢
  rw [State.takeNext_cpServes] at hs
  simp only [State.cpServes, Bool.and_eq_true, Bool.not_eq_true'] at hs
  obtain ⟨hup, hfree⟩ := hs
  simp only [State.comes] at hc
  cases via with
  | host l =>
    obtain ⟨hl, he, hst, hne⟩ := hc
    have ht : s.hostServes op lb l = true := by
      unfold State.hostServes
      rcases hst with hst | hst <;> simp [hl, he, hst, hne]
    dsimp only at hup hfree hlb
    simp [State.packetArrives, State.arrive, hup, hfree, ht, Nat.not_le.mpr hlb]
  | fabric port n =>
    obtain ⟨ht, hb, hst⟩ := hc
    dsimp only at hup hfree hlb
    rcases hst with hst | hst <;>
      simp [State.packetArrives, State.atPort, State.arrive, ht, hup, hfree, hb, hst, Nat.not_le.mpr hlb]

theorem State.serve_tamperHeld {s : State} {h : Option Handler} {c : Cmd} (ht : s.boot.tamperHeld = true) :
    s.serve h c = s.unauth c .tamperHeld := by
  unfold State.serve; rw [if_pos ht]

theorem State.serve_unkeyed {s : State} {h : Option Handler} {c : Cmd} (ht : s.boot.tamperHeld = false)
    (hk : s.dg.pairs = [] ∨ s.lbxKey c.lb = none) : s.serve h c = s.unauth c .faulted := by
  unfold State.serve
  rw [if_neg (by simp [ht])]
  rcases hk with hk | hk
  · rw [if_pos (by simp [hk])]
  · simp only [hk, ite_self]

/-- With a key and a pair, the framing and then the check value decide (checks 1 to 3 of R46). -/
theorem State.serve_keyed {s : State} {h : Option Handler} {c : Cmd} {key : Key} (ht : s.boot.tamperHeld = false)
    (hp : s.dg.pairs ≠ []) (hk : s.lbxKey c.lb = some key) :
    s.serve h c = if framed c = false then s.checkFailed c key
      else if checked key (s.box c.lb).session c = false
        then (s.calls (kmacCalls (57 + c.p.body.length) 128 false) false).checkFailed c key
        else (s.calls (kmacCalls (57 + c.p.body.length) 128 false) false).verified h c key := by
  unfold State.serve
  rw [if_neg (by simp [ht]), if_neg (by simpa using hp)]
  simp only [hk]
  rfl

/-- The state in which check 4 of R46 is made: the command's node is noted, its letterbox's failures are forgotten. -/
def State.counted (s : State) (c : Cmd) : State :=
  ((s.checking c).noteNode c).modBox c.lb (fun b => { b with failCount := 0 })

/-- The sequence number that a command's letterbox expects at check 4 of R46. -/
def State.expected (s : State) (c : Cmd) : Nat := (((s.checking c).noteNode c).box c.lb).nextSeq

/-- A command whose check value verified: its sequence number against the one expected (check 4 of R46). -/
theorem State.verified_eq (s : State) (h : Option Handler) (c : Cmd) (key : Key) :
    (s.checking c).verified h c key =
      if c.p.sequence.toNat < s.expected c then (s.counted c).replyWith c key (s.nonceOf c) { status := .replayed }
      else if s.expected c < c.p.sequence.toNat then
        match c.via with
        | .host _ => (s.counted c).replyWith c key (s.nonceOf c) { status := .badParam, detail := 4 }
        | .fabric _ _ =>
          if (((s.checking c).noteNode c).box c.lb).waiting.length < 16 then (s.counted c).keepPacket c
          else (s.counted c).replyWith c key (s.nonceOf c) { status := .busy, wait := (s.counted c).waitingBusy c.lb }
      else (s.admitted c).taken h c key (s.nonceOf c) := rfl

theorem State.verified_replayed {s : State} (h : Option Handler) {c : Cmd} (key : Key) (hq : c.p.sequence.toNat < s.expected c) :
    (s.checking c).verified h c key = (s.counted c).replyWith c key (s.nonceOf c) { status := .replayed } := by
  rw [State.verified_eq, if_pos hq]

section gap
variable {s : State} (h : Option Handler) {c : Cmd} (key : Key) (hq : s.expected c < c.p.sequence.toNat)
include hq

/-- Through a host link a command ahead of its turn is refused (R44). -/
theorem State.verified_gap_host {l : Nat} (hv : c.via = .host l) :
    (s.checking c).verified h c key = (s.counted c).replyWith c key (s.nonceOf c) { status := .badParam, detail := 4 } := by
  rw [State.verified_eq, if_neg (Nat.lt_asymm hq), if_pos hq, hv]

/-- Through a port it waits where there is room (R63). -/
theorem State.verified_gap_waits {port n : Nat} (hv : c.via = .fabric port n)
    (hw : (((s.checking c).noteNode c).box c.lb).waiting.length < 16) :
    (s.checking c).verified h c key = (s.counted c).keepPacket c := by
  rw [State.verified_eq, if_neg (Nat.lt_asymm hq), if_pos hq, hv]
  exact if_pos hw

/-- Where 16 packets wait it is BUSY (R60). -/
theorem State.verified_gap_busy {port n : Nat} (hv : c.via = .fabric port n)
    (hw : 16 ≤ (((s.checking c).noteNode c).box c.lb).waiting.length) :
    (s.checking c).verified h c key
      = (s.counted c).replyWith c key (s.nonceOf c) { status := .busy, wait := (s.counted c).waitingBusy c.lb } := by
  rw [State.verified_eq, if_neg (Nat.lt_asymm hq), if_pos hq, hv]
  exact if_neg (Nat.not_lt.mpr hw)

end gap

theorem State.verified_turn {s : State} (h : Option Handler) {c : Cmd} (key : Key) (hq : c.p.sequence.toNat = s.expected c) :
    (s.checking c).verified h c key = (s.admitted c).taken h c key (s.nonceOf c) := by
  rw [State.verified_eq, if_neg (by omega), if_neg (by omega)]

theorem State.taken_whole {s : State} {h : Option Handler} {c : Cmd} {key : Key} {nonce : BitVec 64} (ha : s.dg.aborted = false) :
    s.taken h c key nonce = s.decideCmd h c key nonce := by
  unfold State.taken; rw [if_neg (by simp [ha])]

theorem State.taken_aborted {s : State} {h : Option Handler} {c : Cmd} {key : Key} {nonce : BitVec 64} (ha : s.dg.aborted = true) :
    s.taken h c key nonce
      = State.replyWith { s with dg := { s.dg with aborted := false } } c key nonce { status := .faulted } := by
  unfold State.taken; rw [if_pos ha]

theorem State.decideCmd_refused {s : State} {h : Option Handler} {c : Cmd} {key : Key} {nonce : BitVec 64} {st : Status} {d : Nat}
    (hp : preCheck h s c = some (st, d)) :
    s.decideCmd h c key nonce = s.replyWith c key nonce { status := st, detail := d } := by
  unfold State.decideCmd; simp only [hp]

/-- The row of a command that comes and is verified is checked from check 4 of R46 on. -/
theorem exec_verified {i : Instr} {c : Cmd} {s : State} {key : Key} (hi : RowOf i c) (v : Verified s c key) :
    exec i s = .next ((s.checking c).verified (handlerFor c.op) c key).ended := by
  rw [hi s, State.command_of_comes v.box v.comes v.first v.serves, State.serve_verified v]

/-- The row of a command whose turn has come is decided in its admitted state (checks 5 to 14 of R46). -/
theorem exec_turn {i : Instr} {c : Cmd} {s : State} {key : Key} (hi : RowOf i c) (v : Verified s c key)
    (hq : c.p.sequence.toNat = s.expected c) (ha : (s.admitted c).dg.aborted = false) :
    exec i s = .next ((s.admitted c).decideCmd (handlerFor c.op) c key (s.nonceOf c)).ended := by
  rw [exec_verified hi v, State.verified_turn _ _ hq, State.taken_whole ha]

/-- Settles O39: each check is a branch of `State.serve` or of `State.verified`. -/
theorem commandChecks : Obligations.CommandChecks := by
  intro i c s hi hlb hc hf hs
  have hx : exec i s = .next ((s.met c).serve (handlerFor c.op) c).ended := (hi s).trans (State.command_of_comes hlb hc hf hs)
  refine ⟨fun ht => ?_, fun ht hk => ?_, fun key ht hp hk => ⟨fun hfr => ?_, fun hfr hch => ?_⟩, fun key v => ⟨fun hq => ?_,
    fun hq hv => ?_, fun hq hv hw => ?_, fun u hq hv hw hu => ?_, fun hq ha => ?_, fun hq ha st d hp => ?_⟩⟩
  · rw [hx, State.serve_tamperHeld ht]
  · rw [hx, State.serve_unkeyed ht hk]
  · rw [hx, State.serve_keyed ht hp hk, if_pos hfr]
  · have hch : checked key ((s.met c).box c.lb).session c = false := hch
    rw [hx, State.serve_keyed ht hp hk, if_neg (by simp [hfr]), if_pos hch]
    rfl
  · rw [exec_verified hi v, State.verified_replayed _ _ hq]
    rfl
  · obtain ⟨l, hv⟩ := hv
    rw [exec_verified hi v, State.verified_gap_host _ _ hq hv]
    rfl
  · obtain ⟨port, n, hv⟩ := hv
    rw [exec_verified hi v, State.verified_gap_waits _ _ hq hv hw]
    rfl
  · obtain ⟨port, n, hv⟩ := hv
    rw [exec_verified hi v, State.verified_gap_busy _ _ hq hv hw, hu]
    rfl
  · rw [exec_verified hi v, State.verified_turn _ _ hq, State.taken_aborted ha]
  · rw [exec_turn hi v hq ha, State.decideCmd_refused hp]

/-- Without a handler, a command that passes checks 5 to 7 of R46 fails check 8. -/
theorem preCheck_none {s : State} {c : Cmd} (hrev : c.p.revision = Config.revisionByte) (hquar : s.quarantined = false)
    (hst : (s.box c.lb).state ≠ .closing) (hseq : c.p.sequence.toNat < 0xFFFFF000) :
    preCheck none s c = some (.unknownOpcode, 0) := by
  unfold preCheck
  dsimp only
  rw [if_neg (not_not_intro hrev), if_neg (by simp [hquar]), if_neg (by simp only [hst, false_or]; omega)]

theorem rowOf_undefinedOpcode (op : BitVec 16) (lb : Nat) (via : Via) (p : Packet) :
    RowOf (.undefinedOpcode op lb via p) { op := op.toNat, lb := lb, via := via, p := p } := fun _ => rfl

/-- Settles O38: with no handler, the checks before check 8 pass and check 8 refuses. -/
theorem unknownOpcode : Obligations.UnknownOpcode := by
  intro s op lb via p key hh v hq hrev hseq ha hquar hst
  rw [exec_turn (rowOf_undefinedOpcode op lb via p) v hq ha, hh,
    State.decideCmd_refused (preCheck_none hrev hquar hst hseq)]

/-! ### Limits and holds -/

section decided
variable {s : State} {h : Handler} {c : Cmd} {key : Key} {nonce : BitVec 64}

/-- Before full service, with no entry for one more operation, letterbox 0's command is BUSY (R56, R62). -/
theorem State.decideCmd_early_noRoom {e : Nat} (hp : preCheck (some h) s c = none) (hs : h.service = true) (ha : s.awaitsService = true)
    (h0 : c.lb = 0) (hr : s.opRoom 0 = some e) :
    s.decideCmd (some h) c key nonce = s.replyWith c key nonce { status := .busy, wait := e } := by
  unfold State.decideCmd
  simp only [hp, hs, ha, h0, hr, Bool.and_self, and_self, if_true]

/-- Before full service letterbox 0's command takes a place of the poste restante and is HELD (R62). -/
theorem State.decideCmd_early_held (hp : preCheck (some h) s c = none) (hs : h.service = true) (ha : s.awaitsService = true)
    (h0 : c.lb = 0) (hr : s.opRoom 0 = none) (hn : s.sniby.places.length < 4096) :
    s.decideCmd (some h) c key nonce = State.replyWith
      (let u := (s.newOp c none).2
       { u with sniby := { u.sniby with places := u.sniby.places ++
         [.command { opcode := c.op, lb := c.lb, via := c.via, packet := c.p, op := s.sniby.nextOp, since := u.now }] } })
      c key nonce { status := .held } := by
  unfold State.decideCmd
  simp only [hp, hs, ha, h0, hr, Bool.and_self, and_self, if_true]
  rw [if_neg (by omega)]
  rfl

/-- Before full service another letterbox's command that would be answered at once is BUSY to the end of the start's second (R515). -/
theorem State.decideCmd_early_reply {a : Ans} {t u : State} {after : State → State} (hp : preCheck (some h) s c = none)
    (hs : h.service = true) (ha : s.awaitsService = true) (h0 : c.lb ≠ 0) (hrun : h.run s c = .reply a t after)
    (ht : t.takeToken c.lb = .ok u) :
    s.decideCmd (some h) c key nonce
      = s.replyWith c key nonce { status := .busy, wait := 1000000 - (s.now - s.boot.startedAt) / Config.us } := by
  unfold State.decideCmd
  simp only [hp, hs, ha, h0, hrun, ht, Bool.and_self, and_false, if_false, if_true]

theorem State.decideCmd_early_accept {body : Bytes} {bound : Option Nat} {start : Nat → State → State}
    {spent : State → State} {u : State}
    (hp : preCheck (some h) s c = none) (hs : h.service = true) (ha : s.awaitsService = true) (h0 : c.lb ≠ 0)
    (hrun : h.run s c = .accept body bound start spent) (ht : (spent s).takeToken c.lb = .ok u) :
    s.decideCmd (some h) c key nonce
      = u.replyWith c key nonce { status := .busy, wait := 1000000 - (u.now - u.boot.startedAt) / Config.us } := by
  unfold State.decideCmd
  simp only [hp, hs, ha, h0, hrun, ht, Bool.and_self, and_false, if_false, if_true]

theorem State.decideCmd_stop {a : Ans} (hp : preCheck (some h) s c = none) (hs : h.service = true → s.awaitsService = false)
    (hrun : h.run s c = .stop a) : s.decideCmd (some h) c key nonce = s.replyWith c key nonce a := by
  unfold State.decideCmd
  simp only [hp, early_false hs, hrun, Bool.false_eq_true, false_and, if_false]

theorem State.decideCmd_wait {u : State} (hp : preCheck (some h) s c = none) (hs : h.service = true → s.awaitsService = false)
    (hrun : h.run s c = .wait u) : s.decideCmd (some h) c key nonce = u.block c 0 (some nonce) := by
  unfold State.decideCmd
  simp only [hp, early_false hs, hrun, Bool.false_eq_true, false_and, if_false]

theorem State.decideCmd_accept_noToken {body : Bytes} {bound : Option Nat} {start : Nat → State → State}
    {spent : State → State} {e : Nat}
    (hp : preCheck (some h) s c = none) (hs : h.service = true → s.awaitsService = false)
    (hrun : h.run s c = .accept body bound start spent) (ht : (spent s).takeToken c.lb = .error e) :
    s.decideCmd (some h) c key nonce = (spent s).replyWith c key nonce { status := .busy, wait := e } := by
  unfold State.decideCmd
  simp only [hp, early_false hs, hrun, ht, Bool.false_eq_true, false_and, if_false]

theorem State.decideCmd_accept_noRoom {body : Bytes} {bound : Option Nat} {start : Nat → State → State}
    {spent : State → State} {u : State}
    {e : Nat} (hp : preCheck (some h) s c = none) (hs : h.service = true → s.awaitsService = false)
    (hrun : h.run s c = .accept body bound start spent) (ht : (spent s).takeToken c.lb = .ok u) (hr : u.opRoom c.lb = some e) :
    s.decideCmd (some h) c key nonce = u.replyWith c key nonce { status := .busy, wait := e } := by
  unfold State.decideCmd
  simp only [hp, early_false hs, hrun, ht, hr, Bool.false_eq_true, false_and, if_false]

/-- Behind a close that another command is held behind already (R58). -/
theorem State.decideCmd_behind_busy {o : Closable} {remain : Nat} (hp : preCheck (some h) s c = none)
    (hs : h.service = true → s.awaitsService = false) (hrun : h.run s c = .behind o remain)
    (hb : s.sniby.heldBehind.any (fun e => e.1 == o) = true) :
    s.decideCmd (some h) c key nonce = s.replyWith c key nonce { status := .busy, wait := remain } := by
  unfold State.decideCmd
  simp only [hp, early_false hs, hrun, hb, Bool.false_eq_true, false_and, if_false, if_true]

theorem State.decideCmd_behind_held {o : Closable} {remain : Nat} (hp : preCheck (some h) s c = none)
    (hs : h.service = true → s.awaitsService = false) (hrun : h.run s c = .behind o remain)
    (hb : s.sniby.heldBehind.any (fun e => e.1 == o) = false) (hr : s.opRoom c.lb = none) :
    s.decideCmd (some h) c key nonce = State.replyWith
      (let u := (s.newOp c none).2
       { u with sniby := { u.sniby with heldBehind := u.sniby.heldBehind ++
         [(o, { opcode := c.op, lb := c.lb, via := c.via, packet := c.p, op := s.sniby.nextOp, since := u.now })] } })
      c key nonce { status := .queuedBehindClose } := by
  unfold State.decideCmd
  simp only [hp, early_false hs, hrun, hb, hr, Bool.false_eq_true, false_and, if_false]
  rfl

end decided

/-! ### The time of a command -/

/-- The moment, and the moment at which the block started: what the second of R515 is counted from. -/
def State.moments (s : State) : Nat × Nat := (s.now, s.boot.startedAt)

theorem State.moments_of_apartCp {s t : State} (h : t.apartCp = s.apartCp) : t.moments = s.moments :=
  congrArg (fun x => (x.1.now, x.1.boot.startedAt)) h

theorem foldl_moments {α : Type} (f : State → α → State) (l : List α) (s : State)
    (h : ∀ s a, (f s a).moments = s.moments) : (l.foldl f s).moments = s.moments := by
  induction l generalizing s with
  | nil => rfl
  | cons a l ih => exact (ih (f s a)).trans (h s a)

@[simp] theorem State.count_moments (s : State) (i e : Nat) (tc : Option Nat) (n : Nat) : (s.count i e tc n).moments = s.moments :=
  State.moments_of_apartCp (State.count_apartCp ..)

@[simp] theorem State.traceRec_moments (s : State) (island kind : Nat) (handle ctx : Option Nat) (payload : List (Nat × Nat)) :
    (s.traceRec island kind handle ctx payload).moments = s.moments := State.moments_of_apartCp (State.traceRec_apartCp ..)

@[simp] theorem State.serveHeld_moments (s : State) (x : Held) : (s.serveHeld x).moments = s.moments := by
  unfold State.serveHeld
  split
  · rfl
  · split
    · split
      · exact (State.count_moments ..).trans (State.traceRec_moments ..)
      · exact State.count_moments ..
    · rfl

theorem State.deadCtx_moments (s : State) (c : Nat) : (s.deadCtx c).moments = s.moments := by
  unfold State.deadCtx
  split <;> rfl

theorem State.tileAnswer_moments (s : State) (t : Nat) (ctx : Option Nat) (r : TileResponse) :
    (s.tileAnswer t ctx r).moments = s.moments := by
  have hd : ∀ u : State, (match ctx with | some c => u.deadCtx c | none => u).moments = u.moments := by
    intro u
    cases ctx with
    | some c => exact State.deadCtx_moments u c
    | none => rfl
  unfold State.tileAnswer
  extract_lets stopped
  split
  · exact hd _
  · rfl

theorem State.conclude_moments (s : State) (job : Option Nat) (m tc kind target accepted bytes : Nat) (within : Bool) :
    (s.conclude job m tc kind target accepted bytes within).moments = s.moments := by
  unfold State.conclude
  split <;> rfl

theorem State.serveContribution_moments (s : State) (n : Nat) (c : Contribution) :
    (s.serveContribution n c).moments = s.moments := by
  unfold State.serveContribution
  dsimp only
  split
  · rfl
  · split
    · exact (State.tileAnswer_moments ..).trans ((State.conclude_moments ..).trans
        ((State.traceRec_moments ..).trans (State.count_moments ..)))
    · rfl

theorem State.portServe_moments (s : State) (p : Nat) : (s.portServe p).moments = s.moments := by
  unfold State.portServe
  refine foldl_moments _ _ _ (fun s e => ?_)
  split
  · unfold State.serveNext
    split
    · exact State.serveHeld_moments ..
    · rfl
  · exact State.serveContribution_moments ..

theorem State.portAlive_moments (s : State) (port : Nat) : (s.portAlive port).moments = s.moments := by
  unfold State.portAlive
  split
  · exact State.portServe_moments ..
  · rfl

/-- No time passes while a command is checked, and the block does not start. -/
theorem State.admitted_moments (s : State) (c : Cmd) : (s.admitted c).moments = s.moments := by
  have hm : (s.met c).moments = s.moments := by
    unfold State.met
    refine (State.moments_of_apartCp (State.takeNext_apartCp ..)).trans ?_
    split
    · rfl
    · exact State.portAlive_moments ..
  exact (State.moments_of_apartCp (State.noteNode_apartCp ..)).trans hm

theorem State.takeToken_free (s : State) {lb : Nat} (h : lb < 2) : s.takeToken lb = .ok s := by
  unfold State.takeToken; rw [if_pos h]

/-- Settles O41: each limit is a branch of `State.decideCmd`. -/
theorem limitsAndHolds : Obligations.LimitsAndHolds := by
  intro i c s key h hi hh v hq ha hp
  have hx : exec i s = .next ((s.admitted c).decideCmd (some h) c key (s.nonceOf c)).ended := hh ▸ exec_turn hi v hq ha
  refine ⟨fun hs haw h0 => ⟨fun e hr => ?_, fun hr hn => ?_⟩,
    fun hs haw h1 => ⟨fun a u after hrun => ?_, fun body bound start spent hrun => ?_⟩,
    fun hs => ⟨fun a hrun => ?_, fun u hrun => ?_, fun body bound start spent e hrun ht => ?_,
      fun body bound start spent u e hrun ht hr => ?_, fun o remain hrun hb => ?_, fun o remain hrun hb hr => ?_⟩⟩
  · rw [hx, State.decideCmd_early_noRoom hp hs haw h0 hr]
  · rw [hx, State.decideCmd_early_held hp hs haw h0 hr hn]
  · have ht : u.takeToken c.lb = .ok u := State.takeToken_free u (by omega)
    obtain ⟨hnow, hstart⟩ := Prod.mk.inj (State.admitted_moments s c)
    rw [hx, State.decideCmd_early_reply hp hs haw (by omega) hrun ht, hnow, hstart]
  · have ht : (spent (s.admitted c)).takeToken c.lb = .ok (spent (s.admitted c)) := State.takeToken_free _ (by omega)
    rw [hx, State.decideCmd_early_accept hp hs haw (by omega) hrun ht]
  · rw [hx, State.decideCmd_stop hp hs hrun]
  · rw [hx, State.decideCmd_wait hp hs hrun]
  · rw [hx, State.decideCmd_accept_noToken hp hs hrun ht]
  · rw [hx, State.decideCmd_accept_noRoom hp hs hrun ht hr]
  · rw [hx, State.decideCmd_behind_busy hp hs hrun hb]
  · rw [hx, State.decideCmd_behind_held hp hs hrun hb hr]

end Machine
end Sys2Proof
end

section
/-!
PROOFS. Tokens (R60), dropped notices (R57) and vectors in their quiet interval (R64).
-/

namespace Sys2Proof
namespace Machine

/-! ### Tokens -/

/-- A job letterbox with no token and none due yet. -/
theorem State.takeToken_none {s : State} {lb : Nat} (h2 : 2 ≤ lb) (h0 : (s.box lb).tokens = 0) (hn : s.now < (s.box lb).tokenAt + 80000) :
    ∃ e, s.takeToken lb = .error e := by
  have hg : (s.now - (s.box lb).tokenAt) / 80000 = 0 := Nat.div_eq_of_lt (by omega)
  have ht : (s.tokensNow lb).1 = 0 := by
    unfold State.tokensNow
    simp [h0, hg]
  unfold State.takeToken
  rw [if_neg (by omega)]
  exact ⟨_, if_pos ht⟩

theorem State.tokensNow_fst (s : State) (lb : Nat) :
    (s.tokensNow lb).1 = min 256 ((s.box lb).tokens + (s.now - (s.box lb).tokenAt) / 80000) := by
  unfold State.tokensNow
  dsimp only
  split <;> simp only <;> omega

/-- A job letterbox with a token, or one due, draws one of at most 256. -/
theorem State.takeToken_some {s : State} {lb : Nat} (h2 : 2 ≤ lb) (h : 0 < (s.tokensNow lb).1) :
    s.takeToken lb = .ok (s.modBox lb (fun b => { b with tokens := (s.tokensNow lb).1 - 1, tokenAt := (s.tokensNow lb).2 })) := by
  unfold State.takeToken
  rw [if_neg (by omega)]
  exact if_neg (Nat.pos_iff_ne_zero.mp h)

/-- Settles O42: the tokens by the count of whole 20 µs; the jitter is a remainder by a quarter and one. -/
theorem commandRate : Obligations.CommandRate := by
  refine ⟨fun s lb => ⟨fun h2 => State.takeToken_free s h2, fun h2 h0 hn => State.takeToken_none h2 h0 hn, fun h2 hor => ?_⟩,
    fun s e => ?_⟩
  · have hn := State.tokensNow_fst s lb
    have hpos : 0 < (s.tokensNow lb).1 := by
      rw [hn]
      rcases hor with h | h
      · omega
      · have : 0 < (s.now - (s.box lb).tokenAt) / 80000 := Nat.div_pos (by omega) (by omega)
        omega
    refine ⟨_, State.takeToken_some h2 hpos, ?_, (s.tokensNow lb).1, ?_, hn, fun k hk => State.box_modBox_of_ne _ _ hk⟩
    · rw [State.box_modBox_self]
      dsimp only
      omega
    · rw [State.box_modBox_self]
  · have hj : (s.draw 32).1.toNat % (max e 10 / 4 + 1) ≤ max e 10 / 4 := Nat.le_of_lt_succ (Nat.mod_lt _ (Nat.succ_pos _))
    refine ⟨Nat.le_trans (Nat.le_max_right e 10) (Nat.le_add_right _ _), ⟨_, rfl, hj⟩, fun c key nonce l hv => ?_⟩
    exact ⟨s.replyOf c key nonce { status := .busy, wait := e }, rfl, rfl, rfl, rfl, State.reply_mem_replyWith s hv ..⟩

/-! ### Notices -/

/-- A notice that does not fit, or comes to a ring that is not enabled, changes its letterbox's counts alone (R57). -/
theorem State.eventTo_dropped {s : State} {lb : Nat} (n : Notice)
    (h : ((s.box lb).binding ≠ .fabric ∧ (s.box lb).enable = false) ∨ (s.box lb).ringDepth ≤ (s.box lb).ringUsed + s.reserved lb) :
    s.eventTo lb n = s.modBox lb (fun b => { b with
      ringFullDrops := sat32 b.ringFullDrops, dropsPending := true, noticeSeq := b.noticeSeq + 1 }) := by
  unfold State.eventTo
  refine if_neg (fun hc => ?_)
  obtain ⟨hen, hroom⟩ := hc
  rcases h with ⟨hb, he⟩ | hfull
  · rcases hen with hen | hen
    · exact hb hen
    · rw [he] at hen; cases hen
  · omega

/-- The notice as it is written: its letterbox, whether notices were dropped, its number and its check (R53, R54, R57). -/
def State.noticeOf (s : State) (lb : Nat) (key : Key) (n : Notice) : Notice :=
  let n := { n with letterbox := lb, dropsPending := (s.box lb).dropsPending, noticeSeq := (s.box lb).noticeSeq + 1 }
  { n with check := checkValue key 3 (s.box lb).session (noticeBytes n) }

/-- The letterbox after a notice was written to it. -/
def Lbx.noticed (b : Lbx) : Lbx :=
  { b with noticeSeq := b.noticeSeq + 1, dropsPending := false,
           ntcProduced := if b.binding = .fabric then b.ntcProduced else (b.ntcProduced + 1) % 65536,
           fabricRing := if b.binding = .fabric then b.fabricRing ++ [b.noticeSeq + 1] else b.fabricRing }

/-- The state in which a notice for a host link has been handed over, before its vector and its record. -/
def State.noticePut (s : State) (lb : Nat) (key : Key) (n : Notice) : State :=
  ((match (s.box lb).binding.link with
    | some l => (s.modBox lb Lbx.noticed).dma 5 1 l 64
    | none => s.modBox lb Lbx.noticed).emit (.notice lb none (s.box lb).ntcSlot (s.noticeOf lb key n))).calls
      (kmacCalls 57 128 false) false

theorem State.writeNotice_host {s : State} {lb : Nat} {key : Key} (n : Notice) (hk : s.lbxKey lb = some key) :
    OnlyTrace ((s.noticePut lb key n).raiseBox lb) (s.writeNotice lb none n) := by
  unfold State.writeNotice
  simp only [hk]
  exact State.traceAt_onlyTrace ..

theorem State.noticePut_sniby (s : State) (lb : Nat) (key : Key) (n : Notice) :
    (s.noticePut lb key n).sniby = (s.modBox lb Lbx.noticed).sniby := by
  unfold State.noticePut
  split <;> rfl

theorem State.noticePut_boot (s : State) (lb : Nat) (key : Key) (n : Notice) : (s.noticePut lb key n).boot = s.boot := by
  unfold State.noticePut
  split <;> rfl

theorem State.noticePut_now (s : State) (lb : Nat) (key : Key) (n : Notice) : (s.noticePut lb key n).now = s.now := by
  unfold State.noticePut
  split <;> rfl

theorem State.noticePut_box (s : State) (lb : Nat) (key : Key) (n : Notice) : (s.noticePut lb key n).box lb = (s.box lb).noticed := by
  unfold State.box at *
  rw [State.noticePut_sniby]
  exact State.box_modBox_self ..

theorem State.notice_mem_noticePut (s : State) (lb : Nat) (key : Key) (n : Notice) :
    Item.notice lb none (s.box lb).ntcSlot (s.noticeOf lb key n) ∈ (s.noticePut lb key n).out :=
  List.mem_append_right _ (List.mem_singleton_self _)

theorem State.raiseBox_sniby (s : State) (lb : Nat) : (s.raiseBox lb).sniby = s.sniby := by
  unfold State.raiseBox
  dsimp only
  split
  · split
    · unfold State.raise
      dsimp only
      split <;> rfl
    · rfl
  · rfl

/-- Settles O44: the branch of `State.eventTo` that drops, and the letterbox that the next notice leaves. -/
theorem droppedNotices : Obligations.DroppedNotices := by
  intro s lb n
  refine ⟨fun h => ?_, fun key hk hd => ?_⟩
  · rw [State.eventTo_dropped n h, State.box_modBox_self]
    exact ⟨rfl, rfl, rfl, rfl, fun k hk => State.box_modBox_of_ne _ _ hk⟩
  · obtain ⟨x, hx⟩ := State.writeNotice_host n hk
    rw [hx]
    refine ⟨?_, s.noticeOf lb key n, hd, rfl, rfl, rfl, ?_⟩
    · have hb : ((s.noticePut lb key n).raiseBox lb).box lb = (s.box lb).noticed := by
        rw [← State.noticePut_box s lb key n]
        unfold State.box
        rw [State.raiseBox_sniby]
      exact (congrArg Lbx.dropsPending hb :)
    · exact (State.raiseBox_wrote ..).out (State.notice_mem_noticePut s lb key n)

/-! ### Vectors -/

/-- Outside its quiet interval a vector is raised, and its next interval begins (R64). -/
theorem State.raise_now {s : State} {link vector : Nat} (h : tgetD s.boot.msixQuiet (link * 512 + vector) 0 ≤ s.now) :
    s.raise link vector = { s with
      boot := { s.boot with msixQuiet := tput s.boot.msixQuiet (link * 512 + vector) (s.now + 2 * Config.us) },
      out := s.out ++ [.msix link vector] } := by
  unfold State.raise
  exact if_neg (by omega)

/-- Inside its quiet interval a vector is deferred to the interval's end (R64). -/
theorem State.raise_quiet {s : State} {link vector : Nat} (h : s.now < tgetD s.boot.msixQuiet (link * 512 + vector) 0) :
    s.raise link vector = { s with boot := { s.boot with msixDeferred :=
      if link * 512 + vector ∈ s.boot.msixDeferred then s.boot.msixDeferred else s.boot.msixDeferred ++ [link * 512 + vector] } } := by
  unfold State.raise
  exact if_pos h

theorem State.raiseBox_of_link {s : State} {lb l : Nat} (hl : (s.box lb).binding.link = some l) :
    s.raiseBox lb = if (s.box lb).msixEnable then s.raise l lb else s := by
  unfold State.raiseBox
  simp only [hl]

/-- A letterbox that raises its vector now puts it out. -/
theorem State.msix_mem_raiseBox {s : State} {lb l : Nat} (hl : (s.box lb).binding.link = some l) (he : (s.box lb).msixEnable = true)
    (hq : tgetD s.boot.msixQuiet (l * 512 + lb) 0 ≤ s.now) : Item.msix l lb ∈ (s.raiseBox lb).out := by
  rw [State.raiseBox_of_link hl, if_pos he, State.raise_now hq]
  exact List.mem_append_right _ (List.mem_singleton_self _)

/-- The vector of a link that leaves its quiet interval. -/
def State.quietOver (s : State) (link vector : Nat) : State :=
  let u := s.reach (tgetD s.boot.msixQuiet (link * 512 + vector) 0)
  { u with boot := { u.boot with msixDeferred := u.boot.msixDeferred.filter (fun j => j != link * 512 + vector) } }

theorem State.reach_le {s : State} (t : Nat) (h : s.live = true) : t ≤ (s.reach t).now := by
  rw [State.reach_now s t h]
  exact Nat.le_max_right ..

/-- Its interval has then ended. -/
theorem State.quietOver_due {s : State} {link vector : Nat} (h : s.live = true) :
    tgetD (s.quietOver link vector).boot.msixQuiet (link * 512 + vector) 0 ≤ (s.quietOver link vector).now := by
  have hq : (s.quietOver link vector).boot.msixQuiet = s.boot.msixQuiet := by
    unfold State.quietOver
    dsimp only
    rw [State.reach_boot]
  rw [hq]
  exact State.reach_le _ h

theorem State.reachOpt_quietDue {s : State} {link vector : Nat} (hm : link * 512 + vector ∈ s.boot.msixDeferred) :
    s.reachOpt (s.quietDue link vector) = s.reach (tgetD s.boot.msixQuiet (link * 512 + vector) 0) := by
  unfold State.quietDue State.reachOpt tgetD
  rw [if_pos hm]
  cases tget s.boot.msixQuiet (link * 512 + vector) with
  | some t => rfl
  | none =>
    unfold State.reach
    dsimp only [Option.getD_none]
    rw [Nat.max_eq_left (Nat.zero_le _)]
    exact (ite_self _).symm

theorem ends_msixQuietEnd {s : State} {link vector : Nat} (hl : s.live = true) (hm : link * 512 + vector ∈ s.boot.msixDeferred) :
    Ends (.msixQuietEnd link vector) s ((s.quietOver link vector).raise link vector) := by
  have hx : (s.reachOpt (s.quietDue link vector)).quietEnd link vector = (s.quietOver link vector).raise link vector := by
    rw [State.reachOpt_quietDue hm]
    unfold State.quietEnd
    dsimp only
    rw [if_pos ⟨by rw [State.reach_boot]; exact hm, by rw [State.reach_boot]; exact State.reach_le _ hl⟩]
    rfl
  exact congrArg (fun u : State => Host.Outcome.next u.ended) hx

/-- Settles O45: `State.raise` inside and outside the quiet interval, after a reply, after a notice and at the interval's end. -/
theorem quietVectors : Obligations.QuietVectors := by
  intro s lb l hl
  refine ⟨fun he => ?_, fun he => ⟨fun hq => ?_, fun hq => ?_⟩, fun c st k hc hv he hq => ?_, fun key n hk he hq => ?_,
    fun hlive hm => ?_⟩
  · rw [State.raiseBox_of_link hl, he]
    rfl
  · rw [State.raiseBox_of_link hl, if_pos he, State.raise_now hq]
    exact ⟨rfl, tgetD_tput_self .., rfl⟩
  · rw [State.raiseBox_of_link hl, if_pos he, State.raise_quiet hq]
    refine ⟨rfl, ?_, rfl⟩
    dsimp only
    split
    · assumption
    · exact List.mem_append_right _ (List.mem_singleton_self _)
  · unfold State.replied
    dsimp only
    refine (State.traceAt_wrote ..).out ?_
    rw [hv, hc]
    refine State.msix_mem_raiseBox ?_ ?_ hq
    · rw [State.box_modBox_self]; exact hl
    · rw [State.box_modBox_self]; exact he
  · obtain ⟨x, hx⟩ := State.writeNotice_host n hk
    rw [hx]
    refine State.msix_mem_raiseBox ?_ ?_ ?_
    · rw [State.noticePut_box]; exact hl
    · rw [State.noticePut_box]; exact he
    · rw [State.noticePut_boot, State.noticePut_now]; exact hq
  · refine ⟨_, ends_msixQuietEnd hlive hm, ?_, ?_⟩
    all_goals rw [State.raise_now (State.quietOver_due hlive)]
    · exact congrArg (· ++ [Item.msix l lb]) (State.reach_out s _)
    · exact State.reach_now s _ hlive

end Machine
end Sys2Proof
end

section
/-!
PROOFS. The timers of the letterboxes, the general commands 0x01xx, and the state right after power-on reset.
-/

namespace Sys2Proof
namespace Machine

/-! ### Timers of the letterboxes -/

theorem ends_of_eq {i : Instr} {s t u : State} (hx : exec i s = .next t.ended) (h : t = u) : Ends i s u := by
  unfold Ends; rw [hx, h]

theorem State.reach_box (s : State) (t lb : Nat) : (s.reach t).box lb = s.box lb := by
  unfold State.box; rw [State.reach_sniby]

theorem State.reach_cpServes (s : State) (t : Nat) : (s.reach t).cpServes = s.cpServes := by
  unfold State.cpServes State.cpUp State.cpBusy; rw [State.reach_boot, State.reach_sniby]

theorem State.reachOpt_throttleDue {s : State} {lb : Nat} (h : (s.box lb).state = .throttled) :
    s.reachOpt (s.throttleDue lb) = s.reach (s.box lb).throttledUntil := by
  unfold State.throttleDue; rw [if_pos h]; rfl

/-- At the end of its 10 ms a throttled letterbox goes on (R38). -/
theorem State.throttleEnd_eq {s : State} {lb : Nat} (h : (s.box lb).state = .throttled) (ht : (s.box lb).throttledUntil ≤ s.now) :
    s.throttleEnd lb = if (s.box lb).binding = .fabric then
        (let u := s.modBox lb (fun b => { b with state := .opened, waiting := [] })
         { u with sniby := { u.sniby with atCp := u.sniby.atCp ++ (s.box lb).waiting } })
      else s.modBox lb (fun b => { b with state := if b.enable then .opened else .idle }) := by
  unfold State.throttleEnd
  exact if_pos ⟨h, ht⟩

theorem find?_strengthen {α : Type} {p q : α → Bool} {l : List α} {a : α} (h : l.find? p = some a) (hq : q a = true) :
    l.find? (fun x => p x && q x) = some a := by
  rw [List.find?_eq_some_iff_append] at h ⊢
  obtain ⟨hp, l₁, l₂, hl, hn⟩ := h
  refine ⟨by rw [hp, hq]; rfl, l₁, l₂, hl, fun x hx => ?_⟩
  have := hn x hx
  simp only [Bool.not_eq_true'] at this ⊢
  rw [this, Bool.false_and]

/-- A packet that has waited 1 ms for its gap is answered and waits no more (R63). -/
theorem State.gapTimeout_eq {s : State} {lb : Nat} {k : HeldCmd} (hst : (s.box lb).state ≠ .throttled) (hs : s.cpServes = true)
    (hf : (s.box lb).waiting.find? (fun x => x.packet.sequence == k.packet.sequence) = some k) (hn : k.since + Config.ms ≤ s.now) :
    s.gapTimeout lb k.packet.sequence
      = (s.modBox lb (fun b => { b with waiting := b.waiting.erase k })).answerKept k.cmd { status := .badParam, detail := 4 } := by
  have hf' := find?_strengthen (q := fun x => decide (x.since + Config.ms ≤ s.now)) hf (decide_eq_true hn)
  unfold State.gapTimeout
  simp only [hf']
  rw [if_neg (by simp [hst, hs])]

theorem State.answerKept_keyed {s : State} {c : Cmd} {a : Ans} {key : Key} (ht : s.boot.tamperHeld = false) (hp : s.dg.pairs ≠ [])
    (hk : s.lbxKey c.lb = some key) : s.answerKept c a = s.replyWith c key (s.box c.lb).session a := by
  unfold State.answerKept
  rw [if_neg (by simp [ht]), if_neg (by simpa using hp)]
  simp only [hk]

theorem State.placeReady_fullService {s : State} (hb : s.boot.blockState = .fullService) (x : Place) : s.placeReady x = true := by
  cases x with
  | command k => exact beq_iff_eq.mpr hb
  | message port p => rfl
  | hello h peer => rfl

/-- In full service every place can be served, so that the first is (R508). -/
theorem State.placeDue_fullService {s : State} {table : Nat → Option Handler} {x : Place} (hs : s.cpServes = true)
    (hb : s.boot.blockState = .fullService) (hd : s.sniby.lastDue + 25 * Config.us ≤ s.now) (hx : s.sniby.places.head? = some x) :
    s.placeDue table = State.servePlace table
      { s with sniby := { s.sniby with lastDue := s.now, places := s.sniby.places.tail } } x := by
  obtain ⟨l, hl⟩ := List.head?_eq_some_iff.mp hx
  have hf : s.sniby.places.find? (fun y => State.placeReady { s with sniby := { s.sniby with lastDue := s.now } } y) = some x := by
    rw [hl]
    exact List.find?_cons_of_pos (State.placeReady_fullService hb x)
  have he : s.sniby.places.erase x = s.sniby.places.tail := by rw [hl]; exact List.erase_cons_head ..
  unfold State.placeDue
  rw [if_neg (by simp only [hs, Bool.true_eq_false, false_or]; omega), ← he]
  extract_lets u
  split
  · rename_i h; cases hf.symm.trans h
  · rename_i y h; cases hf.symm.trans h; rfl

/-- Settles O18: each timer reaches its moment, and its event then acts. -/
theorem letterboxTimers : Obligations.LetterboxTimers := by
  refine ⟨fun s lb hl ht hb => ?_, fun s lb hl ht hb => ?_, fun s lb k key hl hs htam hp hst hk hf hkey => ?_, fun s lb q hq => ?_,
    fun s x hl hs hb hx => ?_, fun s link vector hl hm => ends_msixQuietEnd hl hm⟩
  · refine ends_of_eq rfl ?_
    rw [State.reachOpt_throttleDue ht, State.throttleEnd_eq (by rw [State.reach_box]; exact ht)
      (by rw [State.reach_box]; exact State.reach_le _ hl), if_neg (by rw [State.reach_box]; exact hb)]
  · refine ends_of_eq rfl ?_
    rw [State.reachOpt_throttleDue ht, State.throttleEnd_eq (by rw [State.reach_box]; exact ht)
      (by rw [State.reach_box]; exact State.reach_le _ hl), if_pos (by rw [State.reach_box]; exact hb), State.reach_box]
  · refine ends_of_eq rfl ?_
    have hd : s.reachOpt (s.gapDue lb k.packet.sequence) = s.reach (k.since + Config.ms) := by
      unfold State.gapDue; rw [hf]; rfl
    have hbox : (((s.reach (k.since + Config.ms)).modBox lb (fun b => { b with waiting := b.waiting.erase k })).box k.cmd.lb).session
        = (s.box lb).session := by
      unfold HeldCmd.cmd
      rw [hk, State.box_modBox_self, State.reach_box]
    rw [hd, State.gapTimeout_eq (by rw [State.reach_box]; exact hst) (by rw [State.reach_cpServes]; exact hs)
      (by rw [State.reach_box]; exact hf) (State.reach_le _ hl), State.answerKept_keyed (key := key), hbox]
    · rw [State.modBox_boot, State.reach_boot]; exact htam
    · rw [State.modBox_dg, State.reach_dg]; exact hp
    · unfold HeldCmd.cmd State.lbxKey at *
      rw [State.modBox_kv, State.reach_kv, hk]; exact hkey
  · refine ends_of_eq rfl ?_
    unfold State.linkAck
    rw [if_pos hq]
  · refine ends_of_eq rfl ?_
    rw [State.placeDue_fullService (by rw [State.reach_cpServes]; exact hs) (by rw [State.reach_boot]; exact hb)
      (by rw [State.reach_sniby]; exact State.reach_le _ hl) (by rw [State.reach_sniby]; exact hx)]
    rfl

/-! ### The general commands -/

/-- Settles O1: each handler answers at once. -/
theorem generalCommands : Obligations.GeneralCommands := by
  refine ⟨replies_of (fun _ _ _ _ => rfl) rfl (fun _ _ _ _ _ _ => rfl),
    replies_of (fun _ _ _ _ => rfl) rfl (fun _ _ _ _ _ _ => rfl),
    replies_of (fun _ _ _ _ => rfl) rfl (fun _ _ _ _ _ _ => rfl),
    replies_of (fun _ _ _ _ => rfl) rfl (fun _ _ _ _ _ _ => rfl),
    replies_of (fun _ _ _ _ => rfl) rfl (fun s c _ _ _ _ => ?_),
    replies_of (fun _ _ _ _ => rfl) rfl (fun s c _ _ _ hg => ?_),
    replies_of (fun _ _ _ _ => rfl) rfl (fun _ _ _ _ _ _ => rfl)⟩
  · by_cases h0 : c.lb = 0 <;> simp [hReadDropCounts, answerWith, h0] <;> rfl
  · obtain ⟨e, he, hlb, hseq⟩ := hg
    refine if_pos (List.any_eq_true.mpr ⟨e, he, ?_⟩)
    rw [Bool.and_eq_true, beq_iff_eq, beq_iff_eq]
    exact ⟨hlb, hseq⟩

/-! ### Right after power-on reset -/

theorem State.reset_box_unbound {lb : Nat} (h : 2 ≤ lb) : (State.reset.box lb).state = .unbound := by
  have hg : tget State.reset.sniby.boxes lb = none := by
    simp only [State.reset, tget]
    rw [if_neg (by omega), if_neg (by omega)]
  unfold State.box tgetD
  rw [hg]
  rfl

/-- Settles O48: the fields of the state after reset. -/
theorem resetState : Obligations.ResetState :=
  ⟨rfl, rfl, rfl, rfl, rfl, rfl, rfl, rfl, rfl, rfl, rfl, fun _ h => State.reset_box_unbound h, rfl, rfl, rfl, rfl, rfl, rfl, rfl, rfl,
    rfl, rfl, rfl, by decide, rfl, by decide, rfl⟩

end Machine
end Sys2Proof
end

section
/-!
PROOFS. The host's writes to a letterbox's page, to an envelope page and to the other registers of BAR0.
-/

namespace Sys2Proof
namespace Machine

/-! ### A letterbox's control register -/

theorem Lbx.ringsOk_iff (b : Lbx) :
    b.ringsOk = true ↔ 1 ≤ b.cmdLog2 ∧ b.cmdLog2 ≤ 8 ∧ b.rplLog2 = b.cmdLog2 ∧ 6 ≤ b.ntcLog2 ∧ b.ntcLog2 ≤ 12 := by
  unfold Lbx.ringsOk
  simp only [Bool.and_eq_true, decide_eq_true_eq, beq_iff_eq, and_assoc, eq_comm (a := b.rplLog2)]

theorem Lbx.not_fabric_of_onLink {b : Lbx} {link : Nat} (h : b.onLink link = true) : b.binding ≠ .fabric := by
  intro hb
  unfold Lbx.onLink at h
  rw [hb] at h
  cases h

/-- A letterbox whose msix_enable has been written. -/
def State.msixSet (s : State) (lb : Nat) (on : Bool) : State := s.modBox lb (fun b => { b with msixEnable := on })

section page
variable {s : State} {link lb : Nat} (v : Nat) (hlb : lb < 64) (hp : s.pagesLive = true) (hl : (s.box lb).onLink link = true)
include hlb hp hl

theorem State.pageGuard : ¬ (s.pagesLive = false ∨ (s.box lb).onLink link = false ∨ 64 ≤ lb) := by
  simp only [hp, hl, Bool.true_eq_false, false_or]
  omega

/-- An IDLE letterbox that is enabled with good ring registers is OPEN, or back in its teardown (R35). -/
theorem State.lbxControl_enables (hst : (s.box lb).state = .idle) (hb : bit v 0 = true) (hr : (s.box lb).ringsOk = true) :
    s.lbxControl link lb v = ((s.msixSet lb (bit v 1)).modBox lb
      (fun b => { b with enable := true, state := if s.boxClosing lb then .closing else .opened })).flushHeld lb := by
  unfold State.lbxControl
  dsimp only
  rw [if_neg (State.pageGuard hlb hp hl)]
  simp only [hst, hb, hr, Bool.and_self, if_true]
  rfl

/-- An IDLE letterbox with bad ring registers stays IDLE (R35). -/
theorem State.lbxControl_refuses (hst : (s.box lb).state = .idle) (hr : (s.box lb).ringsOk = false) :
    s.lbxControl link lb v = s.msixSet lb (bit v 1) := by
  unfold State.lbxControl
  dsimp only
  rw [if_neg (State.pageGuard hlb hp hl)]
  simp only [hst, hr, Bool.and_false, Bool.false_eq_true, if_false]
  rfl

/-- A THROTTLED letterbox takes the enable bit for the end of its period (R38). -/
theorem State.lbxControl_throttled (hst : (s.box lb).state = .throttled) :
    s.lbxControl link lb v = ((s.msixSet lb (bit v 1)).modBox lb (fun b => { b with enable := bit v 0 })).flushHeld lb := by
  unfold State.lbxControl
  dsimp only
  rw [if_neg (State.pageGuard hlb hp hl)]
  simp only [hst]
  rfl

/-- An OPEN letterbox that is disabled goes to IDLE when no command of its is in progress (R35). -/
theorem State.lbxControl_disables (hst : (s.box lb).state = .opened) (hb : bit v 0 = false) :
    s.lbxControl link lb v = ((s.msixSet lb (bit v 1)).modBox lb (fun b => { b with enable := false })).idleAfter lb := by
  unfold State.lbxControl
  dsimp only
  rw [if_neg (State.pageGuard hlb hp hl)]
  simp only [hst, hb, Bool.false_eq_true, if_false]
  rfl

end page

theorem State.idleAfter_free {s : State} {lb : Nat} (hf : s.sniby.blocked.all (fun e => e.1.lb != lb) = true)
    (ho : (s.box lb).state = .opened) (hb : (s.box lb).binding ≠ .fabric) (he : (s.box lb).enable = false) :
    s.idleAfter lb = s.modBox lb (fun b => { b with state := .idle }) := by
  unfold State.idleAfter
  exact if_pos ⟨hf, ho, hb, he⟩

theorem State.idleAfter_blocked {s : State} {lb : Nat} (hf : s.sniby.blocked.all (fun e => e.1.lb != lb) = false) :
    s.idleAfter lb = s := by
  unfold State.idleAfter
  exact if_neg (fun h => by rw [hf] at h; cases h.1)

theorem ends_lbxControlWrite {s t : State} {link lb : Nat} {v : BitVec 64} (hu : link ∈ s.boot.hostUp)
    (h : s.lbxControl link lb v.toNat = t) : Ends (.lbxControlWrite link lb v) s t := ends_of_eq rfl ((if_pos hu).trans h)

/-! ### The registers of BAR0 -/

theorem ends_registerWrite {s t : State} {link off : Nat} {v : BitVec 64} (h : s.registerWrite link off v.toNat = t) :
    Ends (.registerWrite link off v) s t := ends_of_eq rfl h

/-- A write on a link that is up goes to the register at its offset (R493). -/
theorem State.registerWrite_up {s : State} {link : Nat} (off v : Nat) (h2 : link < 2) (hu : link ∈ s.boot.hostUp) :
    s.registerWrite link off v =
      if off = 16 then (if link = 0 then { s with boot := { s.boot with fwBase := v / 4096 } } else s)
      else if off = 24 then s.fwControl link v
      else if 1048576 ≤ off ∧ off < 1048576 + 262144 then s.lbxRegister link ((off - 1048576) / 4096) (off % 4096) v
      else if 2097152 ≤ off ∧ off < 2097152 + 1048576 then s.envRegister link ((off - 2097152) / 4096) (off % 4096) v
      else if 4194304 ≤ off ∧ off < 4194304 + 5136 then
        { s with boot := { s.boot with msixTable := tput s.boot.msixTable (link * 2 ^ 32 + off) (BitVec.ofNat 64 v) } }
      else s := by
  unfold State.registerWrite
  rw [if_neg (by simp only [hu, not_true_eq_false, or_false]; omega)]

section up
variable {s : State} {link : Nat} (h2 : link < 2) (hu : link ∈ s.boot.hostUp)
include h2 hu

theorem State.registerWrite_lbx {lb off : Nat} (v : Nat) (hlb : lb < 64) (ho : off < 4096) :
    s.registerWrite link (1048576 + 4096 * lb + off) v = s.lbxRegister link lb off v := by
  have hd : (1048576 + 4096 * lb + off - 1048576) / 4096 = lb := by omega
  have hm : (1048576 + 4096 * lb + off) % 4096 = off := by omega
  rw [State.registerWrite_up _ v h2 hu, if_neg (by omega), if_neg (by omega), if_pos (by omega), hd, hm]

theorem State.registerWrite_env {h off : Nat} (v : Nat) (hh : h < 256) (ho : off < 4096) :
    s.registerWrite link (2097152 + 4096 * h + off) v = s.envRegister link h off v := by
  have hd : (2097152 + 4096 * h + off - 2097152) / 4096 = h := by omega
  have hm : (2097152 + 4096 * h + off) % 4096 = off := by omega
  rw [State.registerWrite_up _ v h2 hu, if_neg (by omega), if_neg (by omega), if_neg (by omega), if_pos (by omega), hd, hm]

theorem State.registerWrite_msix {off : Nat} (v : Nat) (ho : off < 5136) :
    s.registerWrite link (4194304 + off) v
      = { s with boot := { s.boot with
            msixTable := tput s.boot.msixTable (link * 2 ^ 32 + (4194304 + off)) (BitVec.ofNat 64 v) } } := by
  rw [State.registerWrite_up _ v h2 hu, if_neg (by omega), if_neg (by omega), if_neg (by omega), if_neg (by omega), if_pos (by omega)]

/-- No register stands there. -/
theorem State.registerWrite_none {off : Nat} (v : Nat) (ho : off ∉ [16, 24] ∧ off < 1048576 ∨ off = 16 ∧ link = 1
    ∨ 1310720 ≤ off ∧ off < 2097152 ∨ 3145728 ≤ off ∧ off < 4194304 ∨ 4199440 ≤ off) : s.registerWrite link off v = s := by
  rw [State.registerWrite_up _ v h2 hu]
  by_cases h16 : off = 16
  · rw [if_pos h16, if_neg (by simp only [List.mem_cons, List.not_mem_nil, or_false, not_or] at ho; omega)]
  · simp only [List.mem_cons, List.not_mem_nil, or_false, not_or] at ho
    rw [if_neg h16, if_neg (by omega), if_neg (by omega), if_neg (by omega), if_neg (by omega)]

end up

/-- The ring registers and ntc_consumed, on a page that takes them (R34, R35). -/
theorem State.lbxRegister_taken {s : State} {link lb off : Nat} (v : Nat) (h24 : off ≠ 24) (h32 : off ≠ 32) (hlb : lb < 64)
    (hp : s.pagesLive = true) (hl : s.pageTakes link lb = true) :
    s.lbxRegister link lb off v =
      if off = 40 then s.modBox lb (fun b => { b with ntcConsumed := v % 65536 })
      else if (s.box lb).state ≠ .idle then s
      else if off = 0 then s.modBox lb (fun b => { b with cmdBase := v / 4096, cmdLog2 := v % 16 })
      else if off = 8 then s.modBox lb (fun b => { b with rplBase := v / 4096, rplLog2 := v % 16 })
      else if off = 16 then s.modBox lb (fun b => { b with ntcBase := v / 4096, ntcLog2 := v % 16 })
      else s := by
  unfold State.lbxRegister
  dsimp only
  rw [if_neg h24, if_neg h32, if_neg (by simp only [hp, hl, Bool.true_eq_false, false_or]; omega)]

theorem State.pageTakes_of_onLink {s : State} {link lb : Nat} (h : (s.box lb).onLink link = true) : s.pageTakes link lb = true := by
  unfold State.pageTakes
  rw [h, Bool.true_or]

/-- The ring registers of a letterbox in IDLE (R34). -/
theorem State.lbxRegister_rings {s : State} {link lb : Nat} (v : Nat) (hlb : lb < 64) (hp : s.pagesLive = true)
    (hl : (s.box lb).onLink link = true) (hst : (s.box lb).state = .idle) :
    s.lbxRegister link lb 0 v = s.modBox lb (fun b => { b with cmdBase := v / 4096, cmdLog2 := v % 16 })
    ∧ s.lbxRegister link lb 8 v = s.modBox lb (fun b => { b with rplBase := v / 4096, rplLog2 := v % 16 })
    ∧ s.lbxRegister link lb 16 v = s.modBox lb (fun b => { b with ntcBase := v / 4096, ntcLog2 := v % 16 }) := by
  refine ⟨?_, ?_, ?_⟩
  all_goals rw [State.lbxRegister_taken v (by omega) (by omega) hlb hp (State.pageTakes_of_onLink hl), if_neg (by omega),
    if_neg (not_not_intro hst)]
  all_goals rfl

/-- A page that is not live, or of another link, takes no register but a doorbell. -/
theorem State.lbxRegister_dead {s : State} {link lb off : Nat} (v : Nat) (h32 : off ≠ 32)
    (h : s.pageTakes link lb = false ∨ s.pagesLive = false) : s.lbxRegister link lb off v = s := by
  unfold State.lbxRegister
  dsimp only
  by_cases h24 : off = 24
  · have hl : s.pagesLive = false ∨ (s.box lb).onLink link = false ∨ 64 ≤ lb := by
      rcases h with h | h
      · exact .inr (.inl (Bool.or_eq_false_iff.mp h).1)
      · exact .inl h
    rw [if_pos h24]
    unfold State.lbxControl
    exact if_pos hl
  · rw [if_neg h24, if_neg h32, if_pos (by rcases h with h | h <;> simp [h])]

/-- What a write to a letterbox's page leaves alone: no register there, a ring register outside IDLE, or a page that does not take it. -/
theorem State.lbxRegister_same {s : State} {link lb off : Nat} (v : Nat) (hlb : lb < 64)
    (h : off ∉ [0, 8, 16, 24, 32, 40] ∨ (off ∈ [0, 8, 16] ∧ (s.box lb).state ≠ .idle)
      ∨ (off ≠ 32 ∧ (s.pageTakes link lb = false ∨ s.pagesLive = false))) : s.lbxRegister link lb off v = s := by
  simp only [List.mem_cons, List.not_mem_nil, or_false, not_or] at h
  by_cases hd : s.pageTakes link lb = false ∨ s.pagesLive = false
  · exact State.lbxRegister_dead v (by omega) hd
  · simp only [not_or, Bool.not_eq_false] at hd
    rcases h with h | ⟨h, hst⟩ | h
    · rw [State.lbxRegister_taken v (by omega) (by omega) hlb hd.2 hd.1, if_neg (by omega), if_neg (show ¬off = 0 by omega),
        if_neg (show ¬off = 8 by omega), if_neg (show ¬off = 16 by omega), ite_self]
    · rw [State.lbxRegister_taken v (by omega) (by omega) hlb hd.2 hd.1, if_neg (by omega), if_pos hst]
    · rcases h.2 with h | h
      · rw [hd.1] at h; cases h
      · rw [hd.2] at h; cases h

/-- The registers of an envelope page that is live (R273, R274). -/
theorem State.envRegister_live {s : State} {link h off : Nat} (v : Nat) (h16 : off ≠ 16) (h2 : link < 2) (hh : h < 256)
    (hp : s.pagesLive = true) :
    s.envRegister link h off v =
      if off = 24 then (s.modRing link h (fun e => { e with produced := v % 65536 })).count (islandH link) 6 none 1
      else if (s.ring link h).state ≠ .disabled then s
      else if off = 0 then s.modRing link h (fun e => { e with descBase := v / 4096, descLog2 := v % 16 })
      else if off = 8 then s.modRing link h (fun e => { e with cplBase := v / 4096, cplLog2 := v % 16 })
      else s := by
  unfold State.envRegister
  rw [if_neg h16, if_neg (by simp only [hp, Bool.true_eq_false, false_or]; omega)]

/-- The ring registers of a DISABLED envelope ring (R273). -/
theorem State.envRegister_rings {s : State} {link h : Nat} (v : Nat) (h2 : link < 2) (hh : h < 256) (hp : s.pagesLive = true)
    (hd : (s.ring link h).state = .disabled) :
    s.envRegister link h 0 v = s.modRing link h (fun e => { e with descBase := v / 4096, descLog2 := v % 16 })
    ∧ s.envRegister link h 8 v = s.modRing link h (fun e => { e with cplBase := v / 4096, cplLog2 := v % 16 }) := by
  refine ⟨?_, ?_⟩
  all_goals rw [State.envRegister_live v (by omega) h2 hh hp, if_neg (by omega), if_neg (not_not_intro hd)]
  all_goals rfl

theorem State.envRegister_dead {s : State} {link h off : Nat} (v : Nat) (hp : s.pagesLive = false) : s.envRegister link h off v = s := by
  unfold State.envRegister State.envControl
  simp only [hp, true_or, if_true, ite_self]

/-- What a write to an envelope page leaves alone. -/
theorem State.envRegister_same {s : State} {link h off : Nat} (v : Nat) (h2 : link < 2) (hh : h < 256)
    (hs : off ∉ [0, 8, 16, 24] ∨ (off ∈ [0, 8] ∧ (s.ring link h).state ≠ .disabled) ∨ s.pagesLive = false) :
    s.envRegister link h off v = s := by
  simp only [List.mem_cons, List.not_mem_nil, or_false, not_or] at hs
  cases hp : s.pagesLive with
  | false => exact State.envRegister_dead v hp
  | true =>
    rcases hs with hs | ⟨hs, hst⟩ | hs
    · rw [State.envRegister_live v (by omega) h2 hh hp, if_neg (by omega), if_neg (show ¬off = 0 by omega),
        if_neg (show ¬off = 8 by omega), ite_self]
    · rw [State.envRegister_live v (by omega) h2 hh hp, if_neg (by omega), if_pos hst]
    · rw [hp] at hs; cases hs

/-- A doorbell that its page takes, of a letterbox that is served (R36). -/
theorem State.lbxDoorbell_taken {s : State} {link lb : Nat} (v : Nat) (hlb : lb < 64) (hp : s.pagesLive = true)
    (ht : s.boot.tamperHeld = false) (hl : (s.box lb).onLink link = true) (hu : (s.box lb).state ≠ .unbound)
    (hc : (s.box lb).state ≠ .closed) :
    s.lbxDoorbell link lb v
      = (s.modBox lb (fun b => { b with cmdProduced := v % 65536, doorbellAt := s.now })).count (islandH link) 6 none 1 := by
  simp only [State.pagesLive, Bool.and_eq_true, Bool.not_eq_true', decide_eq_true_eq] at hp
  obtain ⟨⟨hr, hpow⟩, hstart⟩ := hp
  unfold State.lbxDoorbell
  dsimp only
  rw [if_neg (by simp only [hr, hpow, Bool.false_eq_true, Bool.true_eq_false, false_or]; omega), if_neg (by simp [hstart, ht])]
  split
  · contradiction
  · contradiction
  · exact if_pos (State.pageTakes_of_onLink hl)

/-! ### Envelope rings and the firmware's start -/

/-- Enabling a DISABLED ring with valid registers, for a job that is served and whose root is ACTIVE (R274). -/
theorem State.envControl_enables {s u : State} {link h : Nat} {v : Nat} {r : JobRoot} (h2 : link < 2) (hh : h < 256)
    (hp : s.pagesLive = true) (hk : tget s.kv.jobRoots h = some r) (hr : r.state = .active)
    (hu : u = s.modRing link h (fun e => { e with msix := bit v 1 })) (hd : (u.ring link h).state = .disabled)
    (hv : (u.ring link h).valid = true) (hb : bit v 0 = true) (hs : u.serving h = true) :
    s.envControl link h v = ((((u.draw 64).2.derived 1).derived 1).keyHeldBy h (islandH link)).modRing link h (fun e => { e with
      state := .enabled, enable := true, nextSeq := 1, session := (u.draw 64).1, tagFails := 0, doneCount := 0,
      sk0 := some (sessionKey (envKey r.jrk link 0) (u.draw 64).1),
      sk1 := some (sessionKey (envKey r.jrk link 1) (u.draw 64).1) }) := by
  have hku : tget u.kv.jobRoots h = some r := by rw [hu]; exact hk
  unfold State.envControl
  rw [if_neg (by simp only [hp, Bool.true_eq_false, false_or]; omega), ← hu]
  simp only [hd, hb, hs, hv, hku, hr, and_self, if_true, ne_eq, not_true_eq_false, if_false]

/-- The boot ROM fetches an image of an acceptable length (R495). -/
theorem State.fetchImage_fetches {s : State} (hlo : 4160 ≤ s.boot.fwLength) (hhi : s.boot.fwLength ≤ 4259840) :
    s.fetchImage = (State.setBootCode { s with boot := { s.boot with goLatched := false, fetchLength := s.boot.fwLength } } 0xFE).emit
      (.hostRead 0 (s.boot.fwBase * 4096) s.boot.fwLength) := by
  unfold State.fetchImage
  dsimp only
  rw [if_neg (by omega)]

theorem State.fwControl_go {s : State} {v : Nat} (hp : s.boot.powered = true) (hu : 0 ∈ s.boot.hostUp) (hw : s.wantsImage = true)
    (hg : bit v 63 = true) :
    s.fwControl 0 v = if s.boot.inReset then { s with boot := { s.boot with fwLength := v % 2 ^ 32, goLatched := true } }
      else State.fetchImage { s with boot := { s.boot with fwLength := v % 2 ^ 32 } } := by
  have hw' : State.wantsImage { s with boot := { s.boot with fwLength := v % 2 ^ 32 } } = true := hw
  unfold State.fwControl
  dsimp only
  rw [if_neg (by simp [hp, hu]), if_neg (by simp only [hg, hw', Bool.true_eq_false, or_self, not_false_eq_true])]

/-- Settles O19: each write acts by the state of what it writes to. -/
theorem hostWrites : Obligations.HostWrites := by
  refine ⟨fun s link lb v hlb hu hp hl hst hb h1 h8 hr h6 h12 => ?_, fun s link lb v hlb hu hp hl hst hb hbad => ?_,
    fun s link lb v hlb hu hp hl hst => ?_, fun s link lb v hlb hu hp hl hst hb => ⟨fun hf => ?_, fun hf => ?_⟩,
    fun s link lb v hlb hu hp ht hl hub hcl => ?_, fun s v hu => ?_, fun s link lb v h2 hu hlb hp hl => ?_,
    fun s link lb v h2 hu hlb hp hl hst => ?_, fun s link lb off v h2 hu hlb ho hs => ?_,
    fun s link h v h2 hu hh hp => ⟨fun hd => ?_, ?_⟩, fun s link h off v h2 hu hh ho hs => ?_,
    fun s link off v h2 hu ho => ?_, fun s link off v h2 hu ho => ?_,
    fun s link h v r e h2 hu hh hp hk hr he hd hv hb hs => ?_, fun s v hlive hu hw hg hlo hhi => ?_, fun s v hpow hres hu hw hg => ?_⟩
  · exact ends_lbxControlWrite hu
      (State.lbxControl_enables _ hlb hp hl hst hb ((Lbx.ringsOk_iff _).mpr ⟨h1, h8, hr, h6, h12⟩))
  · have hno : (s.box lb).ringsOk = false := by
      rw [Bool.eq_false_iff, ne_eq, Lbx.ringsOk_iff]
      omega
    exact ends_lbxControlWrite hu (State.lbxControl_refuses _ hlb hp hl hst hno)
  · exact ends_lbxControlWrite hu (State.lbxControl_throttled _ hlb hp hl hst)
  · refine ends_lbxControlWrite hu ((State.lbxControl_disables _ hlb hp hl hst hb).trans (State.idleAfter_free hf ?_ ?_ ?_))
    all_goals simp only [State.msixSet, State.box_modBox_self]
    · exact hst
    · exact Lbx.not_fabric_of_onLink hl
  · exact ends_lbxControlWrite hu ((State.lbxControl_disables _ hlb hp hl hst hb).trans (State.idleAfter_blocked hf))
  · exact ends_of_eq rfl ((if_pos hu).trans (State.lbxDoorbell_taken _ hlb hp ht hl hub hcl))
  · exact ends_registerWrite (State.registerWrite_up _ _ (by omega) hu)
  · refine ends_registerWrite ?_
    rw [State.registerWrite_lbx h2 hu _ hlb (by omega),
      State.lbxRegister_taken _ (by omega) (by omega) hlb hp (State.pageTakes_of_onLink hl), if_pos rfl]
  · obtain ⟨hcmd, hrpl, hntc⟩ := State.lbxRegister_rings v.toNat hlb hp hl hst
    exact ⟨ends_registerWrite ((State.registerWrite_lbx (off := 0) h2 hu _ hlb (by omega)).trans hcmd),
      ends_registerWrite ((State.registerWrite_lbx h2 hu _ hlb (by omega)).trans hrpl),
      ends_registerWrite ((State.registerWrite_lbx h2 hu _ hlb (by omega)).trans hntc)⟩
  · exact ends_registerWrite ((State.registerWrite_lbx h2 hu _ hlb ho).trans (State.lbxRegister_same _ hlb hs))
  · obtain ⟨hdesc, hcpl⟩ := State.envRegister_rings v.toNat h2 hh hp hd
    exact ⟨ends_registerWrite ((State.registerWrite_env (off := 0) h2 hu _ hh (by omega)).trans hdesc),
      ends_registerWrite ((State.registerWrite_env h2 hu _ hh (by omega)).trans hcpl)⟩
  · refine ends_registerWrite ((State.registerWrite_env h2 hu _ hh (by omega)).trans ?_)
    rw [State.envRegister_live _ (by omega) h2 hh hp, if_pos rfl]
  · exact ends_registerWrite ((State.registerWrite_env h2 hu _ hh ho).trans (State.envRegister_same _ h2 hh hs))
  · refine ends_registerWrite ((State.registerWrite_msix h2 hu _ ho).trans ?_)
    rw [BitVec.ofNat_toNat, BitVec.setWidth_eq]
  · exact ends_registerWrite (State.registerWrite_none h2 hu _ ho)
  · rw [he] at hd hv
    exact ends_of_eq rfl ((if_pos hu).trans (State.envControl_enables h2 hh hp hk hr rfl hd hv hb hs))
  · simp only [State.live, Bool.and_eq_true, Bool.not_eq_true'] at hlive
    obtain ⟨hpow, hres⟩ := hlive
    refine ends_of_eq rfl ?_
    rw [State.fwControl_go hpow hu hw hg, hres, if_neg (by decide), State.fetchImage_fetches hlo hhi]
  · exact ends_of_eq rfl ((State.fwControl_go hpow hu hw hg).trans (if_pos hres))

end Machine
end Sys2Proof
end

section
/-!
PROOFS. What the handlers of the queries answer: a refusal or an answer, with no effect.
-/

namespace Sys2Proof
namespace Machine

/-! ### What a query answers -/

/-- A verdict that changes nothing but what `State.apartCp` sets aside: a refusal, or an answer. -/
def Verdict.Asks (v : Verdict) (s : State) : Prop := (∃ a, v = .stop a) ∨ ∃ a t, v = .reply a t ∧ t.apartCp = s.apartCp

theorem answerWith_asks (s : State) (body : Bytes) : (answerWith s body).Asks s := .inr ⟨_, _, rfl, rfl⟩

theorem refuse_asks (s : State) (st : Status) : (refuse st).Asks s := .inl ⟨_, rfl⟩

theorem asks_ite {s : State} {p : Prop} [Decidable p] {v w : Verdict} (hv : v.Asks s) (hw : w.Asks s) :
    (if p then v else w).Asks s := by
  split
  · exact hv
  · exact hw

theorem asks_of_partGate {s : State} {p : Nat} {a b : Bool} {v : Verdict} (h : s.partGate p a b = some v) : v.Asks s := by
  unfold State.partGate at h
  dsimp only at h
  split at h
  · cases h; exact refuse_asks ..
  · cases h
  · split at h <;> cases h
    exact .inl ⟨_, rfl⟩
  · split at h <;> cases h
    exact .inl ⟨_, rfl⟩

theorem asks_of_attestGate {s : State} {j : Option Job} {v : Verdict} (h : s.attestGate j = some v) : v.Asks s := by
  unfold State.attestGate at h
  split at h
  · exact asks_of_partGate h
  · cases h

theorem asks_of_jobGate {s : State} {n : Nat} {v : Verdict} (h : s.jobGate n = .error v) : v.Asks s := by
  unfold State.jobGate at h
  split at h
  · cases h; exact refuse_asks ..
  · split at h
    · rename_i hg; cases h; exact asks_of_partGate hg
    · split at h <;> cases h
      exact refuse_asks ..

theorem asks_of_ctxGate {s : State} {n : Nat} {a b : Bool} {v : Verdict} (h : s.ctxGate n a b = .error v) : v.Asks s := by
  unfold State.ctxGate at h
  split at h
  · cases h; exact refuse_asks ..
  · split at h
    · cases h; exact refuse_asks ..
    · split at h
      · rename_i hg; cases h; exact asks_of_partGate hg
      · cases h

theorem asks_of_target {s : State} {c : Cmd} {v : Verdict} (h : s.target c = .error v) : v.Asks s := by
  unfold State.target at h
  split at h
  · split at h
    · rename_i hg; cases h; exact asks_of_jobGate hg
    · split at h <;> cases h
      exact refuse_asks ..
  · dsimp only at h
    split at h <;> cases h
    exact refuse_asks ..

theorem hAttest_asks (s : State) (c : Cmd) : (hAttest.run s c).Asks s := by
  unfold hAttest
  dsimp only
  refine asks_ite (refuse_asks ..) ?_
  split
  · rename_i hg; exact asks_of_attestGate hg
  · split
    · exact refuse_asks ..
    · exact .inr ⟨_, _, rfl, State.calls_apartCp ..⟩

theorem hJobStatus_asks (s : State) (c : Cmd) : (hJobStatus.run s c).Asks s := by
  unfold hJobStatus
  dsimp only
  split
  · split
    · rename_i hg; exact asks_of_partGate hg
    · exact answerWith_asks ..
  · exact refuse_asks ..

theorem hContextStatus_asks (s : State) (c : Cmd) : (hContextStatus.run s c).Asks s := by
  unfold hContextStatus
  dsimp only
  split
  · rename_i hg; exact asks_of_ctxGate hg
  · exact answerWith_asks ..

theorem hRegionStatus_asks (s : State) (c : Cmd) : (hRegionStatus.run s c).Asks s :=
  asks_ite (refuse_asks ..) (answerWith_asks ..)

theorem hTreeStatus_asks (s : State) (c : Cmd) : (hTreeStatus.run s c).Asks s := by
  unfold hTreeStatus
  dsimp only
  split
  · rename_i hg; exact asks_of_target hg
  · exact answerWith_asks ..

theorem hCourierStatus_asks (s : State) (c : Cmd) : (hCourierStatus.run s c).Asks s := by
  unfold hCourierStatus
  dsimp only
  split
  · rename_i hg; exact asks_of_jobGate hg
  · exact answerWith_asks ..

theorem hAssocStatus_asks (s : State) (c : Cmd) : (hAssocStatus.run s c).Asks s := by
  unfold hAssocStatus
  dsimp only
  split
  · rename_i hg; exact asks_of_jobGate hg
  · exact answerWith_asks ..

theorem hEnvelopeStatus_asks (s : State) (c : Cmd) : (hEnvelopeStatus.run s c).Asks s := by
  unfold hEnvelopeStatus
  dsimp only
  split
  · rename_i hg; exact asks_of_jobGate hg
  · exact answerWith_asks ..

theorem hMapStatus_asks (s : State) (c : Cmd) : (hMapStatus.run s c).Asks s := by
  unfold hMapStatus
  dsimp only
  split
  · rename_i hg; exact asks_of_jobGate hg
  · exact answerWith_asks ..

theorem hWindowStatus_asks (s : State) (c : Cmd) : (hWindowStatus.run s c).Asks s := by
  unfold hWindowStatus
  dsimp only
  split
  · rename_i hg; exact asks_of_jobGate hg
  · exact asks_ite (answerWith_asks ..) (asks_ite (refuse_asks ..) (answerWith_asks ..))

theorem hFenceStatus_asks (s : State) (c : Cmd) : (hFenceStatus.run s c).Asks s := by
  unfold hFenceStatus
  dsimp only
  split
  · rename_i hg; exact asks_of_jobGate hg
  · exact asks_ite (answerWith_asks ..) (asks_ite (refuse_asks ..) (answerWith_asks ..))

theorem hReductionStatus_asks (s : State) (c : Cmd) : (hReductionStatus.run s c).Asks s := by
  unfold hReductionStatus
  dsimp only
  split
  · rename_i hg; exact asks_of_jobGate hg
  · exact asks_ite (answerWith_asks ..) (asks_ite (refuse_asks ..) (answerWith_asks ..))

theorem hGroupStatus_asks (s : State) (c : Cmd) : (hGroupStatus.run s c).Asks s := by
  unfold hGroupStatus
  dsimp only
  split
  · rename_i hg; exact asks_of_jobGate hg
  · split
    · exact refuse_asks ..
    · exact answerWith_asks ..

theorem hMasterStatus_asks (s : State) (c : Cmd) : (hMasterStatus.run s c).Asks s := by
  unfold hMasterStatus
  dsimp only
  split
  · rename_i hg; exact asks_of_jobGate hg
  · exact asks_ite (.inl ⟨_, rfl⟩) (answerWith_asks ..)

theorem hSuspectList_asks (s : State) (c : Cmd) : (hSuspectList.run s c).Asks s := by
  unfold hSuspectList
  dsimp only
  split
  · rename_i hg; exact asks_of_partGate hg
  · exact answerWith_asks ..

theorem hContextFaults_asks (s : State) (c : Cmd) : (hContextFaults.run s c).Asks s := by
  unfold hContextFaults
  dsimp only
  split
  · rename_i hg; exact asks_of_ctxGate hg
  · exact answerWith_asks ..

theorem hCounterRead_asks (s : State) (c : Cmd) : (hCounterRead.run s c).Asks s := by
  unfold hCounterRead
  dsimp only
  split
  · exact refuse_asks ..
  · exact answerWith_asks ..

theorem hJobCounters_asks (s : State) (c : Cmd) : (hJobCounters.run s c).Asks s := by
  unfold hJobCounters
  dsimp only
  split
  · exact asks_ite (refuse_asks ..) (answerWith_asks ..)
  · exact refuse_asks ..

/-- The entry that a KEY_INDEX_STATUS names needs no fetch: its sector is lost or at hand, or a node above it lies in a fenced stack. -/
def State.entrySettled (s : State) (c : Cmd) : Prop :=
  ∀ h j, s.jobGate (c.arg 0 4) = .ok (h, j) →
    s.entryLost h (c.arg 4 4) = true ∨ s.entryFenced h (c.arg 4 4) = true ∨ s.entryAtHand h (c.arg 4 4) = true

/-- What is fenced and not at hand is lost. -/
theorem State.entryLost_of_fenced {s : State} {h i : Nat} (hf : s.entryFenced h i = true) (ha : s.entryAtHand h i = false) :
    s.entryLost h i = true := by
  unfold State.entryLost
  rw [hf, ha, Bool.true_or, Bool.not_false, Bool.and_self, Bool.or_true]

theorem hKeyIndexStatus_asks {s : State} {c : Cmd} (hs : s.entrySettled c) : (hKeyIndexStatus.run s c).Asks s := by
  unfold hKeyIndexStatus
  dsimp only
  split
  · rename_i hg; exact asks_of_jobGate hg
  · rename_i h j hg
    split
    · exact refuse_asks ..
    · split
      · exact .inr ⟨_, _, rfl, rfl⟩
      · rename_i hl
        split
        · exact answerWith_asks ..
        · rename_i ha
          rcases hs h j hg with hl' | hf | ha'
          · exact absurd hl' hl
          · exact absurd (State.entryLost_of_fenced hf (Bool.eq_false_iff.mpr ha)) hl
          · exact absurd ha' ha

/-! ### What is known of a table's entry lies in what `State.apart` keeps -/

theorem State.lookUp_apart (s : State) (tree depth : Nat) (root : Node) (up idx : Nat) :
    s.apart.lookUp tree depth root up idx = s.lookUp tree depth root up idx := by
  induction up generalizing idx with
  | zero => rfl
  | succ up ih =>
    unfold State.lookUp
    rw [ih]
    rfl

theorem State.nodeAt_apart (s : State) (tree lvl idx : Nat) : s.apart.nodeAt tree lvl idx = s.nodeAt tree lvl idx := by
  unfold State.nodeAt
  simp only [State.lookUp_apart]
  rfl

theorem State.tableNeeds_apart (s : State) (h i : Nat) : s.apart.tableNeeds h i = s.tableNeeds h i := by
  unfold State.tableNeeds State.absentPath
  simp only [State.nodeAt_apart]
  rfl

theorem State.entryFenced_apart (s : State) (h i : Nat) : s.apart.entryFenced h i = s.entryFenced h i := by
  unfold State.entryFenced
  rw [State.tableNeeds_apart]
  rfl

theorem State.entryGone_apart (s : State) (h i : Nat) : s.apart.entryGone h i = s.entryGone h i := by
  unfold State.entryGone
  rw [State.tableNeeds_apart]
  rfl

theorem State.entryLost_apart (s : State) (h i : Nat) : s.apart.entryLost h i = s.entryLost h i := by
  unfold State.entryLost
  rw [State.nodeAt_apart, State.entryFenced_apart, State.entryGone_apart]
  rfl

theorem State.entrySettled_apart (s : State) (c : Cmd) : s.apart.entrySettled c ↔ s.entrySettled c := by
  unfold State.entrySettled
  simp only [State.entryLost_apart, State.entryFenced_apart]
  rfl

theorem State.entrySettled_of_apart {s u : State} {c : Cmd} (h : u.apart = s.apart) (hs : s.entrySettled c) : u.entrySettled c := by
  rw [← State.entrySettled_apart, h, State.entrySettled_apart]
  exact hs

end Machine
end Sys2Proof
end

section
/-!
PROOFS. A query through a host link leaves a block at rest as it was.
-/

namespace Sys2Proof
namespace Machine

/-! ### A query through a host link -/

section query
variable {s : State} {h : Handler} {c : Cmd} {key : Key} {nonce : BitVec 64}

/-- A command whose verdict changes nothing is decided with nothing changed, where it is not held for full service. -/
theorem State.decideCmd_apartCp (ha : (h.run s c).Asks s) (hw : s.awaitsService = false ∨ c.lb ≠ 0) :
    (s.decideCmd (some h) c key nonce).apartCp = s.apartCp := by
  cases hp : preCheck (some h) s c with
  | some e => rw [State.decideCmd_refused hp]; exact State.replyWith_apartCp ..
  | none =>
    unfold State.decideCmd
    simp only [hp]
    rw [if_neg (by rcases hw with hw | hw <;> simp [hw])]
    rcases ha with ⟨a, hr⟩ | ⟨a, t, hr, ht⟩
    · simp only [hr]
      exact State.replyWith_apartCp ..
    · simp only [hr]
      split
      · exact State.replyWith_apartCp ..
      · rename_i u hu
        split
        · exact State.replyWith_apartCp ..
        · exact (State.replyWith_apartCp ..).trans ((State.takeToken_apartCp hu).trans ht)

/-- The states that share `State.apart` with `s`: what a query may take it to, and what it is decided in. -/
def State.AsksFrom (s : State) (h : Handler) (c : Cmd) : Prop :=
  ∀ u : State, u.apart = s.apart → (h.run u c).Asks u

theorem State.verified_apartCp {u : State} {l : Nat} (hv : c.via = .host l) (hu : u.apart = s.apart) (ha : s.AsksFrom h c)
    (hd : s.dg.aborted = false) (hw : s.awaitsService = false ∨ c.lb ≠ 0) :
    (u.verified (some h) c key).apartCp = u.apartCp := by
  have hn : u.noteNode c = u := by unfold State.noteNode; rw [hv]
  unfold State.verified
  simp only [hn, hv]
  have h0 : (u.modBox c.lb (fun b => { b with failCount := 0 })).apartCp = u.apartCp := State.modBox_apartCp ..
  split
  · exact (State.replyWith_apartCp ..).trans h0
  · split
    · exact (State.replyWith_apartCp ..).trans h0
    · have h1 : ((u.modBox c.lb (fun b => { b with failCount := 0 })).modBox c.lb
          (fun b => { b with nextSeq := b.nextSeq + 1 })).apartCp = u.apartCp := (State.modBox_apartCp ..).trans h0
      generalize (u.modBox c.lb (fun b => { b with failCount := 0 })).modBox c.lb (fun b => { b with nextSeq := b.nextSeq + 1 }) = t
        at h1 ⊢
      have ht : t.apart = s.apart := (State.apart_of_apartCp h1).trans hu
      have hda : t.dg.aborted = s.dg.aborted := congrArg (fun x => x.dg.aborted) ht
      have hwa : t.awaitsService = s.awaitsService := congrArg (fun x => x.awaitsService) ht
      rw [State.taken_whole (hda.trans hd)]
      exact (State.decideCmd_apartCp (ha t ht) (hwa.symm ▸ hw)).trans h1

theorem State.serve_apartCp {u : State} {l : Nat} (hv : c.via = .host l) (hu : u.apart = s.apart) (ha : s.AsksFrom h c)
    (hd : s.dg.aborted = false) (hw : s.awaitsService = false ∨ c.lb ≠ 0) :
    (u.serve (some h) c).apartCp = u.apartCp := by
  unfold State.serve
  split
  · exact State.unauth_apartCp ..
  · split
    · exact State.unauth_apartCp ..
    · split
      · exact State.unauth_apartCp ..
      · split
        · exact State.checkFailed_apartCp ..
        · dsimp only
          split
          · exact (State.checkFailed_apartCp ..).trans (State.calls_apartCp ..)
          · exact (State.verified_apartCp hv ((State.apart_of_apartCp (State.calls_apartCp ..)).trans hu) ha hd hw).trans
              (State.calls_apartCp ..)

end query

/-- What a block at rest has nothing of: packets at the CP or in a letterbox, a command that the CP waits with, places, abortions. -/
theorem State.quiet_of_rest {s : State} (hr : s.atRest = true) :
    s.sniby.atCp = [] ∧ s.noneWaiting = true ∧ s.sniby.blocked = none ∧ s.placeWaits = false ∧ s.dg.aborted = false := by
  simp only [State.atRest, Bool.and_eq_true, List.isEmpty_iff, Option.isNone_iff_eq_none, Bool.not_eq_true'] at hr
  obtain ⟨⟨⟨⟨⟨⟨⟨⟨-, hcp⟩, hwait⟩, hblocked⟩, hplace⟩, hab⟩, -⟩, -⟩, -⟩ := hr
  exact ⟨hcp, hwait, hblocked, hplace, hab⟩

/-- A query through a host link, of a block at rest, changes nothing that `State.apart` keeps (R46). -/
theorem query_apart {i : Nat → Via → Packet → Instr} {op : Nat} {h : Handler} {s : State} {lb l : Nat} {p : Packet}
    (hx : ∀ lb via p s, exec (i lb via p) s = s.command op lb via p) (ht : handlerFor op = some h) (hr : s.atRest = true)
    (hw : s.awaitsService = false ∨ lb ≠ 0) (ha : s.AsksFrom h { op := op, lb := lb, via := .host l, p := p }) :
    ∃ t, exec (i lb (.host l) p) s = .next t ∧ t.apart = s.apart := by
  obtain ⟨hcp, hnone, hblocked, hplace, hab⟩ := State.quiet_of_rest hr
  have hsame : s.ended.apart = s.apart := State.ended_apart hr rfl hblocked (.inl ⟨hcp, hnone⟩)
  refine ⟨_, hx lb (.host l) p s, ?_⟩
  rw [State.ahead_of_no_place hplace]
  unfold State.packetArrives State.arrive
  dsimp only
  split
  · exact hsame
  · split
    · split
      · rename_i hbusy
        refine State.ended_apart hr rfl hblocked (.inr ?_)
        simpa [State.cpBusy, hblocked] using hbusy
      · have hu : (s.takeNext lb (.host l)).apartCp = s.apartCp := State.takeNext_apartCp ..
        rw [ht]
        have hs := (State.serve_apartCp (u := s.takeNext lb (.host l)) (c := { op := op, lb := lb, via := .host l, p := p }) rfl
          (State.apart_of_apartCp hu) ha hab hw).trans hu
        exact State.ended_apart hr (State.apart_of_apartCp hs) ((State.blocked_of_apartCp hs).trans hblocked)
          (.inl ⟨(State.atCp_of_apartCp hs).trans hcp, (State.noneWaiting_of_apartCp hs).trans hnone⟩)
    · exact hsame

/-- Row `i` is a query: its handler answers without an effect, a KEY_INDEX_STATUS where its entry needs no fetch. -/
def QueryRow (i : Nat → Via → Packet → Instr) : Prop :=
  ∃ op h, (∀ lb via p s, exec (i lb via p) s = s.command op lb via p) ∧ handlerFor op = some h
    ∧ ∀ s c, (i = Instr.keyIndexStatus → s.entrySettled c) → (h.run s c).Asks s

theorem queryRow {i : Nat → Via → Packet → Instr} (op : Nat) (h : Handler) (ha : ∀ s c, (h.run s c).Asks s)
    (hx : ∀ lb via p s, exec (i lb via p) s = s.command op lb via p := by intros; rfl) (ht : handlerFor op = some h := by rfl) :
    QueryRow i := ⟨op, h, hx, ht, fun s c _ => ha s c⟩

/-- The queries and their opcodes. -/
theorem queryRows : ∀ i ∈ [Instr.nop, .identify, .lifecycleStatus, .keyVaultStatus, .digestStatus, .attest, .readMeasurements,
    .permitStatus, .partitionStatus, .jobStatus, .contextStatus, .regionStatus, .keyIndexStatus, .sectorCounts, .treeStatus,
    .courierStatus, .treeCounts, .assocStatus, .assocCounts, .envelopeStatus, .routeStatus, .windowStatus, .mapStatus, .fenceStatus,
    .remoteCounts, .reductionStatus, .groupStatus, .reductionCounts, .masterStatus, .internalStatus, .regulationCounts,
    .powerStatus, .calibrationStatus, .throttleStatus, .powerSample, .marginStatus, .faultStatus, .healthStatus, .suspectList,
    .contextFaults, .traceStatus, .counterRead, .jobCounters, .deadLetterCounts], QueryRow i := by
  simp only [List.forall_mem_cons, List.not_mem_nil, false_implies, implies_true, and_true]
  exact ⟨queryRow 0x0100 hNop (fun _ _ => answerWith_asks ..),
    queryRow 0x0101 hIdentify (fun _ _ => answerWith_asks ..),
    queryRow 0x0200 hLifecycleStatus (fun _ _ => answerWith_asks ..),
    queryRow 0x0204 hKeyVaultStatus (fun _ _ => answerWith_asks ..),
    queryRow 0x0300 hDigestStatus (fun _ _ => answerWith_asks ..),
    queryRow 0x0301 hAttest hAttest_asks,
    queryRow 0x0302 hReadMeasurements (fun _ _ => answerWith_asks ..),
    queryRow 0x0306 hPermitStatus (fun _ _ => answerWith_asks ..),
    queryRow 0x0407 hPartitionStatus (fun _ _ => answerWith_asks ..),
    queryRow 0x0403 hJobStatus hJobStatus_asks,
    queryRow 0x040A hContextStatus hContextStatus_asks,
    queryRow 0x0500 hRegionStatus hRegionStatus_asks,
    ⟨0x0505, hKeyIndexStatus, fun _ _ _ _ => rfl, rfl, fun _ _ hs => hKeyIndexStatus_asks (hs rfl)⟩,
    queryRow 0x0506 hSectorCounts (fun _ _ => answerWith_asks ..),
    queryRow 0x0600 hTreeStatus hTreeStatus_asks,
    queryRow 0x0603 hCourierStatus hCourierStatus_asks,
    queryRow 0x0605 hTreeCounts (fun _ _ => answerWith_asks ..),
    queryRow 0x0700 hAssocStatus hAssocStatus_asks,
    queryRow 0x0705 hAssocCounts (fun _ _ => answerWith_asks ..),
    queryRow 0x0706 hEnvelopeStatus hEnvelopeStatus_asks,
    queryRow 0x0802 hRouteStatus (fun _ _ => answerWith_asks ..),
    queryRow 0x0805 hWindowStatus hWindowStatus_asks,
    queryRow 0x0808 hMapStatus hMapStatus_asks,
    queryRow 0x080D hFenceStatus hFenceStatus_asks,
    queryRow 0x080E hRemoteCounts (fun _ _ => answerWith_asks ..),
    queryRow 0x0902 hReductionStatus hReductionStatus_asks,
    queryRow 0x0903 hGroupStatus hGroupStatus_asks,
    queryRow 0x0904 hReductionCounts (fun _ _ => answerWith_asks ..),
    queryRow 0x0A00 hMasterStatus hMasterStatus_asks,
    queryRow 0x0A01 hInternalStatus (fun _ _ => answerWith_asks ..),
    queryRow 0x0A02 hRegulationCounts (fun _ _ => answerWith_asks ..),
    queryRow 0x0B00 hPowerStatus (fun _ _ => answerWith_asks ..),
    queryRow 0x0B06 hCalibrationStatus (fun _ _ => answerWith_asks ..),
    queryRow 0x0B09 hThrottleStatus (fun _ _ => answerWith_asks ..),
    queryRow 0x0B0A hPowerSample (fun _ _ => answerWith_asks ..),
    queryRow 0x0B0C hMarginStatus (fun _ _ => answerWith_asks ..),
    queryRow 0x0C00 hFaultStatus (fun _ _ => answerWith_asks ..),
    queryRow 0x0C01 hHealthStatus (fun _ _ => answerWith_asks ..),
    queryRow 0x0C03 hSuspectList hSuspectList_asks,
    queryRow 0x0C08 hContextFaults hContextFaults_asks,
    queryRow 0x0D04 hTraceStatus (fun _ _ => answerWith_asks ..),
    queryRow 0x0D08 hCounterRead hCounterRead_asks,
    queryRow 0x0D09 hJobCounters hJobCounters_asks,
    queryRow 0x0D0A hDeadLetterCounts (fun _ _ => answerWith_asks ..)⟩

/-- Settles O54: every query's handler answers without an effect, and a block at rest does nothing of itself. -/
theorem queryFrame : Obligations.QueryFrame := by
  intro s i lb l p hi hr hw hk
  obtain ⟨op, h, hx, ht, ha⟩ := queryRows i hi
  exact query_apart hx ht hr hw (fun u hu => ha u _ (fun hi => State.entrySettled_of_apart hu (hk hi)))

end Machine
end Sys2Proof
end

section
/-!
PROOFS. Partitions, jobs and contexts: when their commands are refused, and what they do where they are accepted (R134 to R157).
-/

namespace Sys2Proof
namespace Machine

/-! ### Refusals and gates -/

/-- A ready command that its handler refuses at step 12 of R46 is answered so, and changes nothing else. -/
theorem exec_refused {i : Nat → Via → Packet → Instr} {op lb : Nat} {via : Via} {p : Packet} {s : State} {h : Handler} {key : Key}
    {a : Ans} (hx : ∀ lb via p s, exec (i lb via p) s = s.command op lb via p) (ht : handlerFor op = some h)
    (r : Ready s h { op := op, lb := lb, via := via, p := p } key)
    (hrun : h.run (s.admitted { op := op, lb := lb, via := via, p := p }) { op := op, lb := lb, via := via, p := p } = .stop a) :
    exec (i lb via p) s = .next ((s.admitted { op := op, lb := lb, via := via, p := p }).replyWith
      { op := op, lb := lb, via := via, p := p } key (s.nonceOf { op := op, lb := lb, via := via, p := p }) a).ended := by
  have hi : RowOf (i lb via p) { op := op, lb := lb, via := via, p := p } := hx lb via p
  rw [exec_turn hi r.toVerified r.turn r.whole, ht, State.decideCmd_stop r.passes r.service hrun]

theorem State.partGate_of_free {s : State} {p : Nat} (a b : Bool) (h : (s.part p).state = .free) :
    s.partGate p a b = some (refuse .badState) := by
  unfold State.partGate; simp only [h]

theorem State.partGate_of_active {s : State} {p : Nat} (a b : Bool) (h : (s.part p).state = .active) : s.partGate p a b = none := by
  unfold State.partGate; simp only [h]

/-! ### Partitions -/

theorem mem_of_mem_tput {α : Type} {t : Table α} {k : Nat} {v : α} {e : Nat × α} (h : e ∈ tput t k v) : e = (k, v) ∨ e ∈ t := by
  induction t with
  | nil => exact .inl (List.mem_singleton.mp h)
  | cons a t ih =>
    obtain ⟨ka, va⟩ := a
    unfold tput at h
    split at h
    · exact List.mem_cons.mp h
    · split at h
      · exact (List.mem_cons.mp h).imp_right (List.mem_cons_of_mem _)
      · rcases List.mem_cons.mp h with rfl | h
        · exact .inr (List.mem_cons_self ..)
        · exact (ih h).imp_right (List.mem_cons_of_mem _)

/-- The only entry that passes a test is the one that a search by the test finds. -/
theorem find?_eq_of_unique {α : Type} {p : α → Bool} {l : List α} {a : α} (hm : a ∈ l) (hp : p a = true)
    (hu : ∀ e ∈ l, p e = true → e = a) : l.find? p = some a := by
  cases hf : l.find? p with
  | none => exact absurd hp (List.find?_eq_none.mp hf a hm)
  | some e => rw [hu e (List.mem_of_find?_eq_some hf) (List.find?_some hf)]

/-- A partition that becomes ACTIVE with tiles of no partition owns them (R134). -/
theorem State.partOfTile_created {s : State} {p t : Nat} {tiles : List Nat} (ht : t ∈ tiles)
    (hn : ∀ u ∈ tiles, s.partOfTile u = none) :
    (s.modPart p (fun _ => { state := .active, tiles := tiles })).partOfTile t = some p := by
  have hf := hn t ht
  unfold State.partOfTile at hf
  rw [Option.map_eq_none_iff, List.find?_eq_none] at hf
  unfold State.partOfTile State.modPart tmodD
  rw [find?_eq_of_unique (tget_mem (tget_tput_self ..)) (by simp [ht]) (fun e he hp => ?_)]
  · rfl
  · exact (mem_of_mem_tput he).resolve_right (fun hin => hf e hin hp)

/-- CREATE_PARTITION's refusals of R136. -/
theorem hCreatePartition_stops {s : State} {c : Cmd}
    (h : (s.part (c.arg 0 1)).state ≠ .free ∨ ∃ t ∈ tilesOf (c.arg 2 2), s.tileTaken t = true) :
    hCreatePartition.run s c = .stop { status := .badState } :=
  if_pos (h.imp_right List.any_eq_true.mpr)

/-- CREATE_PARTITION of a FREE partition with tiles that are in none (R136, R424). -/
theorem hCreatePartition_run {s : State} {c : Cmd} (hf : (s.part (c.arg 0 1)).state = .free)
    (ht : ∀ t ∈ tilesOf (c.arg 2 2), s.tileTaken t = false) :
    hCreatePartition.run s c =
      let u := s.modPart (c.arg 0 1) (fun _ => { state := .active, tiles := tilesOf (c.arg 2 2) })
      let u : State := { u with fault := { u.fault with
        stacksFenced := u.fault.stacksFenced.filter (fun t => decide (t ∉ tilesOf (c.arg 2 2))) } }
      doneWith (u.testEnable (tilesOf (c.arg 2 2)) false) := by
  refine if_neg (not_or.mpr ⟨not_not_intro hf, ?_⟩)
  rw [Bool.not_eq_true, List.any_eq_false]
  intro t hm
  rw [ht t hm]
  decide

/-- DESTROY_PARTITION's refusals of R135 and R136. -/
theorem hDestroyPartition_stops {s : State} {c : Cmd}
    (h : (s.part (c.arg 0 1)).state = .free ∨ ((s.part (c.arg 0 1)).state = .active ∧ s.jobsIn (c.arg 0 1) ≠ [])) :
    hDestroyPartition.run s c = .stop { status := .badState } := by
  unfold hDestroyPartition
  dsimp only
  rcases h with h | ⟨h, hj⟩
  · rw [State.partGate_of_free _ _ h]; rfl
  · rw [State.partGate_of_active _ _ h]
    exact if_neg (by simpa using hj)

/-- DESTROY_PARTITION of an ACTIVE partition without a job (R136). -/
theorem hDestroyPartition_run {s : State} {c : Cmd} (h : (s.part (c.arg 0 1)).state = .active) (hj : s.jobsIn (c.arg 0 1) = []) :
    hDestroyPartition.run s c = doneWith ((s.modPart (c.arg 0 1) (fun _ => {})).testEnable (s.part (c.arg 0 1)).tiles true) := by
  unfold hDestroyPartition
  dsimp only
  rw [State.partGate_of_active _ _ h, hj]
  rfl

/-- RESIZE_PARTITION past the conditions of R137: a tile stays, the tiles that join are free, the stacks that leave hold nothing, and
two tiles are enough for every tree. -/
theorem hResizePartition_run {s : State} {c : Cmd} (h : (s.part (c.arg 0 1)).state = .active)
    (hstay : ∃ t ∈ tilesOf (c.arg 2 2), t ∈ (s.part (c.arg 0 1)).tiles)
    (hjoin : ∀ t ∈ tilesOf (c.arg 2 2), t ∉ (s.part (c.arg 0 1)).tiles → s.tileTaken t = false)
    (hleave : ∀ t ∈ (s.part (c.arg 0 1)).tiles, t ∉ tilesOf (c.arg 2 2) → s.stackHeld t = false)
    (htwo : 2 ≤ (tilesOf (c.arg 2 2)).length) :
    hResizePartition.run s c = .accept [] (some 50) (fun id u => u.modPart (c.arg 0 1) (fun q =>
      { q with state := .resizing, newTiles := tilesOf (c.arg 2 2), op := some id, since := u.now })) := by
  obtain ⟨t, ht, hold⟩ := hstay
  unfold hResizePartition
  dsimp only
  rw [State.partGate_of_active _ _ h]
  dsimp only
  rw [if_neg, if_neg, if_neg, if_neg (fun hc => absurd hc.1 (Nat.not_lt.mpr htwo))]
  · rw [Bool.not_eq_true, List.any_eq_false]
    intro u hu
    obtain ⟨hin, hout⟩ := List.mem_filter.mp hu
    simp [hleave u hin (of_decide_eq_true hout)]
  · rw [Bool.not_eq_true, List.any_eq_false]
    intro u hu hc
    obtain ⟨hnew, htaken⟩ := Bool.and_eq_true_iff.mp hc
    exact absurd htaken (by simp [hjoin u hu (of_decide_eq_true hnew)])
  · rw [List.isEmpty_iff]
    exact List.ne_nil_of_mem (List.mem_filter.mpr ⟨ht, decide_eq_true hold⟩)

/-- A command whose header is in order fails at its first bad body field. -/
theorem paramFault_of_header {h : Handler} {s : State} {c : Cmd} (hh : (headerParams h c).all (·.2) = true) :
    paramFault h s c = firstBad (h.params s c) := by
  have hb : firstBad (headerParams h c) = none := by
    unfold firstBad
    rw [Option.map_eq_none_iff, List.find?_eq_none]
    intro e he
    simp [List.all_eq_true.mp hh e he]
  unfold paramFault
  rw [hb]

/-- CREATE_PARTITION of no tile: the mask is its first bad field (R136). -/
theorem hCreatePartition_emptyMask {s : State} {c : Cmd} (hp : c.arg 0 1 < 16) (hz : c.arg 1 1 = 0) (hm : c.arg 2 2 = 0) :
    firstBad (hCreatePartition.params s c) = some 66 := by
  simp [hCreatePartition, firstBad, zeroAt, hp, hz, hm]

/-- Settles O4: past its gate a command of a partition does what R136 and R137 say, and short of it is refused. -/
theorem partitionCommands : Obligations.PartitionCommands := by
  refine ⟨replies_of (fun _ _ _ _ => rfl) rfl (fun s c _ _ _ hg => hCreatePartition_run hg.1 hg.2),
    accepts_of (fun _ _ _ _ => rfl) rfl (fun s c _ _ _ hg => ?_),
    replies_of (fun _ _ _ _ => rfl) rfl (fun s c _ _ _ hg => hDestroyPartition_run hg.1 hg.2),
    replies_of (fun _ _ _ _ => rfl) rfl (fun _ _ _ _ _ _ => rfl),
    fun s lb via p key r h => exec_refused (fun _ _ _ _ => rfl) rfl r (hCreatePartition_stops h),
    fun s lb via p key r h => exec_refused (fun _ _ _ _ => rfl) rfl r (hDestroyPartition_stops h),
    fun s c hp hz hm hh => ?_, fun s p t tiles _ ht hn => State.partOfTile_created ht hn⟩
  · obtain ⟨hactive, hstay, hjoin, hleave, htwo⟩ := hg
    exact hResizePartition_run hactive hstay hjoin hleave htwo
  · rw [paramFault_of_header hh]
    exact hCreatePartition_emptyMask hp hz hm

/-! ### Jobs -/

/-- In PRODUCTION no permit with SCAN or CP_DEBUG is open (step 1 of R143). -/
theorem State.toolsOpen_false {s : State} (h : s.life.inForce = .production → s.right 0 none = false ∧ s.right 1 none = false) :
    s.toolsOpen = false := by
  unfold State.toolsOpen
  by_cases hp : s.life.inForce = .production
  · rw [(h hp).1, (h hp).2, Bool.or_false, Bool.and_false]
  · rw [beq_eq_false_iff_ne.mpr hp, Bool.false_and]

/-- Step 4 of R143: the manifest is hashed and the token processed, with the job's root key or a refusal. -/
def State.tokenOpened (s : State) (c : Cmd) : Except (Status × Nat) Key × State :=
  (s.calls (shakeCalls (8 + (c.p.body.drop 128).length)) false).openToken (c.bytes 0 128) (labelled "MANIFEST" (c.p.body.drop 128))

/-- ADMIT_JOB that passes steps 1 to 5 of R143, with a free handle for step 6 (log 64). -/
theorem hAdmitJob_run {s : State} {c : Cmd} {m : Manifest} {r : Placement} {h : Nat} {jrk : Key} (ht : s.toolsOpen = false)
    (hm : parseManifest s (c.p.body.drop 128) = .ok m) (hn : field (c.bytes 0 128) 4 4 = m.jobNumber)
    (hc : s.jobs.find? (fun e => e.2.number == m.jobNumber && e.2.state == .closing) = none)
    (hk : (s.tokenOpened c).1 = .ok jrk) (hf : (s.tokenOpened c).2.fit m = .ok r) (hh : (s.tokenOpened c).2.freeHandle = some h) :
    hAdmitJob.run s c = .accept [] (some (2000 + treeTime r.placed))
      (fun id u => (u.createJob h id m r jrk (labelled "MANIFEST" (c.p.body.drop 128))).endSweep m.partition)
      (fun u => (u.tokenOpened c).2) := by
  unfold hAdmitJob
  dsimp only
  rw [if_neg (by rw [ht]; decide), hm]
  dsimp only
  rw [if_neg (not_not_intro hn), hc]
  dsimp only
  unfold State.tokenOpened at hk hf hh
  generalize State.openToken (s.calls _ _) _ _ = o at hk hf hh ⊢
  obtain ⟨k, u⟩ := o
  dsimp only at hk hf hh
  rw [hk]
  dsimp only
  rw [hf, hh]
  rfl

/-- TEARDOWN_JOB of a job that is not closing (R153). -/
theorem hTeardownJob_run {s : State} {c : Cmd} {a : Nat × Job} (hn : s.named (c.arg 0 4) = some a) (hs : a.2.state ≠ .closing) :
    hTeardownJob.run s c = .accept [] (some (s.teardownBound a.1)) (fun id u => u.teardownStart a.1 (some id)) := by
  unfold hTeardownJob
  dsimp only
  rw [hn]
  exact if_neg hs

/-- RESIZE_JOB of a job that takes commands, whose records are in order, take nothing that is in use, and fit (R155). -/
theorem hResizeJob_run {s : State} {c : Cmd} {a : Nat × Job} {l : List (Nat × Rec)} {keys : Nat × Nat × Nat}
    (hg : s.jobGate (c.arg 0 4) = .ok a) (hl : resizeRecords c.p.body = .ok l)
    (hh : s.resizeHeld a.1 (a.2.resize l (c.arg 4 4)) = false)
    (hf : s.resizeFit a.1 a.2 l (a.2.resize l (c.arg 4 4)) = .ok keys) :
    hResizeJob.run s c = .accept [] (some 100) (fun id u =>
      let v := u.resizeStart a.1 id (a.2.resize l (c.arg 4 4)) keys
      if (rangesMinus a.2.keyRanges (a.2.resize l (c.arg 4 4)).ranges).isEmpty then v.complete id .done [] else v) := by
  unfold hResizeJob
  dsimp only
  rw [hg, hl]
  dsimp only
  rw [if_neg (by rw [hh]; decide), hf]

/-- JOB_STATUS of a job whose partition takes commands (R157). -/
theorem hJobStatus_run {s : State} {c : Cmd} {a : Nat × Job} (hn : s.named (c.arg 0 4) = some a)
    (hg : s.partGate a.2.partition false false = none) : hJobStatus.run s c = answerWith s (jobBody s a.1 a.2) := by
  unfold hJobStatus
  dsimp only
  rw [hn]
  dsimp only
  rw [hg]

/-- Settles O5: past its own checks each command of a job is accepted or answered. -/
theorem jobCommands : Obligations.JobCommands := by
  refine ⟨acceptsAfter_of (fun _ _ _ _ => rfl) rfl (fun s c _ _ _ hg => ?_),
    accepts_of (fun _ _ _ _ => rfl) rfl (fun s c _ _ _ hg => hTeardownJob_run hg.1 hg.2),
    accepts_of (fun _ _ _ _ => rfl) rfl (fun s c _ _ _ hg => ?_),
    replies_of (fun _ _ _ _ => rfl) rfl (fun s c _ _ _ hg => hJobStatus_run hg.1 hg.2)⟩
  · obtain ⟨htools, hm, hn, hc, hk, hf, hh⟩ := hg
    exact ⟨_, hAdmitJob_run (State.toolsOpen_false htools) hm hn hc hk hf hh, rfl⟩
  · obtain ⟨hgate, hl, hheld, hf⟩ := hg
    exact hResizeJob_run hgate hl hheld hf

/-! ### Contexts -/

/-- OPEN_CONTEXT of a FREE context of a job that takes context commands (R148). -/
theorem hOpenContext_run {s : State} {c : Cmd} {h : Nat} {j : Job} (hg : s.ctxGate (c.arg 0 2) true false = .ok h)
    (hj : s.job h = some j) (ht : j.takesCtx = true) (hs : (s.ctx (c.arg 0 2)).state = .free) :
    hOpenContext.run s c = doneWith ((s.draw 32).2.modCtx (c.arg 0 2) (fun _ =>
      { state := .opened, incarnation := if (s.draw 32).1 = (s.ctx (c.arg 0 2)).incarnation then (s.draw 32).1 + 1
                                         else (s.draw 32).1 })) := by
  unfold hOpenContext
  dsimp only
  rw [hg]
  dsimp only
  rw [hs]
  dsimp only
  rw [hj]
  exact if_pos ht

/-- CLOSE_CONTEXT of an OPEN context of a job that takes context commands (R151). -/
theorem hCloseContext_run {s : State} {c : Cmd} {h : Nat} {j : Job} (hg : s.ctxGate (c.arg 0 2) true false = .ok h)
    (hj : s.job h = some j) (ht : j.takesCtx = true) (hs : (s.ctx (c.arg 0 2)).state = .opened) :
    hCloseContext.run s c = .accept [] (some (s.closeBound h)) (fun id u => u.closeStart h (c.arg 0 2) (some id)) := by
  unfold hCloseContext
  dsimp only
  rw [hg]
  dsimp only
  rw [hj]
  exact if_pos ⟨hs, ht⟩

/-- CONTEXT_STATUS of a job's context, in every state of its partition but FREE (R135, R156). -/
theorem hContextStatus_run {s : State} {c : Cmd} {h : Nat} (hg : s.ctxGate (c.arg 0 2) true true = .ok h) :
    hContextStatus.run s c = answerWith s (ctxBody s (c.arg 0 2)) := by
  unfold hContextStatus
  dsimp only
  rw [hg]

/-- Settles O6: past the gate of R146 each command of a context is accepted or answered. -/
theorem contextCommands : Obligations.ContextCommands := by
  refine ⟨replies_of (fun _ _ _ _ => rfl) rfl (fun s c _ _ _ hg => ?_),
    accepts_of (fun _ _ _ _ => rfl) rfl (fun s c _ _ _ hg => ?_),
    replies_of (fun _ _ _ _ => rfl) rfl (fun s c _ _ _ hg => hContextStatus_run hg)⟩
  · obtain ⟨hgate, hj, ht, hs⟩ := hg
    exact hOpenContext_run hgate hj ht hs
  · obtain ⟨hgate, hj, ht, hs⟩ := hg
    exact hCloseContext_run hgate hj ht hs

end Machine
end Sys2Proof
end

section
/-!
PROOFS. Regions, key indices and sectors: when their commands are accepted or answered (R174, R175, R194 to R199).
-/

namespace Sys2Proof
namespace Machine

/-- REGION_STATUS of a region that is not FREE (R195). -/
theorem hRegionStatus_run {s : State} {c : Cmd} (h : (s.region (c.arg 0 2)).state ≠ .free) :
    hRegionStatus.run s c = answerWith s (s.region (c.arg 0 2)).statusBody := if_neg h

/-- SEAL_REGION of a LOADING region of class WEIGHTS (R196). -/
theorem hSealRegion_run {s : State} {c : Cmd} (hs : (s.region (c.arg 0 2)).state = .loading)
    (hw : (s.region (c.arg 0 2)).cls = .weights) :
    hSealRegion.run s c = .accept [] (some ((s.region (c.arg 0 2)).wcWindow / 1000 + 20)) (fun id u =>
      (u.modRegion (c.arg 0 2) (fun r => { r with state := .sealed, sealOp := some id })).flushWhere
        (fun e => e.region == c.arg 0 2)) :=
  if_neg (not_or.mpr ⟨not_not_intro hs, not_not_intro hw⟩)

/-- SET_WC_WINDOW of a region that still takes writes and seals them (R194). -/
theorem hSetWcWindow_run {s : State} {c : Cmd} (hf : (s.region (c.arg 0 2)).state ≠ .free)
    (hs : (s.region (c.arg 0 2)).state ≠ .sealed) (hc : (s.region (c.arg 0 2)).state ≠ .closing)
    (ho : (s.region (c.arg 0 2)).cls ≠ .opened) :
    hSetWcWindow.run s c = doneWith ((s.modRegion (c.arg 0 2) (fun r => { r with wcWindow := c.arg 4 4 })).flushWhere
      (fun e => e.region == c.arg 0 2)) :=
  if_neg (by simp only [hf, hs, hc, ho, or_self, not_false_eq_true])

/-- ZERO_SECTORS past the conditions of R197: the region takes writes, the key index may seal them, and the sectors lie in it. -/
theorem hZeroSectors_run {s : State} {c : Cmd} (hz : (s.region (c.arg 0 2)).zeroable = true)
    (ha : s.entryAwaited (c.arg 0 2) (c.arg 4 4) = false) (hk : s.sealable (c.arg 0 2) (c.arg 4 4) = true)
    (hn : c.arg 8 8 + c.arg 16 8 ≤ (s.region (c.arg 0 2)).sectors) :
    hZeroSectors.run s c = .accept [] none (fun id u => State.zeroNext { u with mem := { u.mem with zeroRuns := u.mem.zeroRuns ++
      [{ op := id, region := c.arg 0 2, keyIndex := c.arg 4 4, next := c.arg 8 8, stop := c.arg 8 8 + c.arg 16 8,
         written := 0, squash := false, lb := c.lb }] } } id) := by
  unfold hZeroSectors
  dsimp only
  rw [if_neg (by rw [hz]; decide), if_neg (by rw [ha]; decide), if_neg (by rw [hk]; decide), if_neg (Nat.not_lt.mpr hn)]

/-- RETIRE_KEY_INDEX of a LIVE index that is not being retired, with a place for its retirement (R174, R175). -/
theorem hRetireKeyIndex_run {s : State} {c : Cmd} {a : Nat × Job} (hg : s.jobGate (c.arg 0 4) = .ok a)
    (hn : ∀ r ∈ s.courier.retirements, ¬(r.handle = a.1 ∧ r.index = c.arg 4 4)) (hl : (s.entry a.1 (c.arg 4 4)).state = .live)
    (hr : s.courier.retirements.length < 64) :
    hRetireKeyIndex.run s c
      = .accept [] (some (s.retireBound a.1 a.2)) (fun id u => u.retireStart a.1 (c.arg 4 4) (some id)) := by
  have hf : s.courier.retirements.find? (fun r => r.handle == a.1 && r.index == c.arg 4 4) = none :=
    List.find?_eq_none.mpr (fun r hr => by simpa only [Bool.and_eq_true, beq_iff_eq] using hn r hr)
  unfold hRetireKeyIndex
  dsimp only
  rw [hg]
  dsimp only
  rw [hf]
  dsimp only
  rw [if_neg (not_not_intro hl), if_neg (Nat.not_le.mpr hr)]

/-- KEY_INDEX_STATUS of an index whose entry the table's island holds (R198). -/
theorem hKeyIndexStatus_run {s : State} {c : Cmd} {a : Nat × Job} (hg : s.jobGate (c.arg 0 4) = .ok a) (hk : a.2.keyRanges ≠ [])
    (hl : s.entryLost a.1 (c.arg 4 4) = false) (ha : s.entryAtHand a.1 (c.arg 4 4) = true) :
    hKeyIndexStatus.run s c = answerWith s (enc [(8, (a.2.entry (c.arg 4 4)).word), (8, 0)]) := by
  unfold hKeyIndexStatus
  dsimp only
  rw [hg]
  dsimp only
  rw [if_neg (by simpa using hk), if_neg (by rw [hl]; decide), if_pos ha]

/-- Settles O7: past its own conditions each command of a region, a key index or sectors is accepted or answered. -/
theorem regionCommands : Obligations.RegionCommands := by
  refine ⟨replies_of (fun _ _ _ _ => rfl) rfl (fun s c _ _ _ hg => hRegionStatus_run hg),
    accepts_of (fun _ _ _ _ => rfl) rfl (fun s c _ _ _ hg => hSealRegion_run hg.1 hg.2),
    replies_of (fun _ _ _ _ => rfl) rfl (fun s c _ _ _ hg => ?_),
    accepts_of (fun _ _ _ _ => rfl) rfl (fun s c _ _ _ hg => ?_),
    accepts_of (fun _ _ _ _ => rfl) rfl (fun s c _ _ _ hg => ?_),
    replies_of (fun _ _ _ _ => rfl) rfl (fun s c _ _ _ hg => ?_),
    replies_of (fun _ _ _ _ => rfl) rfl (fun _ _ _ _ _ _ => rfl)⟩
  · obtain ⟨hfree, hsealed, hclosing, hopened⟩ := hg
    exact hSetWcWindow_run hfree hsealed hclosing hopened
  · obtain ⟨hzeroable, hawaited, hsealable, hin⟩ := hg
    exact hZeroSectors_run hzeroable hawaited hsealable hin
  · obtain ⟨hgate, hnone, hlive, hroom⟩ := hg
    exact hRetireKeyIndex_run hgate hnone hlive hroom
  · obtain ⟨hgate, hkeys, hlost, hat⟩ := hg
    exact hKeyIndexStatus_run hgate hkeys hlost hat

end Machine
end Sys2Proof
end

section
/-!
PROOFS. The timers of the run-ahead and of write combining, leaf wraps, and the courier (R179, R218, R220, R227, R229).
-/

namespace Sys2Proof
namespace Machine

/-! ### Trackers and the windows of write combining -/

theorem State.reach_region (s : State) (t n : Nat) : (s.reach t).region n = s.region n := by
  unfold State.region; rw [State.reach_regions]

theorem State.reach_wcEntry (s : State) (t region sector : Nat) : (s.reach t).wcEntry region sector = s.wcEntry region sector := by
  unfold State.wcEntry; rw [State.reach_mem]

theorem State.reachOpt_trackerDue {s : State} {island k : Nat} {t : Tracker}
    (h : (s.mem.trackers.filter (fun x => x.island == island))[k]? = some t) :
    s.reachOpt (s.trackerDue island k) = s.reach (t.at_ + 10 * Config.us) := by
  unfold State.trackerDue; rw [h]; rfl

/-- A tracker goes 10 µs after its last access (R218). -/
theorem State.trackerExpired_due {s : State} {island k : Nat} {t : Tracker}
    (h : (s.mem.trackers.filter (fun x => x.island == island))[k]? = some t) (hd : t.at_ + 10 * Config.us ≤ s.now) :
    s.trackerExpired island k = { s with mem := { s.mem with trackers := s.mem.trackers.erase t } } := by
  unfold State.trackerExpired
  rw [h]
  exact if_pos hd

theorem State.reachOpt_windowDue {s : State} {region sector : Nat} {e : WcEntry} (h : s.wcEntry region sector = some e) :
    s.reachOpt (s.windowDue region sector) = s.reach (e.first + (s.region region).wcWindow * 4) := by
  unfold State.windowDue; rw [h]; rfl

/-- A buffer entry whose window has passed goes to its path (rule 5 of R179). -/
theorem State.windowExpired_due {s : State} {region sector : Nat} {e : WcEntry} (h : s.wcEntry region sector = some e)
    (hd : e.first + (s.region region).wcWindow * 4 ≤ s.now) : s.windowExpired e.island region sector = (s.flushEntry e).turn := by
  unfold State.windowExpired
  rw [h]
  exact if_pos ⟨rfl, hd⟩

/-! ### Leaf wraps -/

/-- No schedule is wanted where those of the sectors' generations and of the current one are there. -/
theorem State.noneWanted {s : State} {island h i gen : Nat} {group : List Nat} {gens : Nat → List Nat}
    (hg : ∀ k ∈ group, ∀ g ∈ gens k, s.schedule? island h i g ≠ none) (hc : s.schedule? island h i gen ≠ none) :
    (((group.flatMap gens ++ [gen]).eraseDups).filter (fun g => (s.schedule? island h i g).isNone)).isEmpty = true := by
  rw [List.isEmpty_iff, List.filter_eq_nil_iff]
  intro g hm
  rw [List.mem_eraseDups, List.mem_append, List.mem_flatMap, List.mem_singleton] at hm
  rw [Option.isNone_iff_eq_none]
  rcases hm with ⟨k, hk, hm⟩ | rfl
  · exact hg k hk g hm
  · exact hc

/-- A wrap whose slots are free, whose key can make its seals, and whose schedules and leaf are there, is made once there is room for
the leaf's path (R220). -/
theorem State.leafWrap_wraps {s : State} {island region leaf : Nat} {data : List SectorData} {o : SecOp} {old : Node} {dk : Key}
    (ho : (s.wrapsOf island).find? (fun x => x.region == region && x.sector / 64 == leaf) = some o)
    (hfree : ∀ x ∈ s.mem.ops, x.region = region → x.sector / 64 = leaf → x.stage ≠ .reading ∧ x.stage ≠ .writing)
    (hpool : (s.region region).pooled = false)
    (hseals : (s.entry (s.region region).handle o.keyIndex).seals + (s.leafGroup region leaf).length ≤ 2 ^ 34)
    (hgens : ∀ k ∈ s.leafGroup region leaf, ∀ g ∈ s.openGens region (s.region region).handle k o.keyIndex,
      s.schedule? island (s.region region).handle o.keyIndex g ≠ none)
    (hdk : s.schedule? island (s.region region).handle o.keyIndex (s.entry (s.region region).handle o.keyIndex).gen = some dk)
    (hleaf : s.nodeAt region 1 leaf = .found old) (hlane : s.laneOff = false) (hkey : usableKey dk = true) :
    s.leafWrap island region leaf data = if (s.holdPath region leaf).pathHeld region leaf
      then (s.holdPath region leaf).wrapLeaf island region leaf data o old dk else (s.holdPath region leaf).runBacks := by
  have hidle : s.mem.ops.any (fun x => x.region == region && x.sector / 64 == leaf
      && (x.stage == .reading || x.stage == .writing)) = false := by
    rw [List.any_eq_false]
    intro x hx
    simp only [Bool.and_eq_true, Bool.or_eq_true, beq_iff_eq]
    rintro ⟨⟨hr, hl⟩, hst⟩
    obtain ⟨hnr, hnw⟩ := hfree x hx hr hl
    exact hst.elim hnr hnw
  have hwanted := State.noneWanted hgens (by rw [hdk]; exact Option.some_ne_none dk)
  unfold State.leafWrap
  rw [ho]
  dsimp only
  rw [if_neg (by simp only [hidle, hpool, Bool.false_eq_true, false_and, or_self, not_false_eq_true]),
    if_neg (Nat.not_lt.mpr hseals), if_neg (by rw [hwanted]; decide), hleaf, hdk]
  dsimp only
  rw [if_neg (by rw [hkey]; decide), if_neg (by rw [hlane]; decide)]
  cases (s.holdPath region leaf).pathHeld region leaf <;> rfl

/-! ### The courier -/

/-- The head of the armed queue starts where no walk is under way in its regions and its index may be rekeyed (R227). -/
theorem State.passStart_starts {s : State} {h i : Nat} {ops : List Nat} {rest : List (Nat × Nat × List Nat)}
    (ha : s.courier.armed = (h, i, ops) :: rest) (hn : s.courier.passes.length < 64)
    (hr : ∀ n ∈ s.passRegions h i, (s.region n).courier = none ∧ (s.region n).state ≠ .suspended)
    (hl : (s.entry h i).state = .live) (hg : (s.entry h i).gen ≠ 0xFE) :
    s.passStart =
      let g := (s.entry h i).gen + 1
      let u := (s.passRegions h i).foldl (fun x n => x.modRegion n (fun r => { r with
        courier := some { index := i, gen := g, watermark := 0 }, state := if r.state = .active then .rekeying else r.state })) s
      let v := (u.setEntry h i { gen := g, state := .live, seals := 0 }).uncacheEntry h i
      let p : Pass := {
        handle := h, index := i, gen := g, state := .starting, regions := s.passRegions h i, ops := ops,
        waits := (v.mem.ops.filter (fun o => o.keyIndex == i && (v.regionX o.region).handle == h
          && (o.stage == .writing || o.stage == .wrapping))).map (·.id) }
      State.passesRun { v with courier := { v.courier with
        armed := rest, passes := v.courier.passes ++ [p],
        limitPosted := v.courier.limitPosted.filter (fun x => x != (h, i)) } } := by
  have hfree : (s.passRegions h i).any (fun n => (s.region n).courier.isSome || (s.region n).state == .suspended) = false := by
    rw [List.any_eq_false]
    intro n hm
    obtain ⟨hc, hs⟩ := hr n hm
    simp only [hc, Option.isSome_none, Bool.false_or, beq_iff_eq]
    exact hs
  unfold State.passStart
  rw [ha]
  dsimp only
  rw [if_neg]
  simp only [hfree, hl, hg, Bool.false_eq_true, ne_eq, not_true_eq_false, or_false]
  exact Nat.not_le.mpr hn

/-- The leaf under which a courier finds a sector: a FRESH region's own, which has sealed it, and a blank one elsewhere. -/
def State.walkLeaf (s : State) (n k : Nat) (leaf : Node) : Prop :=
  (s.region n).cls ≠ .fresh ∧ leaf = {} ∨ (s.region n).cls = .fresh ∧ s.nodeAt n 1 (k / 64) = .found leaf
    ∧ leaf.childZero (k % 64) = false

theorem State.walkLeaf_found {s : State} {n k : Nat} {leaf : Node} (h : s.walkLeaf n k leaf) :
    (if (s.region n).cls = .fresh then s.nodeAt n 1 (k / 64) else .found {}) = .found leaf := by
  rcases h with ⟨hc, rfl⟩ | ⟨hc, hf, _⟩
  · exact if_neg hc
  · exact (if_pos hc).trans hf

theorem State.walkLeaf_sealed {s : State} {n k : Nat} {leaf : Node} (h : s.walkLeaf n k leaf) :
    ¬((s.region n).cls = .fresh ∧ leaf.childZero (k % 64) = true) := by
  rintro ⟨hc, hz⟩
  rcases h with ⟨hn, _⟩ | ⟨_, _, hn⟩
  · exact hn hc
  · rw [hn] at hz; cases hz

/-- A walk that may go on, and whose sector no operation holds, opens it under the old key and seals it under the new one (R229). -/
theorem State.courierStep_seals {s : State} {n island : Nat} {d : SectorData} {c : CourierField} {p : Pass} {leaf : Node}
    {old new : Key} (hc : (s.region n).courier = some c)
    (hp : s.courier.passes.find? (fun p => decide (n ∈ p.regions) && s.walks p n) = some p)
    (hi : s.regionIsland (s.region n) = some island) (hpool : (s.region n).pooled = false)
    (hlim : atLimit (s.entry (s.region n).handle c.index) = false) (hk : c.watermark < (s.region n).sectors)
    (hfree : ∀ o ∈ s.mem.ops, o.region = n → o.sector ≠ c.watermark
      ∧ ¬((o.stage = .wrapping ∨ o.group = true) ∧ o.sector / 64 = c.watermark / 64))
    (hleaf : s.walkLeaf n c.watermark leaf) (hold : s.schedule? island (s.region n).handle c.index (c.gen - 1) = some old)
    (hnew : s.schedule? island (s.region n).handle c.index c.gen = some new) (hue : d.ue = false) (hold' : usableKey old = true)
    (hnew' : usableKey new = true)
    (hfrank : frankOf old (lbnOf n (s.region n) c.watermark) (versionOf (s.region n).cls leaf c.watermark) d.bytes
      = s.storedFrank (s.passOp n c.watermark island c.index) d) (hlane : s.laneOff = false) :
    s.courierStep n d = (s.walkedOn (s.region n) island).2.passSector n c.watermark island
      (s.walkedOn (s.region n) island).1 c
      (xtsDecrypt old (lbnOf n (s.region n) c.watermark) (versionOf (s.region n).cls leaf c.watermark) d.bytes) new
      (versionOf (s.region n).cls leaf c.watermark) := by
  have hbusy : s.mem.ops.any (fun o => o.region == n && (o.sector == c.watermark
      || ((o.stage == .wrapping || o.group) && o.sector / 64 == c.watermark / 64))) = false := by
    rw [List.any_eq_false]
    intro o ho
    simp only [Bool.and_eq_true, Bool.or_eq_true, beq_iff_eq]
    rintro ⟨hr, hs⟩
    obtain ⟨hns, hnw⟩ := hfree o ho hr
    exact hs.elim hns hnw
  unfold State.courierStep
  dsimp only
  rw [hc, hp]
  dsimp only
  rw [hi, Option.getD_some, if_neg (by simp [hpool, hbusy, hlim, hk]), State.walkLeaf_found hleaf]
  dsimp only
  rw [if_neg (State.walkLeaf_sealed hleaf), hold, hnew]
  dsimp only
  rw [if_neg (by simp [hue, hold', hnew', hfrank]), if_neg (by rw [hlane]; decide)]

/-- Settles O24: each timer reaches its moment, and each event passes the conditions of its rule. -/
theorem sectorTimers : Obligations.SectorTimers := by
  refine ⟨fun s island k t hl ht => ?_, fun s region sector e hl he => ?_,
    fun s island region leaf data o old dk ho hfree hpool hseals hgens hdk hleaf hlane hkey =>
      ends_of_eq rfl (State.leafWrap_wraps ho hfree hpool hseals hgens hdk hleaf hlane hkey),
    fun s h i ops rest ha hn hr hl hg => ends_of_eq rfl (State.passStart_starts ha hn hr hl hg),
    fun s n island d c p leaf old new hc hp hi hpool hlim hk hfree hleaf hold hnew hue hold' hnew' hfrank hlane =>
      ends_of_eq rfl
        (State.courierStep_seals hc hp hi hpool hlim hk hfree hleaf hold hnew hue hold' hnew' hfrank hlane)⟩
  · refine ends_of_eq rfl ?_
    rw [State.reachOpt_trackerDue ht, State.trackerExpired_due (by rw [State.reach_mem]; exact ht) (State.reach_le _ hl)]
  · refine ends_of_eq rfl ?_
    rw [State.reachOpt_windowDue he, State.windowExpired_due (by rw [State.reach_wcEntry]; exact he)
      (by rw [State.reach_region]; exact State.reach_le _ hl)]

end Machine
end Sys2Proof
end

section
/-!
PROOFS. Requests of tiles: where one that is admitted goes, and what an answered or withheld one leaves (R163, R177, R311, R322, R351).
-/

namespace Sys2Proof
namespace Machine

/-! ### A verify lane and the checks of a head -/

theorem State.modDead_verifyLane (s : State) (lane : Bool) (f : DeadLetters → DeadLetters) :
    (s.verifyLane lane).modDead f = (s.modDead f).verifyLane lane := by cases lane <;> rfl

theorem State.deadCtx_verifyLane (s : State) (lane : Bool) (c : Nat) : (s.verifyLane lane).deadCtx c = (s.deadCtx c).verifyLane lane := by
  have hj : (s.verifyLane lane).jobOfCtx c = s.jobOfCtx c := by cases lane <;> rfl
  unfold State.deadCtx
  rw [hj]
  cases s.jobOfCtx c <;> cases lane <;> rfl

theorem State.tileAnswer_verifyLane (s : State) (lane : Bool) (t : Nat) (ctx : Option Nat) (r : TileResponse) :
    (s.verifyLane lane).tileAnswer t ctx r = (s.tileAnswer t ctx r).verifyLane lane := by
  unfold State.tileAnswer
  extract_lets stopped dead stopped' dead'
  have hs : stopped = stopped' := by unfold stopped stopped'; cases lane <;> rfl
  have hd : dead = dead'.verifyLane lane := State.modDead_verifyLane ..
  rw [hs, hd, State.verifyLane_fault]
  split
  · cases ctx with
    | none => rfl
    | some c => exact State.deadCtx_verifyLane ..
  · cases lane <;> rfl

theorem State.tileRefuse_verifyLane (s : State) (lane : Bool) (t : Nat) (h : TileHead) (st : Status) (reason : Nat) :
    (s.verifyLane lane).tileRefuse t h st reason = (s.tileRefuse t h st reason).verifyLane lane := State.tileAnswer_verifyLane ..

theorem State.isTray_verifyLane (s : State) (lane : Bool) (node : Nat) : (s.verifyLane lane).isTray node = s.isTray node := by
  unfold State.isTray; rw [State.verifyLane_regions]

/-- What XB finds of a head, with the state of an answer changed. -/
def Entry.map (f : State → State) : Entry → Entry
  | .withheld => .withheld
  | .answered s => .answered (f s)
  | .job h => .job h

/-- What XB finds of a head does not depend on the verify lanes, and an answer leaves them as they are. -/
theorem State.tileEntry_verifyLane (s : State) (lane : Bool) (t : Nat) (h : TileHead) :
    (s.verifyLane lane).tileEntry t h = (s.tileEntry t h).map (State.verifyLane · lane) := by
  have hb : (s.verifyLane lane).tagBusy t h.tag = s.tagBusy t h.tag := by cases lane <;> rfl
  have hq : (s.verifyLane lane).quarantined = s.quarantined := by cases lane <;> rfl
  have hp : (s.verifyLane lane).partOfTile t = s.partOfTile t := by cases lane <;> rfl
  have hr : ∀ p, (s.verifyLane lane).part p = s.part p := by cases lane <;> exact fun _ => rfl
  have hc : (s.verifyLane lane).jobOfCtx h.ctx.toNat = s.jobOfCtx h.ctx.toNat := by cases lane <;> rfl
  have hj : ∀ j, (s.verifyLane lane).job j = s.job j := by cases lane <;> exact fun _ => rfl
  have hx : (s.verifyLane lane).ctx h.ctx.toNat = s.ctx h.ctx.toNat := by cases lane <;> rfl
  unfold State.tileEntry
  simp only [hb, hq, hp, hr, hc, hj, hx, State.verifyLane_boot, State.modDead_verifyLane, State.deadCtx_verifyLane,
    State.tileRefuse_verifyLane]
  simp only [apply_ite (Entry.map _)]
  cases s.partOfTile t with
  | none => rfl
  | some p =>
    dsimp only
    simp only [apply_ite (Entry.map _)]
    cases s.jobOfCtx h.ctx.toNat with
    | none => rfl
    | some j =>
      dsimp only
      simp only [apply_ite (Entry.map _)]
      rfl

theorem State.tileEntry_verifyLane_job {s : State} {t j : Nat} {h : TileHead} (lane : Bool) (he : s.tileEntry t h = .job j) :
    (s.verifyLane lane).tileEntry t h = .job j := by rw [State.tileEntry_verifyLane, he]; rfl

/-! ### Where a request goes -/

/-- A head is of the kind of its command. -/
theorem TileHead.ofKind {h : TileHead} {op : Nat} (ho : h.op.toNat = op) : ¬(h.op.toNat ≠ op ∧ 1 ≤ h.op.toNat ∧ h.op.toNat ≤ 5) :=
  fun hc => hc.1 ho

section kind
variable {s : State} {op t : Nat} {h : TileHead} (ho : h.op.toNat = op)
include ho

theorem State.tileAccess_job {j : Nat} (he : s.tileEntry t h = .job j) (data : Bytes) (mask : List Bool) :
    s.tileAccess op t h data mask = s.access (remAsk t j h data mask) := by
  unfold State.tileAccess
  rw [if_neg (TileHead.ofKind ho), he]

theorem State.tileAccess_answered {u : State} (he : s.tileEntry t h = .answered u) (data : Bytes) (mask : List Bool) :
    s.tileAccess op t h data mask = u := by
  unfold State.tileAccess
  rw [if_neg (TileHead.ofKind ho), he]

end kind

/-- A head that is withheld changes nothing, whatever its kind (log 19). -/
theorem State.tileAccess_withheld {s : State} {t : Nat} {h : TileHead} (he : s.tileEntry t h = .withheld) (op : Nat) (data : Bytes)
    (mask : List Bool) : s.tileAccess op t h data mask = s := by
  unfold State.tileAccess
  rw [he]
  exact ite_self ..

/-- A request to an address of this node goes to its region (R29, R287). -/
theorem State.access_local {s : State} {a : RemAsk} (hn : a.address / 2 ^ 48 = s.boot.nodeNumber) (hb : s.boot.nodeNumber ≠ 0xFFFF) :
    s.access a = s.regionAccess a false := by
  unfold State.access
  dsimp only
  rw [if_neg (by rw [hn]; exact not_or.mpr ⟨hb, hb⟩), if_pos hn]

/-- A request to another Thrumtar is issued (R29, R287). -/
theorem State.access_remote {s : State} {a : RemAsk} (hn : a.address / 2 ^ 48 ≠ s.boot.nodeNumber) (ha : a.address / 2 ^ 48 ≠ 0xFFFF)
    (hb : s.boot.nodeNumber ≠ 0xFFFF) (ht : s.isTray (a.address / 2 ^ 48) = false) : s.access a = s.issue a := by
  unfold State.access
  dsimp only
  rw [if_neg (not_or.mpr ⟨ha, hb⟩), if_neg hn, if_neg (by rw [ht]; decide)]

/-- A request that its region admits is submitted to the region's island (R163, R174). -/
theorem State.regionAccess_admitted {s : State} {a : RemAsk} {n : Nat} {r : Region}
    (hr : s.regionAt a.handle false (a.address % 2 ^ 48) a.length = some (n, r)) (hc : s.regionCheck a.handle r a.op a.keyIndex = none) :
    s.regionAccess a false = s.submit {
      origin := .tile a.tile a.tag, kind := if a.op = 1 then .read else if a.op = 2 then .write else .atomic,
      ctx := some a.ctx, keyIndex := if r.cls = .opened then 0 else a.keyIndex, region := n, address := a.address % 2 ^ 48,
      length := a.length, tc := a.tc,
      bytes := if a.op = 2 then ((slice a.data 0 a.length).zip a.mask).map (fun e => if e.2 then some e.1 else none) else [],
      atomicOp := a.atomicOp, operand := a.operand, compare := a.compare } := by
  unfold State.regionAccess
  simp only [Bool.false_eq_true, if_false, false_and, hr, hc]

/-! ### Fences -/

/-- A tile arms a fence object of its job that is IDLE (R321, R322). -/
theorem State.tileFenceAsk_arms {s : State} {t j : Nat} {h : TileHead} (ho : h.op.toNat = 4) (he : s.tileEntry t h = .job j)
    (hn : bits h.address.toNat 12 0 ≤ 8127) (hs : (s.fenceObj (bits h.address.toNat 12 0)).state = .idle)
    (hj : (s.fenceObj (bits h.address.toNat 12 0)).handle = j) :
    s.tileFenceAsk t h = (s.arm (bits h.address.toNat 12 0) (bits h.address.toNat 31 16)
      (s.scopeNodes j (bits h.address.toNat 31 16))
      (fun x => { x with tileReq := some (t * 65536 + h.tag.toNat), tileCtx := h.ctx.toNat })).fencesSettle := by
  unfold State.tileFenceAsk
  rw [if_neg (TileHead.ofKind ho), he]
  dsimp only
  rw [if_neg (not_or.mpr ⟨Nat.not_lt.mpr hn, fun hc => hc.2 hj⟩), hs]

theorem State.tileFenceAsk_answered {s u : State} {t : Nat} {h : TileHead} (ho : h.op.toNat = 4)
    (he : s.tileEntry t h = .answered u) : s.tileFenceAsk t h = u := by
  unfold State.tileFenceAsk
  rw [if_neg (TileHead.ofKind ho), he]

theorem State.tileFenceAsk_withheld {s : State} {t : Nat} {h : TileHead} (he : s.tileEntry t h = .withheld) : s.tileFenceAsk t h = s := by
  unfold State.tileFenceAsk
  rw [he]
  exact ite_self ..

/-! ### Contributions -/

/-- A chunk that its descriptor takes waits there, charged to its master, and what can go is handed over (R351). -/
theorem State.contributeAsk_takes {s : State} {t j : Nat} {h : TileHead} (image : Bytes) (ho : h.op.toNat = 5)
    (he : s.tileEntry t h = .job j)
    (hc : s.chunkRefusal j h (bits h.address.toNat 9 0) (bits h.address.toNat 39 16) = none)
    (hf : s.tc0Full h.ctx.toNat j h.tc.toNat (s.desc (bits h.address.toNat 9 0)).port = false) :
    s.contributeAsk t h image =
      (let n := bits h.address.toNat 9 0
       let tc := (s.reclass j h.tc.toNat).1
       let charged := (s.reclass j h.tc.toNat).2.charge (some h.ctx.toNat) j tc 1 (s.desc n).port 544 none
       let u := ((charged.2.tc0Wait charged.1 (s.desc n).port).modCounters j (fun k => { k with
         requests := addAt k.requests tc 1, bytes := addAt k.bytes tc 544 })).count islandXB 2 (some tc) 1
       let v := if charged.1 = 0 then u.count islandXB 6 (some tc) 1 else u
       let w : State := { v with mem := { v.mem with nextId := v.mem.nextId + 1 } }
       (w.modDesc n (fun y => { y with
         contributed := bits h.address.toNat 39 16 :: y.contributed,
         waiting := y.waiting ++ [{ chunk := bits h.address.toNat 39 16, image := slice image 0 h.length.toNat, tile := t,
                                    tag := h.tag, accepted := v.now, tc := tc, id := v.mem.nextId, level := charged.1,
                                    within := charged.1 != 0 }] })).flushDesc n) := by
  unfold State.contributeAsk
  rw [if_neg (TileHead.ofKind ho), he]
  dsimp only
  rw [hc]
  dsimp only
  rw [if_neg (by rw [hf]; decide)]

theorem State.contributeAsk_answered {s u : State} {t : Nat} {h : TileHead} (image : Bytes) (ho : h.op.toNat = 5)
    (he : s.tileEntry t h = .answered u) : s.contributeAsk t h image = u := by
  unfold State.contributeAsk
  rw [if_neg (TileHead.ofKind ho), he]

theorem State.contributeAsk_withheld {s : State} {t : Nat} {h : TileHead} (image : Bytes) (he : s.tileEntry t h = .withheld) :
    s.contributeAsk t h image = s := by
  unfold State.contributeAsk
  rw [he]
  exact ite_self ..

/-- Settles O22: XB's checks of a head decide between an answer, nothing and the request's own rule. -/
theorem tileRequests : Obligations.TileRequests := by
  refine ⟨fun s t j h ho he hn hb => ?_, fun s t j h data mask lane ho he hn hb => ?_, fun s t j h ho he hn hb => ?_,
    fun s a n r hr hc => State.regionAccess_admitted hr hc, fun s t j h data mask lane ho he hn ha hb ht => ?_,
    fun s t j h ho he hn hs hj => ends_of_eq rfl (State.tileFenceAsk_arms (congrArg BitVec.toNat ho) he hn hs hj),
    fun s t j h image ho he hc hf => ends_of_eq rfl (State.contributeAsk_takes image (congrArg BitVec.toNat ho) he hc hf),
    fun s u t h data mask lane he => ⟨fun ho => ?_, fun ho => ?_, fun ho => ?_, fun ho => ?_, fun ho => ?_⟩,
    fun s t h data mask lane he => ⟨?_, ?_, ?_, ?_, ?_⟩⟩
  · exact ends_of_eq rfl ((State.tileAccess_job (congrArg BitVec.toNat ho) he ..).trans (State.access_local hn hb))
  · refine ends_of_eq rfl ((State.tileAccess_job (congrArg BitVec.toNat ho) (State.tileEntry_verifyLane_job lane he) ..).trans
      (State.access_local ?_ ?_))
    · rw [State.verifyLane_boot]; exact hn
    · rw [State.verifyLane_boot]; exact hb
  · exact ends_of_eq rfl ((State.tileAccess_job (congrArg BitVec.toNat ho) he ..).trans (State.access_local hn hb))
  · refine ends_of_eq rfl ((State.tileAccess_job (congrArg BitVec.toNat ho) (State.tileEntry_verifyLane_job lane he) ..).trans
      (State.access_remote ?_ ha ?_ ?_))
    · rw [State.verifyLane_boot]; exact hn
    · rw [State.verifyLane_boot]; exact hb
    · rw [State.isTray_verifyLane]; exact ht
  · exact ends_of_eq rfl (State.tileAccess_answered (congrArg BitVec.toNat ho) he ..)
  · refine ends_of_eq rfl (State.tileAccess_answered (congrArg BitVec.toNat ho) ?_ ..)
    rw [State.tileEntry_verifyLane, he]
    rfl
  · exact ends_of_eq rfl (State.tileAccess_answered (congrArg BitVec.toNat ho) he ..)
  · exact ends_of_eq rfl (State.tileFenceAsk_answered (congrArg BitVec.toNat ho) he)
  · exact ends_of_eq rfl (State.contributeAsk_answered _ (congrArg BitVec.toNat ho) he)
  · exact ends_of_eq rfl (State.tileAccess_withheld he ..)
  · refine ends_of_eq rfl (State.tileAccess_withheld ?_ ..)
    rw [State.tileEntry_verifyLane, he]
    rfl
  · exact ends_of_eq rfl (State.tileAccess_withheld he ..)
  · exact ends_of_eq rfl (State.tileFenceAsk_withheld he)
  · exact ends_of_eq rfl (State.contributeAsk_withheld _ he)

end Machine
end Sys2Proof
end

section
/-!
PROOFS. Freshness trees and courier passes: when their commands are accepted or answered (R224 to R238).
-/

namespace Sys2Proof
namespace Machine

/-! ### Trees -/

/-- TREE_STATUS of a target that has a tree (R236). -/
theorem hTreeStatus_run {s : State} {c : Cmd} {a : Nat × Tree} (ht : s.target c = .ok a) :
    hTreeStatus.run s c = answerWith s (treeBody s a.1 a.2) := by
  unfold hTreeStatus
  dsimp only
  rw [ht]

/-- RESET_SUBTREE of a node of a tree at hand, with neither the root nor a node above it lost (R224, R234). -/
theorem hResetSubtree_run {s : State} {c : Cmd} {a : Nat × Tree} (ht : s.target c = .ok a)
    (hs : ¬(a.1 < 65536 ∧ ((s.region a.1).state = .suspended ∨ (s.region a.1).state = .closing))) (hpos : c.arg 8 1 ≠ 0)
    (hdepth : c.arg 8 1 ≤ a.2.depth) (hwidth : c.arg 16 8 < a.2.width (c.arg 8 1)) (hroot : a.2.rootLost = false)
    (habove : (List.range a.2.depth).any (fun j => decide (c.arg 8 1 < j + 1)
      && s.knownLost a.1 (j + 1) (c.arg 16 8 / 64 ^ (j + 1 - c.arg 8 1))) = false) :
    hResetSubtree.run s c = .accept [] (some (50 + 128 * nodesBelow (c.arg 8 1) / 200000))
      (fun id u => u.resetSubtree a.1 (c.arg 8 1) (c.arg 16 8) id) := by
  unfold hResetSubtree
  dsimp only
  rw [ht]
  dsimp only
  rw [if_neg hs, if_neg (not_or.mpr ⟨hpos, Nat.not_lt.mpr hdepth⟩), if_neg (Nat.not_le.mpr hwidth),
    if_neg (by rw [hroot, habove]; decide)]

/-- RESUME_REGION of a SUSPENDED region of a job whose root is not lost and that no other command resumes (R233, R234). -/
theorem hResumeRegion_run {s : State} {c : Cmd} {j : Job} (hs : (s.region (c.arg 0 2)).state = .suspended)
    (hroot : (s.region (c.arg 0 2)).tree.rootLost = false) (hidle : (s.region (c.arg 0 2)).resumeOp = none)
    (hj : s.job (s.region (c.arg 0 2)).handle = some j) :
    hResumeRegion.run s c = .accept [] (some (j.timeout + 5)) (fun id u => u.resumeStart (c.arg 0 2) id) := by
  unfold hResumeRegion
  dsimp only
  rw [if_neg (not_not_intro hs), if_neg (by rw [hroot]; decide), if_neg (by rw [hidle]; decide), hj]

/-! ### Courier passes -/

/-- START_COURIER arms key index `i` of job `h` for operation `id`: an ARMED index moves to the head of the armed queue, and any other
joins its end (R225, R226). -/
def State.armCourier (s : State) (h i id : Nat) : State :=
  match s.courier.armed.find? (fun x => x.1 == h && x.2.1 == i) with
  | some x => { s with courier := { s.courier with
      armed := (h, i, x.2.2 ++ [id]) :: s.courier.armed.filter (fun y => !(y.1 == h && y.2.1 == i)) } }
  | none => { s with courier := { s.courier with armed := s.courier.armed ++ [(h, i, [id])] } }

/-- An index without a pass has none that is starting. -/
theorem State.starting_of_passOf_none {s : State} {h i : Nat} (hp : s.passOf h i = none) :
    s.courier.passes.any (fun p => p.handle == h && p.index == i && p.state == .starting) = false := by
  refine List.any_eq_false.mpr (fun p hm hc => ?_)
  exact List.find?_eq_none.mp hp p hm (Bool.and_eq_true_iff.mp hc).1

/-- START_COURIER of a LIVE index that may turn its generation and has no pass, with room in the armed queue (R225, R234). -/
theorem hStartCourier_run {s : State} {c : Cmd} {a : Nat × Job} (hg : s.jobGate (c.arg 0 4) = .ok a)
    (hl : (s.entry a.1 (c.arg 4 4)).state = .live) (hgen : (s.entry a.1 (c.arg 4 4)).gen ≠ 0xFE)
    (hp : s.passOf a.1 (c.arg 4 4) = none) (hroom : s.courier.armed.length < 4096) :
    hStartCourier.run s c = .accept [] none (fun id u => u.armCourier a.1 (c.arg 4 4) id) := by
  unfold hStartCourier
  dsimp only
  rw [hg]
  dsimp only
  rw [State.starting_of_passOf_none hp, hp, if_neg, if_neg]
  · rfl
  · exact fun hfull => Nat.not_le.mpr hroom hfull.2.2
  · rintro (hdead | hlast | ⟨hpass, -⟩)
    · exact hdead hl
    · exact hgen hlast
    · exact absurd hpass (by decide)

/-- COURIER_STATUS of an index of a job that takes commands (R237). -/
theorem hCourierStatus_run {s : State} {c : Cmd} {a : Nat × Job} (hg : s.jobGate (c.arg 0 4) = .ok a) :
    hCourierStatus.run s c = answerWith s (courierBody s a.1 (c.arg 4 4)) := by
  unfold hCourierStatus
  dsimp only
  rw [hg]

/-- Settles O8: past its own conditions each command of a tree or of a courier pass is accepted or answered. -/
theorem treeCommands : Obligations.TreeCommands := by
  refine ⟨replies_of (fun _ _ _ _ => rfl) rfl (fun s c _ _ _ hg => hTreeStatus_run hg),
    accepts_of (fun _ _ _ _ => rfl) rfl (fun s c _ _ _ hg => ?_),
    accepts_of (fun _ _ _ _ => rfl) rfl (fun s c _ _ _ hg => ?_),
    replies_of (fun _ _ _ _ => rfl) rfl (fun s c _ _ _ hg => hCourierStatus_run hg),
    accepts_of (fun _ _ _ _ => rfl) rfl (fun s c _ _ _ hg => ?_),
    replies_of (fun _ _ _ _ => rfl) rfl (fun _ _ _ _ _ _ => rfl)⟩
  · obtain ⟨htarget, hstate, hpos, hdepth, hwidth, hroot, habove⟩ := hg
    exact hResetSubtree_run htarget hstate hpos hdepth hwidth hroot habove
  · obtain ⟨hgate, hlive, hgen, hpass, hroom⟩ := hg
    exact hStartCourier_run hgate hlive hgen hpass hroom
  · obtain ⟨hsuspended, hroot, hidle, hjob⟩ := hg
    exact hResumeRegion_run hsuspended hroot hidle hjob

end Machine
end Sys2Proof
end

section
/-!
PROOFS. Associations and envelope rings: when their commands are accepted or answered (R259, R265, R271, R283 to R285), and a
descriptor that opens (R275 to R279).
-/

namespace Sys2Proof
namespace Machine

/-! ### Commands of associations -/

/-- ASSOC_STATUS of a pair of a job that takes commands (R283). -/
theorem hAssocStatus_run {s : State} {c : Cmd} {a : Nat × Job} (hg : s.jobGate (c.arg 0 4) = .ok a) :
    hAssocStatus.run s c = answerWith s (assocBody s a.1 (c.arg 4 2) a.2.epochFloor) := by
  unfold hAssocStatus
  dsimp only
  rw [hg]

/-- EVICT_ASSOC of an association that is not CLOSING (R265). -/
theorem hEvictAssoc_run {s : State} {c : Cmd} {j : Nat × Job} {a : Assoc} (hg : s.jobGate (c.arg 0 4) = .ok j)
    (ha : s.assoc j.1 (c.arg 4 2) = some a) (hs : a.state ≠ .closing) :
    hEvictAssoc.run s c = .accept [] (some 1) (fun id u => u.beginClose j.1 (c.arg 4 2) (some id)) := by
  unfold hEvictAssoc
  dsimp only
  rw [hg]
  dsimp only
  rw [ha]
  exact if_neg hs

/-- RATCHET_NOW of an association that is OPEN (R259). -/
theorem hRatchetNow_run {s : State} {c : Cmd} {j : Nat × Job} {a : Assoc} (hg : s.jobGate (c.arg 0 4) = .ok j)
    (ha : s.assoc j.1 (c.arg 4 2) = some a) (hs : a.state = .opened) :
    hRatchetNow.run s c = .accept [] none (fun id u =>
      (u.modAssoc j.1 a.peer (fun x => { x with ratchetOps := x.ratchetOps ++ [id] })).ratchetTrigger j.1 a.peer) := by
  unfold hRatchetNow
  dsimp only
  rw [hg]
  dsimp only
  rw [ha]
  dsimp only
  rw [hs]

/-- REVOKE_PEER with room in the list of revoked nodes (R271). -/
theorem hRevokePeer_run {s : State} (c : Cmd) (hroom : s.assocs.revoked.length < 1024) :
    hRevokePeer.run s c = .accept [] (some 5) (fun id u => u.revoke (c.arg 0 2) id) :=
  if_neg (Nat.not_le.mpr hroom)

/-- RESTORE_PEER of a node that is revoked (R271). -/
theorem hRestorePeer_run {s : State} {c : Cmd} (hm : c.arg 0 2 ∈ s.assocs.revoked) :
    hRestorePeer.run s c = doneWith (s.modAssocs (fun x => { x with revoked := x.revoked.filter (fun n => n != c.arg 0 2) })) :=
  if_pos hm

/-- ENVELOPE_STATUS of a ring of a job that takes commands (R285). -/
theorem hEnvelopeStatus_run {s : State} {c : Cmd} {a : Nat × Job} (hg : s.jobGate (c.arg 0 4) = .ok a) :
    hEnvelopeStatus.run s c = answerWith s (s.ring (c.arg 4 1) a.1).body := by
  unfold hEnvelopeStatus
  dsimp only
  rw [hg]

/-- Settles O9: past its own conditions each command of an association or a ring is accepted or answered. -/
theorem associationCommands : Obligations.AssociationCommands := by
  refine ⟨replies_of (fun _ _ _ _ => rfl) rfl (fun s c _ _ _ hg => hAssocStatus_run hg),
    accepts_of (fun _ _ _ _ => rfl) rfl (fun s c _ _ _ hg => ?_),
    accepts_of (fun _ _ _ _ => rfl) rfl (fun s c _ _ _ hg => ?_),
    accepts_of (fun _ _ _ _ => rfl) rfl (fun s c _ _ _ hg => hRevokePeer_run c hg),
    replies_of (fun _ _ _ _ => rfl) rfl (fun s c _ _ _ hg => hRestorePeer_run hg),
    replies_of (fun _ _ _ _ => rfl) rfl (fun _ _ _ _ _ _ => rfl),
    replies_of (fun _ _ _ _ => rfl) rfl (fun s c _ _ _ hg => hEnvelopeStatus_run hg)⟩
  · obtain ⟨hgate, hassoc, hstate⟩ := hg
    exact hEvictAssoc_run hgate hassoc hstate
  · obtain ⟨hgate, hassoc, hopen⟩ := hg
    exact hRatchetNow_run hgate hassoc hopen

/-! ### Envelopes -/

theorem State.count_job (s : State) (island event : Nat) (tc : Option Nat) (n h : Nat) :
    (s.count island event tc n).job h = s.job h := by
  unfold State.job
  rw [State.count_jobs]

theorem State.modRing_job (s : State) (link r h : Nat) (f : EnvRing → EnvRing) : (s.modRing link r f).job h = s.job h := rfl

/-- A descriptor is the one whose turn it is: its fields are in order, and it has the number that is due, below the last one, and
its job's own number (checks 1 to 3 of R277). -/
structure DescDue (s : State) (link h : Nat) (d : EnvDesc) (j : Job) (k : Key) : Prop where
  reads  : s.envReads link h = true
  fields : firstBad (descFields d) = none
  job    : s.job h = some j
  keyed  : (s.ring link h).sk0 = some k
  next   : d.descSeq.toNat = (s.ring link h).nextSeq
  last   : d.descSeq.toNat < 0xFFFFF000
  own    : d.job.toNat = j.number

/-- The descriptor whose turn it is, once its tag verifies, takes its slot and its number, and its access begins (R277). -/
theorem DescDue.envelope {s : State} {link h : Nat} {d : EnvDesc} {page plain : Bytes} {j : Job} {k : Key}
    (hd : DescDue s link h d j k)
    (ho : gcmOpen k (envIv d.descSeq 1) (descBytes d) (if d.op = 1 then slice page 0 d.length.toNat else []) (bytesOf d.tag)
      = some plain) :
    s.envelope link h d page =
      ((((s.modRing link h (fun e => { e with taken := ((s.ring link h).taken + 1) % 65536 })).count (islandH link) 5 none
        (64 + (if d.op = 1 then d.length.toNat else 0))).modRing link h (fun e => { e with nextSeq := e.nextSeq + 1 })).envAccess
        link h (s.ring link h).taken j d plain) := by
  unfold State.envelope
  rw [if_neg (by rw [hd.reads]; decide)]
  dsimp only
  rw [hd.fields, hd.keyed, State.count_job, State.modRing_job, hd.job]
  dsimp only
  rw [if_neg (Nat.not_lt.mpr (Nat.le_of_eq hd.next.symm)), if_neg (Nat.not_lt.mpr (Nat.le_of_eq hd.next)),
    if_neg (Nat.not_le.mpr hd.last), if_neg (not_not_intro hd.own), ho]
  rfl

/-- A descriptor of the command's own operation is read (R277). -/
theorem State.envelopeTo_own {op : Nat} {d : EnvDesc} (s : State) (link h : Nat) (page : Bytes)
    (ho : d.op ≠ BitVec.ofNat 8 (3 - op)) : s.envelopeTo op link h d page = s.envelope link h d page :=
  if_neg ho

/-- Settles O21: a descriptor that is due and opens begins its access, whichever way it goes. -/
theorem envelopes : Obligations.Envelopes := by
  refine ⟨fun s link h d page plain j k hop hr hf hj hk hq hl hn ho => ends_of_eq rfl ?_,
    fun s link h d plain j k hop hr hf hj hk hq hl hn ho => ends_of_eq rfl ?_⟩
  · rw [State.envelopeTo_own s link h page (by rw [hop]; decide),
      DescDue.envelope ⟨hr, hf, hj, hk, hq, hl, hn⟩ (by rw [if_pos hop]; exact ho), if_pos hop]
  · have hto : d.op ≠ 1 := by rw [hop]; decide
    rw [State.envelopeTo_own s link h [] (by rw [hop]; decide),
      DescDue.envelope ⟨hr, hf, hj, hk, hq, hl, hn⟩ (by rw [if_neg hto]; exact ho), if_neg hto]

end Machine
end Sys2Proof
end

section
/-!
PROOFS. The replay window of an epoch: what it accepts, and what accepting a number adds to it (R256).
-/

namespace Sys2Proof
namespace Machine

/-- The window accepts a number above the highest, and one within it that was not accepted before; never 0 (R256). -/
theorem Epoch.accepts_iff (e : Epoch) (q : Nat) :
    e.accepts q = true ↔ 1 ≤ q ∧ (e.rxHigh < q ∨ e.rxHigh ≤ q + 511 ∧ q ∉ e.rxSeen) := by
  unfold Epoch.accepts
  simp only [Bool.and_eq_true, Bool.or_eq_true, decide_eq_true_eq, Nat.lt_succ_iff]

theorem Epoch.not_accepts_iff (e : Epoch) (q : Nat) :
    e.accepts q = false ↔ q = 0 ∨ q ≤ e.rxHigh ∧ (q + 511 < e.rxHigh ∨ q ∈ e.rxSeen) := by
  rw [← Bool.not_eq_true, Epoch.accepts_iff]
  simp only [Classical.not_and_iff_not_or_not, not_or, Classical.not_not, Nat.not_le, Nat.not_lt, Nat.lt_one_iff]

@[simp] theorem Epoch.accept_rxHigh (e : Epoch) (q : Nat) : (e.accept q).rxHigh = max e.rxHigh q := rfl

/-- What the window remembers after a number: that number and the earlier ones, as far as they lie within it. -/
theorem Epoch.mem_accept_rxSeen (e : Epoch) (q x : Nat) :
    x ∈ (e.accept q).rxSeen ↔ (x = q ∨ x ∈ e.rxSeen) ∧ max e.rxHigh q ≤ x + 511 := by
  unfold Epoch.accept
  simp only [List.mem_filter, List.mem_cons, decide_eq_true_eq, Nat.lt_succ_iff]

/-- A number that was accepted is refused from then on. -/
theorem Epoch.not_accepts_accept_self (e : Epoch) (q : Nat) : (e.accept q).accepts q = false := by
  rw [Epoch.not_accepts_iff, Epoch.mem_accept_rxSeen, Epoch.accept_rxHigh]
  rcases Nat.lt_or_ge (q + 511) (max e.rxHigh q) with hold | hin
  · exact .inr ⟨Nat.le_max_right .., .inl hold⟩
  · exact .inr ⟨Nat.le_max_right .., .inr ⟨.inl rfl, hin⟩⟩

/-- What is refused stays refused, whatever else is accepted. -/
theorem Epoch.not_accepts_accept {e : Epoch} {r : Nat} (q : Nat) (hr : e.accepts r = false) : (e.accept q).accepts r = false := by
  rw [Epoch.not_accepts_iff] at hr ⊢
  rw [Epoch.mem_accept_rxSeen, Epoch.accept_rxHigh]
  rcases hr with h0 | ⟨hle, hold | hseen⟩
  · exact .inl h0
  · exact .inr ⟨Nat.le_trans hle (Nat.le_max_left ..), .inl (Nat.lt_of_lt_of_le hold (Nat.le_max_left ..))⟩
  · refine .inr ⟨Nat.le_trans hle (Nat.le_max_left ..), ?_⟩
    rcases Nat.lt_or_ge (r + 511) (max e.rxHigh q) with hold | hin
    · exact .inl hold
    · exact .inr ⟨.inr hseen, hin⟩

/-- The window holds no number above its highest. -/
def Epoch.Bounded (e : Epoch) : Prop := ∀ x ∈ e.rxSeen, x ≤ e.rxHigh

theorem Epoch.Bounded.accept {e : Epoch} (hb : e.Bounded) (q : Nat) : (e.accept q).Bounded := by
  intro x hx
  obtain ⟨rfl | hm, -⟩ := (Epoch.mem_accept_rxSeen ..).mp hx
  · exact Nat.le_max_right ..
  · exact Nat.le_trans (hb x hm) (Nat.le_max_left ..)

/-- What was accepted and lies within the window that another number leaves is accepted still. -/
theorem Epoch.Bounded.accepts_accept {e : Epoch} (hb : e.Bounded) {q r : Nat} (hin : (e.accept q).rxHigh ≤ r + 511) (hne : r ≠ q)
    (hr : e.accepts r = true) : (e.accept q).accepts r = true := by
  rw [Epoch.accepts_iff] at hr ⊢
  obtain ⟨hpos, hr⟩ := hr
  refine ⟨hpos, .inr ⟨hin, fun hm => ?_⟩⟩
  obtain ⟨heq | hseen, -⟩ := (Epoch.mem_accept_rxSeen ..).mp hm
  · exact hne heq
  · rcases hr with habove | ⟨-, hnew⟩
    · exact Nat.not_lt.mpr (hb r hseen) habove
    · exact hnew hseen

/-- Settles O56: the window's two tests, and what accepting a number adds to them. -/
theorem replayWindow : Obligations.ReplayWindow := by
  intro e q
  refine ⟨(e.not_accepts_iff 0).mpr (.inl rfl), fun h1 hq => (e.accepts_iff q).mpr ⟨h1, .inl hq⟩,
    fun hq => (e.not_accepts_iff q).mpr (.inr ⟨by omega, .inl hq⟩), fun h1 hle hin => ?_, e.accept_rxHigh q,
    fun _ => e.not_accepts_accept_self q, fun r _ hr => Epoch.not_accepts_accept q hr,
    fun (hb : e.Bounded) => ⟨hb.accept q, fun r hin hne hr => hb.accepts_accept hin hne hr⟩⟩
  rw [Epoch.accepts_iff]
  exact ⟨fun h => (h.2.resolve_left (Nat.not_lt.mpr hle)).2, fun h => ⟨h1, .inr ⟨hin, h⟩⟩⟩

end Machine
end Sys2Proof
end

section
/-!
PROOFS. Message packets that a port hears: handshake messages, and what opened DATA and RATCHET packets carry (R243 to R263, R295).
-/

namespace Sys2Proof
namespace Machine

/-! ### A packet that is heard -/

/-- The event of a port that hears acts on the state as it is. -/
theorem State.atPort_heard {s : State} {port : Nat} (hd : Heard s port) (f : State → State) : s.atPort port f = f s := by
  unfold State.atPort State.portAlive
  rw [if_pos hd.takes, if_neg hd.alive]

@[simp] theorem State.heard_now (s : State) (port : Nat) (p : MsgPacket) : (s.heard port p).now = s.now := State.count_now ..
@[simp] theorem State.heard_boot (s : State) (port : Nat) (p : MsgPacket) : (s.heard port p).boot = s.boot := State.count_boot ..
@[simp] theorem State.heard_sniby (s : State) (port : Nat) (p : MsgPacket) : (s.heard port p).sniby = s.sniby := State.count_sniby ..
@[simp] theorem State.heard_jobs (s : State) (port : Nat) (p : MsgPacket) : (s.heard port p).jobs = s.jobs := State.count_jobs ..
@[simp] theorem State.heard_assocs (s : State) (port : Nat) (p : MsgPacket) : (s.heard port p).assocs = s.assocs :=
  State.count_assocs ..
@[simp] theorem State.heard_fault (s : State) (port : Nat) (p : MsgPacket) : (s.heard port p).fault = s.fault := State.count_fault ..

theorem State.heard_handleOf (s : State) (port : Nat) (p : MsgPacket) (n : Nat) : (s.heard port p).handleOf n = s.handleOf n := by
  unfold State.handleOf
  rw [State.heard_jobs]

theorem State.heard_job (s : State) (port : Nat) (p : MsgPacket) (h : Nat) : (s.heard port p).job h = s.job h := by
  unfold State.job
  rw [State.heard_jobs]

theorem State.heard_serving (s : State) (port : Nat) (p : MsgPacket) (h : Nat) : (s.heard port p).serving h = s.serving h := by
  unfold State.serving
  rw [State.heard_job]

theorem State.heard_assoc (s : State) (port : Nat) (p : MsgPacket) (h peer : Nat) :
    (s.heard port p).assoc h peer = s.assoc h peer := by
  unfold State.assoc
  rw [State.heard_assocs]

/-- To which rule a message packet of a kind goes (R243). -/
def State.readAs (s : State) (kind port : Nat) (p : MsgPacket) : State :=
  match kind with
  | 0x10 => s.dataArrives port p
  | 0x24 => s.dataArrives port p
  | 0x20 => s.helloArrives port p
  | 0x21 => s.answerArrives port p
  | 0x22 => s.answerArrives port p
  | 0x23 => s.refused p
  | _ => s.malformedPacket

/-- A message packet that is heard is counted, and goes to the rule of its kind. -/
theorem State.message_heard {s : State} {port : Nat} (hd : Heard s port) (p : MsgPacket) :
    s.message port p = (s.heard port p).readAs p.kind.toNat port p := by
  have ht := hd.takes
  unfold State.fabricTakes State.live at ht
  simp only [Bool.and_eq_true, Bool.not_eq_true', decide_eq_true_eq] at ht
  obtain ⟨⟨⟨⟨hpow, hres⟩, -⟩, -⟩, hst⟩ := ht
  have hq : ¬(s.heard port p).quarantined = true := by
    unfold State.quarantined
    rw [State.heard_fault]
    exact Bool.eq_false_iff.mp hd.free
  unfold State.message
  rw [if_neg (by simp [hpow, hres, hst, hd.calm, hd.numbered])]
  exact (if_neg hq).trans rfl

/-- The row of a message that a port hears ends as the rule of the message's kind does. -/
theorem ends_message {i : Instr} {s u t : State} {port : Nat} {p : MsgPacket} {k : BitVec 8}
    (hx : exec i s = .next (u.atPort port (fun s => s.message port p)).ended) (hd : Heard u port) (hk : p.kind = k)
    (hr : (u.heard port p).readAs k.toNat port p = t) : Ends i s t :=
  ends_of_eq hx (by rw [State.atPort_heard hd, State.message_heard hd, hk, hr])

/-! ### Handshake messages -/

/-- A packet in order for this node, of a job of this node, from a node that is not revoked (R249, R255, R271). -/
structure Finds (s : State) (p : MsgPacket) (h : Nat) : Prop where
  formed  : wellFormedPacket s.boot.nodeNumber p = true
  job     : s.handleOf p.job.toNat = some h
  trusted : p.src.toNat ∉ s.assocs.revoked

theorem Finds.heard {s : State} {p : MsgPacket} {h : Nat} (hf : Finds s p h) (port : Nat) : Finds (s.heard port p) p h where
  formed := by rw [State.heard_boot]; exact hf.formed
  job := by rw [State.heard_handleOf]; exact hf.job
  trusted := by rw [State.heard_assocs]; exact hf.trusted

/-- A HELLO that no place holds takes one while the queue has room for it, and is refused as BUSY otherwise (R249, R508). -/
theorem State.helloArrives_eq {s : State} {port h : Nat} {p : MsgPacket} (hf : Finds s p h) (hrev : p.revision = Config.revisionByte)
    (hs : s.serving h = true) (hnew : ∀ k q, Place.message k q ∈ s.sniby.places → q ≠ p) :
    s.helloArrives port p = if s.sniby.places.length < 80 then s.takePlace (.message port p)
      else s.refuseHello port p.src.toNat p.job.toNat := by
  unfold State.helloArrives State.helloRoom
  dsimp only
  rw [if_neg (not_not_intro hrev), if_neg (by rw [hf.formed]; decide), hf.job]
  dsimp only
  rw [if_neg (by rw [hs]; decide), if_neg hf.trusted]
  refine (if_neg ?new).trans ?room
  case new =>
    rw [Bool.not_eq_true, List.any_eq_false]
    intro x hx
    cases x with
    | message k q => exact fun he => hnew k q hx (beq_iff_eq.mp he)
    | command k => exact Bool.false_ne_true
    | hello k q => exact Bool.false_ne_true
  case room =>
    by_cases hroom : s.sniby.places.length < 80
    · rw [if_pos hroom, if_neg (by rw [decide_eq_true hroom]; decide)]
    · rw [if_neg hroom, if_pos (decide_eq_false hroom)]

/-- An ACCEPT or a CONFIRM takes a place (R248, R249, R508). -/
theorem State.answerArrives_takes {s : State} {port h : Nat} {p : MsgPacket} (hf : Finds s p h)
    (hrev : p.revision = Config.revisionByte) (hs : s.serving h = true) (hroom : s.sniby.places.length < 4096) :
    s.answerArrives port p = s.takePlace (.message port p) := by
  unfold State.answerArrives
  rw [if_neg (by rw [hf.formed]; decide), if_neg (not_not_intro hrev), hf.job]
  dsimp only
  rw [if_neg (by rw [hs]; decide), if_neg hf.trusted, if_neg (Nat.not_le.mpr hroom)]

/-- A REFUSE with BUSY defers the HELLOs to its sender (R248 step 4, R508). -/
theorem State.refused_busy {s : State} {h : Nat} {p : MsgPacket} (hf : Finds s p h)
    (hst : Status.ofCode (field p.body 0 2) = some .busy) :
    s.refused p = s.deferPeer p.src.toNat (s.now + field p.body 2 4 * Config.us) := by
  have hne : ¬(some Status.busy = some Status.revisionMismatch) := by decide
  unfold State.refused
  rw [if_neg (by rw [hf.formed]; decide), hf.job]
  dsimp only
  rw [if_neg hf.trusted, hst, if_neg hne, if_pos rfl]
  split
  · rfl
  · exact if_neg fun hc => hne hc.2

/-- A REFUSE with REVISION_MISMATCH ends the attempt (R248 step 5). -/
theorem State.refused_revision {s : State} {h : Nat} {p : MsgPacket} {a : Assoc} (hf : Finds s p h)
    (ha : s.assoc h p.src.toNat = some a) (hc : a.state = .calling)
    (hst : Status.ofCode (field p.body 0 2) = some .revisionMismatch) :
    s.refused p = s.otherRevision.abandonAttempt a .revisionMismatch (field p.body 6 1) := by
  have ha' : s.otherRevision.assoc h p.src.toNat = some a := ha
  unfold State.refused
  rw [if_neg (by rw [hf.formed]; decide), hf.job]
  dsimp only
  rw [if_neg hf.trusted, hst, if_pos rfl, if_neg (by decide), ha']
  exact if_pos ⟨hc, rfl⟩

/-- A HELLO of a job that serves, heard: it takes a place, or is refused as BUSY (R249, R508). -/
theorem ends_helloReceived {s t : State} {port h : Nat} {p : MsgPacket} (hd : Heard s port) (hk : p.kind = 0x20) (hf : Finds s p h)
    (hrev : p.revision = Config.revisionByte) (hs : s.serving h = true) (hnew : ∀ k q, Place.message k q ∈ s.sniby.places → q ≠ p)
    (ht : (if s.sniby.places.length < 80 then (s.heard port p).takePlace (.message port p)
      else (s.heard port p).refuseHello port p.src.toNat p.job.toNat) = t) : Ends (.helloReceived port p) s t := by
  have hr := State.helloArrives_eq (port := port) (hf.heard port) hrev (by rw [State.heard_serving]; exact hs)
    (by rw [State.heard_sniby]; exact hnew)
  rw [State.heard_sniby, ht] at hr
  exact ends_message rfl hd hk hr

/-- Settles O25: each handshake message goes to the rule of its kind, past the checks of its form. -/
theorem handshakeMessages : Obligations.HandshakeMessages := by
  refine ⟨fun s port h p hd hk hrev hw hj hs ht hnew hroom =>
      ends_helloReceived hd hk ⟨hw, hj, ht⟩ hrev hs hnew (if_pos hroom),
    fun s port h p hd hk hrev hw hj hs ht hnew hfull =>
      ends_helloReceived hd hk ⟨hw, hj, ht⟩ hrev hs hnew (if_neg (Nat.not_lt.mpr hfull)),
    fun s port h p hd hrev hw hj hs ht hroom => ?_,
    fun s port h p hd hk hw hj ht => ⟨fun hst => ends_message rfl hd hk ?_, fun a ha hc hst => ends_message rfl hd hk ?_⟩⟩
  · have hr := State.answerArrives_takes (port := port) (Finds.heard ⟨hw, hj, ht⟩ port) hrev (by rw [State.heard_serving]; exact hs)
      (by rw [State.heard_sniby]; exact hroom)
    exact ⟨fun hk => ends_message rfl hd hk hr, fun hk => ends_message rfl hd hk hr⟩
  · refine (State.refused_busy (Finds.heard ⟨hw, hj, ht⟩ port) hst).trans ?_
    unfold State.deferPeer Assoc.deferTo
    rw [State.heard_now]
  · exact State.refused_revision (Finds.heard ⟨hw, hj, ht⟩ port) (by rw [State.heard_assoc]; exact ha) hc hst

/-! ### A packet that opens -/

/-- A packet of the newest epoch that its window accepts and its key opens is used (checks 5 to 8 of R255). -/
theorem State.openUnder_newest {s : State} {a : Assoc} {port : Nat} {p : MsgPacket} {e : Epoch} {plain : Bytes}
    (he : a.epochs.head? = some e) (hpar : e.number % 2 = p.flags.toNat % 2) (hd : a.drained = false ∨ a.epochs.tail ≠ [])
    (hacc : e.accepts p.sequence.toNat = true) (ho : openPacket e.keyRx a.salt p = some plain) :
    s.openUnder a port p = s.openedPacket a.handle port e.number p plain := by
  obtain ⟨rest, hl⟩ := List.head?_eq_some_iff.mp he
  unfold State.openUnder
  dsimp only
  cases rest with
  | nil =>
    have hnot : a.drained = false := hd.resolve_right fun hne => hne (by rw [hl]; rfl)
    rw [hl]
    dsimp only
    rw [if_pos hpar, if_neg (by rw [hnot]; decide), if_neg (by rw [hacc]; decide), ho]
  | cons old rest =>
    rw [hl]
    dsimp only
    rw [if_pos hpar, if_neg (by rw [hacc]; decide), ho]

/-- A packet of a job that does not close, whose association seals and answers no attempt, is tried under that association
(checks 1 to 4 of R255). -/
theorem State.dataArrives_tries {s : State} {port h : Nat} {p : MsgPacket} {j : Job} {a : Assoc} (hf : Finds s p h)
    (hrev : p.revision = Config.revisionByte) (hj : s.job h = some j) (hjs : j.state ≠ .closing)
    (ha : s.assoc h p.src.toNat = some a) (hseals : a.seals = true) (hans : a.answer = none) :
    s.dataArrives port p = s.openUnder a port p := by
  unfold State.dataArrives
  dsimp only
  rw [if_neg (by rw [hf.formed]; decide), if_neg (not_not_intro hrev), hf.job]
  dsimp only
  rw [hj]
  dsimp only
  rw [if_neg (by simp [hjs]), if_neg hf.trusted, ha, Option.bind_some, hans, Option.map_none]
  dsimp only
  rw [if_pos hseals]

/-- The association that is found is the pair's own. -/
theorem State.assoc_handle {s : State} {h peer : Nat} {a : Assoc} (ha : s.assoc h peer = some a) : a.handle = h ∧ a.peer = peer := by
  have hp := List.find?_some ha
  rw [Bool.and_eq_true, beq_iff_eq, beq_iff_eq] at hp
  exact hp

/-- A packet that opens under the newest epoch is used. -/
theorem State.dataArrives_opens {s : State} {port h : Nat} {p : MsgPacket} {e : Epoch} {plain : Bytes}
    (hc : Carries s port p h e plain) : (s.heard port p).dataArrives port p = (s.heard port p).openedPacket h port e.number p plain := by
  obtain ⟨j, hj, hjs⟩ := hc.open_
  obtain ⟨a, ha, hseals, hans, he, hd, ho⟩ := hc.assoc
  rw [State.dataArrives_tries (Finds.heard ⟨hc.formed, hc.job, hc.trusted⟩ port) hc.revision (by rw [State.heard_job]; exact hj) hjs
      (by rw [State.heard_assoc]; exact ha) hseals hans,
    State.openUnder_newest he hc.parity hd hc.accepts ho, (State.assoc_handle ha).1]

/-! ### What it carried -/

/-- To which rule the body of a DATA packet goes, by its op (R255 step 8, R295). -/
def State.deliverOp (s : State) (op h peer tc port : Nat) (b : Bytes) : State :=
  match op with
  | 0x01 => s.streamArrives h peer tc port b
  | 0x02 => s.streamArrives h peer tc port b
  | 0x03 => s.streamArrives h peer tc port b
  | 0x06 => s.streamArrives h peer tc port b
  | 0x04 => s.sealData h peer tc (controlBody 0x84 (s.mapEpochOf h) (hdr b 21 1))
  | 0x05 => s.redirected h peer (hdr b 20 1)
  | 0x84 => (s.modAssoc h peer (fun a => { a with mapEpoch := hdr b 20 1 })).drained
      (fun m => m.node == peer && m.tray == false && m.epoch == hdr b 21 1)
  | _ => s.response h peer tc b

/-- A body in order goes to the rule of its op. -/
theorem State.deliverBody_formed {s : State} {b : Bytes} (h peer tc port : Nat) (hw : wellFormedBody s.boot.nodeNumber b = true) :
    s.deliverBody h peer tc port b = s.deliverOp (hdr b 0 1) h peer tc port b :=
  (if_neg (by rw [hw]; decide)).trans rfl

/-- A STORE_ACK ends no request of its own: it tells the map epoch and what is applied (R300, R301). -/
theorem State.response_storeAck {s : State} {b : Bytes} (h peer tc : Nat) (ho : hdr b 0 1 = 0x82) :
    s.response h peer tc b
      = (s.modAssoc h peer (fun a => { a with mapEpoch := hdr b 20 1 })).appliedThrough h peer tc (hdr b 24 4) := by
  unfold State.response
  dsimp only
  rw [if_pos ho]

/-- The row of a message that a DATA packet carries has the effect of its op's rule. -/
theorem bringsFrom_of {init : State → State} {i : Nat → MsgPacket → Instr} {op : Nat}
    {eff : State → Nat → Nat → Nat → Nat → Bytes → State}
    (hx : ∀ s port p, exec (i port p) s = .next ((init s).atPort port (fun s => s.message port p)).ended)
    (he : ∀ s h peer tc port b, hdr b 0 1 = op → s.deliverOp op h peer tc port b = eff s h peer tc port b) :
    BringsFrom init i op eff := by
  intro s port p h e plain hk hc hw ho
  refine ends_message (hx s port p) hc.toHeard hk ((State.dataArrives_opens hc).trans ?_)
  unfold State.openedPacket
  dsimp only
  rw [if_neg (by rw [hk]; decide)]
  refine congrArg (fun u : State => u.stepEnd h p.src.toNat) ?_
  refine (State.deliverBody_formed h p.src.toNat (packetTc p) port hw).trans ?_
  rw [ho]
  exact he _ _ _ _ _ _ ho

/-- Settles O27: a packet that opens reaches the rule of its kind, and a DATA body the rule of its op. -/
theorem carriedMessages : Obligations.CarriedMessages := by
  refine ⟨bringsFrom_of (fun _ _ _ => rfl) (fun _ _ _ _ _ _ _ => rfl),
    fun lane => bringsFrom_of (fun _ _ _ => rfl) (fun _ _ _ _ _ _ _ => rfl),
    bringsFrom_of (fun _ _ _ => rfl) (fun _ _ _ _ _ _ _ => rfl), bringsFrom_of (fun _ _ _ => rfl) (fun _ _ _ _ _ _ _ => rfl),
    bringsFrom_of (fun _ _ _ => rfl) (fun _ _ _ _ _ _ _ => rfl), bringsFrom_of (fun _ _ _ => rfl) (fun _ _ _ _ _ _ _ => rfl),
    bringsFrom_of (fun _ _ _ => rfl) (fun _ _ _ _ _ _ _ => rfl),
    bringsFrom_of (fun _ _ _ => rfl) (fun _ h peer tc _ _ ho => State.response_storeAck h peer tc ho),
    bringsFrom_of (fun _ _ _ => rfl) (fun _ _ _ _ _ _ _ => rfl), bringsFrom_of (fun _ _ _ => rfl) (fun _ _ _ _ _ _ _ => rfl),
    bringsFrom_of (fun _ _ _ => rfl) (fun _ _ _ _ _ _ _ => rfl), fun s port p h e plain hk hc hz =>
      ends_message rfl hc.toHeard hk ((State.dataArrives_opens hc).trans ?_)⟩
  unfold State.openedPacket State.carried
  dsimp only
  rw [if_pos hk, if_pos hz]

end Machine
end Sys2Proof
end

section
/-!
PROOFS. The timers of associations: handshake attempts, and the steps of a ratchet (R248, R249, R259 to R262).
-/

namespace Sys2Proof
namespace Machine

theorem State.reach_assoc (s : State) (t h peer : Nat) : (s.reach t).assoc h peer = s.assoc h peer := by
  unfold State.assoc
  rw [State.reach_assocs]

theorem State.reach_helloBar (s : State) (t peer : Nat) : (s.reach t).helloBar peer = s.helloBar peer := by
  unfold State.helloBar
  rw [State.reach_assocs]

theorem State.reach_numberOf (s : State) (t h : Nat) : (s.reach t).numberOf h = s.numberOf h := by
  unfold State.numberOf State.job
  rw [State.reach_jobs]

/-! ### Attempts -/

theorem State.reachOpt_resendDue {s : State} {h peer : Nat} {a : Assoc} (ha : s.assoc h peer = some a) :
    s.reachOpt (s.resendDue h peer) = s.reach (max a.dueAt (s.helloBar peer)) := by
  unfold State.resendDue
  rw [ha]
  rfl

/-- The identical HELLO goes again once its moment has come (R248 step 4). -/
theorem State.helloResend_sends {s : State} {h peer : Nat} {a : Assoc} {q : MsgPacket} (ha : s.assoc h peer = some a)
    (hc : a.state = .calling) (hn : a.sends < 8) (hdef : a.deferred ≤ 1000 * Config.ms) (hq : a.hello = some q)
    (hi : s.fault.isolated = false) (ht : max a.dueAt (s.helloBar peer) ≤ s.now) :
    s.helloResend h peer = (s.modAssoc h peer (fun x => { x with sends := x.sends + 1, dueAt := s.now + 25 * Config.us })).handOver
      a.home h a.proposed q := by
  unfold State.helloResend
  rw [ha]
  dsimp only
  rw [if_neg, hq]
  rintro (hs | hearly | hspent | hlong | ⟨hiso, -⟩)
  · exact hs hc
  · exact Nat.not_lt.mpr ht hearly
  · exact Nat.not_le.mpr hn hspent
  · exact Nat.not_lt.mpr hdef hlong
  · rw [hi] at hiso
    cases hiso

/-- The end of an attempt is due when its sends have run out, or 2 ms without deferrals have passed (R248 step 4). -/
theorem State.handshakeDue_some {s : State} {h peer t : Nat} {a : Assoc} (ha : s.assoc h peer = some a) (hc : a.state = .calling)
    (hn : a.sends ≠ 0) (hdef : a.deferred ≤ 1000 * Config.ms) (hd : s.handshakeDue h peer = some t) :
    8 ≤ a.sends ∧ a.dueAt ≤ t ∨ a.calledAt + 2 * Config.ms + a.deferred ≤ t := by
  unfold State.handshakeDue at hd
  rw [ha] at hd
  dsimp only at hd
  rw [if_pos ⟨hc, hn, hdef⟩, Option.some_inj] at hd
  split at hd <;> omega

/-- An attempt whose end has come is abandoned (R248 step 4). -/
theorem State.handshakeTimeout_abandons {s : State} {h peer : Nat} {a : Assoc} (ha : s.assoc h peer = some a)
    (hc : a.state = .calling) (hn : a.sends ≠ 0) (hdef : a.deferred ≤ 1000 * Config.ms)
    (hover : 8 ≤ a.sends ∧ a.dueAt ≤ s.now ∨ a.calledAt + 2 * Config.ms + a.deferred ≤ s.now) :
    s.handshakeTimeout h peer = s.abandonAttempt a .timeout 0 := by
  unfold State.handshakeTimeout
  rw [ha]
  dsimp only
  rw [if_neg (not_or.mpr ⟨not_not_intro hc, hn⟩), if_neg (Nat.not_lt.mpr hdef), if_pos hover]

/-- An answered attempt expires 200 µs after its ACCEPT (R249). -/
theorem State.reachOpt_attemptDue {s : State} {h peer e t : Nat} {a : Assoc} {salt : BitVec 48} {ni nr : BitVec 64}
    (ha : s.assoc h peer = some a) (hans : a.answer = some (e, salt, ni, nr, t)) :
    s.reachOpt (s.attemptDue h peer) = s.reach (t + 200 * Config.us) := by
  unfold State.attemptDue
  rw [ha, Option.bind_some, hans]
  rfl

/-- What an attempt that expires leaves: the association, where there is another one, or nothing, unless requests wait for it (R249). -/
theorem State.attemptExpired_eq {s : State} {h peer e t : Nat} {a : Assoc} {salt : BitVec 48} {ni nr : BitVec 64}
    (ha : s.assoc h peer = some a) (hans : a.answer = some (e, salt, ni, nr, t)) (ht : t + 200 * Config.us ≤ s.now) :
    s.attemptExpired h peer = if a.state = .answered
      then (if (s.removeAssoc h peer).remote.reqs.any (fun q => q.handle == h && q.node == peer)
        then (s.removeAssoc h peer).callStart h peer else s.removeAssoc h peer)
      else s.modAssoc h peer (fun x => { x with answer := none, accept := none, answerKeys := (0, 0) }) := by
  unfold State.attemptExpired
  rw [ha]
  dsimp only
  rw [hans]
  exact if_neg (Nat.not_lt.mpr ht)

/-! ### Steps of a ratchet -/

theorem State.reachOpt_epochDue {s : State} {h peer : Nat} {a : Assoc} (ha : s.assoc h peer = some a) :
    s.reachOpt (s.epochDue h peer) = s.reach (a.enteredAt + 60000 * Config.ms) := by
  unfold State.epochDue
  rw [ha]
  rfl

/-- After 60 s in an epoch a step is triggered, unless one waits for its keys already (R259). -/
theorem State.epochTimer_triggers {s : State} {h peer : Nat} {a : Assoc} (ha : s.assoc h peer = some a) (hs : a.seals = true)
    (ht : a.enteredAt + 60000 * Config.ms ≤ s.now) (hw : a.waitKeys = false) : s.epochTimer h peer = s.ratchetTrigger h peer := by
  unfold State.epochTimer
  rw [ha]
  exact if_pos ⟨hs, ht, hw⟩

/-- The keys of a step reach the home, which goes over to them (R260). -/
theorem State.ratchetKeys_switches {s : State} {h peer : Nat} {a : Assoc} {r : KeyReq} {root : JobRoot}
    (ha : s.assoc h peer = some a)
    (hr : s.kv.requests.find? (fun x => x.handle == h && x.ready && x.kind == .assoc peer (a.epoch + 1)) = some r)
    (hroot : tget s.kv.jobRoots h = some root) (hw : a.waitKeys = true) :
    s.ratchetKeys h peer =
      (let m := assocKeys root.jrk s.boot.nodeNumber peer (a.epoch + 1)
       (State.keyHeldBy { s with kv := { s.kv with requests := s.kv.requests.filter (fun x => x.id != r.id) } } h r.island).switchEpoch h
         peer (if s.boot.nodeNumber < peer then (m.extractLsb' 0 256, m.extractLsb' 256 256)
               else (m.extractLsb' 256 256, m.extractLsb' 0 256))) := by
  unfold State.ratchetKeys
  rw [ha]
  dsimp only
  rw [hr, hroot]
  exact if_pos hw

theorem State.reachOpt_ratchetDue {s : State} {h peer : Nat} {a : Assoc} (ha : s.assoc h peer = some a) :
    s.reachOpt (s.ratchetDue h peer) = s.reach a.resendAt := by
  unfold State.ratchetDue
  rw [ha]
  rfl

/-- A marker that no packet of its peer has answered is due (R260). -/
structure Unlearned (s : State) (h peer : Nat) (a : Assoc) (new old : Epoch) : Prop where
  assoc     : s.assoc h peer = some a
  ratchets  : a.state = .ratcheting
  unlearned : a.learnedAt = none
  epochs    : a.epochs = [new, old]
  due       : a.resendAt ≤ s.now

/-- The marker goes again, up to eight times (R260). -/
theorem State.ratchetResend_sends {s : State} {h peer : Nat} {a : Assoc} {new old : Epoch} (hu : Unlearned s h peer a new old)
    (hn : a.resends < 8) : s.ratchetResend h peer = (s.sealRatchet h peer old.number new.number).modAssoc h peer (fun x =>
      { x with resends := x.resends + 1, resendAt := x.resendAt + 50 * Config.us }) := by
  unfold State.ratchetResend
  rw [hu.assoc]
  dsimp only
  rw [hu.ratchets, hu.unlearned, hu.epochs]
  dsimp only
  rw [if_neg (not_or.mpr ⟨Nat.not_lt.mpr hu.due, Nat.not_lt.mpr (Nat.le_of_lt hn)⟩), if_neg (Nat.ne_of_lt hn)]

/-- After the eighth the step has stalled, which is told once (R260, R286). -/
theorem State.ratchetResend_stalls {s : State} {h peer : Nat} {a : Assoc} {new old : Epoch} (hu : Unlearned s h peer a new old)
    (hn : a.resends = 8) : s.ratchetResend h peer = (s.modAssoc h peer (fun x => { x with resends := 9 })).post 0x0703 .timeout
      (assocObject (s.numberOf h) peer) (assocPayload new.number 0 0) [h] := by
  unfold State.ratchetResend
  rw [hu.assoc]
  dsimp only
  rw [hu.ratchets, hu.unlearned, hu.epochs]
  dsimp only
  rw [if_neg (not_or.mpr ⟨Nat.not_lt.mpr hu.due, Nat.not_lt.mpr (Nat.le_of_eq hn)⟩), if_pos hn]

theorem State.reachOpt_drainDue {s : State} {h peer t : Nat} {a : Assoc} (ha : s.assoc h peer = some a) (hl : a.learnedAt = some t) :
    s.reachOpt (s.drainDue h peer) = s.reach (t + 200 * Config.us) := by
  unfold State.drainDue
  rw [ha, Option.bind_some, hl]
  rfl

/-- 200 µs after the new epoch was learned the old one has drained (R261, R262). -/
theorem State.drainTimer_drains {s : State} {h peer t : Nat} {a : Assoc} (ha : s.assoc h peer = some a) (hl : a.learnedAt = some t)
    (ht : t + 200 * Config.us ≤ s.now) :
    s.drainTimer h peer = (s.modAssoc h peer (fun x => { x with drained := true })).stepEnd h peer := by
  unfold State.drainTimer
  rw [ha]
  dsimp only
  rw [hl]
  exact if_pos ht

theorem State.reachOpt_spacingDue {s : State} {h peer t : Nat} {a : Assoc} (ha : s.assoc h peer = some a)
    (hl : a.lastStep = some t) : s.reachOpt (s.spacingDue h peer) = s.reach (t + Config.ms) := by
  unfold State.spacingDue
  rw [ha, Option.bind_some, hl]
  rfl

/-- A trigger that waited starts its step as soon as it may (R259). -/
theorem State.spacingElapsed_begins {s : State} {h peer : Nat} {a : Assoc} (ha : s.assoc h peer = some a) (ht : a.trigger = true)
    (hm : s.mayStep a = true) : s.spacingElapsed h peer = s.beginStep a := by
  unfold State.spacingElapsed
  rw [ha]
  exact if_pos ⟨ht, hm⟩

/-- Settles O26: each timer reaches its moment, and its event then does what its rule says. -/
theorem associationTimers : Obligations.AssociationTimers := by
  refine ⟨fun s h peer a q hlive ha hc hn hdef hq hi => ends_of_eq rfl ?_,
    fun s h peer t a hlive ha hc hn hdef hd => ends_of_eq rfl ?_,
    fun s h peer t e a salt ni nr hlive ha hans hs => ends_of_eq rfl ?_,
    fun s h peer t e a salt ni nr hlive ha hans hs hno => ends_of_eq rfl ?_,
    fun s h peer a hlive ha hs hw => ends_of_eq rfl ?_,
    fun s h peer a r root lane ha hr hroot hw => ends_of_eq rfl ?_,
    fun s h peer a new old hlive ha hs hl he hn => ends_of_eq rfl ?_,
    fun s h peer a new old hlive ha hs hl he hn => ends_of_eq rfl ?_,
    fun s h peer t a hlive ha hl => ends_of_eq rfl ?_,
    fun s h peer t a hlive ha ht hl hm => ends_of_eq rfl ?_⟩
  · rw [State.reachOpt_resendDue ha, State.helloResend_sends (by rw [State.reach_assoc]; exact ha) hc hn hdef hq
      (by rw [State.reach_fault]; exact hi) (by rw [State.reach_helloBar]; exact State.reach_le _ hlive)]
    rfl
  · have hnow := State.reach_le t hlive
    rw [show s.reachOpt (s.handshakeDue h peer) = s.reach t by rw [hd]; rfl,
      State.handshakeTimeout_abandons (by rw [State.reach_assoc]; exact ha) hc hn hdef ((State.handshakeDue_some ha hc hn hdef hd).imp
        (fun ⟨h8, hdue⟩ => ⟨h8, Nat.le_trans hdue hnow⟩) (fun hover => Nat.le_trans hover hnow))]
  · rw [State.reachOpt_attemptDue ha hans, State.attemptExpired_eq (by rw [State.reach_assoc]; exact ha) hans
      (State.reach_le _ hlive), if_neg hs]
  · rw [State.reachOpt_attemptDue ha hans, State.attemptExpired_eq (by rw [State.reach_assoc]; exact ha) hans
      (State.reach_le _ hlive), if_pos hs, if_neg]
    rw [Bool.not_eq_true, List.any_eq_false]
    exact fun q hq hm => hno q hq (by rwa [Bool.and_eq_true, beq_iff_eq, beq_iff_eq] at hm)
  · rw [State.reachOpt_epochDue ha, State.epochTimer_triggers (by rw [State.reach_assoc]; exact ha) hs (State.reach_le _ hlive) hw]
  · have hassoc : (s.verifyLane lane).assoc h peer = some a := by unfold State.assoc; rw [State.verifyLane_assocs]; exact ha
    refine (State.ratchetKeys_switches hassoc (by rw [State.verifyLane_kv]; exact hr) (by rw [State.verifyLane_kv]; exact hroot)
      hw).trans ?_
    cases lane <;> rfl
  · rw [State.reachOpt_ratchetDue ha, State.ratchetResend_sends (a := a) (new := new) (old := old)
      ⟨by rw [State.reach_assoc]; exact ha, hs, hl, he, State.reach_le _ hlive⟩ hn]
  · rw [State.reachOpt_ratchetDue ha, State.ratchetResend_stalls (a := a) (new := new) (old := old)
      ⟨by rw [State.reach_assoc]; exact ha, hs, hl, he, State.reach_le _ hlive⟩ hn, State.reach_numberOf]
  · rw [State.reachOpt_drainDue ha hl, State.drainTimer_drains (by rw [State.reach_assoc]; exact ha) hl (State.reach_le _ hlive)]
  · rw [State.reachOpt_spacingDue ha hl, State.spacingElapsed_begins (by rw [State.reach_assoc]; exact ha) ht hm]

end Machine
end Sys2Proof
end

section
/-!
PROOFS. The node number, routes, windows, redirects and fences: when their commands are accepted or answered (R288 to R290, R306 to
R310, R317 to R329).
-/

namespace Sys2Proof
namespace Machine

/-! ### The node number and routes -/

/-- SET_NODE_NUMBER while no job is admitted (R288). -/
theorem hSetNodeNumber_run {s : State} (c : Cmd) (hj : s.jobs = []) :
    hSetNodeNumber.run s c = doneWith (s.numbered (c.arg 0 2)) :=
  if_pos (List.isEmpty_iff.mpr hj)

/-- SET_ROUTE that changes the entry of a node with fewer than three markers outstanding (R290). -/
theorem hSetRoute_run {s : State} {c : Cmd} (hmoves : ¬((s.route (c.arg 0 2)).valid = true ∧ (s.route (c.arg 0 2)).port = c.arg 2 1))
    (hclears : ¬((s.route (c.arg 0 2)).valid = false ∧ c.arg 2 1 = 0xFF)) (hroom : s.draining (c.arg 0 2) < 3) :
    hSetRoute.run s c = .accept [] (some 20) (fun id u => u.setRoute (c.arg 0 2) (c.arg 2 1) id) := by
  unfold hSetRoute
  dsimp only
  rw [if_neg (not_or.mpr ⟨hmoves, hclears⟩), if_neg (Nat.not_le.mpr hroom)]

/-! ### Windows -/

/-- The entry that OPEN_WINDOW writes for a job (R307, R326). -/
def State.windowAsked (s : State) (c : Cmd) (h : Nat) : Window :=
  { state := .opened, read := bit (c.arg 7 1) 0, write := bit (c.arg 7 1) 1, atomic := bit (c.arg 7 1) 2,
    mapEpoch := c.arg 6 1, handle := h, base := c.arg 8 8, size := c.arg 16 8, target := c.arg 24 8, region := c.arg 32 2,
    owner := c.arg 34 2, ctx := c.arg 36 2, useFixed := bit (c.arg 40 4) 31, fixedKey := bits (c.arg 40 4) 19 0,
    openedAt := s.now }

/-- No window of the job overlaps a range in its map epoch (R308). -/
theorem State.windows_apart {s : State} {h epoch base size : Nat}
    (ha : ∀ e ∈ s.jobWindows h, e.2.mapEpoch = epoch → base + size ≤ e.2.base ∨ e.2.base + e.2.size ≤ base) :
    (s.jobWindows h).any (fun e => e.2.mapEpoch == epoch && decide (e.2.base < base + size)
      && decide (base < e.2.base + e.2.size)) = false := by
  rw [List.any_eq_false]
  intro e he
  simp only [Bool.and_eq_true, beq_iff_eq, decide_eq_true_eq]
  rintro ⟨⟨hepoch, hbelow⟩, habove⟩
  have := ha e he hepoch
  omega

/-- OPEN_WINDOW of a FREE entry, in a map epoch that the job serves or goes over to next, apart from the job's other windows of that
epoch, in order with its region, and within the job's count (R308, R326). -/
theorem hOpenWindow_run {s : State} {c : Cmd} {a : Nat × Job} (hg : s.jobGate (c.arg 0 4) = .ok a)
    (hfree : (s.window (c.arg 4 2)).state = .free)
    (hepoch : c.arg 6 1 = a.2.mapEpoch ∨ c.arg 6 1 = (a.2.mapEpoch + 1) % 256)
    (hapart : ∀ e ∈ s.jobWindows a.1, e.2.mapEpoch = c.arg 6 1 → c.arg 8 8 + c.arg 16 8 ≤ e.2.base ∨ e.2.base + e.2.size ≤ c.arg 8 8)
    (hranges : firstBad (s.openWindowRanges c a.1 a.2) = none) (hroom : (s.jobWindows a.1).length < a.2.windows.getD 0) :
    hOpenWindow.run s c
      = doneWith (s.modRemote (fun x => { x with windows := tput x.windows (c.arg 4 2) (s.windowAsked c a.1) })) := by
  unfold hOpenWindow
  dsimp only
  rw [hg]
  dsimp only
  rw [hfree, if_neg (fun hc => nomatch hc.1), if_neg (not_not_intro rfl),
    if_neg (fun hc => hepoch.elim hc.1 hc.2), if_neg (by rw [State.windows_apart hapart]; decide), hranges]
  exact if_neg (Nat.not_le.mpr hroom)

/-- CLOSE_WINDOW of an OPEN window of the job (R320). -/
theorem hCloseWindow_run {s : State} {c : Cmd} {a : Nat × Job} (hg : s.jobGate (c.arg 0 4) = .ok a)
    (hopen : (s.window (c.arg 4 2)).state = .opened) (hown : (s.window (c.arg 4 2)).handle = a.1) :
    hCloseWindow.run s c = .accept [] (some 20) (fun id u => u.modRemote (fun x => { x with
      windows := tmod x.windows (c.arg 4 2) (fun w => { w with
        state := .closing, closeOp := some id, closeBy := u.now + 20 * Config.us }) })) := by
  unfold hCloseWindow
  dsimp only
  rw [hg]
  exact if_pos ⟨hopen, hown⟩

/-- WINDOW_STATUS of an entry that is FREE, or holds a window of the job (R325). -/
theorem hWindowStatus_run {s : State} {c : Cmd} {a : Nat × Job} (hg : s.jobGate (c.arg 0 4) = .ok a)
    (hown : (s.window (c.arg 4 2)).state = .free ∨ (s.window (c.arg 4 2)).handle = a.1) :
    hWindowStatus.run s c = answerWith s (if (s.window (c.arg 4 2)).state = .free then zeros 72
      else (s.window (c.arg 4 2)).bytes ++ enc [(4, s.windowFlight (c.arg 4 2)), (4, 0)]) := by
  unfold hWindowStatus
  dsimp only
  rw [hg]
  dsimp only
  by_cases hfree : (s.window (c.arg 4 2)).state = .free
  · rw [if_pos hfree, if_pos hfree]
  · rw [if_neg hfree, if_neg hfree, if_neg (not_not_intro (hown.resolve_left hfree))]

/-- SET_WINDOW_OWNER of an OPEN window of the job (R310). -/
theorem hSetWindowOwner_run {s : State} {c : Cmd} {a : Nat × Job} (hg : s.jobGate (c.arg 0 4) = .ok a)
    (hopen : (s.window (c.arg 4 2)).state = .opened) (hown : (s.window (c.arg 4 2)).handle = a.1) :
    hSetWindowOwner.run s c = doneWith (s.modRemote (fun x => { x with
      windows := tmod x.windows (c.arg 4 2) (fun w => { w with owner := c.arg 6 2 }) })) := by
  unfold hSetWindowOwner
  dsimp only
  rw [hg]
  exact if_pos ⟨hopen, hown⟩

/-! ### Map epochs and the dead-target timeout -/

/-- REDIRECT of a job that has none under way (R319). -/
theorem hRedirect_run {s : State} {c : Cmd} {a : Nat × Job} (hg : s.jobGate (c.arg 0 4) = .ok a) (hnone : a.2.redirect = none) :
    hRedirect.run s c = .accept [] (some (a.2.timeout + 34)) (fun id u => u.redirectStart a.1 id) := by
  unfold hRedirect
  dsimp only
  rw [hg]
  dsimp only
  rw [hnone]

/-- MAP_STATUS of a job that takes commands (R327). -/
theorem hMapStatus_run {s : State} {c : Cmd} {a : Nat × Job} (hg : s.jobGate (c.arg 0 4) = .ok a) :
    hMapStatus.run s c = answerWith s (mapBody s a.1 a.2) := by
  unfold hMapStatus
  dsimp only
  rw [hg]

/-- SET_DEAD_TARGET_TIMEOUT of a job that takes commands (R306). -/
theorem hSetDeadTargetTimeout_run {s : State} {c : Cmd} {a : Nat × Job} (hg : s.jobGate (c.arg 0 4) = .ok a) :
    hSetDeadTargetTimeout.run s c = doneWith (s.modJob a.1 (fun j => { j with timeout := c.arg 4 4 })) := by
  unfold hSetDeadTargetTimeout
  dsimp only
  rw [hg]

/-- Settles O10: past its own conditions each command of routes, windows and redirects is accepted or answered. -/
theorem routeCommands : Obligations.RouteCommands := by
  refine ⟨replies_of (fun _ _ _ _ => rfl) rfl (fun s c _ _ _ hg => hSetNodeNumber_run c hg),
    accepts_of (fun _ _ _ _ => rfl) rfl (fun s c _ _ _ hg => ?_),
    replies_of (fun _ _ _ _ => rfl) rfl (fun _ _ _ _ _ _ => rfl),
    replies_of (fun _ _ _ _ => rfl) rfl (fun s c _ _ _ hg => ?_),
    accepts_of (fun _ _ _ _ => rfl) rfl (fun s c _ _ _ hg => ?_),
    replies_of (fun _ _ _ _ => rfl) rfl (fun s c _ _ _ hg => hWindowStatus_run hg.1 hg.2),
    replies_of (fun _ _ _ _ => rfl) rfl (fun s c _ _ _ hg => ?_),
    accepts_of (fun _ _ _ _ => rfl) rfl (fun s c _ _ _ hg => hRedirect_run hg.1 hg.2),
    replies_of (fun _ _ _ _ => rfl) rfl (fun s c _ _ _ hg => hMapStatus_run hg),
    replies_of (fun _ _ _ _ => rfl) rfl (fun s c _ _ _ hg => hSetDeadTargetTimeout_run hg)⟩
  · obtain ⟨hmoves, hclears, hroom⟩ := hg
    exact hSetRoute_run hmoves hclears hroom
  · obtain ⟨hgate, hfree, hepoch, hapart, hranges, hroom⟩ := hg
    exact hOpenWindow_run hgate hfree hepoch hapart hranges hroom
  · obtain ⟨hgate, hopen, hown⟩ := hg
    exact hCloseWindow_run hgate hopen hown
  · obtain ⟨hgate, hopen, hown⟩ := hg
    exact hSetWindowOwner_run hgate hopen hown

/-! ### Fences -/

/-- OPEN_FENCE of a FREE object within the job's quota (R321). -/
theorem hOpenFence_run {s : State} {c : Cmd} {a : Nat × Job} (hg : s.jobGate (c.arg 0 4) = .ok a)
    (hfree : (s.fenceObj (c.arg 4 2)).state = .free)
    (hroom : (s.remote.fences.filter (fun e => e.2.state != .free && e.2.handle == a.1 && decide (e.1 < 8128))).length
      < a.2.fenceQuota) :
    hOpenFence.run s c
      = doneWith (s.modRemote (fun x => { x with fences := tput x.fences (c.arg 4 2) { state := .idle, handle := a.1 } })) := by
  unfold hOpenFence
  dsimp only
  rw [hg]
  dsimp only
  rw [hfree, if_neg (fun hc => nomatch hc.1), if_neg (not_not_intro rfl)]
  exact if_neg (Nat.not_le.mpr hroom)

/-- CLOSE_FENCE of an object of the job that is IDLE or ARMED (R321). -/
theorem hCloseFence_run {s : State} {c : Cmd} {a : Nat × Job} (hg : s.jobGate (c.arg 0 4) = .ok a)
    (hown : (s.fenceObj (c.arg 4 2)).handle = a.1)
    (hst : (s.fenceObj (c.arg 4 2)).state = .idle ∨ (s.fenceObj (c.arg 4 2)).state = .armed) :
    hCloseFence.run s c = .accept [] (some 1)
      (fun id u => u.disarm (c.arg 4 2) .squashed (fun x => { x with state := .closing, closeOp := some id })) := by
  unfold hCloseFence
  dsimp only
  rw [hg]
  exact if_pos ⟨hown, hst⟩

/-- ARM_FENCE of an IDLE object of the job, over the nodes in scope (R321 to R323). -/
theorem hArmFence_run {s : State} {c : Cmd} {a : Nat × Job} (hg : s.jobGate (c.arg 0 4) = .ok a)
    (hown : (s.fenceObj (c.arg 4 2)).handle = a.1) (hidle : (s.fenceObj (c.arg 4 2)).state = .idle) :
    hArmFence.run s c = .accept [] (some (s.fenceTmax a.1 (s.scopeNodes a.1 (c.arg 6 2)) / Config.us + 5))
      (fun id u => u.arm (c.arg 4 2) (c.arg 6 2) (u.scopeNodes a.1 (c.arg 6 2)) (fun x => { x with op := some id })) := by
  unfold hArmFence
  dsimp only
  rw [hg]
  dsimp only
  rw [hidle, if_neg (not_or.mpr ⟨not_not_intro hown, fun hc => hc.1 rfl⟩)]
  exact if_neg (fun hc => nomatch hc)

/-- FENCE_STATUS of an object that is FREE, or the job's (R328). -/
theorem hFenceStatus_run {s : State} {c : Cmd} {a : Nat × Job} (hg : s.jobGate (c.arg 0 4) = .ok a)
    (hown : (s.fenceObj (c.arg 4 2)).state = .free ∨ (s.fenceObj (c.arg 4 2)).handle = a.1) :
    hFenceStatus.run s c = answerWith s
      (if (s.fenceObj (c.arg 4 2)).state = .free then zeros 24 else fenceBody (s.fenceObj (c.arg 4 2))) := by
  unfold hFenceStatus
  dsimp only
  rw [hg]
  dsimp only
  by_cases hfree : (s.fenceObj (c.arg 4 2)).state = .free
  · rw [if_pos hfree, if_pos hfree]
  · rw [if_neg hfree, if_neg hfree, if_neg (not_not_intro (hown.resolve_left hfree))]

/-- Settles O11: past its own conditions each command of a fence object is accepted or answered. -/
theorem fenceCommands : Obligations.FenceCommands := by
  refine ⟨replies_of (fun _ _ _ _ => rfl) rfl (fun s c _ _ _ hg => ?_),
    accepts_of (fun _ _ _ _ => rfl) rfl (fun s c _ _ _ hg => ?_),
    accepts_of (fun _ _ _ _ => rfl) rfl (fun s c _ _ _ hg => ?_),
    replies_of (fun _ _ _ _ => rfl) rfl (fun s c _ _ _ hg => hFenceStatus_run hg.1 hg.2),
    replies_of (fun _ _ _ _ => rfl) rfl (fun _ _ _ _ _ _ => rfl)⟩
  · obtain ⟨hgate, hfree, hroom⟩ := hg
    exact hOpenFence_run hgate hfree hroom
  · obtain ⟨hgate, hown, hst⟩ := hg
    exact hCloseFence_run hgate hown hst
  · obtain ⟨hgate, hown, hidle⟩ := hg
    exact hArmFence_run hgate hown hidle

end Machine
end Sys2Proof
end

section
/-!
PROOFS. Remote requests: what the target does with a request at its stream's cursor, how a response ends a request, and the timers and
markers of remote access (R290, R292, R298, R300, R301, R303, R304, R309, R315, R318, R319).
-/

namespace Sys2Proof
namespace Machine

/-! ### Requests of another node -/

/-- A request at its stream's cursor is passed on, and the requests that were held for it follow (R298). -/
theorem State.streamArrives_cursor {s : State} {h peer tc : Nat} {b : Bytes} {a : Assoc} (port : Nat) (ha : s.assoc h peer = some a)
    (ho : hdr b 4 4 = (a.streams.getD tc {}).cursor) :
    s.streamArrives h peer tc port b = State.passHeld h peer tc a.heldAhead.length
      ((s.modStream h peer tc (fun t => { t with cursor := nextOrdinal t.cursor })).pass h peer tc false b) := by
  unfold State.streamArrives
  rw [ha]
  exact if_pos ho

/-- The state in which a request that passed the checks of R309 enters its memory island: its pigeonholes are confirmed, and it is
counted. -/
def State.inboundCounted (s : State) (i : Inbound) (b : Bytes) : State :=
  ((s.confirmHoles i (hdr b 32 4)).count islandXB 4 (some i.tc) 1).modCounters i.handle
    (fun k => { k with inbound := sat64 k.inbound })

theorem State.inboundCounted_region (s : State) (i : Inbound) (b : Bytes) (n : Nat) :
    (s.inboundCounted i b).region n = s.region n := by
  unfold State.region State.inboundCounted
  rw [State.modCounters_regions, State.count_regions]
  rfl

/-- A request that is no repeated atomic, and that its window admits, is submitted to its memory island (R309). -/
theorem State.inbound_admitted {s : State} {i : Inbound} {b : Bytes} {j : Job} {n key : Nat} {w : Window} (hj : s.job i.handle = some j)
    (hst : j.state ≠ .closing) (hnew : ¬(i.op = 3 ∧ (i.dup = true ∨ hdr b 1 1 = 1)))
    (hw : (s.confirmHoles i (hdr b 32 4)).windowCheck i j b = .ok (n, w, key)) :
    s.inbound i b = (s.inboundCounted i b).submit {
      origin := .stream { i with window := n }, kind := if i.op = 1 then .read else if i.op = 2 then .write else .atomic,
      ctx := some w.ctx, keyIndex := if (s.region w.region).cls = .opened then 0 else key, region := w.region,
      address := w.target + (i.address % 2 ^ 48 - w.base), length := i.length, tc := i.tc, window := some n,
      bytes := if i.op = 2 then (b.drop 64).map some else [], atomicOp := hdr b 36 1,
      operand := BitVec.ofNat 64 (hdr b 40 8), compare := BitVec.ofNat 64 (hdr b 48 8) } := by
  rw [← State.inboundCounted_region s i b]
  unfold State.inbound State.inboundCounted
  rw [hj]
  dsimp only
  rw [if_neg hst, if_neg hnew, hw]

/-- An atomic that is sent again is answered by its pigeonhole (R315). -/
theorem State.inbound_repeated {s : State} {i : Inbound} {b : Bytes} {j : Job} {r : Row} {p : Pigeonhole} (hj : s.job i.handle = some j)
    (hst : j.state ≠ .closing) (hop : i.op = 3) (hagain : i.dup = true ∨ hdr b 1 1 = 1)
    (hr : (s.confirmHoles i (hdr b 32 4)).remote.rows.find? (fun x => x.bound i) = some r)
    (hp : r.holes.find? (fun x => x.seq == i.atomicSeq) = some p) :
    s.inbound i b =
      (let u := (s.confirmHoles i (hdr b 32 4)).count islandXB 5 none 1
       State.inboundEnds { u with remote := { u.remote with pigeonHits := sat64 u.remote.pigeonHits } } i p.status p.reason
         p.result [] false) := by
  unfold State.inbound
  rw [hj]
  dsimp only
  rw [if_neg hst, if_pos ⟨hop, hagain⟩, State.count_remote, hr, Option.bind_some, hp]

/-! ### Responses -/

/-- What a response with a status does to the request that it answers (R301, R304, R315, R318). -/
def State.answeredBy (s : State) (q : RemReq) (st : Status) (h peer tc : Nat) (b : Bytes) : State :=
  if st = .done ∧ hdr b 0 1 ≠ 0x86 then s.remoteDone q (b.drop 64) (BitVec.ofNat 64 (hdr b 40 8))
  else if st = .badState ∧ hdr b 56 1 = 1 ∧ q.restamped = false then
    (s.appliedThrough h peer tc (hdr b 24 4) q.id).restamp q (hdr b 20 1)
  else if hdr b 0 1 = 0x83 ∧ st = .unknownOutcome then
    State.remoteFails { s with remote := { s.remote with outcomeUnknown := sat64 s.remote.outcomeUnknown } } q true st 0x0802 0
  else s.remoteFails q true st 0x0803 (hdr b 56 1)

/-- A response other than a STORE_ACK ends the request of its ordinal; it then tells the map epoch and what is applied, as every
response does (R300, R301). -/
theorem State.response_answers {s : State} {h peer tc : Nat} {b : Bytes} {q : RemReq} {st : Status} (hop : hdr b 0 1 ≠ 0x82)
    (hq : s.remote.reqs.find? (fun q => q.handle == h && q.node == peer && q.tc == tc && q.op == asked (hdr b 0 1) && q.sent
      && q.ordinal == hdr b 4 4) = some q) (hst : Status.ofCode (hdr b 38 2) = some st) :
    s.response h peer tc b =
      ((s.answeredBy q st h peer tc b).modAssoc h peer (fun a => { a with mapEpoch := hdr b 20 1 })).appliedThrough h peer tc
        (hdr b 24 4) := by
  unfold State.response State.answeredBy
  dsimp only
  rw [if_neg hop, hq, hst, Option.getD_some]

theorem State.answeredBy_done {s : State} {q : RemReq} {h peer tc : Nat} {b : Bytes} (hop : hdr b 0 1 ≠ 0x86) :
    s.answeredBy q .done h peer tc b = s.remoteDone q (b.drop 64) (BitVec.ofNat 64 (hdr b 40 8)) :=
  if_pos ⟨rfl, hop⟩

/-- A STORE_NAK fails its request, unless it is the first to name another map epoch (R301, R318). -/
theorem State.answeredBy_nak {s : State} {q : RemReq} {st : Status} {h peer tc : Nat} {b : Bytes} (hop : hdr b 0 1 = 0x86)
    (hmap : ¬(st = .badState ∧ hdr b 56 1 = 1 ∧ q.restamped = false)) :
    s.answeredBy q st h peer tc b = s.remoteFails q true st 0x0803 (hdr b 56 1) := by
  unfold State.answeredBy
  rw [if_neg (fun hc => hc.2 hop), if_neg hmap, if_neg (fun hc => absurd (hop.symm.trans hc.1) (by decide))]

/-- The first refusal for the map epoch has the stream sent again under the epoch that it names (R318). -/
theorem State.answeredBy_staleMap {s : State} {q : RemReq} {h peer tc : Nat} {b : Bytes} (hreason : hdr b 56 1 = 1)
    (hfirst : q.restamped = false) :
    s.answeredBy q .badState h peer tc b = (s.appliedThrough h peer tc (hdr b 24 4) q.id).restamp q (hdr b 20 1) := by
  unfold State.answeredBy
  rw [if_neg (fun hc => nomatch hc.1), if_pos ⟨rfl, hreason, hfirst⟩]

/-- Settles O28: a request at the cursor goes through its checks, and a response ends the request of its ordinal. -/
theorem remoteRequests : Obligations.RemoteRequests := by
  refine ⟨fun s h peer tc port b a ha ho => State.streamArrives_cursor port ha ho,
    fun s i b j n key w hj hst hnew hw => State.inbound_admitted hj hst hnew hw,
    fun s i b j r p hj hst hop hagain hr hp => State.inbound_repeated hj hst hop hagain hr hp,
    fun s h peer tc b q hop hq hst => ?_, fun s h peer tc b q st hop hq hst hmap => ?_,
    fun s h peer tc b q hop hq hst hreason hfirst => ?_⟩
  · have hdone : hdr b 0 1 ≠ 0x82 ∧ hdr b 0 1 ≠ 0x86 := by omega
    rw [State.response_answers hdone.1 hq hst, State.answeredBy_done hdone.2]
  · rw [State.response_answers (by rw [hop]; decide) (by rw [hop]; exact hq) hst, State.answeredBy_nak hop hmap]
  · rw [State.response_answers (by rw [hop]; decide) (by rw [hop]; exact hq) hst, State.answeredBy_staleMap hreason hfirst]

/-! ### Drain markers -/

/-- A port that takes packets is that of a block whose firmware runs. -/
theorem Heard.fwRunning {s : State} {port : Nat} (hd : Heard s port) : s.boot.fwRunning = true := by
  have ht := hd.takes
  unfold State.fabricTakes at ht
  simp only [Bool.and_eq_true] at ht
  exact ht.1.2

theorem Heard.running {s : State} {port : Nat} (hd : Heard s port) : ¬(s.boot.fwRunning = false ∨ s.boot.tamperHeld = true) := by
  rw [hd.fwRunning, hd.calm]
  decide

/-- A tray's answer of another subtype is malformed (R292, R491). -/
theorem State.trayDrainAnswer_wrongSubtype {s : State} {port : Nat} {m : TrayMarker} (hd : Heard s port) (hs : m.subtype ≠ 3) :
    s.trayDrainAnswer m = s.wrongSubtype := by
  unfold State.trayDrainAnswer
  rw [if_neg hd.running, if_neg (Bool.eq_false_iff.mp hd.free), if_pos hs]

/-- A tray's marker that comes back as this node sent it is drained (R292). -/
theorem State.trayDrainAnswer_drains {s : State} {port : Nat} {m : TrayMarker} (hd : Heard s port) (hs : m.subtype = 3)
    (hk : m.kind = 0x31) (hrev : m.revision = 0x32) (he : m.routeEpoch.toNat < 16) (h1 : m.reserved1 = 0) (h2 : m.reserved2 = 0)
    (hsrc : m.src.toNat = s.boot.nodeNumber) :
    s.trayDrainAnswer m = s.drained (fun k => k.tray && k.node == m.dst.toNat && k.id == m.markerId.toNat
      && k.epoch == m.routeEpoch.toNat) := by
  unfold State.trayDrainAnswer
  rw [if_neg hd.running, if_neg (Bool.eq_false_iff.mp hd.free), if_neg (not_not_intro hs),
    if_neg (by simp only [hk, hrev, h1, h2, hsrc, Nat.not_le.mpr he, ne_eq, not_true_eq_false, or_self, not_false_eq_true])]

/-- A marker that nothing answered is dropped, and the fences that recorded it learn of it (R290, R306). -/
def State.markerLost (s : State) (m : Marker) : State :=
  s.modRemote (fun x => { x with
    markers := x.markers.erase m,
    fences := tmap x.fences (fun _ f => { f with nodes := f.nodes.map (fun n =>
      if n.node = m.node ∧ m.id ∈ n.markers then { n with timedOut := true } else n) }) })

theorem State.reachOpt_markerDue {s : State} {m : Marker}
    (hm : s.remote.markers.find? (fun x => x.id == m.id && x.node == m.node) = some m) :
    s.reachOpt (s.markerDue m.node m.id) = s.reach (m.sentAt + 20 * Config.us) := by
  unfold State.markerDue
  rw [hm]
  rfl

/-- 20 µs after a marker its epoch counts as drained (R290). -/
theorem State.markerTimeout_ends {s : State} {m : Marker}
    (hm : s.remote.markers.find? (fun x => x.id == m.id && x.node == m.node) = some m) (ht : m.sentAt + 20 * Config.us ≤ s.now) :
    s.markerTimeout m.node m.id = ((s.markerLost m).post 0x0807 .timeout [(4, 0), (2, m.node), (2, 0)]
      [(8, 0), (1, m.epoch), (7, 0)] []).completeOpt m.op .timeout [] := by
  have hdue := find?_strengthen (q := fun x => decide (x.sentAt + 20 * Config.us ≤ s.now)) hm (decide_eq_true ht)
  unfold State.markerTimeout
  rw [hdue]
  rfl

/-! ### Acknowledgements of stores -/

theorem State.reach_stream (s : State) (t h peer tc : Nat) : (s.reach t).stream h peer tc = s.stream h peer tc := by
  unfold State.stream
  rw [State.reach_assoc]

theorem State.reachOpt_ackDue {s : State} {h peer tc : Nat} (hnew : (s.stream h peer tc).appliedRx ≠ (s.stream h peer tc).acked)
    (hpos : 0 < (s.stream h peer tc).stores) :
    s.reachOpt (s.ackDue h peer tc) = s.reach ((s.stream h peer tc).firstAt + 1000) := by
  unfold State.ackDue
  dsimp only
  rw [if_pos ⟨hnew, hpos⟩]
  rfl

/-- 0.25 µs after the first store that is not acknowledged a STORE_ACK goes (R300). -/
theorem State.ackTimer_sends {s : State} {h peer tc : Nat} (hnew : (s.stream h peer tc).appliedRx ≠ (s.stream h peer tc).acked)
    (hpos : 0 < (s.stream h peer tc).stores) (ht : (s.stream h peer tc).firstAt + 1000 ≤ s.now) :
    s.ackTimer h peer tc = s.sendAck h peer tc := by
  have hdue : (s.stream h peer tc).due s.now = true := by
    unfold StreamSt.due
    simp only [Bool.and_eq_true, Bool.or_eq_true, bne_iff_ne, decide_eq_true_eq]
    exact ⟨hnew, .inr ⟨hpos, ht⟩⟩
  exact if_pos hdue

/-! ### Timeouts of requests -/

theorem State.reachOpt_retransmitDue {s : State} {q : RemReq} (hq : s.remote.reqs.find? (fun x => x.id == q.id) = some q) :
    s.reachOpt (s.retransmitDue q.id) = s.reach (q.accepted + (q.retries + 1) * q.timeout / 4) := by
  unfold State.retransmitDue
  rw [hq]
  rfl

/-- A request of an association that seals goes again at T/4, T/2 and 3T/4 (R303). -/
theorem State.retransmit_sends {s : State} {q : RemReq} {a : Assoc} (hq : s.remote.reqs.find? (fun x => x.id == q.id) = some q)
    (hn : q.retries < 3) (ht : q.accepted + (q.retries + 1) * q.timeout / 4 ≤ s.now) (hi : s.fault.isolated = false)
    (ha : s.assoc q.handle q.node = some a) (hs : a.seals = true) (hp : q.parked = false) :
    s.retransmit q.id = (s.setRemote { q with retries := q.retries + 1 }).transmit { q with retries := q.retries + 1 } q.sent := by
  have hassoc : (s.setRemote { q with retries := q.retries + 1 }).assoc q.handle q.node = some a := ha
  unfold State.retransmit
  rw [hq]
  dsimp only
  rw [if_neg, hassoc]
  · exact if_pos ⟨hs, hp⟩
  · rintro (hspent | hearly | hiso)
    · exact Nat.not_le.mpr hn hspent
    · exact Nat.not_lt.mpr ht hearly
    · rw [hi] at hiso
      cases hiso

theorem State.reachOpt_deadDue {s : State} {q : RemReq} (hq : s.remote.reqs.find? (fun x => x.id == q.id) = some q) :
    s.reachOpt (s.deadDue q.id) = s.reach (q.accepted + q.timeout) := by
  unfold State.deadDue
  dsimp only
  rw [hq]
  rfl

/-- T after a tile's request its target counts as dead, and its association is torn down (R304, R305). -/
theorem State.deadTimeout_remote {s : State} {q : RemReq} (hq : s.remote.reqs.find? (fun x => x.id == q.id) = some q)
    (ht : q.accepted + q.timeout ≤ s.now) (hreq : q.req ≠ 0) :
    s.deadTimeout q.id =
      (State.remoteDead { s with remote := { s.remote with deadTimeouts := sat64 s.remote.deadTimeouts } } q 1).deadTeardown q 1 := by
  unfold State.deadTimeout
  rw [hq]
  dsimp only
  unfold State.remoteTimeout
  rw [if_neg (Nat.not_lt.mpr ht), if_neg hreq]

/-! ### Redirects -/

theorem State.reach_job (s : State) (t h : Nat) : (s.reach t).job h = s.job h := by
  unfold State.job
  rw [State.reach_jobs]

/-- What changes a job matters only at the job that is there. -/
theorem State.modJob_congr {s : State} {h : Nat} {j : Job} {f g : Job → Job} (hj : s.job h = some j) (hfg : f j = g j) :
    s.modJob h f = s.modJob h g := by
  unfold State.job at hj
  unfold State.modJob tmod
  rw [hj]
  dsimp only
  rw [hfg]

theorem State.reachOpt_redirectDue {s : State} {h peer acks due : Nat} {j : Job} {r : Redirect} (hj : s.job h = some j)
    (hr : j.redirect = some r) (hp : r.peers.find? (fun x => x.1 == peer && x.2.1 != 15) = some (peer, acks, due)) :
    s.reachOpt (s.redirectDue h peer) = s.reach due := by
  unfold State.redirectDue
  rw [hj, Option.bind_some, hr, Option.bind_some, hp]
  rfl

/-- A peer that has not acknowledged in every stream by T is missed (R319 step 4). -/
theorem State.redirectTimeout_misses {s : State} {h peer acks due : Nat} {j : Job} {r : Redirect} (hj : s.job h = some j)
    (hr : j.redirect = some r) (hp : r.peers.find? (fun x => x.1 == peer && x.2.1 != 15) = some (peer, acks, due))
    (ht : due ≤ s.now) :
    s.redirectTimeout h peer = s.modJob h (fun j => { j with
      redirect := some { r with peers := r.peers.erase (peer, acks, due), missed := r.missed + 1 } }) := by
  have hdue := find?_strengthen (q := fun x => decide (x.2.2 ≤ s.now)) hp (decide_eq_true ht)
  refine State.modJob_congr hj ?_
  rw [hr, Option.map_some, hdue]

/-- Settles O29: each timer reaches its moment, and its event then does what its rule says. -/
theorem remoteTimers : Obligations.RemoteTimers := by
  refine ⟨fun s port m hd hk hrev he h1 h2 hsrc hs => ends_of_eq rfl ?_, fun s port m hd hs => ends_of_eq rfl ?_,
    fun s m hlive hm => ends_of_eq rfl ?_, fun s h peer tc hlive hnew hpos => ends_of_eq rfl ?_,
    fun s q a hlive hq hn hi ha hs hp => ends_of_eq rfl ?_, fun s q hlive hq hreq => ends_of_eq rfl ?_,
    fun s h peer acks due j r hlive hj hr hp => ends_of_eq rfl ?_⟩
  · rw [State.atPort_heard hd, State.trayDrainAnswer_drains hd hs hk hrev he h1 h2 hsrc]
  · rw [State.atPort_heard hd, State.trayDrainAnswer_wrongSubtype hd hs]
  · rw [State.reachOpt_markerDue hm, State.markerTimeout_ends (by rw [State.reach_remote]; exact hm) (State.reach_le _ hlive)]
    rfl
  · rw [State.reachOpt_ackDue hnew hpos, State.ackTimer_sends (by rw [State.reach_stream]; exact hnew)
      (by rw [State.reach_stream]; exact hpos) (by rw [State.reach_stream]; exact State.reach_le _ hlive)]
  · rw [State.reachOpt_retransmitDue hq, State.retransmit_sends (by rw [State.reach_remote]; exact hq) hn (State.reach_le _ hlive)
      (by rw [State.reach_fault]; exact hi) (by rw [State.reach_assoc]; exact ha) hs hp]
  · rw [State.reachOpt_deadDue hq, State.deadTimeout_remote (by rw [State.reach_remote]; exact hq) (State.reach_le _ hlive) hreq]
  · rw [State.reachOpt_redirectDue hj hr hp, State.redirectTimeout_misses (by rw [State.reach_job]; exact hj) hr hp
      (State.reach_le _ hlive)]

end Machine
end Sys2Proof
end

section
/-!
PROOFS. Regulation: what its commands report, and the ageing, the boost and the guarantee window of the masters (R371, R375, R381 to
R384).
-/

namespace Sys2Proof
namespace Machine

/-! ### Commands -/

/-- MASTER_STATUS of an admitted job, of a stack of its partition where the target is a stack (R381). -/
theorem hMasterStatus_run {s : State} {c : Cmd} {a : Nat × Job} (hg : s.jobGate (c.arg 0 4) = .ok a)
    (ht : c.arg 5 1 = 0 → c.arg 6 1 ∈ (s.part a.2.partition).tiles) :
    hMasterStatus.run s c = answerWith s (masterBody s a.1 (c.arg 4 1) (c.arg 5 1) (c.arg 6 1)
      (2 * flag (s.contract a.1 (c.arg 4 1) (c.arg 5 1)).isNone + 4 * flag (c.arg 4 1 == 0 && !s.hasTc0 a.1))) := by
  unfold hMasterStatus
  dsimp only
  rw [hg]
  exact if_neg (fun h => h.2 (ht h.1))

/-- Settles O13: past the gate of R381 each command answers the body of R382 or R383. -/
theorem regulationCommands : Obligations.RegulationCommands :=
  ⟨replies_of (fun _ _ _ _ => rfl) rfl (fun _ _ _ _ _ hg => hMasterStatus_run hg.1 hg.2),
    replies_of (fun _ _ _ _ => rfl) rfl (fun _ _ _ _ _ _ => rfl),
    replies_of (fun _ _ _ _ => rfl) rfl (fun _ _ _ _ _ _ => rfl)⟩

/-! ### Ageing -/

theorem State.reach_waitsSince (s : State) (t id : Nat) : (s.reach t).waitsSince id = s.waitsSince id := by
  unfold State.waitsSince
  rw [State.reach_boot, State.reach_mem, State.reach_remote, State.reach_red]

theorem State.reach_waiting (s : State) (t id : Nat) : (s.reach t).waiting id = s.waiting id := by
  unfold State.waiting State.master
  rw [State.reach_mem, State.reach_red, State.reach_reg]

theorem State.reach_masters (s : State) (t : Nat) : (s.reach t).reg.masters = s.reg.masters := by
  rw [State.reach_reg]

theorem State.reachOpt_ageingDue {s : State} {id t : Nat} (ht : s.waitsSince id = some t) :
    s.reachOpt (s.ageingDue id) = s.reach (t + 2 * Config.us) := by
  unfold State.ageingDue
  rw [ht]
  rfl

/-- A wait of 2 µs below level 5, not counted yet, is counted as a rise (R371). -/
theorem State.ageing_raises {s : State} {id level t : Nat} {done : Option Nat} {x : Master}
    (hw : s.waiting id = some (level, done, x)) (hs : s.waitsSince id = some t) (hl : level < 5) (hd : done ≠ some t)
    (ht : t + 2 * Config.us ≤ s.now) :
    s.ageing id =
      (let u := s.putMaster { x with aged := sat64 x.aged }
       State.count { u.raiseAged id t with reg := { u.reg with aged := sat64 u.reg.aged } } islandXB 7 (some x.tc) 1) := by
  unfold State.ageing
  rw [hw, hs]
  exact if_pos ⟨hl, hd, ht⟩

/-- A request stamped 5 or more is not raised, and a wait is counted once (R371). -/
theorem State.ageing_raised {s : State} {id level t : Nat} {done : Option Nat} {x : Master}
    (hw : s.waiting id = some (level, done, x)) (hs : s.waitsSince id = some t) (h : 5 ≤ level ∨ done = some t) :
    s.ageing id = s := by
  unfold State.ageing
  rw [hw, hs]
  refine if_neg ?_
  rintro ⟨hl, hd, -⟩
  exact h.elim (Nat.not_le.mpr hl) hd

/-- What waits at no arbiter does not age, and has no moment to reach (R371). -/
theorem State.ageing_served {s : State} {id : Nat} (hs : s.waitsSince id = none) : (s.reachOpt (s.ageingDue id)).ageing id = s := by
  have hdue : s.reachOpt (s.ageingDue id) = s := by
    unfold State.ageingDue
    rw [hs]
    rfl
  rw [hdue]
  unfold State.ageing
  rw [hs]
  cases s.waiting id <;> rfl

/-! ### The boost -/

/-- A mean below a part of a target is below the whole of it. -/
theorem Master.below_mono {x : Master} {m n target : Nat} (hmn : m ≤ n) (h : x.below m target = true) : x.below n target = true := by
  unfold Master.below at h ⊢
  exact decide_eq_true (Nat.lt_of_lt_of_le (of_decide_eq_true h)
    (Nat.mul_le_mul_right _ (Nat.mul_le_mul_right _ (Nat.mul_le_mul_right _ hmn))))

/-- No mean is below a target of 0. -/
theorem Master.ne_zero_of_below {x : Master} {n target : Nat} (h : x.below n target = true) : target ≠ 0 := by
  rintro rfl
  unfold Master.below at h
  rw [Nat.mul_zero, Nat.zero_mul] at h
  exact Nat.not_lt_zero _ (of_decide_eq_true h)

/-- The boost of a mean below its target (R375). -/
theorem boostFor_below {x : Master} {target : Nat} (h : x.below 100 target = true) :
    boostFor target x = if x.below 60 target then 0 else if x.below 75 target then x.boost else max x.boost 1 := by
  unfold boostFor
  rw [if_neg (Master.ne_zero_of_below h), if_pos h]

/-- The boost of a mean at or above its target (R375). -/
theorem boostFor_missed {x : Master} {target : Nat} (h0 : target ≠ 0) (h : x.below 100 target = false) : boostFor target x = 2 := by
  have hpart : ∀ m, m ≤ 100 → ¬x.below m target = true := fun m hm hb => by
    rw [Master.below_mono hm hb] at h
    cases h
  unfold boostFor
  rw [if_neg h0, if_neg (hpart 60 (by decide)), if_neg (hpart 75 (by decide)), if_neg (hpart 100 (Nat.le_refl _))]

theorem State.latencyTarget_contract {s : State} {x : Master} {b : Bandwidth}
    (hc : s.contract x.handle x.tc x.targetKind = some b) : s.latencyTarget x = b.latency := by
  unfold State.latencyTarget
  rw [hc]

/-- A master that misses no target is only given its boost (R375). -/
theorem State.boostMaster_meets {s : State} {x : Master} (h : s.latencyTarget x = 0 ∨ x.below 100 (s.latencyTarget x) = true) :
    s.boostMaster x = s.putMaster { x with boost := boostFor (s.latencyTarget x) x, missedSince := none } := by
  unfold State.boostMaster
  dsimp only
  rw [if_neg]
  rintro ⟨h0, -, hb⟩
  exact h.elim h0 (Bool.eq_false_iff.mp hb)

/-- The record of a master that has missed its target since a moment: boost 2 (R375). -/
def Master.missing (x : Master) (since : Nat) : Master := { x with boost := 2, missedSince := some since }

/-- A master at or above its target has boost 2, and after 1 ms there the notice is posted (R375). -/
theorem State.boostMaster_misses {s : State} {x : Master} (h0 : s.latencyTarget x ≠ 0) (h : x.below 100 (s.latencyTarget x) = false) :
    s.boostMaster x =
      (let y := x.missing (x.missedSince.getD s.now)
       if x.missedSince.getD s.now + Config.ms ≤ s.now then (s.putMaster y).masterNotice y 0x0A02 .timeout else s.putMaster y) := by
  unfold State.boostMaster
  dsimp only
  rw [boostFor_missed h0 h, if_pos ⟨h0, rfl, h⟩]
  rfl

/-- BOOST_UPDATE at its moment sets the boost of every master (R375). -/
theorem State.boostUpdate_due {s : State} (h : s.reg.boostAt + Config.us ≤ s.now) :
    s.boostUpdate = s.reg.masters.foldl State.boostMaster { s with reg := { s.reg with boostAt := s.now } } :=
  if_neg (Nat.not_lt.mpr h)

/-! ### The guarantee window -/

theorem State.minimum_contract {s : State} {x : Master} {b : Bandwidth} (hc : s.contract x.handle x.tc x.targetKind = some b) :
    s.minimum x = b.minBw := by
  unfold State.minimum
  rw [hc]

/-- GUARANTEE_WINDOW at its moment ends the window of every master (R384). -/
theorem State.guaranteeWindow_due {s : State} (h : s.reg.windowAt + 10 * Config.us ≤ s.now) :
    s.guaranteeWindow = s.reg.masters.foldl State.windowMaster { s with reg := { s.reg with windowAt := s.now } } :=
  if_neg (Nat.not_lt.mpr h)

/-- A master that waited throughout its window and was served less than its minimum had a shortfall (R384). -/
theorem State.windowMaster_short {s : State} {x : Master} (hm : 0 < s.minimum x) (hw : x.waitedAll = true)
    (hb : x.windowBytes < s.minimum x * 1000) :
    s.windowMaster x = (s.putMaster { x with
      windowBytes := 0, lastBytes := x.windowBytes, waitedAll := s.masterWaits x,
      shortfalls := sat32 x.shortfalls }).masterNotice { x with
        windowBytes := 0, lastBytes := x.windowBytes, waitedAll := s.masterWaits x } 0x0A01 .noFit :=
  if_pos ⟨hm, hw, hb⟩

/-- Any other master only begins its next window (R384). -/
theorem State.windowMaster_served {s : State} {x : Master}
    (h : s.minimum x = 0 ∨ x.waitedAll = false ∨ s.minimum x * 1000 ≤ x.windowBytes) :
    s.windowMaster x = s.putMaster { x with windowBytes := 0, lastBytes := x.windowBytes, waitedAll := s.masterWaits x } := by
  refine if_neg ?_
  rintro ⟨hm, hw, hb⟩
  obtain hmin | hidle | hmet := h
  · exact Nat.ne_of_gt hm hmin
  · exact Bool.eq_false_iff.mp hidle hw
  · exact Nat.not_lt.mpr hmet hb

/-- Settles O31: each timer reaches its moment, and on one master its event does what the case of the master's rule says. -/
theorem regulationTimers : Obligations.RegulationTimers := by
  refine ⟨fun s id level t done x hlive hw hs hl hd => ends_of_eq rfl ?_,
    fun s id level t done x _ hw hs h => ends_of_eq rfl ?_,
    fun s id hs => ends_of_eq rfl (State.ageing_served hs),
    fun s hlive => ends_of_eq rfl ?_, fun s x b hc hb => ?_, fun s x b hc h0 hb hm => ?_, fun s x b t hc h0 hb hm ht => ?_,
    fun s x h0 => ?_, fun s hlive => ends_of_eq rfl ?_, fun s x b hc hmin hw hb => ?_, fun s x h => State.windowMaster_served h⟩
  · rw [State.reachOpt_ageingDue hs, State.ageing_raises (by rw [State.reach_waiting]; exact hw)
      (by rw [State.reach_waitsSince]; exact hs) hl hd (State.reach_le _ hlive)]
  · rw [State.reachOpt_ageingDue hs, State.ageing_raised (by rw [State.reach_waiting]; exact hw)
      (by rw [State.reach_waitsSince]; exact hs) h]
  · rw [State.boostUpdate_due (by rw [State.reach_reg]; exact State.reach_le _ hlive), State.reach_masters]
  · rw [← State.latencyTarget_contract hc] at hb ⊢
    rw [State.boostMaster_meets (.inr hb), boostFor_below hb]
  · rw [← State.latencyTarget_contract hc] at h0 hb
    rw [State.boostMaster_misses h0 hb, hm]
    exact if_neg (Nat.not_le.mpr (Nat.lt_add_of_pos_right (by decide)))
  · rw [← State.latencyTarget_contract hc] at h0 hb
    rw [State.boostMaster_misses h0 hb, hm]
    exact if_pos ht
  · rw [State.boostMaster_meets (.inl h0), h0]
    rfl
  · rw [State.guaranteeWindow_due (by rw [State.reach_reg]; exact State.reach_le _ hlive), State.reach_masters]
  · rw [← State.minimum_contract hc] at hmin hb
    exact State.windowMaster_short hmin hw hb

end Machine
end Sys2Proof
end
